-- ==== Sys2Proof/Word.lean ====
section
/-! DEFINITION. The sizes of data of the BV3072 (spec 00, R2, R3) and their plainest arithmetic. -/

namespace Sys2Proof

/-- A dword (R3): the width of x registers, addresses and status registers. -/
abbrev Word := BitVec 64
/-- A byte (R3). -/
abbrev Byte := BitVec 8
/-- An instruction word (R3, R61). -/
abbrev IWord := BitVec 32

/-- Bits `lo + n - 1` down to `lo` of an instruction word, numbered as in R2. -/
abbrev fld (w : IWord) (lo n : Nat) : BitVec n := w.extractLsb' lo n

end Sys2Proof
end

