-- ==== Sys2Proof/Config.lean ====
section
/-! DEFINITION. What the manual leaves to the implementation, and the free values: constants with no body, so that no
proof can use a value of theirs (assumption log, entries 2, 5 to 9, 12, 17, 24, 29 and 50). -/

namespace Sys2Proof.Config

/-- The PC at which slot 11 of every core starts the runtime (R387 names it and gives no value). UNVERIFIED: free. -/
opaque runtimeEntry : BitVec 62

/-- R128: the value an approximate transcendental delivers, a fixed function of the function number and the input
bits, wherever it lies within the bound of Table 5.10. DESIGN CHOICE: free. -/
opaque ftrApprox : Nat → BitVec 32 → BitVec 32

/-- R109: whether a fetch made before IFLUSH sees the word as the instruction cache holds it, for the n-th such choice.
DESIGN CHOICE: free. -/
opaque staleFetch : Nat → Bool

/-- R164: whether a hashed signature of the given lines reports a line that was never entered. DESIGN CHOICE: free. -/
opaque sigFalseHit : List Nat → Nat → Bool

/-- R158: whether an access that meets a stale first- or second-level translation keeps using it (n-th choice).
DESIGN CHOICE: free. -/
opaque staleTlb : Nat → Bool

/-- Table 19.2: WORD of a record for which no word was fetched, for the n-th such record. DESIGN CHOICE:
free. -/
opaque unfetchedWord : Nat → BitVec 32

/-- R400, Table 7.3: what a read of a type-3 register that the spec does not describe delivers (log entry 50), or a fetch or walk in
another module's memory (log entry 12), for the n-th such read. DESIGN CHOICE: free. -/
opaque mmioRead : Nat → BitVec 128

/-- R213: a byte of a packet as the spill area holds it, for the n-th such byte. DESIGN CHOICE: free. -/
opaque spillByte : Nat → BitVec 8

/-- R405: the digest and signature bytes of an attestation report. DESIGN CHOICE: free. -/
opaque attestByte : Nat → BitVec 8

/-- R59: a value into a narrow format that has no code for it (NaN), where the spec states no result.
DESIGN CHOICE: free. -/
opaque narrowNaN : Nat → BitVec 8

end Sys2Proof.Config
end

