-- ==== Sys2Proof/Machine/Types.lean ====
section
/-! DEFINITION. Data that both the events of the opcode table and the state carry: places of memory, signatures,
channel packets, trap records, location entries. -/

namespace Sys2Proof.Machine

/-- Where an access is performed (R370). `phys` is a byte of the physical space of Table 7.3 with its type bits
(types 0, 1 and 5); `win` a byte of the window of a process; `host` a byte of host memory (type 4: the host address of
Table 7.3, with the serving core that the frame names, R27); `mmio` a byte of a type-3 page of a serving core. -/
inductive Place where
  | phys (a : Nat)
  | win (gid lid off : Nat)
  | host (core a : Nat)
  | mmio (core off : Nat)
  deriving DecidableEq, Repr, Inhabited

/-- The place `n` bytes on. -/
def Place.plus : Place → Nat → Place
  | .phys a, n => .phys (a + n)
  | .win g l o, n => .win g l (o + n)
  | .host c a, n => .host c (a + n)
  | .mmio c o, n => .mmio c (o + n)

/-- The start of the naturally aligned block of `n` bytes that holds the place. -/
def Place.align : Place → Nat → Place
  | .phys a, n => .phys (a - a % n)
  | .win g l o, n => .win g l (o - o % n)
  | .host c a, n => .host c (a - a % n)
  | .mmio c o, n => .mmio c (o - o % n)

/-- A write or read signature (R164): a set of cache-line numbers, or every line (the all-ones signature, R166). -/
structure Sig where
  all : Bool := false
  lines : List Nat := []
  deriving DecidableEq, Repr, Inhabited

/-- A channel packet (R211). `len` and `tag` are meaningful on a FIRST packet, `sig` under RELEASE. `origin` is the core that
sent it, to whose location cache a moved notice goes (R215). -/
structure Packet where
  gid : Nat
  src : Nat
  dst : Nat
  ch : Nat
  seq : Nat
  first : Bool
  last : Bool
  release : Bool
  ackreq : Bool
  close : Bool
  abort : Bool
  tag : Nat
  len : Nat
  payload : List Byte
  sig : Sig
  origin : Nat := 0
  deriving DecidableEq, Repr, Inhabited

/-- A cumulative acknowledgement (R212), for the channel `src -> dst`, number `ch`; `origin` is the core that sent it. -/
structure Ack where
  gid : Nat
  src : Nat
  dst : Nat
  ch : Nat
  seq : Nat
  origin : Nat := 0
  deriving DecidableEq, Repr, Inhabited

/-- A trap record (R378, Table 19.2). -/
structure TrapRec where
  pc : Word
  addr : Word
  code : Nat
  slot : Nat
  src : Nat
  frame : Bool
  pass : Nat
  posn : Nat
  info : BitVec 32
  word : BitVec 32
  cause : Nat
  deriving DecidableEq, Repr, Inhabited

/-- A line of a location cache or a departed table (R333, R334). -/
structure LocEnt where
  gid : Nat
  lid : Nat
  core : Nat
  mc : Nat
  deriving DecidableEq, Repr, Inhabited

/-- A 64-byte mailbox message (R245) as the edge carries it. -/
structure HostMsg where
  gid : Nat
  lid : Nat
  tag : Nat
  len : Nat
  payload : List Byte
  deriving DecidableEq, Repr, Inhabited

/-- Kinds of access that a party makes at a place (R172-R177); `amo` is an atomic, `put` a landing of an engine and `chopen` the
opening of a channel, which cross modules as requests (R40). -/
inductive AccKind where
  | load | store | ldf | ldfc | stf | fesete | fesetf | feget | fifoPop | fifoPush
  | lda | stl | arm | deque | lidget | annget | annset | amo | put | chopen
  deriving DecidableEq, Repr, Inhabited

/-- Who asks for an access across modules: the module, the core, and the slot of the thread; 13 stands for a write-back of the
core's cluster, 14 for a prefetch, 15 for what the engine of an ended process had issued, 16 and up for the engines' accesses by their number. -/
structure LinkTag where
  modid : Nat
  core : Nat
  who : Nat
  deriving DecidableEq, Repr, Inhabited

/-- A request that crosses modules (R40, R247): an access at a place of the module that it reaches, for a thread of process `lid` of
group `gid`. An atomic carries its operation, its order and what it compares with (R190, R191); the arming of a monitor its number in
`mask` and its generation in `val` (R195). -/
structure LinkReq where
  tag : LinkTag
  gid : Nat
  lid : Nat
  kind : AccKind
  place : Place
  size : Nat
  val : Nat := 0
  mask : Nat := 0
  sig : Sig := {}
  op : Nat := 0
  ord : Nat := 0
  cmp : Nat := 0
  deriving DecidableEq, Repr, Inhabited

/-- What a link flit carries (R247, R402): a channel packet, a channel's acknowledgement, a request to another module or the
reply to one with its value, its fault (0 for none) and its signature, the wake of a monitor (R196), or the link's own cumulative acknowledgement of flits; it names
the last flit accepted. -/
inductive LinkItem where
  | packet (p : Packet)
  | ack (a : Ack)
  | request (r : LinkReq)
  | reply (r : LinkReq) (val fault : Nat) (sig : Sig)
  | wake (gid lid slot mon gen : Nat)
  | accepted (seq : Nat)
  deriving DecidableEq, Repr, Inhabited

/-- A breakpoint comparator (R410). -/
inductive Break where
  | off
  | message (lid tag tagMask : Nat)
  | task (pc : Word)
  deriving DecidableEq, Repr, Inhabited

/-- A register that REGISTER_WRITE names (R6): a status register of a thread, an annealer parameter, a BAR2 register, the mask
bit of the MSI-X vector (R401), the failure code of BRINGST, which bring-up leaves when a check or a vault fails (R403), a breakpoint
comparator of a debug module with what it is to match (R410). -/
inductive RegName where
  | status (core slot num : Nat)
  | anneal (die unit num : Nat)
  | bar2 (off : Nat)
  | msixMask
  | failure
  | comparator (cluster n : Nat) (b : Break)
  deriving DecidableEq, Repr, Inhabited

/-- What an ECC event strikes (R163, R315): a 16-byte unit of memory, or of a core an entry of the B latch or an
accumulator. -/
inductive EccAt where
  | unit (p : Place)
  | latch (entry : Nat)
  | acc (word : Nat)
  deriving DecidableEq, Repr, Inhabited

end Sys2Proof.Machine
end

