-- ==== Sys2Proof/Syntax.lean ====
section
/-! DEFINITION. The syntax of the Linyen instruction set (spec 02, R61-R66, Tables 2.10-2.14): one constructor for each
row of the opcode table. The first 92 are the machine's own steps (spec 95), which no word encodes and which the step
performs from the agenda of the state. The other 273 are instruction words, each with its guard predicate `q` first and
then the operand fields of its format; those that may stand in a repeat frame (R103) come first. The order of the
constructors means nothing; it keeps the steps and the words of a frame among those that Lean's runtime can build
(log entry 10). -/

namespace Sys2Proof

open Machine

/-- An instruction word's content, or a step of the machine's engines and surroundings. -/
inductive Instr where
  /-- THREAD_RESUME, R22. A parked thread resumes at its next own turn after its condition clears. -/
  | threadResume (core slot : Nat)
  /-- NONLOCAL_REPLY, R154. The reply or acknowledgement of a non-local access reaches the issuing core. -/
  | nonlocalReply (core slot val fault : Nat) (sig : Sig)
  /-- STORE_QUEUE_SEND, R152. The store queue sends its next store after the previous is acknowledged. -/
  | storeQueueSend (core slot : Nat)
  /-- REMOTE_ACCESS_AT_HOME, R370. A request reaches its home and is performed there. -/
  | remoteAccessAtHome (core slot : Nat)
  /-- RELEASE_AT_HOME, R166. A release store reaches its home and ORs its signature into a slot. -/
  | releaseAtHome (core slot : Nat)
  /-- PAGE_WALK, R156. A TLB miss walks the page tables level by level. -/
  | pageWalk (core slot : Nat)
  /-- CAPACITY_EVICTION, R373. A cluster writes back and drops a line on its own. -/
  | capacityEviction (cluster line : Nat)
  /-- ECC_SOFT_ERROR, R163. A soft error is corrected by ECC and counted. -/
  | eccSoftError (core : Nat) (at_ : EccAt) (corrected : Bool)
  /-- FIFO_PORT_SERVE, R160. A parked FIFO-bank push or pop is served once room or data is present. -/
  | fifoPortServe (cluster bank : Nat)
  /-- BANK_MODE_SWITCH, R161. A bank mode change takes effect after in-progress accesses finish. -/
  | bankModeSwitch (cluster bank : Nat)
  /-- ATOMIC_REQUEST_AT_HOME, R182. An atomic request reaches the unit's home and is served or queued. -/
  | atomicRequestAtHome (core slot : Nat)
  /-- ATOMIC_UNIT_ARRIVAL, R182. A shipped reservation unit reaches its holder, which performs the operation and ships it on. -/
  | atomicUnitArrival (core slot : Nat)
  /-- FORWARD_NOTICE, R182. A forward notice naming the next requester reaches the unit's holder. -/
  | forwardNotice (unit : Place) (holderCore holderSlot core slot : Nat)
  /-- ATOMIC_UNIT_RETURN, R183. A unit returns home, waiting plain accesses are performed, and the queue head is served. -/
  | atomicUnitReturn (unit : Place)
  /-- MONITOR_ARM_AT_HOME, R195. An arm request installs a watch entry and reads the dword at the home. -/
  | monitorArmAtHome (core slot : Nat)
  /-- MONITOR_CANCEL_AT_HOME, R198. A monitor cancel reaches the home and removes the watch entry. -/
  | monitorCancelAtHome (gid lid slot mon gen : Nat)
  /-- MONITOR_WAKE, R196. A wake reaches the thread's core and sets the triggered bit if its generation matches. -/
  | monitorWake (gid lid slot mon gen : Nat)
  /-- WAITM_TIMEOUT, R197. A WAITM timeout elapses. -/
  | waitmTimeout (gid lid slot : Nat)
  /-- BARRIER_ARRIVAL, R204. A BARARR or BARSYNC arrival is performed once the thread's accesses are acknowledged. -/
  | barrierArrival (core slot : Nat)
  /-- DEFERRED_ARRIVAL, R206. The hardware performs a deferred arrival once stores and copies have landed. -/
  | deferredArrival (gid lid slot : Nat)
  /-- CHOPEN_REQUEST, R218. A CHOPEN request at the destination allocates an inbound entry and replies. -/
  | chopenRequest (core slot : Nat)
  /-- PACKET_INJECT, R225. A packet's injection interval ends and the next packet begins. -/
  | packetInject (gid lid handle : Nat)
  /-- CHANNEL_PACKET_ARRIVAL, R213. A channel packet reaches a core and is delivered, held or forwarded. -/
  | channelPacketArrival (core : Nat) (pkt : Packet)
  /-- MESSAGE_LANDED, R229. The last packet of a matched message has landed; status granule and counter are written. -/
  | messageLanded (gid lid record : Nat)
  /-- ACK_TIMER, R212. 256 cycles pass with unacknowledged deliveries, and a cumulative acknowledgement is sent. -/
  | ackTimer (gid lid src ch : Nat)
  /-- ACK_ARRIVAL, R212. A cumulative acknowledgement reaches the sender and frees window space. -/
  | ackArrival (core : Nat) (ack : Ack)
  /-- MOVED_NOTICE_ARRIVAL, R333. A moved notice updates a location cache if its move count is newer. -/
  | movedNoticeArrival (core : Nat) (ent : LocEnt)
  /-- LOCATION_LOOKUP_REPLY, R333. A placement-entry read after a location-cache miss returns and the packet leaves. -/
  | locationLookupReply (core gid lid : Nat)
  /-- MULTICAST_REPLICATE, R244. A switch replicates a launch multicast packet to a branch with egress space. -/
  | multicastReplicate (gid lid : Nat)
  /-- COPY_REQUEST_START, R276. A copy request at the FIFO head starts and reads its block or record. -/
  | copyRequestStart (gid lid : Nat)
  /-- ENGINE_ACCESS_REPLY, R280. Data for an engine read arrives and is written to the destination. -/
  | engineAccessReply (gid lid id : Nat)
  /-- ENGINE_ACCESS_ACK, R288. An engine write is acknowledged, counters add, and the request may complete and retire. -/
  | engineAccessAck (gid lid id bytes : Nat)
  /-- PUT_COUNTER_ADD, R286. The remote counter word's home adds a PUT chunk's byte count. -/
  | putCounterAdd (gid lid id bytes : Nat)
  /-- MATRIX_OP_START, R311. A queued matrix op starts in the engine and reads its tile. -/
  | matrixOpStart (gid lid : Nat)
  /-- MATRIX_OP_COMPLETE, R311. A matrix op writes its results and flags. -/
  | matrixOpComplete (gid lid : Nat)
  /-- LATCH_ENTRY_APPEND, R317. A B latch entry is appended when its data has fully arrived. -/
  | latchEntryAppend (gid lid entry : Nat)
  /-- ENGINE_COLD, R312. 256 idle cycles with a zero burst counter make the engine cold. -/
  | engineCold (gid lid : Nat)
  /-- READY_QUEUE_ENTER, R258. Triggered table entries enter the ready queue in the following cycle. -/
  | readyQueueEnter (gid lid : Nat)
  /-- TASK_DISPATCH, R259. A ready-queue entry is selected and bound to the lowest free slot. -/
  | taskDispatch (gid lid : Nat)
  /-- PROCESS_END, R252. A process ends when its control thread has ended, no helper lives and the queue is empty. -/
  | processEnd (gid lid : Nat)
  /-- PROPOSAL_TIMER, R339. PINT cycles pass and the unit makes a proposal. -/
  | proposalTimer (die unit : Nat)
  /-- PROPOSAL, R340. The unit draws, evaluates and accepts or refuses one swap proposal. -/
  | proposal (die unit : Nat)
  /-- FOLD_END, R337. A fold ends and every weight is updated at once. -/
  | foldEnd (die unit : Nat)
  /-- SWAP_PROPOSAL_ARRIVAL, R345. A swap or migration request reaches a core, which holds its process. -/
  | swapProposalArrival (move core : Nat)
  /-- SWAP_TRANSFER, R346. Both swap points reached, the state moves between cores. -/
  | swapTransfer (move : Nat)
  /-- SWAP_RESUME, R346. The transfer ends, placement is written, held traffic is forwarded and the processes resume. -/
  | swapResume (move : Nat)
  /-- SWAP_TIMEOUT, R348. SWTO expires before both swap points and the swap aborts. -/
  | swapTimeout (move core : Nat)
  /-- SENSOR_UPDATE, R408. A core's TEMP is updated and compared with TRIP. -/
  | sensorUpdate (core : Nat) (temp : Word)
  /-- SLOT_WITHHOLD_STEP, R353. Every 4,096 cycles another helper slot is withheld or returned. -/
  | slotWithholdStep (core : Nat)
  /-- THERMAL_RETRY_TIMER, R353. 65,536 cycles after a failed request, it is raised again. -/
  | thermalRetryTimer (gid lid : Nat)
  /-- MIGRATION_REQUEST_SERVICE, R361. The service core handles a MIGREQ and replies with a status. -/
  | migrationRequestService (core slot : Nat)
  /-- TRAP_RECORD_ENQUEUE, R379. A trap record enters the core's trap queue. -/
  | trapRecordEnqueue (core : Nat) (rcd : TrapRec)
  /-- TRGET_TIMEOUT, R383. A TRGET wait expires with no record. -/
  | trgetTimeout (core : Nat)
  /-- CORE_REPAIR, R387. The service core restarts slot 11 or moves the process off a halted core. -/
  | coreRepair (core target : Nat) (restart : Bool)
  /-- PREEMPT, R390. The service core marks, holds and drains a group for parking. -/
  | preempt (gid inbox entries timeout core : Nat)
  /-- PREEMPT_HOLD_TIMEOUT, R390. A process fails to reach its swap point within ARG2 and the pre-emption is undone. -/
  | preemptHoldTimeout (gid : Nat)
  /-- PREEMPT_DRAINED, R390. Sent and arrived counts balance and PREEMPT replies with SRC 4 records. -/
  | preemptDrained (gid : Nat)
  /-- SAVED, R391. A core reports a lid saved; the group parks when all are saved. -/
  | saved (gid lid : Nat)
  /-- LOADED, R392. A core reports a lid loaded. -/
  | loaded (gid lid : Nat)
  /-- GROUP_RESUME, R392. With every lid loaded, units are assigned, inbox messages delivered and holds released. -/
  | groupResume (gid : Nat)
  /-- TRIP_WRITE, R88. A write to TRIP clamps the value and compares TEMP with it. -/
  | tripWrite (core : Nat) (val : Word)
  /-- UQCFG_WRITE, R231. A write to UQCFG places the ring and retries blocked delivery. -/
  | uqcfgWrite (core : Nat) (val : Word)
  /-- INTPOST_WRITE, R385. A write to INTPOST posts interrupts to slots. -/
  | intpostWrite (core : Nat) (val : Word)
  /-- TXVAL_WRITE, R385. A write to TXVAL changes a register of a trapped thread. -/
  | txvalWrite (core : Nat) (val : Word)
  /-- RHSEL_CLR, R411. Writing CLR clears all ready-count histogram buckets. -/
  | rhselClr (core : Nat)
  /-- PROPOSE, R365. An accepted PROPOSE parameter write puts a proposal in flight. -/
  | propose (die unit : Nat)
  /-- FOLD, R337. A FOLD parameter write starts a fold. -/
  | fold (die unit : Nat)
  /-- TPOS_WRITE, R363. A write to TPOS sets the next draw entry and clears TEND. -/
  | tposWrite (die unit : Nat) (val : Word)
  /-- WEIGHT_WRITE, R363. A write to WEIGHT sets one weight and updates ENERGY. -/
  | weightWrite (die unit i j : Nat) (val : Word)
  /-- REGISTER_WRITE, R6. A write to a register with no row of its own stores its fields. -/
  | registerWrite (reg : RegName) (val : Word)
  /-- MAILBOX_WRITE, R245. A host write covering a mailbox header sends or holds the message. -/
  | mailboxWrite (off : Nat) (bytes : List Byte)
  /-- MAILBOX_TAKE, R404. The edge takes a held mailbox message once room frees and clears MBBUSY. -/
  | mailboxTake
  /-- EDGE_QUEUE_SEND, R245. The edge sends a queued message once its HOST channel window has room. -/
  | edgeQueueSend
  /-- HOST_RING_WRITE, R401. The host gateway writes a complete message to the host ring and advances HRTAIL. -/
  | hostRingWrite (gid lid ch : Nat)
  /-- HRHEAD_WRITE, R401. A host write to HRHEAD frees ring space and clears the notify latch. -/
  | hrheadWrite (val : Word)
  /-- HRBASE_WRITE, R399. A host write to HRBASE, if taken, resets the ring offsets. -/
  | hrbaseWrite (val : Word)
  /-- HRSIZE_WRITE, R399. A host write to HRSIZE, if taken, resets the ring offsets. -/
  | hrsizeWrite (val : Word)
  /-- SLOTCAP_WRITE, R407. A host write to SLOTCAP withholds or returns helper slots. -/
  | slotcapWrite (val : Word)
  /-- ATTCTL_WRITE, R405. Writing ATTCTL bit 0 requests an attestation report. -/
  | attctlWrite (val : Word)
  /-- ATTESTATION_REPORT, R405. Service core 0 writes the report and clears the request bit. -/
  | attestationReport
  /-- LINK_FLIT_RECEIVE, R402. A link flit arrives and is checked, accepted or discarded. -/
  | linkFlitReceive (port seq : Nat) (crcOk : Bool) (item : LinkItem)
  /-- LINK_RESEND_TIMEOUT, R402. An unacknowledged flit is resent with those after it. -/
  | linkResendTimeout (port : Nat)
  /-- RESET, R403. Reset enters phase 0 with service cores running boot ROM. -/
  | reset
  /-- FIRMWARE_VERIFIED, R403. Every firmware image verified, the module enters phase 1. -/
  | firmwareVerified
  /-- VAULT_TRAINED, R403. Every vault trained, the module enters phase 2. -/
  | vaultTrained
  /-- DROOP_DETECT, R406. A supply droop stretches the next cycle and starts a droop hold. -/
  | droopDetect (cluster : Nat)
  /-- DROOP_HOLD_END, R406. DROOPHOLD cycles pass and the hold ends. -/
  | droopHoldEnd (cluster : Nat)
  /-- DEBUG_HALT, R409. A cross-trigger or breakpoint stops issue in a cluster. -/
  | debugHalt (cluster : Nat)
  /-- DEBUG_RESUME, R409. A debug-halted cluster restarts all four cores in one cycle. -/
  | debugResume (cluster : Nat)
  /-- UNDEFINED_WORD, R66. A thread's turn issues a word that is not defined, and the word traps ILLEGAL whatever its guard holds. -/
  | undefinedWord (word : IWord)
  /-- INSTRUCTION_FETCH_FAULT, R101. A thread's turn finds the word at its PC unmapped, not executable or outside global space, and takes PAGE or PROTECT precisely there. -/
  | instructionFetchFault (code : Nat) (addr : Word)
  /-- MSI_X_VECTOR_UNMASK, R401. The host unmasks the MSI-X vector, and a signal that is pending on it is sent. -/
  | msiXVectorUnmask
  /-- ADD, R75. Adds two x registers modulo 2^64. -/
  | add (q : BitVec 3) (d a b : BitVec 5)
  /-- SUB, R75. Subtracts X[b] from X[a] modulo 2^64. -/
  | sub (q : BitVec 3) (d a b : BitVec 5)
  /-- AND, R75. Bitwise AND of two x registers. -/
  | and (q : BitVec 3) (d a b : BitVec 5)
  /-- OR, R75. Bitwise OR of two x registers. -/
  | or (q : BitVec 3) (d a b : BitVec 5)
  /-- XOR, R75. Bitwise XOR of two x registers. -/
  | xor (q : BitVec 3) (d a b : BitVec 5)
  /-- ANDN, R75. X[a] AND NOT X[b]. -/
  | andn (q : BitVec 3) (d a b : BitVec 5)
  /-- SLL, R75. Shifts X[a] left by X[b][5:0]. -/
  | sll (q : BitVec 3) (d a b : BitVec 5)
  /-- SRL, R75. Logical right shift by X[b][5:0]. -/
  | srl (q : BitVec 3) (d a b : BitVec 5)
  /-- SRA, R75. Arithmetic right shift by X[b][5:0]. -/
  | sra (q : BitVec 3) (d a b : BitVec 5)
  /-- ROTR, R75. Rotates X[a] right by X[b][5:0]. -/
  | rotr (q : BitVec 3) (d a b : BitVec 5)
  /-- ADDW, R75. 32-bit add, result sign-extended. -/
  | addw (q : BitVec 3) (d a b : BitVec 5)
  /-- SUBW, R75. 32-bit subtract, result sign-extended. -/
  | subw (q : BitVec 3) (d a b : BitVec 5)
  /-- SLLW, R75. 32-bit left shift, sign-extended. -/
  | sllw (q : BitVec 3) (d a b : BitVec 5)
  /-- SRLW, R75. 32-bit logical right shift, sign-extended. -/
  | srlw (q : BitVec 3) (d a b : BitVec 5)
  /-- SRAW, R75. 32-bit arithmetic right shift, sign-extended. -/
  | sraw (q : BitVec 3) (d a b : BitVec 5)
  /-- MIN, R75. Signed minimum of two x registers. -/
  | min (q : BitVec 3) (d a b : BitVec 5)
  /-- MAX, R75. Signed maximum of two x registers. -/
  | max (q : BitVec 3) (d a b : BitVec 5)
  /-- MINU, R75. Unsigned minimum of two x registers. -/
  | minu (q : BitVec 3) (d a b : BitVec 5)
  /-- MAXU, R75. Unsigned maximum of two x registers. -/
  | maxu (q : BitVec 3) (d a b : BitVec 5)
  /-- LEA1, R75. X[a] + (X[b] << 1). -/
  | lea1 (q : BitVec 3) (d a b : BitVec 5)
  /-- LEA2, R75. X[a] + (X[b] << 2). -/
  | lea2 (q : BitVec 3) (d a b : BitVec 5)
  /-- LEA3, R75. X[a] + (X[b] << 3). -/
  | lea3 (q : BitVec 3) (d a b : BitVec 5)
  /-- MUL, R77. Low 64 bits of the product. -/
  | mul (q : BitVec 3) (d a b : BitVec 5)
  /-- MULH, R77. High 64 bits of the signed product. -/
  | mulh (q : BitVec 3) (d a b : BitVec 5)
  /-- MULHU, R77. High 64 bits of the unsigned product. -/
  | mulhu (q : BitVec 3) (d a b : BitVec 5)
  /-- MULW, R77. 32-bit product, sign-extended. -/
  | mulw (q : BitVec 3) (d a b : BitVec 5)
  /-- DIV, R78. Signed quotient, never trapping. -/
  | div (q : BitVec 3) (d a b : BitVec 5)
  /-- DIVU, R78. Unsigned quotient, never trapping. -/
  | divu (q : BitVec 3) (d a b : BitVec 5)
  /-- REM, R78. Signed remainder. -/
  | rem (q : BitVec 3) (d a b : BitVec 5)
  /-- REMU, R78. Unsigned remainder. -/
  | remu (q : BitVec 3) (d a b : BitVec 5)
  /-- DIVW, R78. Signed 32-bit quotient, sign-extended. -/
  | divw (q : BitVec 3) (d a b : BitVec 5)
  /-- DIVUW, R78. Unsigned 32-bit quotient, sign-extended. -/
  | divuw (q : BitVec 3) (d a b : BitVec 5)
  /-- REMW, R78. Signed 32-bit remainder, sign-extended. -/
  | remw (q : BitVec 3) (d a b : BitVec 5)
  /-- REMUW, R78. Unsigned 32-bit remainder, sign-extended. -/
  | remuw (q : BitVec 3) (d a b : BitVec 5)
  /-- CLZ, R79. Counts leading zero bits. -/
  | clz (q : BitVec 3) (d a : BitVec 5)
  /-- CTZ, R79. Counts trailing zero bits. -/
  | ctz (q : BitVec 3) (d a : BitVec 5)
  /-- POPC, R79. Counts one bits. -/
  | popc (q : BitVec 3) (d a : BitVec 5)
  /-- BREV, R79. Reverses the bit order. -/
  | brev (q : BitVec 3) (d a : BitVec 5)
  /-- BSWAP, R79. Reverses the byte order. -/
  | bswap (q : BitVec 3) (d a : BitVec 5)
  /-- SEXTB, R79. Sign-extends the low byte. -/
  | sextb (q : BitVec 3) (d a : BitVec 5)
  /-- SEXTH, R79. Sign-extends the low half. -/
  | sexth (q : BitVec 3) (d a : BitVec 5)
  /-- SEXTW, R79. Sign-extends the low word. -/
  | sextw (q : BitVec 3) (d a : BitVec 5)
  /-- ZEXTB, R79. Zero-extends the low byte. -/
  | zextb (q : BitVec 3) (d a : BitVec 5)
  /-- ZEXTH, R79. Zero-extends the low half. -/
  | zexth (q : BitVec 3) (d a : BitVec 5)
  /-- ZEXTW, R79. Zero-extends the low word. -/
  | zextw (q : BitVec 3) (d a : BitVec 5)
  /-- EXTS, R81. Extracts a signed bitfield positioned by X[b]. -/
  | exts (q : BitVec 3) (d a b : BitVec 5)
  /-- EXTU, R81. Extracts an unsigned bitfield positioned by X[b]. -/
  | extu (q : BitVec 3) (d a b : BitVec 5)
  /-- INSB, R81. Inserts the low bits of X[a] into a field of X[d]. -/
  | insb (q : BitVec 3) (d a b : BitVec 5)
  /-- SEL, R82. Guard-exempt select of X[a] or X[b] by the guard predicate. -/
  | sel (q : BitVec 3) (d a b : BitVec 5)
  /-- PAND, R82. ANDs two predicates. -/
  | pand (q d a b : BitVec 3)
  /-- POR, R82. ORs two predicates. -/
  | por (q d a b : BitVec 3)
  /-- PXOR, R82. XORs two predicates. -/
  | pxor (q d a b : BitVec 3)
  /-- PANDN, R82. P[a] AND NOT P[b]. -/
  | pandn (q d a b : BitVec 3)
  /-- PMOVX, R82. Packs the eight predicates into an x register. -/
  | pmovx (q : BitVec 3) (d : BitVec 5)
  /-- XMOVP, R82. Loads predicates p1-p7 from bits of an x register. -/
  | xmovp (q : BitVec 3) (a : BitVec 5)
  /-- ADDI, R83. Adds a sign-extended 13-bit immediate. -/
  | addi (q : BitVec 3) (d a : BitVec 5) (imm : BitVec 13)
  /-- ANDI, R83. ANDs a sign-extended 13-bit immediate. -/
  | andi (q : BitVec 3) (d a : BitVec 5) (imm : BitVec 13)
  /-- ORI, R83. ORs a sign-extended 13-bit immediate. -/
  | ori (q : BitVec 3) (d a : BitVec 5) (imm : BitVec 13)
  /-- XORI, R83. XORs a sign-extended 13-bit immediate. -/
  | xori (q : BitVec 3) (d a : BitVec 5) (imm : BitVec 13)
  /-- SLLI, R84. Shifts left by an immediate amount. -/
  | slli (q : BitVec 3) (d a : BitVec 5) (sh : BitVec 6)
  /-- SRLI, R84. Logical right shift by an immediate. -/
  | srli (q : BitVec 3) (d a : BitVec 5) (sh : BitVec 6)
  /-- SRAI, R84. Arithmetic right shift by an immediate. -/
  | srai (q : BitVec 3) (d a : BitVec 5) (sh : BitVec 6)
  /-- ROTRI, R84. Rotates right by an immediate. -/
  | rotri (q : BitVec 3) (d a : BitVec 5) (sh : BitVec 6)
  /-- SLLIW, R84. 32-bit left shift by an immediate, sign-extended. -/
  | slliw (q : BitVec 3) (d a sh : BitVec 5)
  /-- SRLIW, R84. 32-bit logical right shift by an immediate. -/
  | srliw (q : BitVec 3) (d a sh : BitVec 5)
  /-- SRAIW, R84. 32-bit arithmetic right shift by an immediate. -/
  | sraiw (q : BitVec 3) (d a sh : BitVec 5)
  /-- MOVI, R85. Loads a sign-extended 18-bit immediate. -/
  | movi (q : BitVec 3) (d : BitVec 5) (imm : BitVec 18)
  /-- MOVK, R85. Replaces one halfword of X[d] with an immediate. -/
  | movk (q : BitVec 3) (d : BitVec 5) (hw : BitVec 2) (imm : BitVec 16)
  /-- FADD, R122. Floating-point add in the FPCTL mode. -/
  | fadd (q : BitVec 3) (fmt : BitVec 2) (d a b : BitVec 5)
  /-- FSUB, R122. Floating-point subtract. -/
  | fsub (q : BitVec 3) (fmt : BitVec 2) (d a b : BitVec 5)
  /-- FMUL, R122. Floating-point multiply. -/
  | fmul (q : BitVec 3) (fmt : BitVec 2) (d a b : BitVec 5)
  /-- FDIV, R122. Floating-point divide. -/
  | fdiv (q : BitVec 3) (fmt : BitVec 2) (d a b : BitVec 5)
  /-- FSQRT, R122. Floating-point square root. -/
  | fsqrt (q : BitVec 3) (fmt : BitVec 2) (d a : BitVec 5)
  /-- FMIN, R122. Floating-point minimum, NaN-propagating. -/
  | fmin (q : BitVec 3) (fmt : BitVec 2) (d a b : BitVec 5)
  /-- FMAX, R122. Floating-point maximum, NaN-propagating. -/
  | fmax (q : BitVec 3) (fmt : BitVec 2) (d a b : BitVec 5)
  /-- FMINN, R122. Floating-point minimum ignoring a single NaN. -/
  | fminn (q : BitVec 3) (fmt : BitVec 2) (d a b : BitVec 5)
  /-- FMAXN, R122. Floating-point maximum ignoring a single NaN. -/
  | fmaxn (q : BitVec 3) (fmt : BitVec 2) (d a b : BitVec 5)
  /-- FABS, R122. Clears the sign bit. -/
  | fabs (q : BitVec 3) (fmt : BitVec 2) (d a : BitVec 5)
  /-- FNEG, R122. Inverts the sign bit. -/
  | fneg (q : BitVec 3) (fmt : BitVec 2) (d a : BitVec 5)
  /-- FCPYS, R122. Copies the sign of b onto a. -/
  | fcpys (q : BitVec 3) (fmt : BitVec 2) (d a b : BitVec 5)
  /-- FCLASS, R122. Writes the class mask of an FP value to an x register. -/
  | fclass (q : BitVec 3) (fmt : BitVec 2) (d a : BitVec 5)
  /-- FMVXF, R122. Moves bits from an x register to an f register. -/
  | fmvxf (q : BitVec 3) (fmt : BitVec 2) (d a : BitVec 5)
  /-- FMVFX, R122. Moves bits from an f register to an x register. -/
  | fmvfx (q : BitVec 3) (fmt : BitVec 2) (d a : BitVec 5)
  /-- FMA, R123. Fused multiply-add with one rounding. -/
  | fma (q : BitVec 3) (fmt : BitVec 2) (rnd : BitVec 3) (d a b : BitVec 5)
  /-- FMS, R123. Fused multiply-subtract. -/
  | fms (q : BitVec 3) (fmt : BitVec 2) (rnd : BitVec 3) (d a b : BitVec 5)
  /-- FNMA, R123. Negated-product fused add. -/
  | fnma (q : BitVec 3) (fmt : BitVec 2) (rnd : BitVec 3) (d a b : BitVec 5)
  /-- FNMS, R123. Negated-product fused subtract. -/
  | fnms (q : BitVec 3) (fmt : BitVec 2) (rnd : BitVec 3) (d a b : BitVec 5)
  /-- FCMPD, R124. Compares FP64 values into predicates. -/
  | fcmpd (q pd1 pd2 ty cnd : BitVec 3) (a b : BitVec 5)
  /-- FCMPS, R124. Compares FP32 values into predicates. -/
  | fcmps (q pd1 pd2 ty cnd : BitVec 3) (a b : BitVec 5)
  /-- FCVT, R126. Converts between FP formats and integers. -/
  | fcvt (q dst src rnd : BitVec 3) (d a : BitVec 5)
  /-- FEXP2, R128. FP32 2^x, approximate or correctly rounded. -/
  | fexp2 (q : BitVec 3) (c : BitVec 1) (d a : BitVec 5)
  /-- FLOG2, R128. FP32 log2 x. -/
  | flog2 (q : BitVec 3) (c : BitVec 1) (d a : BitVec 5)
  /-- FSINP, R128. FP32 sin(pi x). -/
  | fsinp (q : BitVec 3) (c : BitVec 1) (d a : BitVec 5)
  /-- FCOSP, R128. FP32 cos(pi x). -/
  | fcosp (q : BitVec 3) (c : BitVec 1) (d a : BitVec 5)
  /-- FRSQ, R128. FP32 reciprocal square root. -/
  | frsq (q : BitVec 3) (c : BitVec 1) (d a : BitVec 5)
  /-- FRCP, R128. FP32 reciprocal. -/
  | frcp (q : BitVec 3) (c : BitVec 1) (d a : BitVec 5)
  /-- FTANH, R128. FP32 hyperbolic tangent. -/
  | ftanh (q : BitVec 3) (c : BitVec 1) (d a : BitVec 5)
  /-- XCLR, R132. Clears an XACC pair. -/
  | xclr (q d : BitVec 3)
  /-- XADDV, R132. Adds every element of a vector exactly into an XACC. -/
  | xaddv (q d : BitVec 3) (a : BitVec 4) (b : BitVec 3)
  /-- XADDS, R132. Adds a scalar exactly into an XACC. -/
  | xadds (q d : BitVec 3) (a : BitVec 5) (b : BitVec 3)
  /-- XADDX, R132. Adds one XACC into another. -/
  | xaddx (q d a : BitVec 3)
  /-- XRND, R132. Rounds an XACC to an FP format. -/
  | xrnd (q : BitVec 3) (d : BitVec 5) (a b : BitVec 3)
  /-- XNEG, R132. Negates an XACC. -/
  | xneg (q d a : BitVec 3)
  /-- VADD, R139. Lane-wise add. -/
  | vadd (q t : BitVec 3) (d a b : BitVec 4) (k : BitVec 3)
  /-- VSUB, R139. Lane-wise subtract. -/
  | vsub (q t : BitVec 3) (d a b : BitVec 4) (k : BitVec 3)
  /-- VMUL, R139. Lane-wise multiply. -/
  | vmul (q t : BitVec 3) (d a b : BitVec 4) (k : BitVec 3)
  /-- VFMA, R139. Lane-wise fused multiply-add. -/
  | vfma (q t : BitVec 3) (d a b : BitVec 4) (k : BitVec 3)
  /-- VDIV, R139. Lane-wise divide. -/
  | vdiv (q t : BitVec 3) (d a b : BitVec 4) (k : BitVec 3)
  /-- VSQRT, R139. Lane-wise square root. -/
  | vsqrt (q t : BitVec 3) (d a : BitVec 4) (k : BitVec 3)
  /-- VMIN, R139. Lane-wise signed or FP minimum. -/
  | vmin (q t : BitVec 3) (d a b : BitVec 4) (k : BitVec 3)
  /-- VMAX, R139. Lane-wise signed or FP maximum. -/
  | vmax (q t : BitVec 3) (d a b : BitVec 4) (k : BitVec 3)
  /-- VMINU, R139. Lane-wise unsigned minimum. -/
  | vminu (q t : BitVec 3) (d a b : BitVec 4) (k : BitVec 3)
  /-- VMAXU, R139. Lane-wise unsigned maximum. -/
  | vmaxu (q t : BitVec 3) (d a b : BitVec 4) (k : BitVec 3)
  /-- VABS, R139. Lane-wise absolute value. -/
  | vabs (q t : BitVec 3) (d a : BitVec 4) (k : BitVec 3)
  /-- VNEG, R139. Lane-wise negation. -/
  | vneg (q t : BitVec 3) (d a : BitVec 4) (k : BitVec 3)
  /-- VAND, R139. Lane-wise AND. -/
  | vand (q t : BitVec 3) (d a b : BitVec 4) (k : BitVec 3)
  /-- VOR, R139. Lane-wise OR. -/
  | vor (q t : BitVec 3) (d a b : BitVec 4) (k : BitVec 3)
  /-- VXOR, R139. Lane-wise XOR. -/
  | vxor (q t : BitVec 3) (d a b : BitVec 4) (k : BitVec 3)
  /-- VSHL, R139. Lane-wise left shift. -/
  | vshl (q t : BitVec 3) (d a b : BitVec 4) (k : BitVec 3)
  /-- VSHRA, R139. Lane-wise arithmetic right shift. -/
  | vshra (q t : BitVec 3) (d a b : BitVec 4) (k : BitVec 3)
  /-- VSHRL, R139. Lane-wise logical right shift. -/
  | vshrl (q t : BitVec 3) (d a b : BitVec 4) (k : BitVec 3)
  /-- VSEL, R139. Selects lanes of va or vb by a mask. -/
  | vsel (q t : BitVec 3) (d a b : BitVec 4) (k : BitVec 3)
  /-- VMOV, R139. Lane-wise copy under a mask. -/
  | vmov (q t : BitVec 3) (d a : BitVec 4) (k : BitVec 3)
  /-- VBCAST, R143. Broadcasts a scalar into the active lanes. -/
  | vbcast (q t : BitVec 3) (d : BitVec 4) (a : BitVec 5) (k : BitVec 3)
  /-- VEXT, R143. Extracts one lane into a scalar register. -/
  | vext (q t : BitVec 3) (zx : BitVec 1) (d : BitVec 5) (a : BitVec 4) (b : BitVec 5)
  /-- VINS, R143. Inserts a scalar into one lane. -/
  | vins (q t : BitVec 3) (d : BitVec 4) (a b : BitVec 5)
  /-- VPERM, R143. Permutes lanes by an index vector. -/
  | vperm (q t : BitVec 3) (d a b : BitVec 4)
  /-- VREDS, R145. Sums the active lanes by a fixed tree. -/
  | vreds (q t : BitVec 3) (d : BitVec 5) (a : BitVec 4) (k : BitVec 3)
  /-- VREDN, R145. Minimum or maximum of the active lanes. -/
  | vredn (q t : BitVec 3) (var : BitVec 2) (d : BitVec 5) (a : BitVec 4) (k : BitVec 3)
  /-- VREDX, R145. Adds the active lanes exactly into an XACC. -/
  | vredx (q t d : BitVec 3) (a : BitVec 4) (k : BitVec 3)
  /-- VCVT, R146. Converts lanes between lane types. -/
  | vcvt (q dst : BitVec 3) (part : BitVec 2) (src : BitVec 3) (d a : BitVec 4)
  /-- VCMP, R140. Compares lanes into a mask register. -/
  | vcmp (q kd : BitVec 3) (a b : BitVec 4) (t cnd kg : BitVec 3)
  /-- KAND, R141. ANDs two masks. -/
  | kand (q d a b : BitVec 3)
  /-- KOR, R141. ORs two masks. -/
  | kor (q d a b : BitVec 3)
  /-- KXOR, R141. XORs two masks. -/
  | kxor (q d a b : BitVec 3)
  /-- KNOT, R141. Inverts a mask. -/
  | knot (q d a : BitVec 3)
  /-- KSET, R141. Sets a mask from an x register. -/
  | kset (q d : BitVec 3) (a : BitVec 5)
  /-- KGET, R141. Reads a mask into an x register. -/
  | kget (q : BitVec 3) (d : BitVec 5) (a : BitVec 3)
  /-- KPOP, R141. Counts the set bits of a mask. -/
  | kpop (q : BitVec 3) (d : BitVec 5) (a : BitVec 3)
  /-- KTEST, R141. Sets two predicates from whether a mask is zero. -/
  | ktest (q d a b : BitVec 3)
  /-- VQNT, R148. Quantizes 32 FP32 values into narrow codes and a scale. -/
  | vqnt (q : BitVec 3) (d : BitVec 4) (g : BitVec 2) (fm : BitVec 3) (b : BitVec 5)
  /-- VDQNT, R149. Dequantizes narrow codes into 32 FP32 values. -/
  | vdqnt (q : BitVec 3) (g : BitVec 2) (fm : BitVec 3) (a : BitVec 4) (b : BitVec 5)
  /-- MMA, R314. Multiplies an A tile by the front B latch entry into an accumulator. -/
  | mma (q : BitVec 3) (acc : BitVec 2) (a m : BitVec 5) (fA fB s : BitVec 3)
  /-- MMAZ, R314. As MMA but without the old accumulator value. -/
  | mmaz (q : BitVec 3) (acc : BitVec 2) (a m : BitVec 5) (fA fB s : BitVec 3)
  /-- CMP, R94. Compares two x registers and writes two predicates by combine type. -/
  | cmp (q pd1 pd2 ty cnd : BitVec 3) (a b : BitVec 5)
  /-- CMPI, R94. Compares an x register with a 6-bit immediate into predicates. -/
  | cmpi (q pd1 pd2 ty cnd : BitVec 3) (a : BitVec 5) (imm : BitVec 6)
  /-- GETS, R87. Reads a status register into an x register. -/
  | gets (q : BitVec 3) (d : BitVec 5) (num : BitVec 12)
  /-- PUTS, R88. Writes an x register into a status register field by field. -/
  | puts (q : BitVec 3) (num : BitVec 12) (a : BitVec 5)
  /-- BR, R97. PC-relative branch. -/
  | br (q : BitVec 3) (h : BitVec 1) (disp : BitVec 22)
  /-- BRL, R97. PC-relative branch linking to x1. -/
  | brl (q : BitVec 3) (h : BitVec 1) (disp : BitVec 22)
  /-- JR, R98. Jumps to the address in X[a]. -/
  | jr (q : BitVec 3) (h : BitVec 1) (a : BitVec 5)
  /-- JRL, R98. Jumps to X[a], writing the link to X[d]. -/
  | jrl (q : BitVec 3) (h : BitVec 1) (d a : BitVec 5)
  /-- BDEC, R99. Decrements X[d] and branches while nonzero. -/
  | bdec (q : BitVec 3) (d : BitVec 5) (imm : BitVec 13)
  /-- RPT, R104. Captures up to 16 words and executes them up to 64 times with staggered registers. -/
  | rpt (q : BitVec 3) (n : BitVec 6) (len : BitVec 4) (stag mask : BitVec 3)
  /-- HSTART, R251. Starts a helper thread in the lowest free slot. -/
  | hstart (q : BitVec 3) (d a b : BitVec 5)
  /-- HEND, R252. Ends the issuing thread after its accesses drain. -/
  | hend (q : BitVec 3) (a : BitVec 5)
  /-- HJOIN, R254. Waits for the thread of a slot to end and returns its exit value. -/
  | hjoin (q : BitVec 3) (d a : BitVec 5)
  /-- HSTAT, R255. Reports the state of a slot. -/
  | hstat (q : BitVec 3) (d a : BitVec 5)
  /-- HKILL, R256. Marks the thread of a slot for ending. -/
  | hkill (q : BitVec 3) (d a : BitVec 5)
  /-- IFLUSH, R108. Drains stores, invalidates the instruction cache and refetches. -/
  | iflush (q : BitVec 3)
  /-- LDB, R172. Loads a sign-extended byte. -/
  | ldb (q : BitVec 3) (d a : BitVec 5) (imm : BitVec 10)
  /-- LDH, R172. Loads a sign-extended half. -/
  | ldh (q : BitVec 3) (d a : BitVec 5) (imm : BitVec 10)
  /-- LDW, R172. Loads a sign-extended word. -/
  | ldw (q : BitVec 3) (d a : BitVec 5) (imm : BitVec 10)
  /-- LDD, R172. Loads a dword. -/
  | ldd (q : BitVec 3) (d a : BitVec 5) (imm : BitVec 10)
  /-- LDBU, R172. Loads a zero-extended byte. -/
  | ldbu (q : BitVec 3) (d a : BitVec 5) (imm : BitVec 10)
  /-- LDHU, R172. Loads a zero-extended half. -/
  | ldhu (q : BitVec 3) (d a : BitVec 5) (imm : BitVec 10)
  /-- LDWU, R172. Loads a zero-extended word. -/
  | ldwu (q : BitVec 3) (d a : BitVec 5) (imm : BitVec 10)
  /-- STB, R172. Stores a byte. -/
  | stb (q : BitVec 3) (d a : BitVec 5) (imm : BitVec 10)
  /-- STH, R172. Stores a half. -/
  | sth (q : BitVec 3) (d a : BitVec 5) (imm : BitVec 10)
  /-- STW, R172. Stores a word. -/
  | stw (q : BitVec 3) (d a : BitVec 5) (imm : BitVec 10)
  /-- STD, R172. Stores a dword. -/
  | std (q : BitVec 3) (d a : BitVec 5) (imm : BitVec 10)
  /-- FLDH, R172. Loads 2 bytes into an f register. -/
  | fldh (q : BitVec 3) (d a : BitVec 5) (imm : BitVec 10)
  /-- FLDW, R172. Loads 4 bytes into an f register. -/
  | fldw (q : BitVec 3) (d a : BitVec 5) (imm : BitVec 10)
  /-- FLDD, R172. Loads 8 bytes into an f register. -/
  | fldd (q : BitVec 3) (d a : BitVec 5) (imm : BitVec 10)
  /-- FSTH, R172. Stores 2 bytes of an f register. -/
  | fsth (q : BitVec 3) (d a : BitVec 5) (imm : BitVec 10)
  /-- FSTW, R172. Stores 4 bytes of an f register. -/
  | fstw (q : BitVec 3) (d a : BitVec 5) (imm : BitVec 10)
  /-- FSTD, R172. Stores 8 bytes of an f register. -/
  | fstd (q : BitVec 3) (d a : BitVec 5) (imm : BitVec 10)
  /-- VLD, R173. Loads 32 bytes into a vector register under a byte mask. -/
  | vld (q : BitVec 3) (d : BitVec 4) (a : BitVec 5) (k : BitVec 3) (imm : BitVec 10)
  /-- VST, R173. Stores the active bytes of a vector register. -/
  | vst (q : BitVec 3) (d : BitVec 4) (a : BitVec 5) (k : BitVec 3) (imm : BitVec 10)
  /-- LDF, R175. Waits for a full granule and loads a dword. -/
  | ldf (q : BitVec 3) (d a : BitVec 5) (imm : BitVec 10)
  /-- LDFC, R175. Waits for a full granule, loads and empties it. -/
  | ldfc (q : BitVec 3) (d a : BitVec 5) (imm : BitVec 10)
  /-- STF, R175. Stores a dword and sets the granule full, releasing waiters. -/
  | stf (q : BitVec 3) (d a : BitVec 5) (imm : BitVec 10)
  /-- FESETE, R175. Sets a granule empty. -/
  | fesete (q : BitVec 3) (a : BitVec 5) (imm : BitVec 10)
  /-- FESETF, R175. Sets a granule full and releases waiters. -/
  | fesetf (q : BitVec 3) (a : BitVec 5) (imm : BitVec 10)
  /-- FEGET, R175. Reads a granule's full/empty bit. -/
  | feget (q : BitVec 3) (d a : BitVec 5) (imm : BitVec 10)
  /-- LDA, R177. Acquire load of a dword. -/
  | lda (q : BitVec 3) (d a : BitVec 5) (imm : BitVec 10)
  /-- STL, R177. Release store of a dword. -/
  | stl (q : BitVec 3) (d a : BitVec 5) (imm : BitVec 10)
  /-- FENCE, R178. Parks until every earlier access of the thread is acknowledged. -/
  | fence (q : BitVec 3)
  /-- PREF, R179. Cache hint that never faults. -/
  | pref (q : BitVec 3) (d : BitVec 2) (a : BitVec 5) (imm : BitVec 10)
  /-- CWB, R180. Writes back the dirty sectors of a line. -/
  | cwb (q : BitVec 3) (a : BitVec 5) (imm : BitVec 10)
  /-- CINV, R180. Writes back and invalidates a line. -/
  | cinv (q : BitVec 3) (a : BitVec 5) (imm : BitVec 10)
  /-- VLDS, R174. Strided element load into a vector register. -/
  | vlds (q : BitVec 3) (d : BitVec 4) (a b : BitVec 5) (sz : BitVec 2) (k : BitVec 3)
  /-- VSTS, R174. Strided element store from a vector register. -/
  | vsts (q : BitVec 3) (d : BitVec 4) (a b : BitVec 5) (sz : BitVec 2) (k : BitVec 3)
  /-- AADD, R191. Atomic add. -/
  | aadd (q : BitVec 3) (sz : BitVec 1) (ord : BitVec 2) (d a b : BitVec 5)
  /-- AAND, R191. Atomic AND. -/
  | aand (q : BitVec 3) (sz : BitVec 1) (ord : BitVec 2) (d a b : BitVec 5)
  /-- AOR, R191. Atomic OR. -/
  | aor (q : BitVec 3) (sz : BitVec 1) (ord : BitVec 2) (d a b : BitVec 5)
  /-- AXOR, R191. Atomic XOR. -/
  | axor (q : BitVec 3) (sz : BitVec 1) (ord : BitVec 2) (d a b : BitVec 5)
  /-- AMIN, R191. Atomic signed minimum. -/
  | amin (q : BitVec 3) (sz : BitVec 1) (ord : BitVec 2) (d a b : BitVec 5)
  /-- AMAX, R191. Atomic signed maximum. -/
  | amax (q : BitVec 3) (sz : BitVec 1) (ord : BitVec 2) (d a b : BitVec 5)
  /-- AMINU, R191. Atomic unsigned minimum. -/
  | aminu (q : BitVec 3) (sz : BitVec 1) (ord : BitVec 2) (d a b : BitVec 5)
  /-- AMAXU, R191. Atomic unsigned maximum. -/
  | amaxu (q : BitVec 3) (sz : BitVec 1) (ord : BitVec 2) (d a b : BitVec 5)
  /-- ASWP, R191. Atomic swap. -/
  | aswp (q : BitVec 3) (sz : BitVec 1) (ord : BitVec 2) (d a b : BitVec 5)
  /-- AFADD, R192. Atomic floating-point add rounded to nearest even. -/
  | afadd (q : BitVec 3) (sz : BitVec 1) (ord : BitVec 2) (d a b : BitVec 5)
  /-- ACAS, R191. Atomic compare and swap. -/
  | acas (q : BitVec 3) (sz : BitVec 1) (ord : BitVec 2) (d a b : BitVec 5)
  /-- ACAS2, R191. 16-byte atomic compare and swap of register pairs. -/
  | acas2 (q : BitVec 3) (ord : BitVec 2) (d : BitVec 4) (a : BitVec 5) (b : BitVec 4)
  /-- MONARM, R195. Arms a monitor on a line and reads a dword at the home. -/
  | monarm (q : BitVec 3) (d a : BitVec 5) (idx : BitVec 2)
  /-- MONDIS, R198. Disarms one or all monitors. -/
  | mondis (q idx : BitVec 3)
  /-- WAITM, R197. Parks until a monitor triggers, a timeout elapses or an interrupt. -/
  | waitm (q : BitVec 3) (d a : BitVec 5)
  /-- MONST, R198. Reports armed and triggered monitor bits. -/
  | monst (q : BitVec 3) (d : BitVec 5)
  /-- BARARR, R203. Arrives at a named barrier after draining accesses. -/
  | bararr (q : BitVec 3) (a b : BitVec 5)
  /-- BARWAIT, R205. Waits until the thread has passed a barrier. -/
  | barwait (q : BitVec 3) (b : BitVec 5)
  /-- BARSYNC, R205. Arrives at a barrier and waits for the phase to complete. -/
  | barsync (q : BitVec 3) (a b : BitVec 5)
  /-- BARDEF, R206. Records a deferred arrival performed after the thread's accesses and copies land. -/
  | bardef (q : BitVec 3) (a b : BitVec 5)
  /-- BARST, R207. Reports a barrier's state. -/
  | barst (q : BitVec 3) (d b : BitVec 5)
  /-- CHOPEN, R218. Opens a send channel and returns a handle or status. -/
  | chopen (q : BitVec 3) (d a : BitVec 5)
  /-- CHCLOSE, R219. Closes a channel after all packets are acknowledged. -/
  | chclose (q : BitVec 3) (a : BitVec 5)
  /-- CHINFO, R220. Reports a handle's state. -/
  | chinfo (q : BitVec 3) (d a : BitVec 5)
  /-- SEND, R222. Sends a memory range as one message. -/
  | send (q : BitVec 3) (d a b : BitVec 5)
  /-- SENDR, R222. Sends a memory range as a release message. -/
  | sendr (q : BitVec 3) (d a b : BitVec 5)
  /-- SENDV, R222. Sends 32 bytes of a vector register. -/
  | sendv (q : BitVec 3) (d : BitVec 5) (b : BitVec 4)
  /-- SENDVR, R222. Sends 32 bytes of a vector register as a release. -/
  | sendvr (q : BitVec 3) (d : BitVec 5) (b : BitVec 4)
  /-- SENDW, R222. Sends 8 bytes of an x register. -/
  | sendw (q : BitVec 3) (d b : BitVec 5)
  /-- SENDWR, R222. Sends 8 bytes of an x register as a release. -/
  | sendwr (q : BitVec 3) (d b : BitVec 5)
  /-- PRECV, R235. Searches the unexpected queue or posts a receive record. -/
  | precv (q : BitVec 3) (d a : BitVec 5)
  /-- PCANCEL, R236. Cancels a posted receive. -/
  | pcancel (q : BitVec 3) (d a : BitVec 5)
  /-- PROBE, R237. Finds the oldest matching unexpected entry. -/
  | probe (q : BitVec 3) (d a : BitVec 5)
  /-- UQTAKE, R237. Marks an unexpected entry taken. -/
  | uqtake (q : BitVec 3) (d a : BitVec 5)
  /-- CTRGET, R238. Reads a counter. -/
  | ctrget (q : BitVec 3) (d a : BitVec 5)
  /-- CTRSET, R238. Sets a counter. -/
  | ctrset (q : BitVec 3) (a b : BitVec 5)
  /-- CTRADD, R238. Atomically adds to a counter. -/
  | ctradd (q : BitVec 3) (d a b : BitVec 5)
  /-- CTRWAIT, R239. Parks until a counter has reached a value. -/
  | ctrwait (q : BitVec 3) (d a b : BitVec 5)
  /-- TTSET, R240. Installs a waiting-task table entry. -/
  | ttset (q : BitVec 3) (d a : BitVec 5)
  /-- TTCLR, R240. Removes a waiting-task table entry. -/
  | ttclr (q : BitVec 3) (d a : BitVec 5)
  /-- SPAWN, R265. Pushes a task record at the bottom of the own deque. -/
  | spawn (q : BitVec 3) (d a b : BitVec 5)
  /-- SPAWNW, R265. Pushes a task record, parking while the deque is full. -/
  | spawnw (q : BitVec 3) (d a b : BitVec 5)
  /-- TAKE, R266. Pops the bottom deque record into the ready queue. -/
  | take (q : BitVec 3) (d : BitVec 5)
  /-- STEAL, R267. Takes the top record of another process's deque. -/
  | steal (q : BitVec 3) (d a : BitVec 5)
  /-- TRUN, R269. Appends a task record to the ready queue. -/
  | trun (q : BitVec 3) (d a : BitVec 5)
  /-- TPRIO, R270. Changes the priority of a table entry and its queued tasks. -/
  | tprio (q : BitVec 3) (d a b : BitVec 5)
  /-- MLDB, R319. Loads 512 bytes into a new B latch entry. -/
  | mldb (q : BitVec 3) (a : BitVec 5)
  /-- MPASS, R320. Pops the front latch entry and sends it on a latch channel. -/
  | mpass (q : BitVec 3) (a : BitVec 5)
  /-- MPOP, R321. Pops the front latch entry. -/
  | mpop (q : BitVec 3) (d : BitVec 5)
  /-- MLDA, R322. Loads an accumulator from memory as an op. -/
  | mlda (q : BitVec 3) (d : BitVec 2) (a : BitVec 5)
  /-- MSTA, R323. Converts and stores masked accumulator elements as an op. -/
  | msta (q fm : BitVec 3) (acc : BitVec 2) (a b : BitVec 5)
  /-- MCLR, R324. Clears an accumulator as an op. -/
  | mclr (q : BitVec 3) (d : BitVec 2)
  /-- MBURST, R325. Sets the burst counter timing hint. -/
  | mburst (q : BitVec 3) (a : BitVec 5)
  /-- MSTAT, R326. Reports matrix engine status. -/
  | mstat (q : BitVec 3) (d : BitVec 5)
  /-- CPPUSH, R294. Pushes a copy request, parking while the FIFO is full. -/
  | cppush (q : BitVec 3) (d a : BitVec 5)
  /-- CPPUSHB, R294. Pushes a copy request or returns busy. -/
  | cppushb (q : BitVec 3) (d a : BitVec 5)
  /-- CPWAIT, R295. Parks until a request id retires. -/
  | cpwait (q : BitVec 3) (d a : BitVec 5)
  /-- CPSTAT, R296. Reports a copy request's status. -/
  | cpstat (q : BitVec 3) (d a : BitVec 5)
  /-- CPABORT, R297. Ends a waiting, active or suspended copy request. -/
  | cpabort (q : BitVec 3) (d a : BitVec 5)
  /-- POSGET, R357. Reads move count, domain index, flags and position. -/
  | posget (q : BitVec 3) (d : BitVec 5)
  /-- LIDGET, R358. Asks a region core which lid it holds. -/
  | lidget (q : BitVec 3) (d a : BitVec 5)
  /-- WHERE, R359. Reads a lid's placement entry. -/
  | whereLid (q : BitVec 3) (d a : BitVec 5)
  /-- ANCHOR, R360. Anchors the process against moves. -/
  | anchor (q : BitVec 3) (d : BitVec 5)
  /-- UNANCHOR, R360. Clears the process's anchor. -/
  | unanchor (q : BitVec 3) (d : BitVec 5)
  /-- MIGREQ, R361. Asks the service core to move the process. -/
  | migreq (q : BitVec 3) (d a : BitVec 5)
  /-- CHTRAF, R362. Reads a handle's TOTAL byte count. -/
  | chtraf (q : BitVec 3) (d a : BitVec 5)
  /-- ANNGET, R363. Reads an annealer parameter. -/
  | annget (q : BitVec 3) (d a : BitVec 5)
  /-- ANNSET, R363. Writes an annealer parameter. -/
  | annset (q : BitVec 3) (d a b : BitVec 5)
  /-- SYSC, R382. Takes a SYSCALL trap. -/
  | sysc (q : BitVec 3) (a : BitVec 5)
  /-- BRK, R382. Takes a BREAK trap with a literal. -/
  | brk (q : BitVec 3) (b : BitVec 5)
  /-- TRET, R384. Resumes, skips, kills or redirects a stopped party. -/
  | tret (q : BitVec 3) (d a b : BitVec 5)
  /-- TRGET, R383. Pops the head of the trap queue, waiting if empty. -/
  | trget (q : BitVec 3) (d a : BitVec 5)
  /-- CTXSAVE, R391. Saves a held, drained process and empties the core. -/
  | ctxsave (q : BitVec 3) (d a : BitVec 5)
  /-- CTXLOAD, R392. Loads a save area onto the core, leaving the process held. -/
  | ctxload (q : BitVec 3) (d a : BitVec 5)
  /-- GLAUNCH, R388. Launches a group from a descriptor. -/
  | glaunch (q : BitVec 3) (d a : BitVec 5)
  /-- BANKCFG, R394. Changes the mode of one cluster SRAM bank. -/
  | bankcfg (q : BitVec 3) (d a : BitVec 5)
  /-- TLBINV, R395. Invalidates translations of a group module-wide. -/
  | tlbinv (q : BitVec 3) (d a b : BitVec 5)
  /-- DUMP, R393. Writes a snapshot of the core into a buffer. -/
  | dump (q : BitVec 3) (d a b : BitVec 5)
  /-- HALT, R396. Halts the core with code 0. -/
  | halt (q : BitVec 3)
  /-- SVSEND, R389. Sends a request to the die's service core and waits for the reply. -/
  | svsend (q : BitVec 3) (d a : BitVec 5)
  deriving DecidableEq, Repr, Inhabited

end Sys2Proof
end

