-- ==== Sys2Proof/Machine/State.lean ====
section
/-! DEFINITION. The state of the module as plain data, and its value after reset. The fields follow INVENTORY.md,
"## State"; each names the rule of the spec that gives it. -/

namespace Sys2Proof.Machine

/-- Memory: (address, byte) pairs, addresses rising, no entry holding the byte 0 that an unlisted address reads as
(log entry 3). -/
abbrev Memory := List Host.Cell

/-- One access of a thread: its place, its virtual address for a fault, its bytes. `cached` says that it is performed in
the cluster cache (R159), `scope` is the page's SCOPE, `queued` that it is a store to a vault (R152). `mask` has one bit a
byte, for VST (R173). `waited` says that it has waited at its home (R183), `asked` that the sector it needs has been asked for at
another module (R247). -/
structure Acc where
  kind : AccKind := .load
  place : Place := .phys 0
  va : Word := 0
  size : Nat := 8
  val : Nat := 0
  mask : Nat := 0
  cached : Bool := false
  scope : Nat := 0
  queued : Bool := false
  sig : Sig := {}
  waited : Bool := false
  asked : Bool := false
  deriving DecidableEq, Repr, Inhabited

/-- What a thread does with the data of its accesses when the last of them is done: write a register and complete, or
execute its instruction again with the data at hand (`again`). -/
inductive Cont where
  | nop
  | xreg (d : BitVec 5) (n : Nat) (signed : Bool)
  | freg (d : BitVec 5)
  | vreg (d : BitVec 4) (mask : BitVec 32)
  | vlds (d : BitVec 4) (size : Nat) (idx : List Nat)
  | lda (d : BitVec 5)
  | stl
  | again
  deriving DecidableEq, Repr, Inhabited

/-- What a parked instruction that has had no effect waits for before its thread executes it again (R152, R302); `wbAck` is the
acknowledgement of the write-backs of a release, at a cycle (R165 step 3); `more` is the wait of a TAKE or a STEAL between its accesses
(R266, R267); `appended` stands for an empty latch to which an entry has been
appended since (R302); `bank` is a bank whose mode is being changed, which a fetch has met (R161); `area` stands for an access of slot 11 to a save area or a
buffer (R391-R393). -/
inductive RetryOn where
  | wbAck (at_ : Nat) | storeRoom | storeEmpty | walk | bank (cl b : Nat) | sendBusy (h : Nat) | latchEmpty | appended | opQueue | latchFull | defRoom | deque
  | unitHome (u : Place) | more | remoteAcks | tlb | hold | fetch | area
  deriving DecidableEq, Repr, Inhabited

/-- What a parked thread waits for (R22). -/
inductive Wait where
  | retry (on : RetryOn)
  | access
  | atomic
  | monarm
  | chopen (d : BitVec 5)
  | migreq (d : BitVec 5) (target : Word)
  | ftr (d : BitVec 5) (val flags : Nat)
  | fence
  | iflush
  | hend (exit : Word)
  | barArr (b : Nat) (count : Nat) (sync : Bool)
  | barwait (b : Nat)
  | ctrwait (d : BitVec 5) (n : Nat) (v : BitVec 32)
  | waitm (d : BitVec 5) (deadline : Option Nat)
  | hjoin (d : BitVec 5) (slot : Nat)
  | chclose (h : Nat)
  | send (h : Nat)
  | op
  | mldb (far : Bool)
  | cpwait (d : BitVec 5) (id : Nat)
  | push (d : BitVec 5)
  | precv (d : BitVec 5) (addr : Word) (until_ : Nat)
  | trap
  | trget (d : BitVec 5)
  | glaunch (d : BitVec 5) (gid : Nat)
  | bankcfg (d : BitVec 5) (bank : Nat)
  | svsend (d : BitVec 5)
  | dump (d : BitVec 5) (addr size : Word)
  deriving DecidableEq, Repr, Inhabited

/-- The cursor of a repeat frame with its captured words (R104, R106). `retest` asks for the tests of R103 again. -/
structure Frame where
  base : Word
  pass : Nat
  posn : Nat
  n : Nat
  len : Nat
  stag : Nat
  mask : BitVec 3
  words : List IWord
  retest : Bool
  deriving DecidableEq, Repr, Inhabited

/-- A monitor (R193). -/
structure Monitor where
  armed : Bool := false
  line : Place := .phys 0
  gen : Nat := 0
  trig : Bool := false
  deriving DecidableEq, Repr, Inhabited

/-- A thread's state on one barrier (R201). -/
inductive BarState where
  | none | arrived | passed | deferred
  deriving DecidableEq, Repr, Inhabited

/-- A pending deferred arrival (R206): its slot and whether its thread still lives, its barrier and count, the thread's stores still to be acknowledged, and the copy
requests still to land. -/
structure Deferred where
  slot : Nat
  alive : Bool
  bar : Nat
  count : Nat
  stores : Nat
  copies : List Nat
  deriving DecidableEq, Repr, Inhabited

/-- An atomic that a thread has asked for (R191); `again` hands its old value to an instruction of several accesses. -/
structure AmoReq where
  op : Nat
  n : Nat
  ord : Nat
  d : BitVec 5
  place : Place
  va : Word
  v : Nat
  cmp : Nat
  sig : Sig
  stamp : Nat
  again : Bool := false
  deriving DecidableEq, Repr, Inhabited

/-- A barrel slot and the thread it holds (R15, R52, Table 2.4), with the slot's exit values (R254). `sentTo` is the core to which the
thread's access in flight is addressed (R333), `walkRoot` the root of the tables that its walks go through (R385), `rel` the snapshot of a release whose write-backs are under way (R165), `desc` the
deque descriptor that a parked SPAWN, SPAWNW or TAKE uses (R263), `fms` the format registers of a CPPUSH that waits for its stores (R55), `defStop` the barriers of deferred arrivals that stop it (R206). -/
structure Thread where
  live : Bool := false
  task : Bool := false
  notBefore : Nat := 0
  x : Vector Word 32 := Vector.replicate 32 0
  f : Vector Word 32 := Vector.replicate 32 0
  v : Vector (BitVec 256) 16 := Vector.replicate 16 0
  k : Vector (BitVec 32) 8 := Vector.replicate 8 0
  p : Vector Bool 8 := Vector.replicate 8 false
  pc : Word := 0
  ir : IWord := 0
  fpctl : Word := 0
  instret : Word := 0
  hintdrop : Word := 0
  sciss : Word := 0
  scmem : Word := 0
  scmsg : Word := 0
  scvac : Word := 0
  wait : Option Wait := none
  pend : List Acc := []
  got : List Nat := []
  gotSig : Sig := {}
  snap : Nat := 0
  snapSig : Sig := {}
  ready : Nat := 0
  walked : List Word := []
  walkRoot : Word := 0
  cont : Cont := .nop
  amo : Option AmoReq := none
  storeQ : List Acc := []
  frame : Option Frame := none
  rstack : List Word := []
  lost : Nat := 0
  mons : Vector Monitor 4 := Vector.replicate 4 {}
  intr : Bool := false
  barSt : Vector BarState 32 := Vector.replicate 32 .none
  defStop : List Nat := []
  sentTo : Option Nat := none
  rel : Option (Sig × Nat) := none
  desc : Option Word := none
  fms : Option (Vector Word 8) := none
  trap : Option TrapRec := none
  kpend : Bool := false
  exitv : Word := 0
  killed : Bool := false
  deriving DecidableEq, Repr, Inhabited

/-- A send in progress on a handle (R222): the slot that issued it, the source address or the bytes read at issue, and
how far it has come; `inj` is the packet whose injection interval runs (R225), and `readUntil` the cycle until which its payload is
being read; `reading` says that the read of a payload waits at its place (R224),
`claimed` that the SEND holds its handle while its release is under way (R222). -/
structure SendCur where
  slot : Nat
  addr : Option Word
  bytes : List Byte
  len : Nat
  off : Nat
  tag : Nat
  release : Bool
  sig : Sig
  latch : Option Nat
  abort : Bool
  inj : Option Packet := none
  readUntil : Nat := 0
  reading : Bool := false
  claimed : Bool := false
  stamp : Nat := 0
  deriving DecidableEq, Repr, Inhabited

/-- An outbound entry (R210, R336). -/
structure OutCh where
  lid : Nat
  ch : Nat
  latch : Bool
  closing : Bool := false
  closeSent : Bool := false
  seq : Nat := 0
  unack : Nat := 0
  cur : Option SendCur := none
  total : Nat := 0
  since : Nat := 0
  deriving DecidableEq, Repr, Inhabited

/-- Where the rest of a message of an inbound channel lands. -/
inductive LandAt where
  | record (slot : Nat)
  | queue (off : Nat)
  | latch (entry : Nat) (record : Option Nat)
  | drop
  deriving DecidableEq, Repr, Inhabited

/-- The message of an inbound channel whose FIRST packet has been delivered. -/
structure InMsg where
  tag : Nat
  len : Nat
  got : Nat
  release : Bool
  at_ : LandAt
  deriving DecidableEq, Repr, Inhabited

/-- An inbound entry (R210): next expected number, deliveries since the last acknowledgement. -/
structure InCh where
  src : Nat
  ch : Nat
  latch : Bool := false
  expect : Nat := 0
  sinceAck : Nat := 0
  lastDeliver : Nat := 0
  msg : Option InMsg := none
  deriving DecidableEq, Repr, Inhabited

/-- The fields of a receive record (R226, Table 9.4). -/
structure RecvRec where
  src : Nat
  srcMask : Nat
  tag : Nat
  tagMask : Nat
  dest : Word
  maxlen : Nat
  rowlen : Nat
  stride : Nat
  mode : Nat
  ch : Nat
  chany : Bool
  inc : Bool
  ctr : Nat
  noctr : Bool
  stat : Nat
  cookie : Nat
  deriving DecidableEq, Repr, Inhabited

/-- A landing in progress (R225, R241): of a packet, or where there is none the copy at the head of `copies`. `off` bytes of it have landed,
of which `k` count; the next land in cycle `due`. -/
structure Landing where
  pkt : Option Packet
  off : Nat := 0
  k : Nat := 0
  due : Nat
  deriving DecidableEq, Repr, Inhabited

/-- A posted receive, or one taken from the unexpected queue, and the message landing under it (R226-R230). `order` is
its place in posting order; `adds` are the bytes of packets before the last that are still to count, each with the cycle in which it does,
`ends` the cycle in which the message ends, and `lastBytes` what its last packet adds to the counter. -/
structure Posted where
  rcd : RecvRec
  order : Nat
  landing : Bool := false
  slotless : Bool := false
  src : Nat := 0
  ch : Nat := 0
  tag : Nat := 0
  len : Nat := 0
  flags : Nat := 0
  adds : List (Nat × Nat) := []
  ends : Option Nat := none
  lastBytes : Nat := 0
  deriving DecidableEq, Repr, Inhabited

/-- An entry of the unexpected queue (R231, R232). -/
structure UqEnt where
  off : Nat
  size : Nat
  src : Nat := 0
  ch : Nat := 0
  tag : Nat := 0
  len : Nat := 0
  got : Nat := 0
  complete : Bool := false
  taken : Bool := false
  release : Bool := false
  pad : Bool := false
  abort : Bool := false
  by_ : Option Nat := none
  deriving DecidableEq, Repr, Inhabited

/-- A task-table entry (R240). -/
structure TtEnt where
  pc : Word
  arg : Word
  thr : BitVec 32
  ctr : Nat
  prio : Nat
  trig : Option Nat := none
  deriving DecidableEq, Repr, Inhabited

/-- A ready-queue entry (R258); `was` keeps the cycle of a TPRIO and the priority before it (R270). -/
structure RqEnt where
  pc : Word
  arg : Word
  prio : Nat
  src : Nat
  stamp : Nat
  was : Option (Nat × Nat) := none
  deriving DecidableEq, Repr, Inhabited

/-- A named barrier (R201). -/
structure Barrier where
  tgt : Nat := 0
  arr : Nat := 0
  deriving DecidableEq, Repr, Inhabited

/-- A write of a copy request that has been issued and waits at its place (R183, R297): its destination and bytes, and what the request
advances by when it is done. One that is not `sent` has only its bytes at hand: the engine of a halted core issues it later (R386, R409). -/
structure CpWrite where
  dst : Word
  n : Nat
  val : Nat
  adv : Nat
  oor : Nat
  sent : Bool := true
  deriving DecidableEq, Repr, Inhabited

/-- A copy request (R275, R278): `state` as STATE of Table 12.7; `issued` counts bytes whose write is issued and `acked`
those acknowledged; `parts` are the 16-byte parts of its block that have been read while others wait for their units (R183, R287);
`wr` is a write that waits, `mine` says that the thread that pushed it still lives (R206). -/
structure CopyReq where
  id : Nat
  w0 : Word
  w1 : Word
  w2 : Word
  w3 : Word
  slot : Nat
  fms : Vector Word 8
  blk : List Nat := []
  parts : List (Nat × Nat) := []
  cursor : Nat := 0
  oor : Nat := 0
  state : Nat := 1
  cause : Nat := 0
  idx : Option Nat := none
  issued : Nat := 0
  acked : Nat := 0
  lastIssued : Bool := false
  aborted : Bool := false
  mine : Bool := true
  wr : Option CpWrite := none
  deriving DecidableEq, Repr, Inhabited

/-- A B latch slot (R316); `bad` marks an uncorrectable error in it (R315). -/
structure LatchEnt where
  id : Nat
  bytes : List Byte := []
  ready : Bool := false
  popped : Bool := false
  bound : Nat := 0
  sending : Bool := false
  bad : Bool := false
  deriving DecidableEq, Repr, Inhabited

/-- A matrix op (R301): MMA and MMAZ, MCLR, MLDA, MSTA. -/
inductive MKind where
  | mma (z : Bool) | mclr | mlda | msta
  deriving DecidableEq, Repr, Inhabited

/-- An op with what it captured at issue (R314, R322, R323), and after its start its results. `late` marks an MLDA that has started
and whose read has still to reach its range (R253, R322), at `doneAt`. -/
structure MOp where
  id : Nat
  slot : Nat
  kind : MKind
  acc : Nat
  addr : Word
  ctl : Word
  fa : Word := 0
  fb : Word := 0
  rm : Nat := 0
  ftz : Bool := false
  daz : Bool := false
  va : BitVec 256 := 0
  vb : BitVec 256 := 0
  latch : Nat := 0
  flags : Nat := 0
  late : Bool := false
  doneAt : Nat := 0
  res : List (Nat × BitVec 8192) := []
  deriving DecidableEq, Repr, Inhabited

/-- The matrix engine's queue and what is in it (R301, R302, R311, R312). `burst` is the cycle in which the burst counter
reaches 0, `lastOp` the cycle in which the engine last held an op; `ramped` says that the op at the head has had its ramp. -/
structure MatQ where
  queue : List MOp := []
  running : List MOp := []
  waiting : List Nat := []
  granted : List Nat := []
  latchWait : List Nat := []
  latchGrant : List Nat := []
  busyUntil : Nat := 0
  lastOp : Nat := 0
  burst : Nat := 0
  cold : Bool := true
  ramped : Bool := false
  nextId : Nat := 0
  deriving DecidableEq, Repr, Inhabited

/-- Why a process is held (R345, R390, R392, R393). -/
inductive Hold where
  | move (id : Nat) | preempt | loaded | dump
  deriving DecidableEq, Repr, Inhabited

/-- The per-process state (R53, Table 2.5) with the process-scope registers of Tables 2.6 and 19.4. `savedRecs` and
`savedWaiters` keep, while the process is parked, its SRC 1 to 3 records and its threads' places in the queues of its own
granules (R391: implementation-defined parts of the save area). W is `sigW`, its lines
each with the number of snapshots taken before it was entered, and `sigWAll`, the same for the all-ones signature
(R164, R165, R374); `fabW` are those of its lines that lie in pages of fabric scope (R159). `held` are the packets in the reorder
buffer and `spilled` those in the spill area, each with its slot (R213);
`holdAt` is the cycle in which its hold, or its want of one, began (R259), `blockedBy` is the channel, by source and number, of the blocked message (R233), `stream` the landing in progress (R225),
`landUntil` the cycle until which the last one has kept the receive engine busy, `copies` the copies by which a PRECV takes an entry of the
queue, in order, each with its record and its latch slot (R233, R235), and `hdrs` the headers of entries of the unexpected queue whose write waits for a reservation unit (R183). `pushQ` lists the requests whose CPPUSH waits for the FIFO, as
captured at its issue (R275, R55), `accBad` the 4-byte words of the accumulators, 256 each, with an uncorrectable error (R315). -/
structure Proc where
  gid : Nat := 0
  lid : Nat := 0
  gsize : Nat := 0
  rx : Nat := 0
  ry : Nat := 0
  rw : Nat := 0
  rh : Nat := 0
  winsize : Nat := 0
  win : Memory := []
  empty : List Nat := []
  fm : Vector Word 8 := Vector.replicate 8 0
  acc : Vector (BitVec 8192) 4 := Vector.replicate 4 0
  accBad : List Nat := []
  latch : List LatchEnt := []
  nextLatch : Nat := 0
  mq : MatQ := {}
  ctr : Vector (BitVec 32) 64 := Vector.replicate 64 0
  handles : Vector (Option OutCh) 32 := Vector.replicate 32 none
  inb : List InCh := []
  held : List Packet := []
  spilled : List (Nat × Packet) := []
  blocked : Bool := false
  blockedBy : Option (Nat × Nat) := none
  landFault : Option (Nat × Nat × Nat × Word) := none
  stream : Option Landing := none
  landUntil : Nat := 0
  copies : List (Nat × Option Nat) := []
  posted : Vector (Option Posted) 64 := Vector.replicate 64 none
  nextOrder : Nat := 0
  taken : List (Nat × Posted) := []
  uqbase : Nat := 0
  uqsize : Nat := 0
  uqtail : Nat := 0
  uq : List UqEnt := []
  hdrs : List UqEnt := []
  tt : Vector (Option TtEnt) 16 := Vector.replicate 16 none
  rq : List RqEnt := []
  rqRes : Nat := 0
  bars : Vector Barrier 32 := Vector.replicate 32 {}
  defs : List Deferred := []
  cycSkew : Nat := 0
  dqbase : Word := 0
  trip : Word := 1520
  anch : Bool := false
  migp : Bool := false
  armed : Bool := true
  mc : Nat := 0
  didx : Nat := 0
  unit : Option (Nat × Nat) := none
  sigW : List (Nat × Nat) := []
  sigWAll : Option Nat := none
  fabW : List Nat := []
  wStamp : Nat := 0
  sigR : Sig := {}
  fifo : List CopyReq := []
  pushQ : List CopyReq := []
  done : List CopyReq := []
  nextId : Nat := 1
  lastId : Nat := 0
  lastRet : Nat := 0
  hold : Option Hold := none
  holdAt : Nat := 0
  ctlEnded : Bool := false
  ended : Bool := false
  ptroot : Word := 0
  plbase : Word := 0
  spill : Word := 0
  remoteStores : Nat := 0
  savedRecs : List TrapRec := []
  savedWaiters : List (Place × Nat × Bool) := []
  deriving DecidableEq, Repr, Inhabited

/-- A translation (R156, R158): the page number of the virtual address, its size in bytes and the leaf. -/
structure TlbEnt where
  gid : Nat
  base : Nat
  large : Bool
  pte : Word
  deriving DecidableEq, Repr, Inhabited

/-- A core (R15, R33, Tables 1.4, 2.6, 19.4). `lookup` holds packets that wait for a placement entry (R333), `seeking` the other
requests that do, each with the group and lid it is for and the slot that sends it (12 for a wake), `ghosts` what is
left of ended processes while their handles close and what their engines have issued is done (R252, R292), `haltAt` the cycle in which the
core halted, `replies` the replies that a halted core does not take yet (R386),
`broke` the packets not yet delivered whose message breakpoint has halted the cluster (R410). -/
structure Core where
  occupied : Bool := false
  proc : Proc := {}
  slots : Vector Thread 12 := Vector.replicate 12 {}
  temp : Word := 0
  trapQ : List TrapRec := []
  trapWait : List TrapRec := []
  halted : Bool := false
  haltAt : Nat := 0
  oos : Bool := false
  reserved : Bool := false
  moving : Option Nat := none
  txsel : Word := 0
  svroot : Word := 0
  ecccnt : Word := 0
  meaddr : Word := 0
  rhsel : Nat := 0
  hist : Vector Word 13 := Vector.replicate 13 0
  tlb : List TlbEnt := []
  icache : List (Nat × IWord) := []
  loc : List LocEnt := []
  departed : List LocEnt := []
  lookup : List Packet := []
  seeking : List (Nat × Nat × Nat × Instr) := []
  replies : List Instr := []
  broke : List Packet := []
  ghosts : List Proc := []
  thermWithheld : Nat := 0
  thermRun : Bool := false
  hot : Bool := false
  deriving DecidableEq, Repr, Inhabited

/-- The mode of a bank (R160). -/
inductive BankMode where
  | cache | scratchpad | fifo
  deriving DecidableEq, Repr, Inhabited

/-- A line of a cluster cache (R162): its number (physical address / 256), a valid bit a sector, a dirty bit a byte; `bad` marks its
16-byte units with an uncorrectable error (R163). -/
structure CacheLine where
  line : Nat
  valid : BitVec 4
  dirty : BitVec 256
  scope : Nat
  last : Bool
  data : BitVec 2048
  bad : BitVec 16 := 0
  deriving DecidableEq, Repr, Inhabited

/-- A cluster (R10, R160-R162, R406, R409). `change` lists bank mode changes in order: bank, mode, requesting core.
`fifoWait` lists the threads parked at a FIFO bank in order: bank, core, slot; `bankWait` the steps that wait for a
mode change (R161), `passing` the steps that came before it and pass, each with its bank. -/
structure Cluster where
  modes : Vector BankMode 8 := Vector.replicate 8 .cache
  fifos : Vector (List (BitVec 128)) 8 := Vector.replicate 8 []
  lines : List CacheLine := []
  change : List (Nat × BankMode × Nat) := []
  fifoWait : List (Nat × Nat × Nat) := []
  bankWait : List (Nat × Instr) := []
  passing : List (Nat × Instr) := []
  tlb2 : List TlbEnt := []
  droopFrom : Nat := 0
  droopUntil : Nat := 0
  dbgHalted : Bool := false
  dbgSince : Nat := 0
  paused : List (Nat × Instr) := []
  breaks : Vector Break 4 := Vector.replicate 4 .off
  deriving DecidableEq, Repr, Inhabited

/-- A waiter on a granule (R170): the thread's core while it stays parked there, or the lid that moves; `req` is the
request of a thread of another module that waits there. -/
structure GWaiter where
  granule : Place
  core : Nat
  slot : Nat
  take : Bool
  req : Option LinkReq := none
  deriving DecidableEq, Repr, Inhabited

/-- A reservation unit that is away from home (R182): the bytes and signature state it carries, its holder, the
forward notices received for holders, the home's queue, and the steps that wait for its return in their order of
arrival (R183). `back` is the core to which it goes back, first the one that shipped it, and `from_` the core that has sent it there
(R186). -/
structure RUnit where
  unit : Place
  bytes : Nat
  sig0 : Option Sig
  sig1 : Option Sig
  holder : Option (Nat × Nat)
  queue : List (Nat × Nat)
  notices : List ((Nat × Nat) × (Nat × Nat))
  waiting : List Instr
  back : Nat := 0
  from_ : Nat := 0
  deriving DecidableEq, Repr, Inhabited

/-- A signature slot of a word's home (R166); the list of slots is in order of use, the most recent last. -/
structure SigSlot where
  word : Place
  home : Nat
  sig : Sig
  deriving DecidableEq, Repr, Inhabited

/-- A watch entry (R193). -/
structure Watch where
  line : Place
  home : Nat
  gid : Nat
  lid : Nat
  slot : Nat
  mon : Nat
  gen : Nat
  deriving DecidableEq, Repr, Inhabited

/-- Life of a group (R272, R390-R392). -/
inductive GroupPhase where
  | launching | running | holding | parking | parked | ended
  deriving DecidableEq, Repr, Inhabited

/-- A group (R17, R388, R390). -/
structure Group where
  gid : Nat
  n : Nat
  rx : Nat
  ry : Nat
  rw : Nat
  rh : Nat
  winsize : Nat
  entry : Word
  ptroot : Word
  plbase : Word
  spillbase : Word
  wimg : List Byte
  tsr : List Byte
  args : List Word
  landed : Nat := 0
  phase : GroupPhase := .launching
  inbox : Nat := 0
  inboxCap : Nat := 0
  inboxQ : List HostMsg := []
  svCore : Nat := 0
  held : List Nat := []
  savedL : List Nat := []
  loadedL : List Nat := []
  ends : List Nat := []
  store : List (Nat × Proc × Vector Thread 12) := []
  deriving DecidableEq, Repr, Inhabited

/-- The outcome codes of a proposal (Table 15.9, REASON). -/
inductive Reason where
  | committed | draw | anchored | timeout | outside | empty | busy | inflight
  deriving DecidableEq, Repr, Inhabited

/-- An annealer unit assigned to a domain (R31, R335-R343, Tables 15.7-15.9). `wts` lists (i, j, w) with w nonzero,
`ext` the external table (i, gid, lid, w), `fold` the byte counts gathered by a running fold as (domain index, group, lid, bytes), `foldFrom` the cycle in which it began and `foldAt` how many handles it
has read or passed, `wtsWas` and `eWas` the weights and E from before it. `drawing` says that the proposal in flight waits for its draw
entry (R365), and whether it is a timed one. `resolvedAt` is the cycle from which PINT runs to the next timed proposal, none once that proposal
is made; `due` says that one waits for a fold or a swap to end (R339). -/
structure AUnit where
  die : Nat
  idx : Nat
  gid : Nat
  gx : Nat
  gy : Nat
  w : Nat
  h : Nat
  ctl : Nat := 7
  pint : Nat := 4096
  seed : BitVec 32 := 1
  tcur : Nat := 0x4000
  offs : Nat := 0
  swto : Nat := 8192
  tbase : Word := 0
  tlen : Nat := 0
  tpos : Nat := 0
  props : Nat := 0
  sweeps : Nat := 0
  rej : Nat := 0
  delta : Int := 0
  reason : Reason := .committed
  dir : Nat := 0
  cell : Nat := 0
  kreq : Nat := 0
  commits : Nat := 0
  failures : Nat := 0
  wts : List (Nat × Nat × Nat) := []
  ext : List (Nat × Nat × Nat × Nat) := []
  fold : Option (List (Nat × Nat × Nat × Nat)) := none
  foldFrom : Nat := 0
  foldAt : Nat := 0
  wtsWas : List (Nat × Nat × Nat) := []
  eWas : Nat := 0
  inFlight : Bool := false
  drawing : Option Bool := none
  due : Bool := false
  resolvedAt : Option Nat := none
  deriving DecidableEq, Repr, Inhabited

/-- What asks for a move (R345, R352, R361, R387). -/
inductive MoveKind where
  | swap (die unit : Nat) | thermal | requested | repair
  deriving DecidableEq, Repr, Inhabited

/-- A swap, move or migration in flight (R345-R348): the two cores, and whether the request has reached each; `began` is the cycle in
which its transfer began, `flushed` says that the caches of the cores to come to have been seen to (R168, R347). -/
structure Move where
  id : Nat
  kind : MoveKind
  a : Nat
  b : Nat
  swto : Nat := 8192
  arrA : Bool := false
  arrB : Bool := false
  transfer : Bool := false
  began : Nat := 0
  flushed : Bool := false
  deriving DecidableEq, Repr, Inhabited

/-- A link port (R402). `unacked` lists flits by sequence number and cycle of sending; `ackOut` is the last flit that the port has
acknowledged to its peer. -/
structure LinkPort where
  txSeq : Nat := 0
  rxSeq : Nat := 0
  ackOut : Option Nat := none
  unacked : List (Nat × Nat × LinkItem) := []
  failed : Nat := 0
  stopped : Bool := false
  deriving DecidableEq, Repr, Inhabited

/-- A HOST channel of the edge toward a lid (R245): next sequence number and unacknowledged packets. -/
structure HostCh where
  gid : Nat
  lid : Nat
  seq : Nat := 0
  unack : Nat := 0
  deriving DecidableEq, Repr, Inhabited

/-- A channel to HOST at the gateway (R246): next expected number, the message being assembled, the messages held; `due` says that an
acknowledgement is owed and is kept back while a message is held. -/
structure GateCh where
  gid : Nat
  lid : Nat
  ch : Nat
  expect : Nat := 0
  sinceAck : Nat := 0
  tag : Nat := 0
  len : Nat := 0
  buf : List Byte := []
  last : Nat := 0
  early : List Packet := []
  full : List (Nat × Nat × List Byte × Bool) := []
  due : Bool := false
  deriving DecidableEq, Repr, Inhabited

/-- A report to the service network (R37, R163, R214, R315, R386, R402); `engine` is an uncorrectable error in a latch entry or an
accumulator. -/
inductive Report where
  | halt (core : Nat) (rcd : Option TrapRec)
  | machine (core : Nat) (addr : Place)
  | engine (core : Nat)
  | badPacket (core : Nat) (p : Packet)
  | link (port : Nat)
  deriving DecidableEq, Repr, Inhabited

/-- The module's host side, links and bring-up (R245, R246, R399-R405, Table 21.1). `mbBusy` lists the mailboxes whose message the
edge has not taken, each with the group that it was bound to, in the order of their header writes (R404). -/
structure Module where
  phase : Nat := 0
  failCode : Nat := 0
  modid : Nat := 0
  hrbase : Word := 0
  hrsize : Nat := 0
  hrtail : Nat := 0
  hrhead : Nat := 0
  mbdrop : Word := 0
  droophold : Nat := 16
  slotcap : Nat := 10
  attaddr : Word := 0
  attctl : Bool := false
  attnonce : Vector Word 4 := Vector.replicate 4 0
  mbox : Memory := []
  mbBusy : List (Nat × Nat) := []
  mbind : Memory := []
  edgeQ : List HostMsg := []
  hostCh : List HostCh := []
  gate : List GateCh := []
  notify : Bool := false
  masked : Bool := true
  msiPending : Bool := false
  msiSent : Nat := 0
  ports : Vector LinkPort 12 := Vector.replicate 12 {}
  reports : List Report := []
  deriving DecidableEq, Repr, Inhabited

/-- An access of an engine at another module (R40, R277): the step that it belongs to, and once it is answered the value and the fault
(0 for none). -/
structure FarAcc where
  id : Nat
  core : Nat
  step : Option Instr
  place : Place
  val : Option (Nat × Nat) := none
  deriving DecidableEq, Repr, Inhabited

/-- The machine. `todo` lists the cores whose turn in the present cycle is still to come, `agenda` the events by the cycle in
which they are due, `redo` the threads (core, slot) whose parked instruction goes on in this cycle, `here` and `slot` the thread
in focus; `others` are the cores beside the one in focus. `wakes` lists the wakes on their way, each with the core that it is addressed to and
the one that has sent it there (R193, R215). `event` is the event that the step in progress performs. -/
structure State where
  cycle : Nat := 0
  todo : List Nat := []
  redo : List (Nat × Nat) := []
  agenda : List (Nat × Instr) := []
  here : Nat := 0
  slot : Fin 12 := 0
  core : Core := {}
  others : List (Nat × Core) := []
  clusters : List (Nat × Cluster) := []
  mem : Memory := []
  emptyPhys : List Nat := []
  bad : List Place := []
  waiters : List GWaiter := []
  units : List RUnit := []
  sigSlots : List SigSlot := []
  watches : List Watch := []
  wakes : List (Instr × Nat × Nat) := []
  groups : List Group := []
  aunits : List AUnit := []
  moves : List Move := []
  nextMove : Nat := 0
  module : Module := {}
  far : List FarAcc := []
  nextFar : Nat := 0
  free : Nat := 0
  event : Option Instr := none
  deriving DecidableEq, Repr, Inhabited

/-- The machine never stops with a fault: every fault of the manual is a trap record, a report or a status, and is a next
state. Raised by nobody. Safe. -/
inductive Fault where
  deriving DecidableEq, Repr

/-- No meaning. -/
inductive Refusal where
  /-- The instruction of this mnemonic has no meaning yet. Raised by the dispatch only. Safe. -/
  | notModelled (mnemonic : String)
  deriving DecidableEq, Repr, Inhabited

/-- An outcome of the machine. -/
abbrev Out := Host.Outcome State Fault Refusal

/-- The module right after reset: phase 0, no core occupied, every bank in cache mode (R160), nothing in memory (R403;
log entries 1 to 4). -/
def State.reset : State := {}

end Sys2Proof.Machine
end

