-- ==== Sys2Proof/Machine/Ops.lean ====
section
/-! DEFINITION. The shared operations over memory, cores, threads and the agenda: reading and writing registers with their
fixed behaviours (Table 2.4), retiring an instruction, parking, taking an exception and returning from one. -/

namespace Sys2Proof.Machine

/-! ### Memory -/

/-- The byte at an address; an address that is not listed reads as 0 (log entry 3). -/
def Memory.get : Memory → Nat → Byte
  | [], _ => 0
  | (k, v) :: t, a => if k = a then v else Memory.get t a

/-- Write one byte and keep the canonical form: writing 0 removes the entry. -/
def Memory.put : Memory → Nat → Byte → Memory
  | [], a, b => if b = 0 then [] else [(a, b)]
  | (k, v) :: t, a, b =>
    if a < k then (if b = 0 then (k, v) :: t else (a, b) :: (k, v) :: t)
    else if a = k then (if b = 0 then t else (a, b) :: t)
    else (k, v) :: Memory.put t a b

/-- The canonical form from a lower bound on: addresses strictly rising, no entry equal to 0. -/
def Memory.wfFrom : Nat → Memory → Bool
  | _, [] => true
  | lo, (k, v) :: t => decide (lo ≤ k) && v != 0 && Memory.wfFrom (k + 1) t

/-- The canonical form of a memory. -/
def Memory.wf (m : Memory) : Bool := Memory.wfFrom 0 m

/-- The `n` bytes at an address as a little-endian number (R59). -/
def Memory.read (m : Memory) (a : Nat) : Nat → Nat
  | 0 => 0
  | n + 1 => (Memory.get m a).toNat + 256 * Memory.read m (a + 1) n

/-- Write the low `n` bytes of a number, little-endian (R59). -/
def Memory.write (m : Memory) (a : Nat) : Nat → Nat → Memory
  | 0, _ => m
  | n + 1, v => Memory.write (Memory.put m a (BitVec.ofNat 8 v)) (a + 1) n (v / 256)

/-- Write a list of bytes. -/
def Memory.writeBytes (m : Memory) (a : Nat) : List Byte → Memory
  | [] => m
  | b :: t => Memory.writeBytes (Memory.put m a b) (a + 1) t

/-- The `n` bytes at an address as a list. -/
def Memory.bytes (m : Memory) (a : Nat) : Nat → List Byte
  | 0 => []
  | n + 1 => Memory.get m a :: Memory.bytes m (a + 1) n

/-- A list of bytes as a little-endian number. -/
def leNat : List Byte → Nat
  | [] => 0
  | b :: t => b.toNat + 256 * leNat t

/-- The low `n` bytes of a number. -/
def leBytes : Nat → Nat → List Byte
  | 0, _ => []
  | n + 1, v => BitVec.ofNat 8 v :: leBytes n (v / 256)

/-! ### Keyed lists -/

/-- The entry of a key. -/
def kvGet {α : Type} : List (Nat × α) → Nat → Option α
  | [], _ => none
  | (k, v) :: t, a => if k = a then some v else kvGet t a

/-- Set the entry of a key, keys rising. -/
def kvPut {α : Type} : List (Nat × α) → Nat → α → List (Nat × α)
  | [], a, v => [(a, v)]
  | (k, w) :: t, a, v =>
    if a < k then (a, v) :: (k, w) :: t else if a = k then (a, v) :: t else (k, w) :: kvPut t a v

/-- Remove the entry of a key. -/
def kvDel {α : Type} : List (Nat × α) → Nat → List (Nat × α)
  | [], _ => []
  | (k, w) :: t, a => if a = k then t else (k, w) :: kvDel t a

/-! ### Vectors -/

/-- Apply a function to every element, by way of the list, so that the kernel can evaluate it. -/
def vmap {α β : Type} {n : Nat} (f : α → β) (v : Vector α n) : Vector β n := ⟨⟨v.toList.map f⟩, by simp⟩

/-- Apply a function to every element and its index. -/
def vmapIdx {α β : Type} {n : Nat} (f : Nat → α → β) (v : Vector α n) : Vector β n :=
  ⟨⟨v.toList.zipIdx.map (fun e => f e.2 e.1)⟩, by simp⟩

/-! ### Cores and clusters -/

/-- The core of a physical id: the one in focus, a listed one, or one that nothing has touched. -/
def State.coreAt (s : State) (c : Nat) : Core := if c = s.here then s.core else (kvGet s.others c).getD {}

/-- Replace a core. -/
def State.setCoreAt (s : State) (c : Nat) (k : Core) : State :=
  if c = s.here then { s with core := k } else { s with others := kvPut s.others c k }

/-- Bring a core into focus. -/
def State.focus (s : State) (c : Nat) : State :=
  if c = s.here then s
  else { s with here := c, core := s.coreAt c, others := kvPut (kvDel s.others c) s.here s.core }

/-- Bring a core and a slot of it into focus. -/
def State.focusSlot (s : State) (c slot : Nat) : State := { s.focus c with slot := Fin.ofNat 12 slot }

/-- Position of a core on the grid (R9). -/
def coreX (c : Nat) : Nat := c % 64
/-- Row of a core (R9). What the engine of an ended process has still to do is done by a core of a number 4096 higher, at the same
position (`State.onEngine`). -/
def coreY (c : Nat) : Nat := c / 64 % 64
/-- Physical id of a position (R9). -/
def coreId (x y : Nat) : Nat := y * 64 + x
/-- Die of a core (R9). -/
def dieOf (c : Nat) : Nat := (if 32 ≤ coreX c then 1 else 0) + 2 * (if 24 ≤ coreY c then 1 else 0)
/-- Cluster of a core (R9). -/
def clusterOf (c : Nat) : Nat := (coreY c / 2) * 32 + coreX c / 2
/-- Core `n` of a cluster (R10, Table 1.1). -/
def clusterCore (cl n : Nat) : Nat := coreId (2 * (cl % 32) + n % 2) (2 * (cl / 32) + n / 2 % 2)

/-- Hops between two cores (R12). -/
def hops (a b : Nat) : Nat :=
  (Int.natAbs ((coreX a : Int) - coreX b)) + (Int.natAbs ((coreY a : Int) - coreY b))
/-- Die-bridge crossings between two cores (R12). -/
def bridges (a b : Nat) : Nat :=
  (if (32 ≤ coreX a) = (32 ≤ coreX b) then 0 else 1) + (if (24 ≤ coreY a) = (24 ≤ coreY b) then 0 else 1)
/-- Unloaded transit between two cores (R12). -/
def transit (a b : Nat) : Nat := 2 * hops a b + 6 * bridges a b
/-- Annealer distance of two cores (R12). -/
def distance (a b : Nat) : Nat := hops a b + 4 * bridges a b

/-- A cluster by its id. -/
def State.clusterAt (s : State) (cl : Nat) : Cluster := (kvGet s.clusters cl).getD {}
/-- Replace a cluster. -/
def State.setCluster (s : State) (cl : Nat) (k : Cluster) : State := { s with clusters := kvPut s.clusters cl k }

/-- The core that holds process `lid` of group `gid`. -/
def State.coreOf (s : State) (gid lid : Nat) : Option Nat :=
  if s.core.occupied && s.core.proc.gid == gid && s.core.proc.lid == lid then some s.here
  else (s.others.find? (fun e => e.2.occupied && e.2.proc.gid == gid && e.2.proc.lid == lid)).map Prod.fst

/-- The group of an id. -/
def State.groupOf (s : State) (gid : Nat) : Option Group := s.groups.find? (fun g => g.gid == gid)

/-- The base of a group's placement table as core `c` knows it (R332, R385): PLBASE of the core while it holds a process of the
group, else the base that the group was launched with. -/
def State.placeBase (s : State) (c : Nat) (g : Group) : Nat :=
  let k := s.coreAt c
  if k.occupied && k.proc.gid == g.gid then k.proc.plbase.toNat else g.plbase.toNat

/-- The placement entry of a lid (R332, Table 15.1), as core `c` finds it: 8 bytes at the group's table. -/
def State.placeAt (s : State) (c gid lid : Nat) : Option Nat := (s.groupOf gid).map (fun g => s.placeBase c g + 8 * lid)

/-- The value of a placement entry. -/
def State.placeEntry (s : State) (c gid lid : Nat) : Nat :=
  match s.placeAt c gid lid with
  | some a => Memory.read s.mem a 8
  | none => 0

/-- The module that a placement entry names. -/
def entModule (e : Nat) : Nat := e / 2 ^ 32 % 2 ^ 16

/-- Replace the group of an id. -/
def State.setGroup (s : State) (g : Group) : State :=
  { s with groups := s.groups.map (fun h => if h.gid == g.gid then g else h) }

/-- The next free value's number (log entry 2). -/
def State.bump (s : State) (n : Nat) : State := { s with free := s.free + n }

/-! ### The agenda -/

/-- Put an event into an agenda after the events of its cycle and of earlier ones. -/
def agendaPut : List (Nat × Instr) → Nat → Instr → List (Nat × Instr)
  | [], at_, e => [(at_, e)]
  | (k, w) :: t, at_, e => if at_ < k then (at_, e) :: (k, w) :: t else (k, w) :: agendaPut t at_ e

/-- Let an event happen `n` cycles from now. -/
def State.after (s : State) (n : Nat) (e : Instr) : State := { s with agenda := agendaPut s.agenda (s.cycle + n) e }

/-- Put an event into an agenda before the other events of its cycle. -/
def agendaFirst : List (Nat × Instr) → Nat → Instr → List (Nat × Instr)
  | [], at_, e => [(at_, e)]
  | (k, w) :: t, at_, e => if at_ ≤ k then (at_, e) :: (k, w) :: t else (k, w) :: agendaFirst t at_ e

/-- Let an event happen `n` cycles from now, first in its cycle. -/
def State.afterFirst (s : State) (n : Nat) (e : Instr) : State := { s with agenda := agendaFirst s.agenda (s.cycle + n) e }

/-- Let an event happen `n` cycles from now, unless it is already due then. -/
def State.afterOnce (s : State) (n : Nat) (e : Instr) : State :=
  if s.agenda.contains (s.cycle + n, e) then s else s.after n e

/-- Let the selection of a process's next task be made `n` cycles from now, for the cycle before and so before anything else that happens then
(R259). -/
def State.askDispatch (s : State) (n gid lid : Nat) : State :=
  let e : Instr := .taskDispatch gid lid
  if s.agenda.contains (s.cycle + n, e) then s else s.afterFirst n e

/-- The next cycle from `c` on at which slot `slot` has its turn (R20). -/
def nextTurn (c slot : Nat) : Nat := c + (slot + 12 - c % 12) % 12

/-! ### Outcomes in sequence -/

/-- Go on from a next state. -/
def andThen (o : Out) (f : State → Out) : Out :=
  match o with
  | .next s => f s
  | .fault r => .fault r
  | .refused r => .refused r

/-! ### The thread in focus and its registers (Table 2.4) -/

/-- The thread whose instruction or event is performed. -/
def State.thr (s : State) : Thread := s.core.slots[s.slot]
/-- Replace it. -/
def State.setThr (s : State) (t : Thread) : State :=
  { s with core := { s.core with slots := s.core.slots.set s.slot t } }

/-- The resident process of the core in focus. -/
def State.proc (s : State) : Proc := s.core.proc
/-- Replace it. -/
def State.setProc (s : State) (p : Proc) : State := { s with core := { s.core with proc := p } }

/-- A hold of a process begins or ends in a cycle (R345). -/
def Proc.setHold (p : Proc) (h : Option Hold) (now : Nat) : Proc := { p with hold := h, holdAt := now }

/-- x register; x0 reads zero. -/
def Thread.rx (t : Thread) (a : BitVec 5) : Word := if a = 0#5 then 0 else t.x[a.toNat]'a.isLt
/-- Write an x register; a write to x0 is discarded. -/
def Thread.wx (t : Thread) (d : BitVec 5) (v : Word) : Thread :=
  if d = 0#5 then t else { t with x := t.x.set d.toNat v d.isLt }
/-- f register. -/
def Thread.rf (t : Thread) (a : BitVec 5) : Word := t.f[a.toNat]'a.isLt
/-- Write an f register. -/
def Thread.wf (t : Thread) (d : BitVec 5) (v : Word) : Thread := { t with f := t.f.set d.toNat v d.isLt }
/-- v register. -/
def Thread.rv (t : Thread) (a : BitVec 4) : BitVec 256 := t.v[a.toNat]'a.isLt
/-- Write a v register. -/
def Thread.wv (t : Thread) (d : BitVec 4) (v : BitVec 256) : Thread := { t with v := t.v.set d.toNat v d.isLt }
/-- k register; k0 reads all ones. -/
def Thread.rk (t : Thread) (a : BitVec 3) : BitVec 32 := if a = 0#3 then 0xFFFFFFFF#32 else t.k[a.toNat]'a.isLt
/-- Write a k register; a write to k0 is discarded. -/
def Thread.wk (t : Thread) (d : BitVec 3) (v : BitVec 32) : Thread :=
  if d = 0#3 then t else { t with k := t.k.set d.toNat v d.isLt }
/-- Predicate; p0 reads 1. -/
def Thread.rp (t : Thread) (a : BitVec 3) : Bool := if a = 0#3 then true else t.p[a.toNat]'a.isLt
/-- Write a predicate; a write to p0 is discarded. -/
def Thread.wp (t : Thread) (d : BitVec 3) (v : Bool) : Thread :=
  if d = 0#3 then t else { t with p := t.p.set d.toNat v d.isLt }

/-- x register of the thread in focus. -/
def State.rx (s : State) (a : BitVec 5) : Word := s.thr.rx a
/-- Write an x register of the thread in focus. -/
def State.wx (s : State) (d : BitVec 5) (v : Word) : State := s.setThr (s.thr.wx d v)
/-- f register of the thread in focus. -/
def State.rf (s : State) (a : BitVec 5) : Word := s.thr.rf a
/-- Write an f register of the thread in focus. -/
def State.wf (s : State) (d : BitVec 5) (v : Word) : State := s.setThr (s.thr.wf d v)
/-- v register of the thread in focus. -/
def State.rv (s : State) (a : BitVec 4) : BitVec 256 := s.thr.rv a
/-- Write a v register of the thread in focus. -/
def State.wv (s : State) (d : BitVec 4) (v : BitVec 256) : State := s.setThr (s.thr.wv d v)
/-- Mask of the thread in focus. -/
def State.rk (s : State) (a : BitVec 3) : BitVec 32 := s.thr.rk a
/-- Write a mask of the thread in focus. -/
def State.wk (s : State) (d : BitVec 3) (v : BitVec 32) : State := s.setThr (s.thr.wk d v)
/-- Predicate of the thread in focus. -/
def State.rp (s : State) (a : BitVec 3) : Bool := s.thr.rp a
/-- Write a predicate of the thread in focus. -/
def State.wp (s : State) (d : BitVec 3) (v : Bool) : State := s.setThr (s.thr.wp d v)

/-! ### Retiring and parking -/

/-- The turn issues an instruction (Table 2.6 INSTRET, R411 SCISS); what earlier turns of the same instruction gathered
is spent. -/
def Thread.issued (t : Thread) : Thread :=
  { t with instret := t.instret + 1, sciss := t.sciss + 1, ready := 0, got := [], walked := [], rel := none, desc := none, fms := none }

/-- The PC after an instruction, or the frame's cursor after an execution (R58, R104). -/
def Thread.advance (t : Thread) : Thread :=
  match t.frame with
  | none => { t with pc := t.pc + 4 }
  | some fr =>
    if fr.posn < fr.len then { t with frame := some { fr with posn := fr.posn + 1, retest := false } }
    else if fr.pass < fr.n then { t with frame := some { fr with pass := fr.pass + 1, posn := 0, retest := false } }
    else { t with frame := none, pc := t.pc + BitVec.ofNat 64 (4 * (fr.len + 2)) }

/-- The thread after an instruction that issues and completes in its turn. -/
def Thread.retired (t : Thread) : Thread := t.issued.advance

/-- An instruction completes in its turn. -/
def State.retire (s : State) : Out := .next (s.setThr s.thr.retired)

/-- An instruction under its guard: with a false guard it only retires (R60, R91). -/
def guarded (q : BitVec 3) (s : State) (body : State → Out) : Out := if s.rp q then body s else s.retire

/-- The classes of a turn that issues nothing (R411). -/
inductive TurnClass where
  | mem | msg | vac
  deriving DecidableEq, Repr

/-- The class of the turns of a thread that waits (R411). A thread that waits for the stores in its queue, for the
acknowledgements of write-backs, for a unit or for a walk is parked on accesses that are not local (R152, R158, R165; log entry 51). -/
def Wait.turnClass : Wait → TurnClass
  | .retry (.wbAck _) | .retry .remoteAcks | .retry .storeRoom | .retry .storeEmpty | .retry .walk | .retry .fetch | .retry (.bank ..) | .retry .area | .retry .opQueue | .retry (.unitHome _) | .retry .more => .mem
  | .retry _ => .vac
  | .access | .atomic | .monarm | .chopen _ | .migreq .. | .op | .mldb true | .push _ => .mem
  | .send _ | .ctrwait .. | .chclose _ | .precv .. => .msg
  | _ => .vac

/-- Count a turn that issues nothing. -/
def Thread.bubble (t : Thread) : TurnClass → Thread
  | .mem => { t with scmem := t.scmem + 1 }
  | .msg => { t with scmsg := t.scmsg + 1 }
  | .vac => { t with scvac := t.scvac + 1 }

/-- The instruction issues and parks its thread (R22). -/
def Thread.parked (t : Thread) (w : Wait) : Thread := { t.issued with wait := some w }

/-- The instruction issues and parks the thread in focus. -/
def State.park (s : State) (w : Wait) : State := s.setThr (s.thr.parked w)

/-- Whether a parked instruction goes on in the cycle in which its wait ends, and not at a turn of its thread: one that waits for a
walk of the tables for its data or for a reservation unit (R158, R183), and a TAKE or STEAL between its accesses (R266, R267). Its own
turn is the one in which it began. -/
def RetryOn.atOnce : RetryOn → Bool
  | .walk | .unitHome _ | .more => true
  | _ => false

/-- Whether a TAKE or a STEAL of a thread is under way: from its issue to its end it holds an entry of the ready queue (R266, R267). -/
def Thread.inTake (t : Thread) : Bool := t.ready != 0 && fld t.ir 23 6 == 0x38#6 && (fld t.ir 0 8 == 2#8 || fld t.ir 0 8 == 3#8)

/-- Let a step wait for the return of a unit (R183). -/
def State.waitUnit (s : State) (u : Place) (e : Instr) : State :=
  { s with units := s.units.map (fun r => if r.unit == u then { r with waiting := r.waiting ++ [e] } else r) }

/-- The instruction cannot go on yet: the thread executes it again once the wait is over (R152, R302). At a unit that is away it
waits in the order of arrival (R183). -/
def State.parkRetry (s : State) (on : RetryOn) : State :=
  let t := { s.thr with wait := some (.retry on) }
  let s1 := s.setThr (if on.atOnce then t else t.bubble (Wait.retry on).turnClass)
  match on with
  | .unitHome u => s1.waitUnit (u.align 16) (.threadResume s.here s.slot.val)
  | _ => s1

/-- The thread of a slot goes on with its parked instruction in this cycle. -/
def State.goOn (s : State) (core slot : Nat) : State := { s with redo := s.redo ++ [(core, slot)] }

/-- A parked instruction completes: the thread goes on at its next own turn (R22). -/
def Thread.resumed (t : Thread) : Thread := { t.advance with wait := none }

/-- The parked instruction of the thread in focus completes. -/
def State.unpark (s : State) : State := s.setThr s.thr.resumed

/-- Complete a parked instruction with a result in an x register. -/
def State.unparkX (s : State) (d : BitVec 5) (v : Word) : State := s.setThr (s.thr.wx d v).resumed

/-- A parked instruction completes in cycle `c`, and the thread goes on at its first own turn after that cycle (R197, R208, R319). -/
def Thread.resumedAfter (t : Thread) (c : Nat) : Thread := { t.resumed with notBefore := c + 1 }

/-! ### Taking an exception and returning from one (R59, R378-R380, R384, R386) -/

/-- The trap codes (Table 19.1). -/
inductive Trap where
  | illegal | misalign | window | page | protect | machine | syscall | brk | format | engine | channel | deque | priv
  deriving DecidableEq, Repr

/-- The number of a code (Table 19.1). -/
def Trap.code : Trap → Nat
  | .illegal => 0x01 | .misalign => 0x02 | .window => 0x03 | .page => 0x04 | .protect => 0x05 | .machine => 0x06
  | .syscall => 0x08 | .brk => 0x09 | .format => 0x0A | .engine => 0x0B | .channel => 0x0C | .deque => 0x0D
  | .priv => 0x0E

/-- A trap record of a thread (Table 19.2). -/
def Thread.record (t : Thread) (slot : Nat) (code : Nat) (addr : Word) (info : BitVec 32) : TrapRec :=
  { pc := t.pc, addr := addr, code := code, slot := slot, src := 0, frame := t.frame.isSome,
    pass := (t.frame.map (·.pass)).getD 0, posn := (t.frame.map (·.posn)).getD 0, info := info, word := t.ir, cause := 0 }

/-- Rank of the sources of records raised in one cycle (R379). -/
def srcRank (r : TrapRec) : Nat :=
  match r.src with
  | 0 => r.slot | 3 => 12 | 1 => 13 | 2 => 14 | _ => 15

/-- Put a record into the agenda: it is in the queue 4 cycles after its trap, records of one cycle and core in the
order of R379. -/
def recordPut : List (Nat × Instr) → Nat → Nat → TrapRec → List (Nat × Instr)
  | [], at_, c, r => [(at_, .trapRecordEnqueue c r)]
  | (k, w) :: t, at_, c, r =>
    let before : Bool := match w with
      | .trapRecordEnqueue c' r' => k == at_ && c' == c && decide (srcRank r < srcRank r')
      | _ => false
    if at_ < k || before then (at_, .trapRecordEnqueue c r) :: (k, w) :: t else (k, w) :: recordPut t at_ c r

/-- Queue a record for a core (R379). -/
def State.raise (s : State) (c : Nat) (r : TrapRec) : State :=
  { s with agenda := recordPut s.agenda (s.cycle + 4) c r }

/-- The parts of a thread that a trap of it clears or sets: it is parked until TRET, and its return stack is empty
(R59, R100, R379). -/
def Thread.trapped (t : Thread) (r : TrapRec) : Thread :=
  { t with trap := some r, wait := some .trap, rstack := [], lost := 0, pend := [], got := [], ready := 0,
           walked := [], cont := .nop, amo := none, sentTo := none, rel := none, desc := none }

/-- Halt the core in focus and report it (R386). -/
def State.haltCore (s : State) (r : Option TrapRec) : State :=
  { s with core := { s.core with halted := true, haltAt := s.cycle },
           module := { s.module with reports := s.module.reports ++ [.halt s.here r] } }

/-- Take a trap in the thread in focus: the one way an exception is taken. The record keeps the PC (the RPT address
inside a frame) and the word, the thread parks, and slot 11 gets the record; a trap of slot 11 halts the core
(R376, R378, R379). -/
def State.trapWith (s : State) (code : Nat) (addr : Word) (info : BitVec 32) : State :=
  let r := s.thr.record s.slot.val code addr info
  let s' := s.setThr (s.thr.trapped r)
  if s.slot.val = 11 then s'.haltCore (some r) else s'.raise s.here r

/-- An instruction traps in its turn; the turn counts as vacant (R54, R411; log entry 11). -/
def State.takeTrap (s : State) (k : Trap) (addr : Word) : Out :=
  .next ((s.setThr (s.thr.bubble .vac)).trapWith k.code addr 0)

/-- A parked instruction traps: it is no longer counted in INSTRET (Table 2.6). -/
def State.trapParked (s : State) (code : Nat) (addr : Word) : State :=
  (s.setThr { s.thr with instret := s.thr.instret - 1 }).trapWith code addr 0

/-- What TRET does to a trapped thread with actions 0, 1 and 3 (Table 19.4a): retry, skip, redirect. -/
inductive Return where
  | retry | skip | redirect (pc : Word)
  deriving DecidableEq, Repr

/-- Return from a trap (R384, R106): the record is answered and the thread resumes at its next own turn. -/
def Thread.returned (t : Thread) : Return → Thread
  | .retry => { t with trap := none, wait := none, frame := t.frame.map (fun f => { f with retest := true }) }
  | .skip =>
    match t.frame with
    | none => { t with trap := none, wait := none, pc := t.pc + 4 }
    | some f => { t with trap := none, wait := none, frame := none, pc := t.pc + BitVec.ofNat 64 (4 * (f.len + 2)) }
  | .redirect pc => { t with trap := none, wait := none, frame := none, pc := pc }

end Sys2Proof.Machine
end

