-- ==== Sys2Proof/Machine/Flags.lean ====
section
/-! DEFINITION. FPCTL: the sticky flags, the rounding mode and the two subnormal controls (R56, R59, R119-R121,
Table 2.7). -/

namespace Sys2Proof.Machine

/-- A set of floating-point flags, in the order of FPCTL[12:8]: NV, DZ, OF, UF, NX. -/
abbrev FFlags := BitVec 5

/-- NV. -/
def fNV : FFlags := 16#5
/-- DZ. -/
def fDZ : FFlags := 8#5
/-- OF. -/
def fOF : FFlags := 4#5
/-- UF. -/
def fUF : FFlags := 2#5
/-- NX. -/
def fNX : FFlags := 1#5

/-- Flags(s): the sticky flags are ORed into FPCTL[12:8] (Table 2.9). -/
def Thread.flag (t : Thread) (f : FFlags) : Thread := { t with fpctl := t.fpctl ||| (f.setWidth 64 <<< 8) }

/-- The rounding mode of FPCTL[2:0] (Table 2.7). -/
def Thread.rm (t : Thread) : Nat := (t.fpctl.extractLsb' 0 3).toNat
/-- DAZ. -/
def Thread.daz (t : Thread) : Bool := t.fpctl.getLsbD 3
/-- FTZ. -/
def Thread.ftz (t : Thread) : Bool := t.fpctl.getLsbD 4

/-- RoundMode(rnd) (Table 2.9): a static rounding field, or the mode of the thread for 0b111. -/
def Thread.roundMode (t : Thread) (rnd : BitVec 3) : Nat := if rnd = 7#3 then t.rm else rnd.toNat

/-- What a PUTS stores in FPCTL: reserved bits stay zero, a reserved rounding code is stored as 0b000 (R56, R88). -/
def fpctlStored (v : Word) : Word :=
  let rm : BitVec 3 := v.extractLsb' 0 3
  (v &&& 0x1F18#64) ||| ((if rm.toNat ≤ 4 then rm else 0#3).setWidth 64)

end Sys2Proof.Machine
end

