-- ==== Sys2Proof/Machine/Fp.lean ====
section
/-! DEFINITION. Number formats and their arithmetic (spec 05, R110-R120, R59): exact values, one rounding. -/

namespace Sys2Proof.Machine

/-! ### Formats (R110, R113-R116) -/

/-- A format: exponent bits, mantissa bits, bias, whether it is an IEEE format (with infinities and NaNs), whether it has a
sign bit. -/
structure Fmt where
  e : Nat
  m : Nat
  bias : Int
  ieee : Bool := true
  sg : Bool := true
  deriving DecidableEq, Repr

/-- FP64 (Table 5.1). -/
def fp64 : Fmt := { e := 11, m := 52, bias := 1023 }
/-- FP32 (Table 5.1). -/
def fp32 : Fmt := { e := 8, m := 23, bias := 127 }
/-- FP16 (Table 5.1). -/
def fp16 : Fmt := { e := 5, m := 10, bias := 15 }
/-- BF16 (Table 5.1). -/
def bf16 : Fmt := { e := 8, m := 7, bias := 127 }

/-- Width of a format in bits. -/
def Fmt.width (f : Fmt) : Nat := (if f.sg then 1 else 0) + f.e + f.m
/-- Exponent of the smallest subnormal. -/
def Fmt.qmin (f : Fmt) : Int := 1 - f.bias - f.m
/-- The bits above which a magnitude is infinite: for a narrow format, one above its largest code. -/
def Fmt.infCode (f : Fmt) : Nat := if f.ieee then (2 ^ f.e - 1) * 2 ^ f.m else 2 ^ (f.e + f.m)
/-- The sign bit. -/
def Fmt.signBit (f : Fmt) : Nat := if f.sg then 2 ^ (f.e + f.m) else 0
/-- The default quiet NaN (R50, R111). -/
def Fmt.qnan (f : Fmt) : Nat := (2 ^ f.e - 1) * 2 ^ f.m + 2 ^ (f.m - 1)
/-- Whether DAZ and FTZ apply: FP64 and FP32 (R120). -/
def Fmt.wide (f : Fmt) : Bool := f == fp64 || f == fp32

/-- The format codes of FOP, FMA and FTR, fn[7:6], and of conversion types 0-3 (Table 2.12). -/
def fmtOf (c : Nat) : Fmt := match c with | 0 => fp64 | 1 => fp32 | 2 => fp16 | _ => bf16
/-- The format of a floating-point lane type (Table 6.1). -/
def laneFmt (t : BitVec 3) : Fmt := match t.toNat with | 4 => fp16 | 5 => bf16 | 6 => fp32 | _ => fp64

/-! ### Exact values (R58) -/

/-- An operand: a NaN, an infinity, or the exact number ± mag · 2^exp. -/
inductive FV where
  | nan (signalling : Bool)
  | inf (neg : Bool)
  | fin (neg : Bool) (mag : Nat) (exp : Int)
  deriving DecidableEq, Repr

/-- The value of a code (R110, R115). -/
def Fmt.val (f : Fmt) (code : Nat) : FV :=
  let neg := f.sg && decide (code / 2 ^ (f.e + f.m) % 2 = 1)
  let ex := code / 2 ^ f.m % 2 ^ f.e
  let fr := code % 2 ^ f.m
  if f.ieee ∧ ex = 2 ^ f.e - 1 then
    if fr = 0 then .inf neg else .nan (decide (fr < 2 ^ (f.m - 1)))
  else if ex = 0 then .fin neg fr f.qmin
  else .fin neg (2 ^ f.m + fr) (f.qmin + (ex - 1 : Nat))

/-- The value of an input operand, a subnormal read as zero under DAZ (R120). -/
def Fmt.input (f : Fmt) (daz : Bool) (code : Nat) : FV :=
  match f.val code with
  | .fin neg mag e =>
    if daz && f.wide && decide (mag < 2 ^ f.m) then .fin neg 0 f.qmin else .fin neg mag e
  | v => v

/-- The code of an operand after DAZ. -/
def Fmt.dazCode (f : Fmt) (daz : Bool) (code : Nat) : Nat :=
  match f.val code with
  | .fin neg mag _ =>
    if daz && f.wide && decide (mag ≠ 0) && decide (mag < 2 ^ f.m) then (if neg then f.signBit else 0) else code % 2 ^ f.width
  | _ => code % 2 ^ f.width

/-- Whether a value is a NaN. -/
def FV.isNan : FV → Bool
  | .nan _ => true | _ => false
/-- Whether a value is a signalling NaN. -/
def FV.isSnan : FV → Bool
  | .nan s => s | _ => false
/-- The value with its sign inverted. -/
def FV.neg : FV → FV
  | .nan s => .nan s
  | .inf n => .inf (!n)
  | .fin n m e => .fin (!n) m e

/-! ### Rounding (R59) -/

/-- Whether a magnitude with the given parts is rounded up (Table 2.11): `q` the kept part, the discarded part below
(0), at (1) or above (2) one half, `some` when it is not zero. -/
def roundsUp (rm : Nat) (neg : Bool) (q cmp : Nat) (some_ : Bool) : Bool :=
  match rm with
  | 0 => cmp == 2 || (cmp == 1 && q % 2 == 1)
  | 1 => false
  | 2 => neg && some_
  | 3 => !neg && some_
  | _ => 1 ≤ cmp

/-- `mag · 2^sh` rounded to an integer; the flag tells that it was not exact. -/
def roundScaled (rm : Nat) (neg : Bool) (mag : Nat) (sh : Int) : Nat × Bool :=
  if 0 ≤ sh then (mag * 2 ^ sh.toNat, false)
  else
    let k := (-sh).toNat
    let q := mag / 2 ^ k
    let r := mag % 2 ^ k
    let cmp := if 2 * r < 2 ^ k then 0 else if 2 * r = 2 ^ k then 1 else 2
    (if roundsUp rm neg q cmp (r ≠ 0) then q + 1 else q, r ≠ 0)

/-- Exponent of the leading bit of mag · 2^exp. -/
def topExp (mag : Nat) (exp : Int) : Int := (Nat.log2 mag : Int) + exp

/-- Whether a nonzero magnitude is tiny in a format (R59): after rounding with an unbounded exponent it lies below the
smallest normal; where e = 0, it lies below the smallest nonzero magnitude. -/
def Fmt.isTiny (f : Fmt) (rm : Nat) (neg : Bool) (mag : Nat) (exp : Int) : Bool :=
  let top := topExp mag exp
  if f.e = 0 then decide (top < f.qmin)
  else
    let r := (roundScaled rm neg mag (exp - (top - f.m))).1
    let top' := if 2 ^ (f.m + 1) ≤ r then top + 1 else top
    decide (top' < 1 - f.bias)

/-- RoundFP of a finite value (R59): the code and the flags. In a format without fraction bits (m = 0)
a tie between two normal values has no even significand to go to: it goes to the larger magnitude, by the model's choice (log entry
65). -/
def Fmt.roundFin (f : Fmt) (rm : Nat) (ftz neg : Bool) (mag : Nat) (exp : Int) : Nat × FFlags :=
  let sign := if neg then f.signBit else 0
  if mag = 0 then (sign, 0)
  else
    let top := topExp mag exp
    let q := max (top - f.m) f.qmin
    let r := roundScaled rm neg mag (exp - q)
    let code := r.1 + (q - f.qmin).toNat * 2 ^ f.m
    let tiny := f.isTiny rm neg mag exp
    if f.infCode ≤ code then
      let toMax := !f.ieee || rm == 1 || (rm == 2 && !neg) || (rm == 3 && neg)
      (sign + (if toMax then f.infCode - 1 else f.infCode), fOF ||| fNX)
    else if tiny && ftz then (sign, fUF ||| fNX)
    else if r.2 then (sign + code, if tiny then fUF ||| fNX else fNX)
    else (sign + code, 0)

/-- RoundFP (R59). A NaN gives the default quiet NaN; a narrow format has neither NaN nor infinity: the code that a NaN gives
is left open (log entry 17), an infinity gives the largest finite code with OF and NX as an overflow does. -/
def Fmt.round (f : Fmt) (rm : Nat) (ftz : Bool) : FV → Nat × FFlags
  | .nan _ => (if f.ieee then f.qnan else (Config.narrowNaN (f.e * 8 + f.m)).toNat, 0)
  | .inf neg =>
    let sign := if neg then f.signBit else 0
    if f.ieee then (sign + f.infCode, 0) else (sign + (f.infCode - 1), fOF ||| fNX)
  | .fin neg mag exp => f.roundFin rm ftz neg mag exp

/-! ### Exact operations -/

/-- Sign of an exact zero that is a sum of operands of opposite sign (R119): + but in RDN. -/
def zeroSign (rm : Nat) : Bool := rm == 2

/-- The signed integer of a magnitude. -/
def toSigned (neg : Bool) (mag : Nat) : Int := if neg then -(mag : Int) else mag

/-- The exact sum of two finite values (R119). -/
def addFin (rm : Nat) (n1 : Bool) (m1 : Nat) (e1 : Int) (n2 : Bool) (m2 : Nat) (e2 : Int) : FV :=
  let e := min e1 e2
  let a := toSigned n1 (m1 * 2 ^ (e1 - e).toNat)
  let b := toSigned n2 (m2 * 2 ^ (e2 - e).toNat)
  let t := a + b
  if t = 0 then .fin (if n1 = n2 then n1 else zeroSign rm) 0 e else .fin (decide (t < 0)) t.natAbs e

/-- NV of operands that are signalling NaNs (R112). -/
def snanFlag (l : List FV) : FFlags := if l.any FV.isSnan then fNV else 0

/-- The exact sum, with its invalid cases (R122). -/
def fvAdd (rm : Nat) (a b : FV) : FV × FFlags :=
  match a, b with
  | .nan _, _ => (.nan false, snanFlag [a, b])
  | _, .nan _ => (.nan false, snanFlag [a, b])
  | .inf x, .inf y => if x = y then (.inf x, 0) else (.nan false, fNV)
  | .inf x, _ => (.inf x, 0)
  | _, .inf y => (.inf y, 0)
  | .fin n1 m1 e1, .fin n2 m2 e2 => (addFin rm n1 m1 e1 n2 m2 e2, 0)

/-- The exact product, with its invalid cases (R122). -/
def fvMul (a b : FV) : FV × FFlags :=
  match a, b with
  | .nan _, _ => (.nan false, snanFlag [a, b])
  | _, .nan _ => (.nan false, snanFlag [a, b])
  | .inf x, .inf y => (.inf (x ^^ y), 0)
  | .inf x, .fin n m _ => if m = 0 then (.nan false, fNV) else (.inf (x ^^ n), 0)
  | .fin n m _, .inf y => if m = 0 then (.nan false, fNV) else (.inf (n ^^ y), 0)
  | .fin n1 m1 e1, .fin n2 m2 e2 => (.fin (n1 ^^ n2) (m1 * m2) (e1 + e2), 0)

/-- The quotient of two magnitudes to 160 bits, its last bit set when it is not exact: it rounds as the exact quotient does
in every format. -/
def quotSticky (m1 m2 : Nat) : Nat × Int :=
  let k := 160 + Nat.log2 m2
  let q := m1 * 2 ^ k / m2
  (2 * q + (if m1 * 2 ^ k % m2 = 0 then 0 else 1), -(k + 1 : Nat))

/-- The quotient, with its invalid cases and DZ (R122). -/
def fvDiv (a b : FV) : FV × FFlags :=
  match a, b with
  | .nan _, _ => (.nan false, snanFlag [a, b])
  | _, .nan _ => (.nan false, snanFlag [a, b])
  | .inf _, .inf _ => (.nan false, fNV)
  | .inf x, .fin n _ _ => (.inf (x ^^ n), 0)
  | .fin n _ _, .inf y => (.fin (n ^^ y) 0 0, 0)
  | .fin n1 m1 e1, .fin n2 m2 e2 =>
    if m2 = 0 then (if m1 = 0 then (.nan false, fNV) else (.inf (n1 ^^ n2), fDZ))
    else
      let r := quotSticky m1 m2
      (.fin (n1 ^^ n2) r.1 (e1 - e2 + r.2), 0)

/-- Integer square root, bit by bit from bit `i` down. -/
def isqrtFrom : Nat → Nat → Nat → Nat
  | 0, _, r => r
  | i + 1, n, r =>
    let c := r + 2 ^ i
    isqrtFrom i n (if c * c ≤ n then c else r)

/-- The largest r with r · r ≤ n. -/
def isqrt (n : Nat) : Nat := isqrtFrom (Nat.log2 n / 2 + 1) n 0

/-- The square root, with its invalid cases (R122). -/
def fvSqrt (a : FV) : FV × FFlags :=
  match a with
  | .nan _ => (.nan false, snanFlag [a])
  | .inf n => if n then (.nan false, fNV) else (.inf false, 0)
  | .fin n m e =>
    if m = 0 then (.fin n 0 e, 0)
    else if n then (.nan false, fNV)
    else
      let m1 := if e % 2 = 0 then m else 2 * m
      let e1 := if e % 2 = 0 then e else e - 1
      let s := m1 * 2 ^ 320
      let r := isqrt s
      (.fin false (2 * r + (if r * r = s then 0 else 1)) (e1 / 2 - 161), 0)

/-- The fused sum `± a · b ± c` (R123): 0 · ∞ is invalid even beside a quiet NaN. -/
def fvFma (rm : Nat) (negP negC : Bool) (a b c : FV) : FV × FFlags :=
  let p := fvMul a b
  let pv := if negP then p.1.neg else p.1
  let cv := if negC then c.neg else c
  let r := fvAdd rm pv cv
  (r.1, r.2 ||| p.2 ||| snanFlag [a, b, c])

/-- Order of two numbers: less, equal, greater. -/
def fvCmp (a b : FV) : Ordering :=
  match a, b with
  | .inf x, .inf y => if x = y then .eq else if x then .lt else .gt
  | .inf x, _ => if x then .lt else .gt
  | _, .inf y => if y then .gt else .lt
  | .fin n1 m1 e1, .fin n2 m2 e2 =>
    let e := min e1 e2
    compare (toSigned n1 (m1 * 2 ^ (e1 - e).toNat)) (toSigned n2 (m2 * 2 ^ (e2 - e).toNat))
  | _, _ => .eq

/-- The sign of a value. -/
def FV.sign : FV → Bool
  | .nan _ => false
  | .inf n => n
  | .fin n _ _ => n

/-! ### Operations on codes -/

/-- A result with its flags: the invalid cases', then the rounding's. -/
def Fmt.finish (f : Fmt) (rm : Nat) (ftz : Bool) (r : FV × FFlags) : Nat × FFlags :=
  let c := f.round rm (ftz && f.wide) r.1
  (c.1, c.2 ||| r.2)

/-- FADD (R122). -/
def Fmt.add (f : Fmt) (rm : Nat) (daz ftz : Bool) (a b : Nat) : Nat × FFlags :=
  f.finish rm ftz (fvAdd rm (f.input daz a) (f.input daz b))
/-- FSUB (R122). -/
def Fmt.sub (f : Fmt) (rm : Nat) (daz ftz : Bool) (a b : Nat) : Nat × FFlags :=
  f.finish rm ftz (fvAdd rm (f.input daz a) (f.input daz b).neg)
/-- FMUL (R122). -/
def Fmt.mul (f : Fmt) (rm : Nat) (daz ftz : Bool) (a b : Nat) : Nat × FFlags :=
  f.finish rm ftz (fvMul (f.input daz a) (f.input daz b))
/-- FDIV (R122). -/
def Fmt.div (f : Fmt) (rm : Nat) (daz ftz : Bool) (a b : Nat) : Nat × FFlags :=
  f.finish rm ftz (fvDiv (f.input daz a) (f.input daz b))
/-- FSQRT (R122). -/
def Fmt.sqrt (f : Fmt) (rm : Nat) (daz ftz : Bool) (a : Nat) : Nat × FFlags := f.finish rm ftz (fvSqrt (f.input daz a))
/-- FMA, FMS, FNMA, FNMS (R123). -/
def Fmt.fma (f : Fmt) (rm : Nat) (daz ftz negP negC : Bool) (a b c : Nat) : Nat × FFlags :=
  f.finish rm ftz (fvFma rm negP negC (f.input daz a) (f.input daz b) (f.input daz c))

/-- Minimum or maximum after DAZ (R122): −0 lies below +0; `num` ignores one NaN beside a number. -/
def Fmt.minMax (f : Fmt) (daz max_ num : Bool) (a b : Nat) : Nat × FFlags :=
  let ca := f.dazCode daz a
  let cb := f.dazCode daz b
  let va := f.val ca
  let vb := f.val cb
  let fl := snanFlag [va, vb]
  if va.isNan && vb.isNan then (f.qnan, fl)
  else if va.isNan then (if num then cb else f.qnan, fl)
  else if vb.isNan then (if num then ca else f.qnan, fl)
  else
    let aLess := match fvCmp va vb with
      | .lt => true
      | .gt => false
      | .eq => va.sign
    (if aLess = max_ then cb else ca, fl)

/-- FABS (R112). -/
def Fmt.abs (f : Fmt) (a : Nat) : Nat := a % 2 ^ (f.e + f.m)
/-- FNEG (R112). -/
def Fmt.negate (f : Fmt) (a : Nat) : Nat := (a % 2 ^ f.width) ^^^ f.signBit
/-- FCPYS (R112). -/
def Fmt.copySign (f : Fmt) (a b : Nat) : Nat := a % 2 ^ (f.e + f.m) + (b % 2 ^ f.width) / f.signBit * f.signBit

/-- FCLASS (Table 5.6). -/
def Fmt.classOf (f : Fmt) (a : Nat) : Nat :=
  match f.val a with
  | .inf n => if n then 2 ^ 0 else 2 ^ 7
  | .nan s => if s then 2 ^ 8 else 2 ^ 9
  | .fin n m _ =>
    if m = 0 then (if n then 2 ^ 3 else 2 ^ 4)
    else if m < 2 ^ f.m then (if n then 2 ^ 2 else 2 ^ 5)
    else (if n then 2 ^ 1 else 2 ^ 6)

/-- The conditions of FCMPD and FCMPS (Table 5.8): the condition and the flags. -/
def Fmt.cond (f : Fmt) (daz : Bool) (cnd : Nat) (a b : Nat) : Bool × FFlags :=
  let va := f.input daz a
  let vb := f.input daz b
  let un := va.isNan || vb.isNan
  let quiet := snanFlag [va, vb]
  let loud := if un then fNV else 0
  match cnd with
  | 0 => (!un && fvCmp va vb == .eq, quiet)
  | 1 => (!un && fvCmp va vb == .lt, loud)
  | 2 => (!un && fvCmp va vb != .gt, loud)
  | 3 => (un, quiet)
  | 4 => (!un && fvCmp va vb == .lt, quiet)
  | 5 => (!un && fvCmp va vb != .gt, quiet)
  | _ => (un || fvCmp va vb != .eq, quiet)

/-- A value rounded to an integer of a range (R126): NaN gives 0 with NV, out of range saturates with NV. -/
def toRange (rm : Nat) (lo hi : Int) : FV → Int × FFlags
  | .nan _ => (0, fNV)
  | .inf n => (if n then lo else hi, fNV)
  | .fin n m e =>
    let r := roundScaled rm n m e
    let t := toSigned n r.1
    if t < lo then (lo, fNV) else if hi < t then (hi, fNV) else (t, if r.2 then fNX else 0)

/-- An integer as an exact value. -/
def fvInt (i : Int) : FV := .fin (decide (i < 0)) i.natAbs 0

/-- FP to FP (R126, R146). -/
def convert (src dst : Fmt) (rm : Nat) (daz ftz : Bool) (a : Nat) : Nat × FFlags :=
  let v := src.input daz a
  dst.finish rm ftz (v, snanFlag [v])

end Sys2Proof.Machine
end

