-- ==== Sys2Proof/Machine/Operands.lean ====
section
/-! DEFINITION. Operand forms: immediates, scaled offsets, branch targets, bit fields, and the stepping of register
fields in a repeat frame (Tables 2.10, 2.11, 4.5). -/

namespace Sys2Proof.Machine

/-- SignExtend of the low `n` bits (Table 2.9). -/
def sext (v : Word) (n : Nat) : Word := (v.setWidth n).signExtend 64
/-- ZeroExtend of the low `n` bits (Table 2.9). -/
def zext (v : Word) (n : Nat) : Word := (v.setWidth n).setWidth 64

/-- imm13, signed (R63, R83). -/
def imm13Val (i : BitVec 13) : Word := i.signExtend 64
/-- imm18, signed (R63, R85). -/
def imm18Val (i : BitVec 18) : Word := i.signExtend 64
/-- imm6 of CMPI, signed (R63, R93). -/
def imm6Val (i : BitVec 6) : Word := i.signExtend 64
/-- imm10 of format M, a signed byte offset (R63). -/
def imm10Val (i : BitVec 10) : Word := i.signExtend 64
/-- imm10 of VLD and VST, scaled by 32 (R63). -/
def imm10Vec (i : BitVec 10) : Word := i.signExtend 64 * 32
/-- Target of BR and BRL (R97). -/
def target22 (pc : Word) (disp : BitVec 22) : Word := pc + 4 * disp.signExtend 64
/-- Target of BDEC (R99). -/
def target13 (pc : Word) (imm : BitVec 13) : Word := pc + 4 * imm.signExtend 64

/-- The low 32 bits of a register, sign-extended: how every W form writes its result (R75, R77). -/
def wRes (v : BitVec 32) : Word := v.signExtend 64
/-- The low 32 bits of an operand. -/
def lo32 (v : Word) : BitVec 32 := v.setWidth 32
/-- The amount of a 64-bit register shift (R76). -/
def amt6 (v : Word) : Nat := v.toNat % 64
/-- The amount of a W shift (R76). -/
def amt5 (v : Word) : Nat := v.toNat % 32

/-- The quotient of DIV (R77, R78). -/
def divS {n : Nat} (a b : BitVec n) : BitVec n := if b = 0 then BitVec.allOnes n else a.sdiv b
/-- The quotient of DIVU (R77, R78). -/
def divU {n : Nat} (a b : BitVec n) : BitVec n := if b = 0 then BitVec.allOnes n else a / b
/-- The remainder of REM (R77, R78). -/
def remS {n : Nat} (a b : BitVec n) : BitVec n := if b = 0 then a else a.srem b
/-- The remainder of REMU (R77, R78). -/
def remU {n : Nat} (a b : BitVec n) : BitVec n := if b = 0 then a else a % b

/-- Leading zero bits (R79). -/
def clz64 (v : Word) : Nat := if v = 0 then 64 else 63 - Nat.log2 v.toNat
/-- Trailing zero bits of a number, looking at `fuel` bits. -/
def ctzN : Nat → Nat → Nat
  | 0, _ => 0
  | f + 1, v => if v % 2 = 1 then 0 else 1 + ctzN f (v / 2)
/-- One bits of a number, looking at `fuel` bits. -/
def popN : Nat → Nat → Nat
  | 0, _ => 0
  | f + 1, v => v % 2 + popN f (v / 2)
/-- The reverse of the low `fuel` digits of a number in a base. -/
def revN (base : Nat) : Nat → Nat → Nat → Nat
  | 0, _, acc => acc
  | f + 1, v, acc => revN base f (v / base) (acc * base + v % base)

/-- Position of the bit field of EXTS, EXTU and INSB (R80). -/
def fieldPos (b : Word) : Nat := b.toNat % 64
/-- Width of the bit field of EXTS, EXTU and INSB (R80). -/
def fieldLen (b : Word) : Nat := let l := b.toNat / 256 % 64; if l = 0 then 64 else l
/-- The mask of INSB (R81). -/
def insbMask (b : Word) : Word := BitVec.ofNat 64 ((2 ^ fieldLen b - 1) <<< fieldPos b)

/-! ### Stepping the register fields of a captured word (Table 4.5) -/

/-- Replace the field of `n` bits at `lo`. -/
def setFld (w : IWord) (lo n v : Nat) : IWord :=
  (w &&& ~~~ (BitVec.ofNat 32 ((2 ^ n - 1) <<< lo))) ||| BitVec.ofNat 32 ((v % 2 ^ n) <<< lo)

/-- Step the field of `n` bits at `lo` by `k`, modulo the number of its registers. -/
def stepFld (w : IWord) (lo n k : Nat) : IWord := setFld w lo n ((w.toNat >>> lo) % 2 ^ n + k)

/-- The kind of register that a field of format R names. -/
inductive FieldKind where
  | none | x | v | k | p | group
  deriving DecidableEq, Repr

/-- Bits of a field that hold its register or group number. -/
def FieldKind.bits : FieldKind → Nat
  | .none => 0 | .x => 5 | .v => 4 | .k => 3 | .p => 3 | .group => 2
/-- Where they start in the field (a group stands in bits 4:3, R147, R150). -/
def FieldKind.off : FieldKind → Nat
  | .group => 3 | _ => 0

/-- The registers that the d, a and b fields of a word of format R name, for the majors that may stand in a frame
(Tables 3.1-3.8, 5.8, 5.9, 5.11, 6.4, 6.7, 6.8). -/
def fieldKinds (w : IWord) : FieldKind × FieldKind × FieldKind :=
  let fn := (fld w 0 8).toNat
  match (fld w 23 6).toNat with
  | 0x01 | 0x02 => (.x, .x, .x)
  | 0x03 => (.x, .x, if fn < 11 then .none else .x)
  | 0x04 =>
    match fn with
    | 0 => (.x, .x, .x) | 5 => (.x, .none, .none) | 6 => (.none, .x, .none) | _ => (.p, .p, .p)
  | 0x05 | 0x06 | 0x07 | 0x08 | 0x09 => (.x, .x, .none)
  | 0x0A | 0x0B => (.x, .none, .none)
  | 0x18 => match fn % 64 with
    | 4 | 9 | 10 | 12 | 13 | 14 => (.x, .x, .none) | _ => (.x, .x, .x)
  | 0x19 => (.x, .x, .x)
  | 0x1C => (.x, .x, .none)
  | 0x1D => (.x, .x, .none)
  | 0x1E => match fn with
    | 0 => (.v, .none, .none) | 1 => (.v, .v, .none) | 2 => (.v, .x, .none) | 4 => (.x, .v, .none) | _ => (.v, .v, .none)
  | 0x21 => match fn % 8 with
    | 0 => (.v, .x, .none) | 1 => (.x, .v, .x) | 2 => (.v, .x, .x) | 3 => (.v, .v, .v) | 4 | 5 => (.x, .v, .none)
    | _ => (.v, .v, .none)
  | 0x23 => match fn with
    | 0 | 1 | 2 => (.k, .k, .k) | 3 => (.k, .k, .none) | 4 => (.k, .x, .none) | 5 | 6 => (.x, .k, .none) | _ => (.p, .k, .p)
  | 0x24 => if fn = 0 then (.v, .group, .x) else (.group, .v, .x)
  | _ => (.none, .none, .none)

/-- The lane operations that have no b operand (Table 6.3): VSQRT, VABS, VNEG, VMOV. -/
def vopUnary (w : IWord) : Bool := let op := (fld w 3 5).toNat; op == 5 || op == 10 || op == 11 || op == 19

/-- A captured word with its selected register fields stepped by `k` (R104, Table 4.5). `mask` is bits 9, 8, 7 of the RPT:
d, a, b. -/
def stepWord (w : IWord) (mask : BitVec 3) (k : Nat) : IWord :=
  let sd := mask.toNat / 4 = 1
  let sa := mask.toNat / 2 % 2 = 1
  let sb := mask.toNat % 2 = 1
  let ap (c : Prop) [Decidable c] (lo n : Nat) (w : IWord) : IWord := if c then stepFld w lo n k else w
  match (fld w 23 6).toNat with
  | 0x20 => ap (sb ∧ vopUnary w = false) 8 4 (ap sa 13 4 (ap sd 18 4 w))
  | 0x22 => ap sb 12 4 (ap sa 16 4 (ap sd 20 3 w))
  | 0x3A => ap sb 11 5 (ap sa 16 5 (ap sd 21 2 w))
  | 0x1A | 0x1B => ap sb 1 5 (ap sa 6 5 w)
  | _ =>
    let ks := fieldKinds w
    ap sb (8 + ks.2.2.off) ks.2.2.bits (ap sa (13 + ks.2.1.off) ks.2.1.bits (ap sd (18 + ks.1.off) ks.1.bits w))

end Sys2Proof.Machine
end

