-- ==== Sys2Proof/Machine/Translate.lean ====
section
/-! DEFINITION. Address spaces (R24, R376), physical addresses (R157, Table 7.3), translation (R155, R156, R158) and
instruction fetch (R101, R108, R109). -/

namespace Sys2Proof.Machine

/-! ### Physical addresses (Table 7.3) -/

/-- Type of a physical address, bits 59:56. -/
def paType (pa : Nat) : Nat := pa / 2 ^ 56 % 16
/-- Bits 55:40. -/
def paMid (pa : Nat) : Nat := pa / 2 ^ 40 % 2 ^ 16
/-- Home core, bits 39:28. -/
def paCore (pa : Nat) : Nat := pa / 2 ^ 28 % 2 ^ 12
/-- Bits 27:0. -/
def paOff (pa : Nat) : Nat := pa % 2 ^ 28
/-- Bank of a type-1 address. -/
def paBank (pa : Nat) : Nat := pa / 2 ^ 18 % 8

/-- Bytes of a vault (R11, R157). -/
def vaultSize : Nat := 0x0A000000

/-- Index of a core in its cluster (Table 1.1). -/
def coreIndex (c : Nat) : Nat := coreX c % 2 + 2 * (coreY c % 2)

/-- FrameValid for the bytes `pa` to `pa + n - 1` of a page (R157). -/
def frameValid (pa n : Nat) (large : Bool) : Bool :=
  let t := paType pa
  pa / 2 ^ 60 == 0 && decide (paCore pa < 3072) &&
  (match t with
   | 0 => paMid pa == 0 && decide (paOff pa + n ≤ vaultSize)
   | 1 => paMid pa == 0 && paOff pa / 2 ^ 21 == 0 && !large && paBank pa % 4 == coreIndex (paCore pa)
   | 3 => paMid pa == 0
   | 4 => true
   | 5 => decide (paOff pa + n ≤ vaultSize)
   | _ => false)

/-- Address in host memory of a type-4 physical address (Table 7.3). -/
def hostAddr (pa : Nat) : Nat := paMid pa * 2 ^ 28 + paOff pa

/-- The place that a physical address names. A type-5 address with the module's own id names the vault of this module
(log entry 12). -/
def placeOf (s : State) (pa : Nat) : Place :=
  match paType pa with
  | 3 => .mmio (paCore pa) (paOff pa)
  | 4 => .host (paCore pa) (hostAddr pa)
  | 5 => if paMid pa = s.module.modid then .phys (pa % 2 ^ 40) else .phys pa
  | _ => .phys pa

/-- Where the bytes of host memory stand in the memory list: as type-4 addresses without a serving core. -/
def hostKey (a : Nat) : Nat := 4 * 2 ^ 56 + a

/-! ### Reading and writing the bytes of a place, without any of the home's other actions -/

/-- The window of a process. -/
def State.window (s : State) (gid lid : Nat) : Memory :=
  match s.coreOf gid lid with
  | some c => (s.coreAt c).proc.win
  | none => []

/-- Change the process of a group, wherever it is. -/
def State.onProc (s : State) (gid lid : Nat) (f : Proc → Proc) : State :=
  match s.coreOf gid lid with
  | some c => let k := s.coreAt c; s.setCoreAt c { k with proc := f k.proc }
  | none => s

/-- The `n` bytes at a place, little-endian. -/
def State.peek (s : State) (p : Place) (n : Nat) : Nat :=
  match p with
  | .phys a => Memory.read s.mem a n
  | .host _ a => Memory.read s.mem (hostKey a) n
  | .win g l o => Memory.read (s.window g l) o n
  | .mmio _ o => Memory.read s.module.mbind o n

/-- Offset of MBIND in the page of core 0: halves at 0 to 8,191 (R400; log entry 14). -/
def inMbind (c o : Nat) : Bool := c == 0 && decide (o < 8192)

/-- Whether a place lies in the vault of another module (R157). -/
def farPlace : Place → Bool
  | .phys a => paType a == 5
  | _ => false

/-- What a read at a place delivers: its bytes, or the i-th free value where it is a type-3 register that the spec does not describe
(Table 7.3; log entry 50) or where a fetch or a walk reads another module's memory, which this model does not hold (log entry 12). -/
def State.delivered (s : State) (p : Place) (n i : Nat) : Nat :=
  let open_ : Nat := (Config.mmioRead (s.free + i)).toNat % 2 ^ (8 * n)
  match p with
  | .mmio c o => if inMbind c o then s.peek p n else open_
  | _ => if farPlace p then open_ else s.peek p n

/-- Write the low `n` bytes of a number at a place. A type-3 register that the spec does not describe takes the write and shows no
effect on any state that the spec names (log entry 50). -/
def State.poke (s : State) (p : Place) (n v : Nat) : State :=
  match p with
  | .phys a => { s with mem := Memory.write s.mem a n v }
  | .host _ a => { s with mem := Memory.write s.mem (hostKey a) n v }
  | .win g l o => s.onProc g l (fun pr => { pr with win := Memory.write pr.win o n v })
  | .mmio c o =>
    if inMbind c o then { s with module := { s.module with mbind := Memory.write s.module.mbind o n v } } else s

/-- The 16-byte units that bytes of a place touch. -/
def unitsOf (p : Place) (n : Nat) : List Place :=
  let u := p.align 16
  let k := match p with
    | .phys a => a % 16 | .win _ _ o => o % 16 | .host _ a => a % 16 | .mmio _ o => o % 16
  (List.range ((k + n + 15) / 16)).map (fun i => u.plus (16 * i))

/-- Whether a read of these bytes meets an uncorrectable error (R163, R187). -/
def State.isBad (s : State) (p : Place) (n : Nat) : Bool := (unitsOf p n).any (fun u => s.bad.contains u)

/-! ### Translation -/

/-- What an access needs (R156). -/
inductive Need where
  | r | w | x | rw | rOrW
  deriving DecidableEq, Repr

/-- Whether the permissions of a leaf allow an access (R156, Table 7.2). -/
def allowed (pte : Word) : Need → Bool
  | .r => pte.getLsbD 1
  | .w => pte.getLsbD 2
  | .x => pte.getLsbD 3
  | .rw => pte.getLsbD 1 && pte.getLsbD 2
  | .rOrW => pte.getLsbD 1 || pte.getLsbD 2

/-- The answer of a translation: the physical address, the leaf and whether its page is large; a trap; or a miss of the
first-level TLB that the thread has to wait for. -/
inductive XRes where
  | ok (pa : Nat) (pte : Word)
  | fault (t : Trap)
  | miss
  deriving DecidableEq, Repr

/-- Physical address of an address in a leaf's page. -/
def leafPa (pte : Word) (large : Bool) (va : Nat) : Nat :=
  let frame := pte.toNat / 2 ^ 16 % 2 ^ 44 * 2 ^ 16
  if large then frame + va % 2 ^ 26 else frame + va % 2 ^ 16

/-- Index of a level of the tables (R155). -/
def vaIndex (va : Nat) : Nat → Nat
  | 1 => va / 2 ^ 37 % 2 ^ 11
  | 2 => va / 2 ^ 26 % 2 ^ 11
  | _ => va / 2 ^ 16 % 2 ^ 10

/-- The bank of a type-1 place: its cluster and number. -/
def bankOf : Place → Option (Nat × Nat)
  | .phys a => if paType a = 1 then some (clusterOf (paCore a), paBank a) else none
  | _ => none

/-- The mode of a bank. -/
def State.bankMode (s : State) (cl b : Nat) : BankMode := ((s.clusterAt cl).modes[b]?).getD .cache

/-- Whether the mode of a bank is being changed (R161). -/
def State.bankChanging (s : State) (cl b : Nat) : Bool := (s.clusterAt cl).change.any (fun c => c.1 == b)

/-- The bank of a place at which the step in progress has to wait: its mode is being changed, and the step did not come before that (R161). -/
def State.bankBusy (s : State) (p : Place) : Option (Nat × Nat) :=
  match bankOf p with
  | some (cl, b) =>
    let passes := match s.event with | some e => (s.clusterAt cl).passing.contains (b, e) | none => false
    if s.bankChanging cl b && !passes then some (cl, b) else none
  | none => none

/-- Whether a table or an instruction in a type-1 place can be read: its bank is in scratchpad mode (R160). -/
def State.tableReadable (s : State) (p : Place) : Bool :=
  match bankOf p with
  | some (cl, b) => s.bankMode cl b == .scratchpad
  | none => true

/-- What the tables hold for an address: a leaf, or a trap. `fuel` levels are left; the level is `4 - fuel`. Each entry is read
uncached at its home. In phase 1 no vault, host or remote address can be read (R403), and a bank in another mode than scratchpad
answers PROTECT (R160). A table address at which nothing is reads as 0 (log entry 13). -/
def walkFrom (s : State) (va : Nat) : Nat → Nat → Except Trap (Word × Bool)
  | 0, _ => .error .page
  | fuel + 1, e =>
    let lvl := 3 - fuel
    let at_ := e + 8 * vaIndex va lvl
    let p := placeOf s at_
    if s.module.phase = 1 ∧ paType at_ ≠ 1 then .error .protect
    else if !s.tableReadable p then .error .protect
    else if s.isBad p 8 then .error .machine
    else
      let pte : Word := BitVec.ofNat 64 (s.delivered p 8 lvl)
      if !pte.getLsbD 0 then .error .page
      else if pte.extractLsb' 60 4 != 0 || pte.extractLsb' 7 9 != 0 then .error .page
      else if pte.extractLsb' 1 3 != 0 then
        if lvl = 1 then .error .page
        else if lvl = 2 ∧ pte.extractLsb' 16 10 != 0 then .error .page
        else .ok (pte, lvl == 2)
      else if lvl = 3 then .error .page
      else if pte.extractLsb' 4 3 != 0 then .error .page
      else walkFrom s va fuel (pte.toNat / 2 ^ 16 % 2 ^ 44 * 2 ^ 16)

/-- The first bank at which a walk from a table on has to wait (R161). -/
def walkBusy (s : State) (va : Nat) : Nat → Nat → Option (Nat × Nat)
  | 0, _ => none
  | fuel + 1, e =>
    let lvl := 3 - fuel
    let at_ := e + 8 * vaIndex va lvl
    let p := placeOf s at_
    match s.bankBusy p with
    | some x => some x
    | none =>
      if s.module.phase = 1 ∧ paType at_ ≠ 1 ∨ !s.tableReadable p ∨ s.isBad p 8 then none
      else
        let pte : Word := BitVec.ofNat 64 (s.delivered p 8 lvl)
        if pte.getLsbD 0 && pte.extractLsb' 1 3 == 0 then walkBusy s va fuel (pte.toNat / 2 ^ 16 % 2 ^ 44 * 2 ^ 16) else none

/-- The root that a thread's global accesses use: the group's, or SVROOT in slot 11 (R155, R376). -/
def State.rootFor (s : State) (sv : Bool) : Nat := if sv then s.core.svroot.toNat else s.core.proc.ptroot.toNat

/-- The tag of the thread's TLB entries: its group, or for slot 11 one of its core, whose SVROOT it goes through (R158, R376). -/
def State.tlbTag (s : State) (sv : Bool) : Nat := if sv then 65536 + s.here else s.core.proc.gid

/-- A walk of the tables for an address (R156). -/
def State.walk (s : State) (sv : Bool) (va : Nat) : Except Trap (Word × Bool) := walkFrom s va 3 (s.rootFor sv)

/-- The walk of the thread in focus that has begun: through the root of its beginning (R385). -/
def State.begunWalk (s : State) (va : Nat) : Except Trap (Word × Bool) := walkFrom s va 3 s.thr.walkRoot.toNat

/-- Whether a TLB entry maps an address for a tag. -/
def TlbEnt.hits (e : TlbEnt) (tag va : Nat) : Bool :=
  e.gid == tag && (if e.large then e.base == va / 2 ^ 26 else e.base == va / 2 ^ 16)

/-- The entry of a leaf. -/
def tlbEntry (tag va : Nat) (pte : Word) (large : Bool) : TlbEnt :=
  { gid := tag, base := if large then va / 2 ^ 26 else va / 2 ^ 16, large := large, pte := pte }

/-- The checks of a leaf for the `n` bytes of an access (R156, R157; slot 11 has full permissions, R376; R403 in
phase 1). -/
def checkLeaf (s : State) (sv : Bool) (need : Need) (n va : Nat) (pte : Word) (large : Bool) : XRes :=
  let pa := leafPa pte large va
  if !frameValid pa n large then .fault .page
  else if !(sv || allowed pte need) then .fault .protect
  else if s.module.phase = 1 ∧ (paType pa = 0 ∨ paType pa = 4 ∨ paType pa = 5) then .fault .protect
  else .ok pa pte

/-- Translate a global address for the core in focus (R156, R158). An access may use a stale first-level entry or the
tables as they stand, a free choice where they differ (R158). A page that the present instruction has already walked is
not waited for again. `i` numbers the choice within the instruction. -/
def State.xlate (s : State) (sv : Bool) (need : Need) (n : Nat) (va : Word) (i : Nat) : XRes :=
  let a := va.toNat
  let tag := s.tlbTag sv
  match s.core.tlb.find? (fun e => e.hits tag a) with
  | some e =>
    match s.walk sv a with
    | .ok (pte, large) =>
      if pte = e.pte ∧ large = e.large then checkLeaf s sv need n a pte large
      else if Config.staleTlb (s.free + i) then checkLeaf s sv need n a e.pte e.large
      else checkLeaf s sv need n a pte large
    | .error t => if Config.staleTlb (s.free + i) then checkLeaf s sv need n a e.pte e.large else .fault t
  | none =>
    if s.thr.walked.contains (va >>> 16) then
      match s.begunWalk a with
      | .ok (pte, large) => checkLeaf s sv need n a pte large
      | .error t => .fault t
    else .miss

/-- Translate for an engine, whose walk is part of its own time (R158, R277): as `xlate`, a miss walking at once, unless the walk meets
a bank whose mode is being changed (R161). -/
def State.xlateNow (s : State) (sv : Bool) (need : Need) (n : Nat) (va : Word) (i : Nat) : XRes :=
  match s.xlate sv need n va i with
  | .miss =>
    if (walkBusy s va.toNat 3 (s.rootFor sv)).isSome then .miss
    else
    match s.walk sv va.toNat with
    | .ok (pte, large) => checkLeaf s sv need n va.toNat pte large
    | .error t => .fault t
  | r => r

/-- Put a translation into the first-level TLB: 128 entries, the oldest replaced. -/
def State.fillTlb (s : State) (e : TlbEnt) : State :=
  { s with core := { s.core with tlb := (e :: s.core.tlb.filter (· != e)).take 128 } }

/-- Put a translation into the second-level TLB of the cluster: 4,096 entries, the oldest replaced. -/
def State.fillTlb2 (s : State) (e : TlbEnt) : State :=
  let cl := clusterOf s.here
  let k := s.clusterAt cl
  s.setCluster cl { k with tlb2 := (e :: k.tlb2.filter (· != e)).take 4096 }

/-- The transit between two cores of Table 7.1: none inside a cluster (R154). -/
def clusterTransit (a b : Nat) : Nat := if clusterOf a = clusterOf b then 0 else transit a b

/-- The unloaded time of the reads of a walk (R158): one uncached read a level, at the home of each entry; reads whose time is not
bounded take 500 (log entry 1). -/
def walkTime (s : State) (va : Nat) : Nat → Nat → Nat
  | 0, _ => 0
  | fuel + 1, e =>
    let at_ := e + 8 * vaIndex va (3 - fuel)
    let home := paCore at_
    let t := match paType at_ with
      | 0 => 70 + 2 * clusterTransit s.here home
      | 1 => 14 + 2 * clusterTransit s.here home
      | _ => 500
    let pte : Word := BitVec.ofNat 64 (s.delivered (placeOf s at_) 8 (3 - fuel))
    if pte.getLsbD 0 && pte.extractLsb' 1 3 == 0 then t + walkTime s va fuel (pte.toNat / 2 ^ 16 % 2 ^ 44 * 2 ^ 16) else t

/-- The time a first-level miss parks the thread (R158). -/
def State.missTime (s : State) (sv : Bool) (va : Nat) : Nat :=
  if (s.clusterAt (clusterOf s.here)).tlb2.any (fun e => e.hits (s.tlbTag sv) va) then 8
  else 8 + walkTime s va 3 (s.rootFor sv)

/-- Park the thread in focus for a walk of a page (R156, R158), which its instruction's data or its fetch needs. -/
def State.startWalkFor (s : State) (on : RetryOn) (va : Word) : Out :=
  let sv := s.slot.val == 11
  let s1 := s.parkRetry on
  let s2 := s1.setThr { s1.thr with walked := (va >>> 16) :: s1.thr.walked, walkRoot := BitVec.ofNat 64 (s.rootFor sv) }
  .next (s2.after (s.missTime sv va.toNat) (.pageWalk s.here s.slot.val))

/-- Park the thread in focus for a walk of a page of its data. -/
def State.startWalk (s : State) (va : Word) : Out := s.startWalkFor .walk va

/-! ### Address spaces (R24, Table 1.2) -/

/-- Where an address lies. -/
inductive Space where
  | own (off : Nat)
  | other (lid off : Nat)
  | global
  | bad (t : Trap)
  deriving DecidableEq, Repr

/-- Decode an address for the process resident on the core in focus (R24, R376). The offset test of a remote window is
against its own size, the same in every process of a group (Table 19.5). -/
def State.space (s : State) (va : Word) : Space :=
  let p := s.core.proc
  let a := va.toNat
  match a / 2 ^ 48 with
  | 0 => .global
  | 0xFFFF =>
    if !s.core.occupied then .bad .window
    else if a % 2 ^ 48 < p.winsize then .own (a % 2 ^ 48) else .bad .window
  | 0xFFFE =>
    let lid := a / 2 ^ 18 % 2 ^ 16
    let off := a % 2 ^ 18
    if !s.core.occupied ∨ a / 2 ^ 34 % 2 ^ 14 ≠ 0 ∨ p.gsize ≤ lid ∨ p.winsize ≤ off then .bad .window
    else if lid = p.lid then .own off else .other lid off
  | _ => .bad .page

/-! ### Lines of a cluster cache: the bytes a reader in the cluster sees -/

/-- The `n` bytes at bit position `8 * k` of a line. -/
def lineBytes (d : BitVec 2048) (k n : Nat) : Nat := d.toNat / 2 ^ (8 * k) % 2 ^ (8 * n)

/-- Bit mask of `n` bytes from byte `k` on. -/
def byteMask (k n : Nat) : BitVec 256 := BitVec.ofNat 256 ((2 ^ n - 1) * 2 ^ k)

/-- The line of a physical address in a cluster's cache. -/
def Cluster.lineOf (k : Cluster) (pa : Nat) : Option CacheLine := k.lines.find? (fun l => l.line == pa / 256)

/-- Whether a leaf's page may be cached (R159): C is set, the scope is not uncached-device, and the type is 0 or 5. -/
def cacheable (pa : Nat) (pte : Word) : Bool :=
  pte.getLsbD 6 && pte.extractLsb' 4 2 != 3#2 && (paType pa == 0 || paType pa == 5)

/-- Whether some bank of a cluster is in cache mode (R160): else a cacheable access is performed as if C = 0. -/
def Cluster.on (k : Cluster) : Bool := k.modes.toList.any (· == BankMode.cache)

/-- Whether a leaf's page is cached in a cluster as it is now (R159, R160). -/
def Cluster.caches (k : Cluster) (pa : Nat) (pte : Word) : Bool := cacheable pa pte && k.on

/-- Whether a line of a cluster holds `n` bytes inside one line, valid or dirty. -/
def Cluster.holds (k : Cluster) (pa n : Nat) : Bool :=
  match k.lineOf pa with
  | some l => (List.range n).all (fun i => l.dirty.getLsbD ((pa + i) % 256) || l.valid.getLsbD ((pa + i) % 256 / 64))
  | none => false

/-- One byte at a physical address as a reader in the cluster sees it: the dirty or valid byte of the line, else home. -/
def State.seenByte (s : State) (k : Cluster) (pa : Nat) : Nat :=
  match k.lineOf pa with
  | some l =>
    if l.dirty.getLsbD (pa % 256) || l.valid.getLsbD (pa % 256 / 64) then lineBytes l.data (pa % 256) 1
    else s.peek (placeOf s pa) 1
  | none => s.peek (placeOf s pa) 1

/-- `n` bytes as a reader in the cluster sees them. -/
def State.seenBytes (s : State) (k : Cluster) (pa : Nat) : Nat → Nat
  | 0 => 0
  | n + 1 => s.seenByte k pa + 256 * s.seenBytes k (pa + 1) n

/-- Whether `n` bytes inside one line meet an uncorrectable error where a reader in the cluster takes them from. -/
def State.seenBad (s : State) (k : Cluster) (pa n : Nat) : Bool :=
  (List.range n).any (fun i =>
    let a := pa + i
    match k.lineOf a with
    | some l =>
      if l.dirty.getLsbD (a % 256) || l.valid.getLsbD (a % 256 / 64) then l.bad.getLsbD (a % 256 / 16)
      else s.isBad (placeOf s a) 1
    | none => s.isBad (placeOf s a) 1)

/-! ### Instruction fetch (R101, R108, R109) -/

/-- The answer of a fetch. -/
inductive FRes where
  | word (w : IWord) (pa : Nat)
  | fault (t : Trap)
  | miss
  | busy (cl b : Nat)
  deriving DecidableEq, Repr

/-- The instruction word that a thread of the core in focus fetches: code comes only from global space with X permission
(R101), not from a bank in cache or FIFO mode (R160), with a wait at one whose mode is being changed (R161), through the core's instruction cache, whose word may be stale (R109). -/
def State.fetch (s : State) (sv : Bool) (pc : Word) (i : Nat) : FRes :=
  match pc.toNat / 2 ^ 48 with
  | 0 =>
    match s.xlate sv .x 4 pc i with
    | .miss => .miss
    | .fault t => .fault t
    | .ok pa pte =>
      let k := s.clusterAt (clusterOf s.here)
      match s.bankBusy (placeOf s pa) with
      | some (cl, b) => .busy cl b
      | none =>
      if !s.tableReadable (placeOf s pa) then .fault .protect
      else if (if k.caches pa pte then s.seenBad k pa 4 else s.isBad (placeOf s pa) 4) then .fault .machine
      else
        let w : IWord :=
          BitVec.ofNat 32 (if k.caches pa pte && (!farPlace (placeOf s pa) || k.holds pa 4) then s.seenBytes k pa 4
            else s.delivered (placeOf s pa) 4 i)
        match kvGet s.core.icache pa with
        | some old =>
          if old = w then .word w pa else if Config.staleFetch (s.free + i) then .word old pa else .word w pa
        | none => .word w pa
  | 0xFFFF => .fault .protect
  | 0xFFFE => .fault .protect
  | _ => .fault .page

/-- Empty the instruction cache of the core in focus (R108). -/
def State.dropICache (s : State) : State := { s with core := { s.core with icache := [] } }

/-- Hold a fetched word in the instruction cache: 8,192 words (32 KiB), the oldest dropped (R33, R108). -/
def State.fillICache (s : State) (pa : Nat) (w : IWord) : State :=
  { s with core := { s.core with icache := ((pa, w) :: kvDel s.core.icache pa).take 8192 } }

end Sys2Proof.Machine
end

