-- ==== Sys2Proof/Machine/Home.lean ====
section
/-! DEFINITION. What happens at a home and in a cluster cache: writes with their watch entries and granules (R169-R171,
R196), lines and byte masks (R162, R163), signatures (R164-R168, R374), signature slots (R166). -/

namespace Sys2Proof.Machine

/-! ### Homes -/

/-- The home core of a place (R27, R177): for a window, the core that holds it now; else the core that the frame names. -/
def State.homeOf (s : State) : Place → Nat
  | .phys a => paCore a
  | .win g l _ => (s.coreOf g l).getD s.here
  | .host c _ => c
  | .mmio c _ => c

/-- The reservation unit of a place when it is away (R182). -/
def State.unitAway (s : State) (p : Place) : Option RUnit := s.units.find? (fun u => u.unit == p.align 16)

/-- The first unit of some bytes that is away (R183). -/
def State.awayIn (s : State) (p : Place) (n : Nat) : Option Place :=
  (unitsOf p n).find? (fun u => (s.unitAway u).isSome)

/-! ### Other modules (R40, R247, R402, R412) -/

/-- The attach core of a link port: port 3d + g is gateway g of die d (Table 21.6). -/
def attachCore (port : Nat) : Nat :=
  let d := port / 3
  let g := port % 3
  coreId (if d % 2 = 0 then 0 else 63) (if d < 2 then 4 + 8 * g else 27 + 8 * g)

/-- The port by which a core sends what belongs to a channel number: one of its die (R247; log entry 19). -/
def linkPort (c ch : Nat) : Nat := 3 * dieOf c + ch % 3

/-- The time from a core to a link gateway (R412). -/
def linkTime (c port : Nat) : Nat := transit c (attachCore port) + 4

/-- An item leaves a core for another module, its first bytes `d` cycles from now: it is on the link when it has reached the
gateway (R402, R412). A port that has stopped keeps what it holds. The first flit of an empty port starts the resend timeout. -/
def State.linkSend (s : State) (c ch d : Nat) (item : LinkItem) : State :=
  let n := linkPort c ch
  let at_ := s.cycle + d + linkTime c n
  let p := (s.module.ports[n]?).getD {}
  let p1 := { p with txSeq := (p.txSeq + 1) % 4096, unacked := p.unacked ++ [(p.txSeq, at_, item)] }
  ({ s with module := { s.module with ports := s.module.ports.setIfInBounds n p1 } } : State).after (d + linkTime c n + 8192) (.linkResendTimeout n)

/-- A reply to a request of another module leaves the home of its place (R247). Nobody awaits one to what the engine of an ended process had issued. -/
def State.linkReply (s : State) (home : Nat) (r : LinkReq) (val fault : Nat) (sig : Sig) : State :=
  if r.tag.who = 15 then s else s.linkSend home 0 0 (.reply r val fault sig)

/-- Ask another module for an access of a party of core `c` (R40, R247). -/
def State.linkAsk (s : State) (c who : Nat) (a : Acc) : State :=
  let p := (s.coreAt c).proc
  s.linkSend c 0 0 (.request { tag := { modid := s.module.modid, core := c, who := who }, gid := p.gid, lid := p.lid, kind := a.kind,
                               place := a.place, size := a.size, val := a.val, mask := a.mask, sig := a.sig })

/-! ### Full/empty granules (R169-R171) -/

/-- Note an uncorrectable error: reported over the service network, its address in MEADDR of the core that found it
(R163, R387). -/
def State.noteError (s : State) (c : Nat) (p : Place) : State :=
  let c := c % 4096
  let k := s.coreAt c
  let a := match p with | .phys a => a | .win _ _ o => o | .host _ a => a | .mmio _ o => o
  let s1 := s.setCoreAt c { k with meaddr := BitVec.ofNat 64 a }
  { s1 with module := { s1.module with reports := s1.module.reports ++ [.machine c p] } }

/-- Whether the granule of a place is full. -/
def State.isFull (s : State) (p : Place) : Bool :=
  match p with
  | .win g l o =>
    match s.coreOf g l with
    | some c => !(s.coreAt c).proc.empty.contains (o / 16)
    | none => true
  | .phys a => !s.emptyPhys.contains (a / 16)
  | _ => true

/-- Set the bit of a place's granule. -/
def State.setBit (s : State) (p : Place) (full : Bool) : State :=
  match p with
  | .win g l o => s.onProc g l (fun pr =>
      { pr with empty := let r := pr.empty.filter (· != o / 16); if full then r else (o / 16) :: r })
  | .phys a =>
    let r := s.emptyPhys.filter (· != a / 16)
    { s with emptyPhys := if full then r else (a / 16) :: r }
  | _ => s

/-- Whether a waiter is a thread of a held process on a granule of its own window: it stays parked, and is looked at again when the hold
ends (R345). -/
def State.waiterHeld (s : State) (w : GWaiter) : Bool :=
  let p := (s.coreAt w.core).proc
  w.req.isNone && w.slot != 11 && p.hold.isSome &&
    (match w.granule with | .win g l _ => g == p.gid && l == p.lid | _ => false)

/-- The waiters of a granule that a fill releases: through the first LDFC (R170); `stay` are those that stay. -/
def headWaiters (g : Place) (stay : GWaiter → Bool) : List GWaiter → List GWaiter × List GWaiter
  | [] => ([], [])
  | w :: t =>
    if w.granule == g && !stay w then
      if w.take then ([w], t) else let r := headWaiters g stay t; (w :: r.1, r.2)
    else let r := headWaiters g stay t; (r.1, w :: r.2)

/-- What a waiter of a granule reads: the dword of the access that parks its thread. -/
def State.waitedAt (s : State) (w : GWaiter) : Place × Nat :=
  match w.req with
  | some r => (r.place, r.size)
  | none =>
    match (((s.coreAt w.core).slots.toList)[w.slot]?).bind (fun t => t.pend.head?) with
    | some a => (a.place, a.size)
    | none => (w.granule, 8)

/-- The transit between the home of a place and a core, as Table 7.1 counts it: none inside a cluster, but to and from a window (R154). -/
def Place.transit (p : Place) (home core : Nat) : Nat :=
  match p with
  | .win .. => Machine.transit home core
  | _ => clusterTransit home core

/-- Answer a waiter of a granule: with its dword, or with MACHINE where that meets an uncorrectable error (R163, R170). The reply of a
waiter of another core takes the transit (R154). -/
def State.answerWaiter (s : State) (home : Nat) (bad : Bool) (w : GWaiter) : State :=
  let p := s.waitedAt w
  let v := if bad then 0 else s.peek p.1 p.2
  let code := if bad then Trap.machine.code else 0
  match w.req with
  | some r => s.linkReply home r v code {}
  | none => s.after (w.granule.transit home w.core) (.nonlocalReply w.core w.slot v code {})

/-- Mark a granule full and release its waiters (R170): each gets the dword it asked for, the LDFC among them empties the
granule again. Where the unit has an uncorrectable error every waiter takes MACHINE, and none has an effect (R163). -/
def State.fillGranule (s : State) (p : Place) : State :=
  let g := p.align 16
  let s1 := s.setBit g true
  let home := s1.homeOf g
  if s1.isBad g 16 then
    let mine := s1.waiters.filter (fun w => w.granule == g && !s1.waiterHeld w)
    let s2 := { s1 with waiters := s1.waiters.filter (fun w => !(w.granule == g && !s1.waiterHeld w)) }
    mine.foldl (fun (acc : State) w => (acc.answerWaiter home true w)) (if mine.isEmpty then s2 else s2.noteError home g)
  else
    let r := headWaiters g s1.waiterHeld s1.waiters
    let s2 := { s1 with waiters := r.2 }
    let s3 := r.1.foldl (fun (acc : State) w => acc.answerWaiter home false w) s2
    if r.1.any (·.take) then s3.setBit g false else s3

/-! ### Where a process is (R247, R333, R334) -/

/-- The entry of a lid in a list of location entries. -/
def findLoc (l : List LocEnt) (gid lid : Nat) : Option LocEnt := l.find? (fun e => e.gid == gid && e.lid == lid)

/-- Put an entry at the recent end of a list of `n` entries (R333, R334). -/
def putLoc (l : List LocEnt) (e : LocEnt) (n : Nat) : List LocEnt :=
  (e :: l.filter (fun x => !(x.gid == e.gid && x.lid == e.lid))).take n

/-- The unloaded time of a read of a placement entry by core `c` (R333, Table 7.1). -/
def State.placeTime (s : State) (c gid lid : Nat) : Nat :=
  match s.placeAt c gid lid with
  | some a =>
    (if paType a = 1 then 14 else 70) + 2 * clusterTransit c (paCore a)
  | none => 70

/-- What core `c` is told of a lid by its placement entry. -/
def State.placeLoc (s : State) (c gid lid : Nat) : LocEnt :=
  let e := s.placeEntry c gid lid
  { gid := gid, lid := lid, core := e % 2 ^ 12, mc := e / 2 ^ 48 % 2 ^ 16 }

/-- Whether the placement entry of a lid, as core `c` reads it, names another module (R247): requests to it leave over the links, and
their answers are not bounded in time (R402). -/
def State.elsewhere (s : State) (c gid lid : Nat) : Bool :=
  match s.groupOf gid with
  | some _ => let e := s.placeEntry c gid lid; e != 0 && entModule e != s.module.modid
  | none => false

/-- Let core `c` read the placement entry of a lid, unless it is already reading it (R333). -/
def State.lookUp (s : State) (c gid lid : Nat) : State :=
  if s.agenda.any (fun e => e.2 == .locationLookupReply c gid lid) then s
  else s.after (s.placeTime c gid lid) (.locationLookupReply c gid lid)

/-- The time until core `c` has the answer to its read of a placement entry. -/
def State.lookTime (s : State) (c gid lid : Nat) : Nat :=
  match s.agenda.find? (fun e => e.2 == .locationLookupReply c gid lid) with
  | some e => e.1 - s.cycle
  | none => s.placeTime c gid lid

/-- Where a core forwards what reaches it for a lid that is not there: what its departed table names, which counts as a use of that
entry (R334), else the placement table (R215). -/
def State.forwardTo (s : State) (c gid lid : Nat) : State × LocEnt :=
  let k := s.coreAt c
  match findLoc k.departed gid lid with
  | some e => (s.setCoreAt c { k with departed := putLoc k.departed e 8 }, e)
  | none => (s, s.placeLoc c gid lid)

/-- A core forwards what core `from_` sent it, and sends a moved notice to that core's location cache (R215): the state, and the core
that it goes to. -/
def State.forward (s : State) (c from_ gid lid : Nat) : State × Nat :=
  let r := s.forwardTo c gid lid
  (r.1.after (transit c from_) (.movedNoticeArrival from_ r.2), r.2.core)

/-- The host gateway, where a step names a core (R412). -/
def gateCore : Nat := 3072

/-- Forward what has come to a core for a lid that is not there, with a notice to the core that sent it (R215); a gateway has no
location cache, and gets none. -/
def State.forwardOn (s : State) (core origin gid lid : Nat) : State × Nat :=
  if origin = gateCore then let r := s.forwardTo core gid lid; (r.1, r.2.core) else s.forward core origin gid lid

/-- The use of an entry of a location cache (R333). -/
def State.useLoc (s : State) (c : Nat) (e : LocEnt) : State :=
  let k := s.coreAt c
  s.setCoreAt c { k with loc := putLoc k.loc e 64 }

/-- The way on from core `cur`, reached `t` cycles from now, to the core `a` that holds a process: each core that the process has left
forwards and sends core `c` a moved notice (R215). The state, and the time of the whole way. -/
def State.chase (c g l a : Nat) : Nat → Nat → Nat → State → State × Nat
  | 0, cur, t, s => (s, t + transit cur a)
  | f + 1, cur, t, s =>
    if cur = a then (s, t)
    else
      let r := s.forwardTo cur g l
      if r.2.core = cur then (r.1, t + transit cur a)
      else State.chase c g l a f r.2.core (t + transit cur r.2.core) (r.1.after (t + transit cur c) (.movedNoticeArrival c r.2))

/-- The way of an access or a wake of core `c` to a process, made in one step (R333, R215): the location cache with the entry used and
the time by which the way is longer than the direct one. A miss adds the read of the placement entry, which fills the cache when it is
answered; an entry that is out of date adds the forwarding and brings a moved notice of every core that forwards. -/
def State.seek (s : State) (c : Nat) (p : Place) : State × Nat :=
  let c := c % 4096
  match p with
  | .win g l _ =>
    match s.coreOf g l with
    | none => (s, 0)
    | some a =>
      if a = c then (s, 0)
      else
        match findLoc (s.coreAt c).loc g l with
        | none => (s.lookUp c g l, s.lookTime c g l)
        | some e =>
          let s1 := s.useLoc c e
          if e.core = a then (s1, 0)
          else
            let r := s1.chase c g l a 9 e.core (transit c e.core)
            (r.1, r.2 - transit c a)
  | _ => (s, 0)

/-- Send a request of the thread in focus, which a step of its own performs: to the core that the location cache names for a lid, after
the read of the placement entry where it names none (R333); else `n` cycles from now, to no core that could have been left. -/
def State.request (s : State) (p : Place) (n : Nat) (e : Instr) : State :=
  let s := s.setThr { s.thr with sentTo := none }
  match p with
  | .win g l _ =>
    if s.coreOf g l = some s.here then s.after n e
    else
      match findLoc s.core.loc g l with
      | some x => ((s.useLoc s.here x).setThr { s.thr with sentTo := some x.core }).after (transit s.here x.core) e
      | none =>
        let s1 := s.lookUp s.here g l
        { s1 with core := { s1.core with seeking := s1.core.seeking ++ [(g, l, s.slot.val, e)] } }
  | _ => s.after n e

/-- The swap, move or migration in whose transfer a core takes part: what reaches it for a mover is held until it ends (R346). -/
def State.inTransfer (s : State) (c : Nat) : Bool := s.moves.any (fun m => m.transfer && (m.a == c || m.b == c))

/-- Where a request of the thread in focus has come to (R215, R346): held, as its target is being moved; forwarded, as its target has
left; or there. -/
inductive Reached where
  | held
  | sent (s : State) (n : Nat)
  | here

/-- Whether a request to a process has reached it (R215, R346). -/
def State.reached (s : State) (g l : Nat) : Reached :=
  match s.thr.sentTo with
  | none => .here
  | some c =>
    if s.inTransfer c then .held
    else if s.coreOf g l = some c then .here
    else
      let r := s.forward c s.here g l
      if r.2 = c then .here else .sent (r.1.setThr { r.1.thr with sentTo := some r.2 }) (transit c r.2)

/-! ### Writes at home -/

/-- A wake leaves core `c`, or a gateway, for core `to_`, where it is `n` cycles from now (R193). -/
def State.wakeTo (s : State) (c to_ n : Nat) (e : Instr) : State := ({ s with wakes := s.wakes ++ [(e, to_, c)] } : State).after n e

/-- Send the wake of a watch entry from its home: to a thread of slot 11 on its core, else to the process by the way of R333, over a
link to one on another module. -/
def State.sendWake (s : State) (home : Nat) (w : Watch) : State :=
  let e : Instr := .monitorWake w.gid w.lid w.slot w.mon w.gen
  if 65536 ≤ w.gid then s.after (transit home (w.gid - 65536)) e
  else if (s.coreOf w.gid w.lid).isNone && s.elsewhere home w.gid w.lid then
    s.linkSend home 0 0 (.wake w.gid w.lid w.slot w.mon w.gen)
  else if s.coreOf w.gid w.lid = some home then s.wakeTo home home 0 e
  else
    match findLoc (s.coreAt home).loc w.gid w.lid with
    | some x => (s.useLoc home x).wakeTo home x.core (transit home x.core) e
    | none =>
      let s1 := s.lookUp home w.gid w.lid
      let k := s1.coreAt home
      s1.setCoreAt home { k with seeking := k.seeking ++ [(w.gid, w.lid, 12, e)] }

/-- Send a wake to every monitor that watches the line of a write (R196). -/
def State.fireWatches (s : State) (p : Place) : State :=
  let l := p.align 256
  let home := s.homeOf p
  s.watches.foldl (fun (acc : State) w => if w.line == l then acc.sendWake home w else acc) s

/-- Write the bytes of a mask at a place, low byte first. -/
def State.pokeMask (s : State) (p : Place) (v mask : Nat) : Nat → State
  | 0 => s
  | n + 1 => State.pokeMask (if mask % 2 = 1 then s.poke p 1 (v % 256) else s) (p.plus 1) (v / 256) (mask / 2) n

/-- The 16-byte units of which a write with a byte mask covers every byte (R187). -/
def coveredUnits (p : Place) (n mask : Nat) : List Place :=
  let k := match p with
    | .phys a => a % 16 | .win _ _ o => o % 16 | .host _ a => a % 16 | .mmio _ o => o % 16
  ((unitsOf p n).zipIdx.filter (fun e =>
    decide (k ≤ 16 * e.2) && decide (16 * e.2 + 16 ≤ k + n) && mask / 2 ^ (16 * e.2 - k) % 2 ^ 16 == 2 ^ 16 - 1)).map Prod.fst

/-- A write performed at home (R371): its bytes, the errors it covers (R187), the monitors it triggers (R196). -/
def State.homeWrite (s : State) (p : Place) (n v mask : Nat) : State :=
  let full := decide (mask % 2 ^ n = 2 ^ n - 1)
  let s1 := if full then s.poke p n v else s.pokeMask p v mask n
  let s2 := if s1.bad.isEmpty then s1 else
    let c := coveredUnits p n mask
    { s1 with bad := s1.bad.filter (fun u => !c.contains u) }
  s2.fireWatches p

/-! ### Signatures (R164-R168) -/

/-- Membership in a signature: the lines entered, and perhaps others (R164; Config.sigFalseHit). -/
def Sig.has (g : Sig) (line : Nat) : Bool := g.all || g.lines.contains line || Config.sigFalseHit g.lines line

/-- The union of two signatures. -/
def Sig.join (a b : Sig) : Sig := { all := a.all || b.all, lines := a.lines ++ b.lines.filter (fun l => !a.lines.contains l) }

/-- W of a process as a signature. -/
def Proc.wSig (p : Proc) : Sig := { all := p.sigWAll.isSome, lines := p.sigW.map Prod.fst }

/-- Enter a line into W. -/
def Proc.enterW (p : Proc) (line : Nat) : Proc :=
  { p with sigW := (line, p.wStamp) :: p.sigW.filter (fun e => e.1 != line) }

/-- Enter a line of a page of a given scope into W (R159, R164): one of fabric scope is noted as such. -/
def Proc.enterScoped (p : Proc) (line scope : Nat) : Proc :=
  let p1 := p.enterW line
  if scope = 2 ∧ !p.fabW.contains line then { p1 with fabW := line :: p1.fabW } else p1

/-- Enter a line into R. -/
def Proc.enterR (p : Proc) (line : Nat) : Proc :=
  if p.sigR.lines.contains line then p else { p with sigR := { p.sigR with lines := line :: p.sigR.lines } }

/-- Enter every line of a signature into W (R374). -/
def Proc.enterSig (p : Proc) (g : Sig) : Proc :=
  let p1 := g.lines.foldl Proc.enterW p
  if g.all then { p1 with sigWAll := some p1.wStamp } else p1

/-- Take a snapshot of W (R165 step 2): the signature and its stamp. -/
def Proc.snapshot (p : Proc) : Sig × Nat × Proc := (p.wSig, p.wStamp, { p with wStamp := p.wStamp + 1 })

/-- Remove a snapshot's lines from W; lines entered after the snapshot stay (R165 steps 2 and 5). -/
def Proc.dropSnapshot (p : Proc) (g : Sig) (stamp : Nat) : Proc :=
  let w := p.sigW.filter (fun e => !(g.lines.contains e.1 && decide (e.2 ≤ stamp)))
  { p with sigW := w, sigWAll := p.sigWAll.filter (fun k => !(g.all && decide (k ≤ stamp))),
           fabW := p.fabW.filter (fun l => w.any (fun e => e.1 == l)) }

/-! ### Lines of a cluster cache (R162, R163) -/

/-- Replace a line, or add it. -/
def Cluster.setLine (k : Cluster) (l : CacheLine) : Cluster :=
  if k.lines.any (fun m => m.line == l.line) then
    { k with lines := k.lines.map (fun m => if m.line == l.line then l else m) }
  else { k with lines := l :: k.lines }

/-- Drop a line. -/
def Cluster.dropLine (k : Cluster) (line : Nat) : Cluster := { k with lines := k.lines.filter (fun m => m.line != line) }

/-- Put `n` bytes into a line at byte `k` where the mask has ones. -/
def mergeBytes (d : BitVec 2048) (k n v mask : Nat) : BitVec 2048 :=
  (List.range n).foldl (fun (d : BitVec 2048) i =>
    if mask / 2 ^ i % 2 = 1 then
      (d &&& ~~~ (BitVec.ofNat 2048 (255 * 2 ^ (8 * (k + i))))) ||| BitVec.ofNat 2048 (v / 256 ^ i % 256 * 2 ^ (8 * (k + i)))
    else d) d

/-- Write the dirty bytes of one sector home and clear their mask (R162); a sector with an uncorrectable error is not
written, and the error is noted (R163): the mask is cleared, and where the sector is valid its later readers meet the error. The flag
tells that. A sector of another module's vault leaves over a link, and its acknowledgement is awaited by releases (R159, R165); the write-back
of a core that holds no process, for one that comes to it, is counted at the core (R168). -/
def State.writeBackSector (s : State) (cl : Nat) (l : CacheLine) (sec : Nat) : State × Bool :=
  let mask := l.dirty.toNat / 2 ^ (64 * sec) % 2 ^ 64
  if mask = 0 then (s, false)
  else
    let pa := l.line * 256 + 64 * sec
    let p := placeOf s pa
    let badHere := l.bad.extractLsb' (4 * sec) 4 != 0
    let k := s.clusterAt cl
    let l1 := ((k.lineOf pa).getD l)
    let keep := l1.valid.getLsbD sec
    let l2 := { l1 with dirty := l1.dirty &&& ~~~ (byteMask (64 * sec) 64),
                        bad := if keep then l1.bad else l1.bad &&& ~~~ (BitVec.ofNat 16 (15 * 2 ^ (4 * sec))), last := false }
    let s1 := s.setCluster cl (k.setLine l2)
    let v := lineBytes l.data (64 * sec) 64
    if badHere then (s1.noteError s.here p, true)
    else if farPlace p then
      let a : Acc := { kind := .store, place := p, size := 64, val := v, mask := mask }
      ((s1.setProc { s1.proc with remoteStores := s1.proc.remoteStores + 1 }).linkAsk s1.here (if s1.core.occupied then 13 else 12) a, false)
    else (s1.homeWrite p 64 v mask, false)

/-- Write back a line: its four sectors. -/
def State.writeBackLine (s : State) (cl : Nat) (l : CacheLine) : State × Bool :=
  (List.range 4).foldl (fun (acc : State × Bool) sec =>
    let r := acc.1.writeBackSector cl l sec
    (r.1, acc.2 || r.2)) (s, false)

/-- The first unit of a line's dirty bytes that is away (R183). -/
def State.lineBlocked (s : State) (l : CacheLine) : Option Place :=
  (List.range 16).findSome? (fun i =>
    if l.dirty.toNat / 2 ^ (16 * i) % 2 ^ 16 = 0 then none
    else
      let u := (placeOf s (l.line * 256 + 16 * i)).align 16
      if (s.unitAway u).isSome then some u else none)

/-- The outcome of writing lines back: done, with whether an error was met; or a unit away for which the write-back has to
wait. -/
inductive WbRes where
  | done (s : State) (machine : Bool)
  | blocked (u : Place)

/-- Write back every selected line of a cluster's cache, and drop it too where asked. -/
def State.writeBackAll (s : State) (cl : Nat) (sel : CacheLine → Bool) (drop : Bool) : WbRes :=
  let ls := (s.clusterAt cl).lines.filter sel
  match ls.findSome? s.lineBlocked with
  | some u => .blocked u
  | none =>
    let r := ls.foldl (fun (acc : State × Bool) l =>
      let w := acc.1.writeBackLine cl l
      let s1 := if drop then w.1.setCluster cl ((w.1.clusterAt cl).dropLine l.line) else w.1
      (s1, acc.2 || w.2)) (s, false)
    .done r.1 r.2

/-- Scope of a leaf (Table 7.2). -/
def pteScope (pte : Word) : Nat := pte.toNat / 16 % 4

/-- The outcome of an access in a cluster cache; `ask` wants a sector of another module. -/
inductive CacheRes where
  | ok (s : State) (val : Nat) (hit : Bool)
  | machine (s : State)
  | away (u : Place)
  | ask

/-- Put a sector that has come from its home into a line (R162): dirty bytes keep their cached values. -/
def CacheLine.fill (l : CacheLine) (sec v : Nat) : CacheLine :=
  let dm := l.dirty.toNat / 2 ^ (64 * sec) % 2 ^ 64
  { l with valid := l.valid ||| BitVec.ofNat 4 (2 ^ sec), data := mergeBytes l.data (64 * sec) 64 v (2 ^ 64 - 1 - dm) }

/-- A load served in a cluster cache (R162): a hit on valid or dirty bytes, else a fill of the whole sector from home in
which dirty bytes keep their cached values. A sector of which home holds a bad unit is not held valid (R163). -/
def State.cacheLoad (s : State) (cl pa n scope : Nat) : CacheRes :=
  let k := s.clusterAt cl
  let sec := pa % 256 / 64
  let l := (k.lineOf pa).getD { line := pa / 256, valid := 0, dirty := 0, scope := scope, last := false, data := 0 }
  let off := pa % 256
  let here := l.valid.getLsbD sec || (l.dirty &&& byteMask off n) == byteMask off n
  if here then
    if s.seenBad k pa n then .machine (s.noteError s.here (placeOf s pa)) else .ok s (lineBytes l.data off n) true
  else
    let base := pa - pa % 64
    if farPlace (placeOf s base) then .ask
    else
      match s.awayIn (placeOf s base) 64 with
      | some u => .away u
      | none =>
        if s.seenBad k pa n then .machine (s.noteError s.here (placeOf s pa))
        else if s.isBad (placeOf s base) 64 then .ok s (s.seenBytes k pa n) false
        else
          let l1 := l.fill sec (s.peek (placeOf s base) 64)
          .ok (s.setCluster cl (k.setLine l1)) (lineBytes l1.data off n) false

/-- A sector of another module's vault reaches a cluster (R162, R247). -/
def State.fillFar (s : State) (cl pa scope v : Nat) : State :=
  let k := s.clusterAt cl
  let l := (k.lineOf pa).getD { line := pa / 256, valid := 0, dirty := 0, scope := scope, last := false, data := 0 }
  s.setCluster cl (k.setLine (l.fill (pa % 256 / 64) v))

/-- Put the bytes of a mask into a line: the marks of the 16-byte units that they cover go (R187). -/
def CacheLine.merge (l : CacheLine) (off n v mask : Nat) : CacheLine :=
  let dm := BitVec.ofNat 256 ((mask % 2 ^ n) * 2 ^ off)
  let clean := (List.range 16).filter (fun u => dm &&& byteMask (16 * u) 16 == byteMask (16 * u) 16)
  { l with data := mergeBytes l.data off n v mask,
           bad := l.bad &&& ~~~ (clean.foldl (fun (b : BitVec 16) u => b ||| BitVec.ofNat 16 (2 ^ u)) 0) }

/-- A store into a cluster cache (R162): the line is allocated without a fetch, its bytes written and marked dirty. -/
def State.cacheStore (s : State) (cl pa n v mask scope : Nat) : State :=
  let k := s.clusterAt cl
  let l := (k.lineOf pa).getD { line := pa / 256, valid := 0, dirty := 0, scope := scope, last := false, data := 0 }
  let off := pa % 256
  s.setCluster cl (k.setLine { l.merge off n v mask with dirty := l.dirty ||| BitVec.ofNat 256 ((mask % 2 ^ n) * 2 ^ off) })

/-- A write past the cache of a cluster whose threads must see it (R286, R289): a copy of the line takes the bytes, which are dirty no
longer. DEDUCED from the two rules (log entry 85). -/
def State.passCache (s : State) (cl pa n v : Nat) : State :=
  let k := s.clusterAt cl
  match k.lineOf pa with
  | none => s
  | some l =>
    let off := pa % 256
    s.setCluster cl (k.setLine { l.merge off n v (2 ^ n - 1) with dirty := l.dirty &&& ~~~ byteMask off n })

/-! ### Release and acquire (R165, R167, R374) -/

/-- The outcome of steps 1 to 3 of a release: the snapshot, its write-backs acknowledged; a wait; or an error met by a write-back. -/
inductive RelRes where
  | ok (s : State) (snap : Sig) (stamp : Nat)
  | wait (s : State) (on : RetryOn)
  | machine (s : State)

/-- The time of the acknowledgement of a line's write-back (R154, R165): that of an uncached store at its home. -/
def State.lineTime (s : State) (l : CacheLine) : Nat := 70 + 2 * clusterTransit s.here (paCore (l.line * 256))

/-- Whether a release has to wait for the stores and write-backs of the process to other modules (R159, R165): a line of its snapshot is
of fabric scope or lies in another module's vault, as one of an all-ones snapshot may. -/
def State.waitsRemote (s : State) (g : Sig) : Bool :=
  decide (0 < s.proc.remoteStores) &&
    (g.all || s.proc.fabW.any g.has || g.lines.any (fun l => farPlace (placeOf s (l * 256))))

/-- Steps 1 to 3 of R165 for the thread in focus: its queue is empty, the snapshot of W is taken and the dirty sectors of its lines,
but those of private scope, are written back; then the thread waits for the acknowledgements, with the snapshot kept in it. An error
met by a write-back ends the release with MACHINE before its store is sent (log entry 52). -/
def State.releaseSteps (s : State) : RelRes :=
  match s.thr.rel with
  | some (g, st) => if s.waitsRemote g then .wait s .remoteAcks else .ok s g st
  | none =>
    if s.thr.storeQ ≠ [] then .wait s .storeEmpty
    else
      let (g, st, p1) := s.proc.snapshot
      let cl := clusterOf s.here
      let sel (l : CacheLine) : Bool := l.scope != 0 && g.has l.line
      let ls := (s.clusterAt cl).lines.filter (fun l => sel l && l.dirty != 0)
      match (s.setProc p1).writeBackAll cl sel false with
      | .blocked u => .wait s (.unitHome u)
      | .done s1 true => .machine s1
      | .done s1 false =>
        let s2 := s1.setThr { s1.thr with rel := some (g, st) }
        match ls with
        | [] => if s2.waitsRemote g then .wait s2 .remoteAcks else .ok s1 g st
        | _ => .wait s2 (.wbAck (s.cycle + (ls.map s.lineTime).foldl max 0))

/-- The outcome of the steps of an acquire. -/
inductive AcqRes where
  | ok (s : State)
  | wait (s : State) (on : RetryOn)
  | machine (s : State)

/-- Steps 1 to 3 of R167 for the process of the core in focus, and R374: the lines of the signature are written back and
dropped from the cluster's cache but for private scope; once that is acknowledged R is cleared, and the lines enter W. A write-back
that meets an error gives MACHINE (R163; log entry 52). -/
def State.acquireSteps (s : State) (g : Sig) : AcqRes :=
  let cl := clusterOf s.here
  let sel (l : CacheLine) : Bool := l.scope != 0 && g.has l.line
  let ls := (s.clusterAt cl).lines.filter (fun l => sel l && l.dirty != 0)
  match s.writeBackAll cl sel true with
  | .blocked u => .wait s (.unitHome u)
  | .done s1 true => .machine s1
  | .done s1 false =>
    match ls with
    | [] =>
      if 0 < s1.proc.remoteStores ∧ (g.all ∨ g.lines.any (fun l => farPlace (placeOf s (l * 256)))) then .wait s1 .remoteAcks
      else .ok (s1.setProc ({ s1.proc with sigR := {} }.enterSig g))
    | _ => .wait s1 (.wbAck (s.cycle + (ls.map s.lineTime).foldl max 0))

/-! ### Writes of the hardware's own -/

/-- The number of a link step that performs a request inside the module: no flit has it, their numbers being of 12 bits (R402). -/
def innerSeq : Nat := 4096

/-- Let a step wait at a bank whose mode is being changed (R161). -/
def State.waitBank (s : State) (cl b : Nat) (e : Instr) : State :=
  let k := s.clusterAt cl
  s.setCluster cl { k with bankWait := k.bankWait ++ [(b, e)] }

/-- A write of `n` bytes inside one unit that the hardware makes at a physical address: it waits for a unit that is away and at a bank whose
mode is being changed, as any other (R161, R183). -/
def State.hardWrite (s : State) (a n v : Nat) : State :=
  let p : Place := .phys a
  let later : Instr := .linkFlitReceive 0 innerSeq true
    (.request { tag := { modid := s.module.modid, core := paCore a, who := 15 }, gid := 0, lid := 0, kind := .put, place := p, size := n, val := v })
  match s.awayIn p n, s.bankBusy p with
  | some u, _ => s.waitUnit u later
  | none, some (cl, b) => s.waitBank cl b later
  | none, none => s.homeWrite p n v (2 ^ n - 1)

/-- Core `c` writes a placement entry: move count, module, RES, ENDED and core (R332). -/
def State.setPlace (s : State) (c gid lid mc : Nat) (res ended : Bool) (core : Nat) : State :=
  match s.placeAt c gid lid with
  | some a =>
    s.hardWrite a 8 (mc % 2 ^ 16 * 2 ^ 48 + s.module.modid % 2 ^ 16 * 2 ^ 32 + (if res then 2 ^ 31 else 0) + (if ended then 2 ^ 30 else 0) +
      core % 2 ^ 12)
  | none => s

/-! ### Signature slots (R166) -/

/-- The slot of a word, moved to the recent end. -/
def State.touchSlot (s : State) (word : Place) : State :=
  match s.sigSlots.find? (fun e => e.word == word) with
  | some e => { s with sigSlots := s.sigSlots.filter (fun e => e.word != word) ++ [e] }
  | none => s

/-- The signature of a word's slot, or all-ones (R166). -/
def State.slotSig (s : State) (word : Place) : Sig :=
  match s.sigSlots.find? (fun e => e.word == word) with
  | some e => e.sig
  | none => { all := true, lines := [] }

/-- The core whose slot a word has: none for a window that no core holds. -/
def State.slotHome (s : State) : Place → Option Nat
  | .win g l _ => s.coreOf g l
  | p => some (s.homeOf p)

/-- The slots of a core are at most 64: the least recently used are replaced (R166). The list is in order of use. -/
def State.trimSlots (s : State) (home : Nat) : State :=
  let here := s.sigSlots.filter (fun e => s.slotHome e.word == some home)
  let gone := here.take (here.length - 64)
  if gone.isEmpty then s else { s with sigSlots := s.sigSlots.filter (fun e => !gone.contains e) }

/-- Set the signature of a word, allocating a slot at its home and replacing the least recently used of 64 (R166). -/
def State.setSlot (s : State) (word : Place) (g : Sig) : State :=
  let home := s.homeOf word
  ({ s with sigSlots := s.sigSlots.filter (fun e => e.word != word) ++ [{ word := word, home := home, sig := g }] } : State).trimSlots home

/-- A release store or atomic ORs its snapshot into the slot (R166). -/
def State.releaseSlot (s : State) (word : Place) (g : Sig) : State :=
  match s.sigSlots.find? (fun e => e.word == word) with
  | some e => s.setSlot word (e.sig.join g)
  | none => s.setSlot word g

end Sys2Proof.Machine
end

