-- ==== Sys2Proof/Machine/Anneal.lean ====
section
/-! DEFINITION. Annealer units as data: domains, positions, energy, and the parameters of Tables 15.7 to 15.9 (R30, R335-R344,
R363-R365). -/

namespace Sys2Proof.Machine

/-! ### Domains (R30, R335) -/

/-- Every core that has a state of its own, the one in focus first. -/
def State.allCores (s : State) : List (Nat × Core) := (s.here, s.core) :: s.others

/-- The domain of a region's position (R30): north-west corner in absolute cores, width and height. -/
def domainAt (rx ry rw rh x y : Nat) : Nat × Nat × Nat × Nat :=
  if rw * rh ≤ 256 then (rx, ry, rw, rh)
  else
    let dx := (x - rx) / 16 * 16
    let dy := (y - ry) / 16 * 16
    (rx + dx, ry + dy, min 16 (rw - dx), min 16 (rh - dy))

/-- The domain in which a core of a process's region lies. -/
def Proc.domain (p : Proc) (c : Nat) : Nat × Nat × Nat × Nat := domainAt p.rx p.ry p.rw p.rh (coreX c) (coreY c)

/-- A unit by its die and number. -/
def State.aunitOf (s : State) (die idx : Nat) : Option AUnit := s.aunits.find? (fun u => u.die == die && u.idx == idx)

/-- Replace a unit. -/
def State.setAunit (s : State) (u : AUnit) : State :=
  { s with aunits := s.aunits.map (fun x => if x.die == u.die && x.idx == u.idx then u else x) }

/-- The unit that serves a domain, by the domain's corner. -/
def State.unitAt (s : State) (gid : Nat) (dom : Nat × Nat × Nat × Nat) : Option (Nat × Nat) :=
  (s.aunits.find? (fun u => u.gid == gid && u.gx == dom.1 && u.gy == dom.2.1)).map (fun u => (u.die, u.idx))

/-- The core that holds a unit: its domain's north-west core (R363). -/
def AUnit.core (u : AUnit) : Nat := coreId u.gx u.gy

/-- The processes of a unit's domain, with their cores. -/
def State.domainProcs (s : State) (u : AUnit) : List (Nat × Proc) :=
  s.allCores.filterMap (fun e =>
    if e.2.occupied && e.2.proc.gid == u.gid && e.2.proc.unit == some (u.die, u.idx) then some (e.1, e.2.proc) else none)

/-- The core of the process with a domain index. -/
def State.indexCore (s : State) (u : AUnit) (i : Nat) : Option Nat :=
  ((s.domainProcs u).find? (fun e => e.2.didx == i)).map Prod.fst

/-! ### Energy and its change (R338, R341) -/

/-- A weight of the coefficient memory. -/
def AUnit.weight (u : AUnit) (i j : Nat) : Nat := ((u.wts.find? (fun e => e.1 == i && e.2.1 == j)).map (fun e => e.2.2)).getD 0

/-- Set a weight; a weight of zero has no entry. -/
def AUnit.setWeight (u : AUnit) (i j w : Nat) : AUnit :=
  let rest := u.wts.filter (fun e => !(e.1 == i && e.2.1 == j))
  { u with wts := if w = 0 then rest else rest ++ [(i, j, w)] }

/-- Zero the rows and columns of an index (R335, R253); what a fold has gathered under it goes too (R337). -/
def AUnit.dropIndex (u : AUnit) (i : Nat) : AUnit :=
  { u with wts := u.wts.filter (fun e => e.1 != i && e.2.1 != i), ext := u.ext.filter (fun e => e.1 != i),
           fold := u.fold.map (fun l => l.filter (fun e => e.1 != i)) }

/-- The position of a partner outside a domain: what its placement entry says when the unit on core `c` reads it (R338). -/
def State.entryCore (s : State) (c gid lid : Nat) : Nat := s.placeEntry c gid lid % 2 ^ 12

/-- E (R338). -/
def State.energy (s : State) (u : AUnit) : Nat :=
  let ps := s.domainProcs u
  let pos (i : Nat) : Option Nat := (ps.find? (fun e => e.2.didx == i)).map Prod.fst
  let ins := u.wts.map (fun e => match pos e.1, pos e.2.1 with
    | some a, some b => e.2.2 * distance a b
    | _, _ => 0)
  let outs := u.ext.map (fun e => match pos e.1 with
    | some a => e.2.2.2 * distance a (s.entryCore u.core e.2.1 e.2.2.1)
    | none => 0)
  ins.sum + outs.sum

/-- The part of the change of E that comes of moving one process between two cells. The other mover is no partner, in the unit's memory or in
its external table. -/
def State.deltaOf (s : State) (u : AUnit) (p : Proc) (other : Option Proc) (a b : Nat) : Int :=
  let ins := (s.domainProcs u).map (fun e =>
    if e.2.didx = p.didx ∨ some e.2.didx = other.map (·.didx) then 0
    else ((u.weight p.didx e.2.didx + u.weight e.2.didx p.didx : Nat) : Int) * ((distance b e.1 : Int) - distance a e.1))
  let outs := u.ext.map (fun e =>
    if e.1 = p.didx ∧ !(other.any (fun q => q.gid == e.2.1 && q.lid == e.2.2.1)) then
      let c := s.entryCore u.core e.2.1 e.2.2.1
      (e.2.2.2 : Int) * ((distance b c : Int) - distance a c)
    else 0)
  ins.sum + outs.sum

/-- ΔE of a swap of two cells (R341). -/
def State.delta (s : State) (u : AUnit) (a b : Nat) : Int :=
  let ka := s.coreAt a
  let kb := s.coreAt b
  let ia := if ka.occupied then some ka.proc else none
  let ib := if kb.occupied then some kb.proc else none
  (if ka.occupied then s.deltaOf u ka.proc ib a b else 0) + (if kb.occupied then s.deltaOf u kb.proc ia b a else 0)

/-! ### Parameters (Tables 15.7-15.9) -/

/-- The code of a reason (Table 15.9). -/
def Reason.code : Reason → Nat
  | .committed => 0 | .draw => 1 | .anchored => 2 | .timeout => 3 | .outside => 4 | .empty => 5 | .busy => 6 | .inflight => 7

/-- LAST (Table 15.9): ΔE saturated to 32 bits and k to 255. -/
def AUnit.last (u : AUnit) : Nat :=
  let d : Int := max (-(2 ^ 31)) (min u.delta (2 ^ 31 - 1))
  (d % 2 ^ 32).toNat * 2 ^ 32 + (if u.drawing.isSome then Reason.inflight else u.reason).code * 2 ^ 24 + u.dir * 2 ^ 16 + u.cell * 2 ^ 8 + min u.kreq 255

/-- Whether the timed proposal is due (R339), one that waits for its draw entry no longer. -/
def AUnit.timed (u : AUnit) (now : Nat) : Bool :=
  u.drawing != some true && u.ctl % 4 == 3 && (match u.resolvedAt with | some r => decide (r + u.pint ≤ now) | none => false)

/-- Whether a selector is well formed (R363). -/
def selectorOk (sel : Word) : Bool :=
  let n := sel.toNat
  decide (n % 256 ≤ 0x11) && n / 2 ^ 8 % 2 ^ 8 == 0 && n / 2 ^ 32 == 0 && (n % 256 == 0x10 || n / 2 ^ 16 == 0)

/-- The index i of a selector. -/
def selI (sel : Word) : Nat := sel.toNat / 2 ^ 16 % 256
/-- The index j of a selector. -/
def selJ (sel : Word) : Nat := sel.toNat / 2 ^ 24 % 256

/-- The value of a parameter, none for a write-only one or an index that is not in use. While a fold runs, WEIGHT and ENERGY give what
they were before it (R337, R365). -/
def State.annRead (s : State) (u : AUnit) (sel : Word) : Option Nat :=
  match sel.toNat % 256 with
  | 0x00 => some u.ctl
  | 0x01 => some u.pint
  | 0x02 => some u.seed.toNat
  | 0x03 => some u.tcur
  | 0x04 => some u.offs
  | 0x05 => some u.swto
  | 0x06 => some u.tbase.toNat
  | 0x07 => some u.tlen
  | 0x08 => some u.tpos
  | 0x0B => some (u.props + 256 * u.sweeps)
  | 0x0C => some u.rej
  | 0x0D => some (if u.fold.isSome then u.eWas else s.energy u)
  | 0x0E => some u.last
  | 0x0F => some (u.gx + u.gy * 2 ^ 8 + u.w * 2 ^ 16 + u.h * 2 ^ 24 + u.die * 2 ^ 32 + u.idx * 2 ^ 36)
  | 0x10 =>
    if (s.indexCore u (selI sel)).isSome && (s.indexCore u (selJ sel)).isSome then
      some ((if u.fold.isSome then { u with wts := u.wtsWas } else u).weight (selI sel) (selJ sel)) else none
  | 0x11 => some (u.commits % 2 ^ 32 + u.failures % 2 ^ 32 * 2 ^ 32)
  | _ => none

/-- Whether a group runs: from a pre-emption on, nothing of it is moved and its units propose nothing (R349, R390). -/
def State.groupRuns (s : State) (gid : Nat) : Bool := match s.groupOf gid with | some g => g.phase == .running | none => false

/-- Whether a unit still serves its domain: of a group that is being pre-empted, only while its proposal in flight is not resolved (R349). -/
def State.unitServes (s : State) (u : AUnit) : Bool := s.groupRuns u.gid || u.inFlight

/-- ANNGET at the unit (R363). -/
def State.annGet (s : State) (sel : Word) : Nat :=
  match s.proc.unit.bind (fun k => s.aunitOf k.1 k.2) with
  | some u => if selectorOk sel then (s.annRead u sel).getD (2 ^ 64 - 1) else 2 ^ 64 - 1
  | none => 2 ^ 64 - 1

/-- ANNSET at the unit (R363, R365): the step that stores the value in this cycle, none where it is refused. A unit whose group is being
pre-empted makes no further proposal, and refuses PROPOSE and FOLD as one that has been freed (R349; log entry 20). -/
def State.annSet (s : State) (sel v : Word) : Option Instr :=
  match s.proc.unit.bind (fun k => s.aunitOf k.1 k.2) with
  | none => none
  | some u =>
    let store : Option Instr := some (.registerWrite (.anneal u.die u.idx (sel.toNat % 256)) v)
    if !selectorOk sel then none
    else
      match sel.toNat % 256 with
      | 0x00 | 0x01 | 0x02 | 0x03 | 0x04 | 0x05 | 0x07 => store
      | 0x06 => if v.toNat / 2 ^ 48 ≠ 0 ∨ v.toNat % 4 ≠ 0 then none else store
      | 0x08 => some (.tposWrite u.die u.idx v)
      | 0x09 => if u.inFlight || u.fold.isSome || u.ctl % 2 == 0 || u.ctl / 16 % 2 == 1 || !s.groupRuns u.gid then none else some (.propose u.die u.idx)
      | 0x0A => if u.fold.isSome || !s.unitServes u then none else some (.fold u.die u.idx)
      | 0x10 =>
        if 65535 < v.toNat || (s.indexCore u (selI sel)).isNone || (s.indexCore u (selJ sel)).isNone then none
        else some (.weightWrite u.die u.idx (selI sel) (selJ sel) v)
      | _ => none

/-- What a parameter with no step of its own stores (Table 15.7). -/
def AUnit.store (u : AUnit) (num : Nat) (v : Word) : AUnit :=
  let n := v.toNat
  match num with
  | 0x00 => { u with ctl := u.ctl / 16 % 2 * 16 + n % 16 }
  | 0x01 => { u with pint := max 256 (min n 65535) }
  | 0x02 => { u with seed := if v.setWidth 32 = 0#32 then 1#32 else v.setWidth 32 }
  | 0x03 => { u with tcur := max 1 (min n 0xFFFFFF) }
  | 0x04 => { u with offs := min n 0x10000 }
  | 0x05 => { u with swto := max 1 (min n 1048575) }
  | 0x06 => { u with tbase := v }
  | 0x07 => { u with tlen := min n (2 ^ 24) }
  | _ => u

/-- Let the unit's timed proposal fall due (R339). -/
def State.armTimer (s : State) (u : AUnit) : State :=
  match u.resolvedAt with
  | some r => if u.ctl % 4 = 3 then s.afterOnce (r + u.pint - s.cycle) (.proposalTimer u.die u.idx) else s
  | none => s

/-- A unit's fold is abandoned: what it has still to read is not read (R349). -/
def State.dropFold (s : State) (u : AUnit) : State :=
  { s.setAunit { u with fold := none } with agenda := s.agenda.filter (fun e => e.2 != .fold u.die u.idx) }

/-- The occupant of a core, as LIDGET tells it (R358). -/
def State.occupant (s : State) (c : Nat) : Nat :=
  let k := s.coreAt c
  if k.occupied then k.proc.lid else 2 ^ 64 - 1

/-- Xorshift (R343). -/
def xorshift (x : BitVec 32) : BitVec 32 :=
  let a := x ^^^ (x <<< 13)
  let b := a ^^^ (a >>> 17)
  b ^^^ (b <<< 5)

/-- Leading zero bits of a 16-bit value (R340). -/
def clz16 (u : Nat) : Nat := if u = 0 then 16 else 15 - Nat.log2 u

end Sys2Proof.Machine
end

