-- ==== Sys2Proof/Machine/Access.lean ====
section
/-! DEFINITION. The accesses of a thread (R151-R154, R370-R372): resolving an address to a place, performing one access at
its place, the store queue and the one access in flight, and the steps of Table 18.1 that serve them. -/

namespace Sys2Proof.Machine

/-! ### Resolving (R24, R151, R156, R159, R160, R175) -/

/-- The answer of resolving an address: the place, whether its page may be cached, its scope and physical type (a window has
type 16). -/
inductive Resolved where
  | ok (p : Place) (cached : Bool) (scope ptype : Nat)
  | fault (t : Trap)
  | miss
  deriving DecidableEq, Repr

/-- What a type-1 access may find in its bank (R160): scratchpad mode, or the FIFO port. An access to a bank whose mode is being changed
waits there, and the new mode decides (R161). -/
def bankAllows (s : State) (pa : Nat) (fifo : Bool) : Bool :=
  s.bankChanging (clusterOf (paCore pa)) (paBank pa) ||
  match s.bankMode (clusterOf (paCore pa)) (paBank pa) with
  | .scratchpad => true
  | .fifo => fifo && pa % 2 ^ 18 == 0
  | .cache => false

/-- From a translated address to its place. -/
def resolvePa (s : State) (pa : Nat) (pte : Word) (fifo : Bool) : Resolved :=
  if paType pa = 1 ∧ !bankAllows s pa fifo then .fault .protect
  else .ok (placeOf s pa) (cacheable pa pte) (pteScope pte) (paType pa)

/-- Resolve the `n` bytes at an address for the thread in focus (R24, R151, R156, R160). -/
def State.resolve (s : State) (need : Need) (n : Nat) (va : Word) (fifo : Bool) (i : Nat) : Resolved :=
  match s.space va with
  | .bad t => .fault t
  | .own off => .ok (.win s.proc.gid s.proc.lid off) false 0 16
  | .other lid off => .ok (.win s.proc.gid lid off) false 0 16
  | .global =>
    match s.xlate (s.slot.val == 11) need n va i with
    | .miss => .miss
    | .fault t => .fault t
    | .ok pa pte => resolvePa s pa pte fifo

/-- Whether the cluster in focus caches at all (R160). -/
def State.cacheOn (s : State) : Bool := (s.clusterAt (clusterOf s.here)).on

/-- What is resolved for an access that is performed now: cached where the cluster caches at all (R160). -/
def Resolved.now (s : State) : Resolved → Resolved
  | .ok p c sc ty => .ok p (c && s.cacheOn) sc ty
  | r => r

/-- Resolve for an engine of the core in focus: nothing waits for a walk of a thread (R277), and a miss is a walk that waits at a bank
(R161). -/
def State.resolveNow (s : State) (sv : Bool) (need : Need) (n : Nat) (va : Word) (i : Nat) : Resolved :=
  match s.space va with
  | .bad t => .fault t
  | .own off => .ok (.win s.proc.gid s.proc.lid off) false 0 16
  | .other lid off => .ok (.win s.proc.gid lid off) false 0 16
  | .global =>
    match s.xlateNow sv need n va i with
    | .miss => .miss
    | .fault t => .fault t
    | .ok pa pte => (resolvePa s pa pte false).now s

/-! ### Performing one access (R370, Table 18.1) -/

/-- Whether an access is local: it lies in the window of the process in focus (R151). -/
def State.isLocal (s : State) (p : Place) : Bool :=
  match p with
  | .win g l _ => s.core.occupied && g == s.proc.gid && l == s.proc.lid
  | _ => false

/-- The outcome of an access at its place: performed, with its value, a signature for an acquire, and whether it hit in the
cache; a fault; a wait (the step comes again, or a fill of the granule answers it); or a request that another module has to
answer. -/
inductive Perf where
  | done (s : State) (val : Nat) (sig : Sig) (hit : Bool)
  | fault (s : State) (t : Trap)
  | wait (s : State)
  | ask (a : Acc)

/-- The step that performs an access of a thread at home: a release store and the arming of a
monitor have steps of their own. -/
def accessStep (k : AccKind) (core slot : Nat) : Instr :=
  match k with
  | .stl => .releaseAtHome core slot
  | .arm => .monitorArmAtHome core slot
  | _ => .remoteAccessAtHome core slot

/-- Whom an access is made for: a thread of the module (R370), or a request of another module that has come in by a port (R40, R247). -/
inductive Asker where
  | thread (core slot : Nat)
  | module (port : Nat) (r : LinkReq)

/-- The step that performs an access of a kind for it. -/
def Asker.step (w : Asker) (k : AccKind) : Instr :=
  match w with
  | .thread core slot => accessStep k core slot
  | .module n r => .linkFlitReceive n innerSeq true (.request r)

/-- Its place in the queue of a granule on the core `home` (R170). -/
def Asker.waiter (w : Asker) (home : Nat) (g : Place) (take : Bool) : GWaiter :=
  match w with
  | .thread core slot => { granule := g, core := core, slot := slot, take := take }
  | .module _ r => { granule := g, core := home, slot := 12, take := take, req := some r }

/-- A pop of the FIFO port: two entries, the first in bytes 15:0 (R160). -/
def fifoPair : List (BitVec 128) → Nat
  | a :: b :: _ => a.toNat + 2 ^ 128 * b.toNat
  | _ => 0

/-- First byte of a bank in scratchpad mode (Table 7.3). -/
def bankBase (cl b : Nat) : Nat := 2 ^ 56 + clusterCore cl (b % 4) * 2 ^ 28 + b * 2 ^ 18

/-- Whether an address lies in a bank. -/
def inBank (cl b a : Nat) : Bool := decide (bankBase cl b ≤ a) && decide (a < bankBase cl b + 2 ^ 18)

/-- An error mark after a pop of two entries of a bank in FIFO mode: the unit of number n of the bank stands for the entry that is n
places behind the front. -/
def markAfterPop (cl b : Nat) : Place → Place
  | .phys a => .phys (if inBank cl b a then a - 32 else a)
  | p => p

/-- How the FIFO port of a bank answers: the accessor has to park; it is served, with the entries of a pop; or a pop meets an
uncorrectable error (R163). -/
inductive FifoRes where
  | park
  | done (s : State) (v : Nat)
  | machine (s : State)

/-- Serve the FIFO port of a bank (R160). A pop that meets an uncorrectable error has no effect (R163). -/
def State.fifoServe (s : State) (cl b : Nat) (a : Acc) : FifoRes :=
  let k := s.clusterAt cl
  let q := (k.fifos[b]?).getD []
  match a.kind with
  | .fifoPop =>
    let port : Place := .phys (bankBase cl b)
    if q.length < 2 then .park
    else if s.isBad port 32 then .machine (s.noteError (s.homeOf port) port)
    else
      .done { s.setCluster cl { k with fifos := k.fifos.setIfInBounds b (q.drop 2) } with bad := s.bad.map (markAfterPop cl b) } (fifoPair q)
  | _ =>
    if 16384 < q.length + 2 then .park
    else
      let q' := q ++ [BitVec.ofNat 128 a.val, BitVec.ofNat 128 (a.val / 2 ^ 128)]
      .done (s.setCluster cl { k with fifos := k.fifos.setIfInBounds b q' }) 0

/-- The kind of access of a parked thread. -/
def State.pendKind (s : State) (core slot : Nat) : AccKind :=
  ((((s.coreAt core).slots.toList)[slot]?).bind (fun t => t.pend.head?.map (·.kind))).getD .load

/-- Perform an access of kind fifoPop or fifoPush, or park it in order of arrival (R160); a successful one lets the parked
accessors try again. -/
def State.performFifo (s : State) (cl b : Nat) (a : Acc) (core slot : Nat) : Perf :=
  let k := s.clusterAt cl
  let ahead := k.fifoWait.any (fun w => w.1 == b && s.pendKind w.2.1 w.2.2 == a.kind && !(w.2 == (core, slot)))
  match (if ahead then .park else s.fifoServe cl b a) with
  | .machine s1 => .fault s1 .machine
  | .done s1 v => .done (if k.fifoWait.isEmpty then s1 else s1.after 0 (.fifoPortServe cl b)) v {} true
  | .park =>
    if k.fifoWait.any (fun w => w.2 == (core, slot)) then .wait s
    else .wait (s.setCluster cl { k with fifoWait := k.fifoWait ++ [(b, core, slot)] })

/-- Perform an access in the cluster cache of the core in focus (R162), entering W or R (R164). -/
def State.performCached (s : State) (a : Acc) (pa core slot : Nat) : Perf :=
  let cl := clusterOf s.here
  let enters (s : State) (w : Bool) : State :=
    if a.scope = 3 then s
    else s.setProc (if w then s.proc.enterScoped (pa / 256) a.scope else s.proc.enterR (pa / 256))
  match a.kind with
  | .store =>
    .done (enters (s.cacheStore cl pa a.size a.val (if a.mask = 0 then 2 ^ a.size - 1 else a.mask) a.scope) true) 0 {} true
  | _ =>
    match s.cacheLoad cl pa a.size a.scope with
    | .ok s1 v hit => .done (enters s1 false) v {} hit
    | .machine s1 => .fault s1 .machine
    | .away u => .wait (s.waitUnit u (accessStep a.kind core slot))
    | .ask => .ask { a with kind := .load, place := (Place.phys pa).align 64, size := 64, asked := true }

/-- The key of a thread in steps that follow it when its process moves: group and lid; slot 11 stays with its core. -/
def State.keyOf (s : State) (core slot : Nat) : Nat × Nat :=
  if slot = 11 then (65536 + core, 0) else ((s.coreAt core).proc.gid, (s.coreAt core).proc.lid)

/-- The core of a thread's key. -/
def State.coreOfKey (s : State) (gid lid : Nat) : Option Nat := if 65536 ≤ gid then some (gid - 65536) else s.coreOf gid lid

/-- The generation of a thread's monitor. -/
def State.monGen (s : State) (core slot mon : Nat) : Nat :=
  ((((s.coreAt core).slots.toList)[slot]?).bind (fun t => (t.mons.toList)[mon]?.map (·.gen))).getD 0

/-- Install a watch entry at the home of its line (R193, R195); a full table of 256 entries fires and drops its oldest
(R196). -/
def State.installWatch (s : State) (w : Watch) : State :=
  let here := s.watches.filter (fun e => s.homeOf e.line == w.home)
  match (if here.length < 256 then none else here.head?) with
  | some o =>
    let s1 := s.sendWake w.home o
    { s1 with watches := s1.watches.filter (· != o) ++ [w] }
  | none => { s with watches := s.watches ++ [w] }

/-- Send the cancel of an armed monitor of the thread in focus to the home of its line (R198). -/
def State.sendCancel (s : State) (i : Nat) : State :=
  let m := (s.thr.mons.toList[i]?).getD {}
  if m.armed then
    let k := s.keyOf s.here s.slot.val
    s.after (transit s.here (s.homeOf m.line)) (.monitorCancelAtHome k.1 k.2 s.slot.val i m.gen)
  else s

/-- Monitor `i` of the thread in focus is armed on the line of a place (R195): one that was armed is cancelled first, and its generation
increased. -/
def State.armMonitor (s : State) (p : Place) (i : Nat) : State :=
  let s1 := s.sendCancel i
  let m := (s1.thr.mons.toList[i]?).getD {}
  let gen := if m.armed then (m.gen + 1) % 16 else m.gen
  s1.setThr { s1.thr with mons := s1.thr.mons.setIfInBounds i { armed := true, line := p.align 256, gen := gen, trig := false } }

/-- Arm a monitor of whoever asks on the line of a place: the watch entry is installed, and the monitor of a thread of the module set
(R195); that of a thread of another module is set there when the reply has come. -/
def State.armFor (s : State) (p : Place) (mon : Nat) (who : Asker) : State :=
  let w : Watch := { line := p.align 256, home := s.homeOf p, gid := 0, lid := 0, slot := 0, mon := mon, gen := 0 }
  match who with
  | .thread core slot =>
    let s1 := s.armMonitor p mon
    let k := s1.keyOf core slot
    s1.installWatch { w with gid := k.1, lid := k.2, slot := slot, gen := s1.monGen core slot mon }
  | .module _ r => s.installWatch { w with gid := r.gid, lid := r.lid, slot := r.tag.who, gen := r.val }

/-- Perform an access at home, in a window, a vault, a scratchpad bank, host memory or a remote module
(R169-R171, R175, R177, R183). -/
def State.performHome (s : State) (a : Acc) (who : Asker) : Perf :=
  let p := a.place
  let readAt (s : State) (sig : Sig) : Perf :=
    if s.isBad p a.size then .fault (s.noteError (s.homeOf p) p) .machine else .done s (s.delivered p a.size 0) sig true
  match s.awayIn p a.size with
  | some u => .wait (s.waitUnit u (who.step a.kind))
  | none =>
    match a.kind with
    | .load => readAt s {}
    | .store => .done (s.homeWrite p a.size a.val (if a.mask = 0 then 2 ^ a.size - 1 else a.mask)) 0 {} true
    | .ldf =>
      if s.isFull p then readAt s {}
      else .wait { s with waiters := s.waiters ++ [who.waiter (s.homeOf p) (p.align 16) false] }
    | .ldfc =>
      if s.isFull p then
        match readAt s {} with
        | .done s1 v g h => .done (s1.setBit p false) v g h
        | r => r
      else .wait { s with waiters := s.waiters ++ [who.waiter (s.homeOf p) (p.align 16) true] }
    | .stf => .done ((s.homeWrite p a.size a.val (2 ^ a.size - 1)).fillGranule p) 0 {} true
    | .fesete => .done ((s.setBit p false).fireWatches p) 0 {} true
    | .fesetf => .done ((s.fillGranule p).fireWatches p) 0 {} true
    | .feget => .done s (if s.isFull p then 1 else 0) {} true
    | .lda => readAt (s.touchSlot (p.align 8)) (s.slotSig (p.align 8))
    | .arm =>
      match readAt s {} with
      | .done s1 v g h => .done (s1.armFor p a.mask who) v g h
      | r => r
    | .deque => .done s 0 {} true
    | .stl => .done ((s.homeWrite p a.size a.val (2 ^ a.size - 1)).releaseSlot (p.align 8) a.sig) 0 {} true
    | _ => .done s 0 {} true

/-- The first access of a STEAL (R267): DQBASE and, where it lies in the window, the 32 bytes of the descriptor. -/
def State.performDeque (s : State) (c : Nat) (who : Asker) : Perf :=
  let p := (s.coreAt c).proc
  let dq := p.dqbase.toNat
  if p.winsize < dq + 32 then .done s dq {} true
  else
    let pl : Place := .win p.gid p.lid dq
    match s.awayIn pl 32 with
    | some u => .wait (s.waitUnit u (who.step .deque))
    | none =>
      if s.isBad pl 32 then .fault (s.noteError c pl) .machine
      else .done s (dq + 2 ^ 64 * s.peek pl 32) {} true

/-- An access of the FIFO port as the mode of its bank reads it (R160, R161): a whole vector at the bank's first byte is one of the port
in FIFO mode and a plain one in scratchpad mode. -/
def AccKind.plain : AccKind → AccKind
  | .fifoPop => .load
  | .fifoPush => .store
  | k => k

/-- Perform an access of whoever asks; a thread's process is on the core in focus (R161, R253, R370). -/
def State.performFor (s : State) (a : Acc) (who : Asker) : Perf :=
  match a.kind, a.place with
  | .lidget, .mmio c _ => .done s (s.occupant c) {} true
  | .annget, .mmio _ _ => .done s (s.annGet a.va) {} true
  | .annset, .mmio _ _ =>
    match s.annSet a.va (BitVec.ofNat 64 a.val) with
    | some e => .done (s.afterFirst 0 e) 0 {} true
    | none => .done s (2 ^ 64 - 1) {} true
  | _, .mmio _ _ => s.performHome a who
  | _, .win g l _ =>
    match s.coreOf g l with
    | some c =>
      if (s.coreAt c).proc.ended then .fault s .window
      else if a.kind = .deque then s.performDeque c who
      else s.performHome a who
    | none => .fault s .window
  | _, .host _ _ => s.performHome a who
  | _, .phys pa =>
    match bankOf a.place with
    | some (cl, b) =>
      let k := s.clusterAt cl
      if s.bankChanging cl b && !k.passing.contains (b, who.step a.kind) then
        .wait (s.setCluster cl { k with bankWait := k.bankWait ++ [(b, who.step a.kind)] })
      else
        match s.bankMode cl b with
        | .scratchpad => s.performHome { a with kind := a.kind.plain } who
        | .fifo =>
          (match (if a.kind = .fifoPop ∨ a.kind = .fifoPush then some who else none) with
           | some (.thread core slot) => s.performFifo cl b a core slot
           | _ => .fault s .protect)
        | .cache => .fault s .protect
    | none =>
      match (if a.cached && s.cacheOn then some who else none) with
      | some (.thread core slot) => s.performCached a pa core slot
      | _ =>
      if farPlace a.place then .ask { a with cached := false, asked := true }
      else s.performHome a who

/-- Perform an access of the thread (core, slot), whose process is on the core in focus (R161, R253, R370). -/
def State.perform (s : State) (a : Acc) (core slot : Nat) : Perf := s.performFor a (.thread core slot)

/-! ### Times (Table 7.1, R188) -/

/-- The transit between the core in focus and the home of a place (R154). -/
def State.transitTo (s : State) (p : Place) : Nat := p.transit s.here (s.homeOf p)

/-- From issue to the moment at which an access is performed: the transit, or 4 cycles inside the cluster, where it is also decided
whether a cacheable access is cached (R160); accesses whose time is not bounded take 250 (log entry 1). -/
def State.reqTime (s : State) (a : Acc) : Nat :=
  match a.kind, a.place with
  | .lidget, .mmio c _ => 2 * transit s.here c
  | .annget, .mmio c _ | .annset, .mmio c _ => transit s.here c
  | _, .win .. => s.transitTo a.place
  | _, .phys pa =>
    if a.cached || (paType pa == 1 && clusterOf (paCore pa) == clusterOf s.here) then 4
    else if paType pa = 5 then 250
    else s.transitTo a.place
  | _, _ => 250

/-- From issue to the reply (Table 7.1). -/
def State.replyTime (s : State) (a : Acc) (hit : Bool) : Nat :=
  match a.kind, a.place with
  | .lidget, .mmio c _ => 2 * transit s.here c
  | .annget, .mmio c _ | .annset, .mmio c _ => 40 + 2 * transit s.here c
  | _, .win .. => 14 + 2 * s.transitTo a.place
  | _, .phys pa =>
    if a.cached then (if hit then 14 else 84 + 2 * s.transitTo a.place)
    else if paType pa = 5 then 500
    else if paType pa = 1 then 14 + 2 * s.transitTo a.place
    else 70 + 2 * s.transitTo a.place
  | _, _ => 500

/-! ### The store queue and the access in flight (R152) -/

/-- How far the accesses of an instruction have come. -/
inductive Pump where
  | done (s : State) (got : List Nat)
  | stop (s : State)
  | fault (s : State) (t : Trap) (va : Word)

/-- Put a store into the thread's queue (R152); the first of an empty queue is sent. -/
def State.queueStore (s : State) (a : Acc) : State :=
  let t := s.thr
  let s1 := s.setThr { t with storeQ := t.storeQ ++ [a] }
  if t.storeQ = [] then s1.after 0 (.storeQueueSend s.here s.slot.val) else s1

/-- Hold what is left of an instruction's accesses in its thread. -/
def State.holdPend (s : State) (l : List Acc) (got : List Nat) : State :=
  s.setThr { s.thr with pend := l, got := got }

/-- Whether an access is a store that has been sent to another module (R159). -/
def isRemoteStore (a : Acc) : Bool :=
  a.asked && !a.cached && [AccKind.store, .stl, .stf, .fesete, .fesetf].contains a.kind

/-- Count a store to another module that is not acknowledged yet (R159, R165). -/
def State.countRemote (s : State) (a : Acc) (n : Int) : State :=
  if isRemoteStore a then s.setProc { s.proc with remoteStores := (s.proc.remoteStores + n).toNat } else s

/-- The access in flight of the thread in focus is asked of another module: it stays in flight until the reply comes over a link
(R40, R247, R402). `a` is what is asked for: the access, or a sector that it needs. -/
def State.askFar (s : State) (a : Acc) : State :=
  let t := s.thr
  let mark (l : List Acc) : List Acc := match l with | x :: r => { x with asked := true, cached := x.cached && a.size = 64 } :: r | [] => []
  let s1 := s.setThr (if t.storeQ = [] then { t with pend := mark t.pend } else { t with storeQ := mark t.storeQ })
  (s1.countRemote a 1).linkAsk s.here s.slot.val a

/-- Go on with the accesses of the thread in focus until one of them makes it wait (R152, R174): a type-0 store enters the
queue, any other access waits until the queue is empty; a local access is performed at once, another is sent. A local one that waits has been
sent to no core (R333). -/
def pump : List Acc → List Nat → State → Pump
  | [], got, s => .done s got
  | a :: rest, got, s =>
    if a.queued then
      if s.thr.storeQ.length < 4 then pump rest got (s.queueStore a) else .stop (s.holdPend (a :: rest) got)
    else if s.thr.storeQ ≠ [] then .stop (s.holdPend (a :: rest) got)
    else if s.isLocal a.place then
      match s.perform a s.here s.slot.val with
      | .done s1 v g _ => pump rest (got ++ [v]) (s1.setThr { s1.thr with gotSig := g })
      | .fault s1 t => .fault s1 t a.va
      | .wait s1 => .stop ((s1.setThr { s1.thr with sentTo := none }).holdPend (a :: rest) got)
      | .ask b => .stop ((s.holdPend (a :: rest) got).askFar b)
    else
      let s1 := s.holdPend (a :: rest) got
      if farPlace a.place && !a.cached then .stop (s1.askFar { a with asked := true })
      else .stop (s1.request a.place (s.reqTime a) (accessStep a.kind s.here s.slot.val))

/-- Bits of a number as a loaded value (Table 7.5). -/
def loadExt (v n : Nat) (signed : Bool) : Word := if signed then sext (BitVec.ofNat 64 v) (8 * n) else BitVec.ofNat 64 v

/-- A vector with the bytes of a mask replaced (R173). -/
def mergeVec (old : BitVec 256) (v : Nat) (mask : BitVec 32) : BitVec 256 :=
  (List.range 32).foldl (fun (d : BitVec 256) i =>
    if mask.getLsbD i then
      (d &&& ~~~ (BitVec.ofNat 256 (255 * 2 ^ (8 * i)))) ||| BitVec.ofNat 256 (v / 256 ^ i % 256 * 2 ^ (8 * i))
    else d) old

/-- A vector with some elements of `size` bytes replaced (R174). -/
def mergeElems (old : BitVec 256) (size : Nat) : List Nat → List Nat → BitVec 256
  | i :: is, v :: vs =>
    let sh := 8 * size * i
    let ones := 2 ^ (8 * size) - 1
    mergeElems ((old &&& ~~~ (BitVec.ofNat 256 (ones * 2 ^ sh))) ||| BitVec.ofNat 256 (v % 2 ^ (8 * size) * 2 ^ sh)) size is vs
  | _, _ => old

/-- A fault that an access of an instruction of two stages has met, among the data (`Cont.again`). -/
def faultMark (code : Nat) : Nat := 2 ^ 512 + code

/-- The fault among the data, with the number of its access. -/
def faultIn : List Nat → Nat → Option (Nat × Nat)
  | [], _ => none
  | v :: t, i => if 2 ^ 512 ≤ v then some (i, v - 2 ^ 512) else faultIn t (i + 1)

/-- What the thread does with the data of its accesses: the register written. -/
def Thread.apply (t : Thread) (c : Cont) (got : List Nat) : Thread :=
  let v := got.head?.getD 0
  match c with
  | .nop => t
  | .xreg d n sg => t.wx d (loadExt v n sg)
  | .freg d => t.wf d (BitVec.ofNat 64 v)
  | .vreg d m => t.wv d (mergeVec (t.rv d) v m)
  | .vlds d size idx => t.wv d (mergeElems (t.rv d) size idx got)
  | .lda d => t.wx d (BitVec.ofNat 64 v)
  | .stl => t
  | .again => { t with ready := t.ready + 1, got := got }

/-- Step 5 of a release: the snapshot's lines leave W (R165). -/
def State.endRelease (s : State) (g : Sig) (stamp : Nat) : State := s.setProc (s.proc.dropSnapshot g stamp)

/-- The outcome of completing an instruction with its data. -/
inductive Completed where
  | ok (s : State)
  | wait (s : State) (on : RetryOn)
  | machine (s : State)

/-- Complete the accesses of an instruction: an acquire performs the steps of R167 first, a release step 5 of R165. -/
def State.complete (s : State) (c : Cont) (got : List Nat) : Completed :=
  match c with
  | .lda _ =>
    match s.acquireSteps s.thr.gotSig with
    | .ok s1 => .ok (s1.setThr (s1.thr.apply c got))
    | .wait s1 on => .wait (s1.setThr { s1.thr with ready := 1, got := got, pend := [] }) on
    | .machine s1 => .machine s1
  | .stl => let s1 := s.endRelease s.thr.snapSig s.thr.snap; .ok (s1.setThr (s1.thr.apply c got))
  | _ => .ok (s.setThr (s.thr.apply c got))

/-- What the store queue makes an access wait for before it can begin (R152). -/
def State.queueWait (s : State) (a : Acc) : Option RetryOn :=
  if a.queued then (if 4 ≤ s.thr.storeQ.length then some .storeRoom else none)
  else if s.thr.storeQ = [] then none else some .storeEmpty

/-- Start the accesses of an instruction in its turn: completed in the turn when every one of them is (R21, R151), else
parked (R22, R152). -/
def startAcc (accs : List Acc) (c : Cont) (s : State) : Out :=
  match accs.head?.bind s.queueWait with
  | some on => .next (s.parkRetry on)
  | none =>
    match pump accs [] s with
    | .done s1 got =>
      match s1.complete c got with
      | .ok s2 => s2.retire
      | .wait s2 on => .next (s2.parkRetry on)
      | .machine s2 => s2.takeTrap .machine ((accs.head?.map (·.va)).getD 0)
    | .stop s1 => .next (s1.setThr { ({ s1.thr with cont := c }.parked .access) with got := s1.thr.got })
    | .fault s1 t va => s1.takeTrap t va

/-- Read data for an instruction that then acts: at once when every access is done in the turn; else the thread parks and
executes the instruction again when the data is there. `stage` is the number of such readings the instruction has
already made. -/
def withData (stage : Nat) (accs : List Acc) (s : State) (k : State → List Nat → Out) : Out :=
  if stage < s.thr.ready then
    match faultIn s.thr.got 0 with
    | some (i, c) => .next ((s.setThr (s.thr.bubble .vac)).trapWith c ((accs[i]?.map (·.va)).getD 0) 0)
    | none => k s s.thr.got
  else
    match accs.head?.bind s.queueWait with
    | some on => .next (s.parkRetry on)
    | none =>
      match pump accs s.thr.got s with
      | .done s1 got => k s1 got
      | .stop s1 => .next (s1.setThr ({ s1.thr with cont := .again, wait := some .access }.bubble .mem))
      | .fault s1 t va => s1.takeTrap t va

/-- An instruction that had issued has a last part that waits: the thread executes that part later, when the instruction is counted. Its
first turn is then one of its wait, unless the part goes on when the wait ends (R411; log entry 27). -/
def State.parkBack (s : State) (on : RetryOn) : State :=
  let t := { s.thr with wait := some (.retry on), instret := s.thr.instret - 1, sciss := s.thr.sciss - 1 }
  let s1 := s.setThr (if on.atOnce then t else t.bubble (Wait.retry on).turnClass)
  match on with
  | .unitHome u => s1.waitUnit (u.align 16) (.threadResume s.here s.slot.val)
  | _ => s1

/-- The data that an instruction executes again with is at hand: it does so at its thread's next own turn, and a TAKE or STEAL, which stays
parked from its issue to its end, in this cycle (R22, R266, R267). -/
def State.goesAgain (s : State) (t : Thread) : State :=
  if t.inTake then (s.setThr { t with wait := some (.retry .more) }).goOn s.here s.slot.val else s.setThr { t with wait := none }

/-- The thread's accesses go on after an answer (R152, R174): the parked instruction completes, parks on, or traps. -/
def State.pumpOn (s : State) : Out :=
  let t := s.thr
  if t.wait = some .access then
    match pump t.pend t.got s with
    | .done s1 got =>
      if s1.thr.cont = .again then
        .next (s1.goesAgain { s1.thr.apply .again got with pend := [], cont := .nop })
      else
        match s1.complete s1.thr.cont got with
        | .ok s2 => .next (s2.setThr { s2.thr.resumed with cont := .nop, got := [], pend := [] })
        | .wait s2 on => .next ((s2.setThr { s2.thr with cont := .nop }).parkBack on)
        | .machine s2 => .next (s2.trapParked Trap.machine.code ((t.pend.head?.map (·.va)).getD 0))
    | .stop s1 => .next s1
    | .fault s1 k va => .next (s1.trapParked k.code va)
  else .next s

end Sys2Proof.Machine
end

