-- ==== Sys2Proof/Machine/Memory.lean ====
section
/-! DEFINITION. Memory instructions (spec 07): majors 0x28-0x2E. -/

namespace Sys2Proof.Machine

/-! ### The address of an access and its checks (R68, R172, R181) -/

/-- Check alignment, resolve an address, and go on with its place (R68): MISALIGN, then the faults of the space and of the
translation; a first-level miss parks the thread for the walk. -/
def atAddr (need : Need) (n align : Nat) (ea : Word) (fifo : Bool) (s : State)
    (k : Place → Bool → Nat → Nat → Out) : Out :=
  if ea.toNat % align ≠ 0 then s.takeTrap .misalign ea
  else
    match s.resolve need n ea fifo 0 with
    | .fault t => s.takeTrap t ea
    | .miss => s.startWalk ea
    | .ok p c sc ty => k p c sc ty

/-- A load of `n` bytes at X[a] + offset (R172). -/
def loadAt (q : BitVec 3) (a : BitVec 5) (imm : BitVec 10) (n : Nat) (c : Cont) (s : State) : Out :=
  guarded q s (fun s =>
    let ea := s.rx a + imm10Val imm
    atAddr .r n n ea false s (fun p ca sc _ =>
      startAcc [{ kind := .load, place := p, va := ea, size := n, cached := ca, scope := sc }] c s))

/-- A store of the low `n` bytes of a value at X[a] + offset (R172); a type-0 store uses the queue (R152). -/
def storeAt (q : BitVec 3) (a : BitVec 5) (imm : BitVec 10) (n : Nat) (v : State → Word) (s : State) : Out :=
  guarded q s (fun s =>
    let ea := s.rx a + imm10Val imm
    atAddr .w n n ea false s (fun p ca sc ty =>
      startAcc [{ kind := .store, place := p, va := ea, size := n, val := (v s).toNat % 256 ^ n, cached := ca, scope := sc,
                  queued := ty == 0 }] .nop s))

/-! ### LD, ST, FMEM (R172, Table 7.5) -/

/-- LDB (R172). -/
def execLdb (q : BitVec 3) (d a : BitVec 5) (imm : BitVec 10) (s : State) : Out :=
  loadAt q a imm 1 (.xreg d 1 true) s
/-- LDH (R172). -/
def execLdh (q : BitVec 3) (d a : BitVec 5) (imm : BitVec 10) (s : State) : Out :=
  loadAt q a imm 2 (.xreg d 2 true) s
/-- LDW (R172). -/
def execLdw (q : BitVec 3) (d a : BitVec 5) (imm : BitVec 10) (s : State) : Out :=
  loadAt q a imm 4 (.xreg d 4 true) s
/-- LDD (R172). -/
def execLdd (q : BitVec 3) (d a : BitVec 5) (imm : BitVec 10) (s : State) : Out :=
  loadAt q a imm 8 (.xreg d 8 false) s
/-- LDBU (R172). -/
def execLdbu (q : BitVec 3) (d a : BitVec 5) (imm : BitVec 10) (s : State) : Out :=
  loadAt q a imm 1 (.xreg d 1 false) s
/-- LDHU (R172). -/
def execLdhu (q : BitVec 3) (d a : BitVec 5) (imm : BitVec 10) (s : State) : Out :=
  loadAt q a imm 2 (.xreg d 2 false) s
/-- LDWU (R172). -/
def execLdwu (q : BitVec 3) (d a : BitVec 5) (imm : BitVec 10) (s : State) : Out :=
  loadAt q a imm 4 (.xreg d 4 false) s
/-- STB (R172). -/
def execStb (q : BitVec 3) (d a : BitVec 5) (imm : BitVec 10) (s : State) : Out :=
  storeAt q a imm 1 (fun s => s.rx d) s
/-- STH (R172). -/
def execSth (q : BitVec 3) (d a : BitVec 5) (imm : BitVec 10) (s : State) : Out :=
  storeAt q a imm 2 (fun s => s.rx d) s
/-- STW (R172). -/
def execStw (q : BitVec 3) (d a : BitVec 5) (imm : BitVec 10) (s : State) : Out :=
  storeAt q a imm 4 (fun s => s.rx d) s
/-- STD (R172). -/
def execStd (q : BitVec 3) (d a : BitVec 5) (imm : BitVec 10) (s : State) : Out :=
  storeAt q a imm 8 (fun s => s.rx d) s
/-- FLDH: moves bits, the upper bits zero (R172). -/
def execFldh (q : BitVec 3) (d a : BitVec 5) (imm : BitVec 10) (s : State) : Out :=
  loadAt q a imm 2 (.freg d) s
/-- FLDW: moves bits, the upper bits zero (R172). -/
def execFldw (q : BitVec 3) (d a : BitVec 5) (imm : BitVec 10) (s : State) : Out :=
  loadAt q a imm 4 (.freg d) s
/-- FLDD: moves bits, the upper bits zero (R172). -/
def execFldd (q : BitVec 3) (d a : BitVec 5) (imm : BitVec 10) (s : State) : Out :=
  loadAt q a imm 8 (.freg d) s
/-- FSTH: moves bits (R172). -/
def execFsth (q : BitVec 3) (d a : BitVec 5) (imm : BitVec 10) (s : State) : Out :=
  storeAt q a imm 2 (fun s => s.rf d) s
/-- FSTW: moves bits (R172). -/
def execFstw (q : BitVec 3) (d a : BitVec 5) (imm : BitVec 10) (s : State) : Out :=
  storeAt q a imm 4 (fun s => s.rf d) s
/-- FSTD: moves bits (R172). -/
def execFstd (q : BitVec 3) (d a : BitVec 5) (imm : BitVec 10) (s : State) : Out :=
  storeAt q a imm 8 (fun s => s.rf d) s

/-! ### VMEM (R173) -/

/-- Whether a VLD or VST with mask k0 is one of the FIFO port where its bank is in FIFO mode when it arrives there (R160, R161): it is at
the first byte of a bank. -/
def atPort (k : BitVec 3) (p : Place) : Bool :=
  match p with
  | .phys a => k == 0#3 && (bankOf p).isSome && a % 2 ^ 18 == 0
  | _ => false

/-- VLD (R173, R160): the active bytes of the register are written; with no active byte there is no access. -/
def execVld (q : BitVec 3) (d : BitVec 4) (a : BitVec 5) (k : BitVec 3) (imm : BitVec 10) (s : State) : Out :=
  guarded q s (fun s =>
    let ea := s.rx a + imm10Vec imm
    let m := s.rk k
    if m = 0 then s.retire
    else
      atAddr .r 32 32 ea (k == 0#3) s (fun p ca sc _ =>
        startAcc [{ kind := if atPort k p then .fifoPop else .load, place := p, va := ea, size := 32, cached := ca,
                    scope := sc }] (.vreg d m) s))

/-- VST (R173, R160): only the active bytes are written. -/
def execVst (q : BitVec 3) (d : BitVec 4) (a : BitVec 5) (k : BitVec 3) (imm : BitVec 10) (s : State) : Out :=
  guarded q s (fun s =>
    let ea := s.rx a + imm10Vec imm
    let m := s.rk k
    if m = 0 then s.retire
    else
      atAddr .w 32 32 ea (k == 0#3) s (fun p ca sc ty =>
        startAcc [{ kind := if atPort k p then .fifoPush else .store, place := p, va := ea, size := 32,
                    val := (s.rv d).toNat, mask := m.toNat, cached := ca, scope := sc, queued := ty == 0 }] .nop s))

/-! ### VSTR (R174) -/

/-- The active elements of a strided access: their numbers. -/
def activeElems (m : BitVec 32) (size : Nat) : List Nat := (List.range (32 / size)).filter (fun i => m.getLsbD i)

/-- The address of an element (R174). -/
def elemAddr (base stride : Word) (i : Nat) : Word := base + BitVec.ofNat 64 i * stride

/-- Rank of a fault among those of several elements (R68, R174). -/
def faultRank : Trap → Nat
  | .misalign => 0 | .window => 1 | .page => 3 | .protect => 4 | _ => 5

/-- The check of one element: its rank and what to do; a walk that has to be waited for ranks before PAGE. -/
inductive ElemRes where
  | ok (i : Nat) (a : Acc)
  | trap (t : Trap) (va : Word)
  | walk (va : Word)

/-- Whether a place lies in the window of a process that has ended (R253). -/
def State.endedAt (s : State) (p : Place) : Bool :=
  match p with
  | .win g l _ =>
    match s.coreOf g l with
    | some c => (s.coreAt c).proc.ended
    | none => !s.elsewhere s.here g l
  | _ => false

/-- Check one element (R174), the end of the process whose window it lies in among the rest (R253). -/
def checkElem (s : State) (need : Need) (size : Nat) (ea : Word) (i : Nat) : ElemRes :=
  if ea.toNat % size ≠ 0 then .trap .misalign ea
  else
    match s.resolve need size ea false i with
    | .fault t => .trap t ea
    | .miss => .walk ea
    | .ok p ca sc ty =>
      if s.endedAt p then .trap .window ea
      else
        .ok i { kind := if need = .w then .store else .load, place := p, va := ea, size := size, cached := ca, scope := sc,
                   queued := need == .w && ty == 0 }

/-- The rank of a check. -/
def ElemRes.rank : ElemRes → Nat
  | .ok _ _ => 9 | .trap t _ => faultRank t | .walk _ => 2

/-- The check that decides: of the lowest rank, and of these the first (R174). -/
def worst : List ElemRes → Option ElemRes
  | [] => none
  | e :: t =>
    match worst t with
    | some f => if f.rank < e.rank then some f else some e
    | none => some e

/-- A strided access: every element is checked, then all are performed in order (R174). -/
def strided (need : Need) (size : Nat) (m : BitVec 32) (base stride : Word) (val : Nat → Nat) (c : List Nat → Cont)
    (s : State) : Out :=
  let es := activeElems m size
  let rs := es.map (fun i => checkElem s need size (elemAddr base stride i) i)
  match worst rs with
  | some (.trap t va) => s.takeTrap t va
  | some (.walk va) => s.startWalk va
  | _ =>
    let accs := rs.filterMap (fun r => match r with
      | .ok i a => some { a with val := if need = .w then val i else 0 }
      | _ => none)
    startAcc accs (c es) s

/-- VLDS (R174). -/
def execVlds (q : BitVec 3) (d : BitVec 4) (a b : BitVec 5) (sz : BitVec 2) (k : BitVec 3) (s : State) : Out :=
  guarded q s (fun s =>
    let size := 2 ^ sz.toNat
    strided .r size (s.rk k) (s.rx a) (s.rx b) (fun _ => 0) (fun es => .vlds d size es) s)

/-- VSTS (R174). -/
def execVsts (q : BitVec 3) (d : BitVec 4) (a b : BitVec 5) (sz : BitVec 2) (k : BitVec 3) (s : State) : Out :=
  guarded q s (fun s =>
    let size := 2 ^ sz.toNat
    let v := (s.rv d).toNat
    strided .w size (s.rk k) (s.rx a) (s.rx b) (fun i => v / 256 ^ (size * i) % 256 ^ size) (fun _ => .nop) s)

/-! ### FEM (R175, Table 7.6) -/

/-- A full/empty access: only a window or a scratchpad bank holds granules (R175). The forms without data act on the granule that holds
the address. -/
def femAt (q : BitVec 3) (a : BitVec 5) (imm : BitVec 10) (need : Need) (kind : AccKind) (align : Nat)
    (v : State → Word) (c : Cont) (s : State) : Out :=
  guarded q s (fun s =>
    let ea := s.rx a + imm10Val imm
    atAddr need (if align = 1 then 1 else 8) align ea false s (fun p ca sc ty =>
      if ty ≠ 16 ∧ ty ≠ 1 then s.takeTrap .protect ea
      else startAcc [{ kind := kind, place := if align = 1 then p.align 16 else p, va := ea, size := if align = 1 then 16 else 8,
                       val := (v s).toNat, cached := ca, scope := sc }] c s))

/-- LDF (R170, R175). -/
def execLdf (q : BitVec 3) (d a : BitVec 5) (imm : BitVec 10) (s : State) : Out :=
  femAt q a imm .r .ldf 8 (fun _ => 0) (.xreg d 8 false) s
/-- LDFC (R170, R175). -/
def execLdfc (q : BitVec 3) (d a : BitVec 5) (imm : BitVec 10) (s : State) : Out :=
  femAt q a imm .rw .ldfc 8 (fun _ => 0) (.xreg d 8 false) s
/-- STF (R169, R175). -/
def execStf (q : BitVec 3) (d a : BitVec 5) (imm : BitVec 10) (s : State) : Out :=
  femAt q a imm .w .stf 8 (fun s => s.rx d) .nop s
/-- FESETE (R175). -/
def execFesete (q : BitVec 3) (a : BitVec 5) (imm : BitVec 10) (s : State) : Out :=
  femAt q a imm .w .fesete 1 (fun _ => 0) .nop s
/-- FESETF (R170, R175). -/
def execFesetf (q : BitVec 3) (a : BitVec 5) (imm : BitVec 10) (s : State) : Out :=
  femAt q a imm .w .fesetf 1 (fun _ => 0) .nop s
/-- FEGET (R175). -/
def execFeget (q : BitVec 3) (d a : BitVec 5) (imm : BitVec 10) (s : State) : Out :=
  femAt q a imm .r .feget 1 (fun _ => 0) (.xreg d 8 false) s

/-! ### MSYNC (R176-R180, Table 7.7) -/

/-- Before an access of the home copy of a cacheable word, the cluster writes back its dirty bytes within the unit and
drops the sector, and the thread waits until that is done (R184; for LDA and STL log entry 15). -/
inductive Flush where
  | ok (s : State)
  | wait (s : State) (on : RetryOn)
  | machine (s : State)

/-- The error marks of a line of which a unit has been written back and the unit's sector dropped: those of units that still hold dirty
bytes, and of other sectors. -/
def CacheLine.badLeft (l : CacheLine) (unit : Nat) (dirty : BitVec 256) : BitVec 16 :=
  (List.range 16).foldl (fun (b : BitVec 16) u =>
    if l.bad.getLsbD u && (decide (u / 4 ≠ unit / 4) || (decide (u ≠ unit) && (dirty &&& byteMask (16 * u) 16) != 0))
    then b ||| BitVec.ofNat 16 (2 ^ u) else b) 0

/-- That write-back for the cluster in focus. A unit with an uncorrectable error is not written, and the error is noted (R163). -/
def State.flushUnit (s : State) (p : Place) (cached : Bool) : Flush :=
  match cached, p with
  | true, .phys pa =>
    let cl := clusterOf s.here
    let k := s.clusterAt cl
    match k.lineOf pa with
    | none => if farPlace p && decide (0 < s.proc.remoteStores) then .wait s .remoteAcks else .ok s
    | some l =>
      let off := pa % 256 - pa % 16
      let um := byteMask off 16
      let dirty := (l.dirty &&& um).toNat / 2 ^ off
      if dirty ≠ 0 ∧ (s.unitAway p).isSome then .wait s (.unitHome (p.align 16))
      else
        let left := l.dirty &&& ~~~ um
        let l1 := { l with dirty := left, valid := l.valid &&& ~~~ (BitVec.ofNat 4 (2 ^ (pa % 256 / 64))),
                           bad := l.badLeft (off / 16) left }
        let s1 := s.setCluster cl (k.setLine l1)
        let v := lineBytes l.data off 16
        if dirty = 0 then (if farPlace p && decide (0 < s.proc.remoteStores) then .wait s1 .remoteAcks else .ok s1)
        else if l.bad.getLsbD (off / 16) then .machine (s1.noteError s.here (p.align 16))
        else if farPlace p then
          let a : Acc := { kind := .store, place := p.align 16, size := 16, val := v, mask := dirty }
          .wait ((s1.setProc { s1.proc with remoteStores := s1.proc.remoteStores + 1 }).linkAsk s1.here 13 a) .remoteAcks
        else .wait (s1.homeWrite (p.align 16) 16 v dirty) (.wbAck (s.cycle + 70 + 2 * s.transitTo p))
  | _, _ => .ok s

/-- The last part of an acquire whose write-backs had to be waited for: the steps of R167 with the signature received,
then the value is delivered. -/
def finishAcquire (d : BitVec 5) (ea : Word) (s : State) (v : Nat) : Out :=
  match s.acquireSteps s.thr.gotSig with
  | .ok s1 => (s1.wx d (BitVec.ofNat 64 v)).retire
  | .wait s1 on => .next (s1.parkRetry on)
  | .machine s1 => s1.takeTrap .machine ea

/-- LDA (R167, R177). -/
def execLda (q : BitVec 3) (d a : BitVec 5) (imm : BitVec 10) (s : State) : Out :=
  guarded q s (fun s =>
    let ea := s.rx a + imm10Val imm
    if 0 < s.thr.ready then finishAcquire d ea s (s.thr.got.head?.getD 0)
    else
      atAddr .r 8 8 ea false s (fun p ca sc _ =>
        if s.thr.storeQ ≠ [] then .next (s.parkRetry .storeEmpty)
        else
          match s.flushUnit p ca with
          | .wait s1 on => .next (s1.parkRetry on)
          | .machine s1 => s1.takeTrap .machine ea
          | .ok s1 => startAcc [{ kind := .lda, place := p, va := ea, size := 8, scope := sc }] (.lda d) s1))

/-- STL (R165, R177). A release whose write-backs meet an error takes MACHINE before its store is sent (R163; log entry 52). -/
def execStl (q : BitVec 3) (d a : BitVec 5) (imm : BitVec 10) (s : State) : Out :=
  guarded q s (fun s =>
    let ea := s.rx a + imm10Val imm
    atAddr .w 8 8 ea false s (fun p ca sc _ =>
      match s.releaseSteps with
      | .wait s1 on => .next (s1.parkRetry on)
      | .machine s1 => s1.takeTrap .machine ea
      | .ok s1 g st =>
        match s1.flushUnit p ca with
        | .wait s2 on => .next ((s2.setThr { s2.thr with rel := some (g, st) }).parkRetry on)
        | .machine s2 => s2.takeTrap .machine ea
        | .ok s2 =>
          startAcc [{ kind := .stl, place := p, va := ea, size := 8, val := (s.rx d).toNat, scope := sc, sig := g }] .stl
            (s2.setThr { s2.thr with snap := st, snapSig := g })))

/-- FENCE (R178): the thread waits until its store queue is empty. -/
def execFence (q : BitVec 3) (s : State) : Out :=
  guarded q s (fun s => if s.thr.storeQ = [] then s.retire else .next (s.park .fence))

/-- A dropped hint (R179). -/
def State.dropHint (s : State) : State := s.setThr { s.thr with hintdrop := s.thr.hintdrop + 1 }

/-- Fill one sector of a line for a hint, if it is not valid and nothing is in its way (R179; log entry 53). -/
def State.hintFill (s : State) (cl pa scope : Nat) : State :=
  let base := pa - pa % 64
  let p := placeOf s base
  let valid := (((s.clusterAt cl).lineOf base).map (fun l => l.valid.getLsbD (base % 256 / 64))).getD false
  if valid || (s.awayIn p 64).isSome || s.isBad p 64 then s
  else if farPlace p then s.linkAsk s.here 14 { kind := .load, place := p, size := 64, mask := scope, cached := true }
  else s.fillFar cl base scope (s.peek p 64)

/-- What a hint that is not dropped does to the cluster cache (R179). One that meets a reservation unit that is away, or an error, leaves
what it would have to wait for as it is (log entry 53). -/
def hintLine (h : BitVec 2) (pa scope : Nat) (s : State) : State :=
  let cl := clusterOf s.here
  let k := s.clusterAt cl
  match h.toNat with
  | 0 => (List.range 4).foldl (fun (acc : State) i => acc.hintFill cl (pa - pa % 256 + 64 * i) scope) s
  | 1 =>
    match k.lineOf pa with
    | some _ => s
    | none => s.setCluster cl (k.setLine { line := pa / 256, valid := 0, dirty := 0, scope := scope, last := false, data := 0 })
  | 2 =>
    match k.lineOf pa with
    | some l => s.setCluster cl (k.setLine { l with last := true })
    | none => s
  | _ =>
    match s.writeBackAll cl (fun l => l.line == pa / 256) true with
    | .done s1 _ => s1
    | .blocked _ => s

/-- PREF (R179): a hint never parks and never faults; one that would fault is dropped and counted. One to an uncached page that may be
accessed has no effect, whatever the mode of its bank; nor has one whose walk would have to wait at a bank (R161). -/
def execPref (q : BitVec 3) (d : BitVec 2) (a : BitVec 5) (imm : BitVec 10) (s : State) : Out :=
  guarded q s (fun s =>
    let ea := s.rx a + imm10Val imm
    match ea.toNat / 2 ^ 48 with
    | 0xFFFF => s.retire
    | 0xFFFE => s.retire
    | 0 =>
      let need : Need := match d.toNat with | 0 => .r | 1 => .w | 2 => .r | _ => .rOrW
      match s.xlateNow (s.slot.val == 11) need 1 ea 0 with
      | .ok pa pte =>
        let k := s.clusterAt (clusterOf s.here)
        (if k.caches pa pte then match placeOf s pa with
          | .phys b => hintLine d b (pteScope pte) s
          | _ => s
        else s).retire
      | .miss => s.retire
      | _ => s.dropHint.retire
    | _ => s.dropHint.retire)

/-- CWB and CINV (R180): the line is written back, and dropped for CINV; the thread parks until the write-back is
acknowledged, from another module until its stores are. A write-back that meets an error gives MACHINE, for CINV too (R163; log entry 52);
a type-1 page whose bank is in cache or FIFO mode takes PROTECT (R160; log entry 54). -/
def lineOp (q : BitVec 3) (a : BitVec 5) (imm : BitVec 10) (drop : Bool) (s : State) : Out :=
  guarded q s (fun s =>
    let ea := s.rx a + imm10Val imm
    atAddr .rOrW 1 1 ea false s (fun p ca _ _ =>
      if s.thr.storeQ ≠ [] then .next (s.parkRetry .storeEmpty)
      else
        match ca, p with
        | true, .phys pa =>
          let cl := clusterOf s.here
          let dirty := (s.clusterAt cl).lines.any (fun l => l.line == pa / 256 && l.dirty != 0)
          match s.writeBackAll cl (fun l => l.line == pa / 256) drop with
          | .blocked u => .next (s.parkRetry (.unitHome u))
          | .done s1 true => s1.takeTrap .machine ea
          | .done s1 false =>
            if farPlace p then (if 0 < s1.proc.remoteStores then .next (s1.parkRetry .remoteAcks) else s1.retire)
            else if dirty then
              .next ((s1.park .access).after (70 + 2 * s1.transitTo p) (.nonlocalReply s.here s.slot.val 0 0 {}))
            else s1.retire
        | _, _ => s.retire))

/-- CWB (R180). -/
def execCwb (q : BitVec 3) (a : BitVec 5) (imm : BitVec 10) (s : State) : Out := lineOp q a imm false s
/-- CINV (R180). -/
def execCinv (q : BitVec 3) (a : BitVec 5) (imm : BitVec 10) (s : State) : Out := lineOp q a imm true s

end Sys2Proof.Machine
end

