-- ==== Sys2Proof/Machine/Atomics.lean ====
section
/-! DEFINITION. Atomics (spec 08, R182-R192): the operation, the reservation unit and its ways between home and holders. -/

namespace Sys2Proof.Machine

/-- Byte number of a place in its 16-byte unit. -/
def Place.inUnit : Place → Nat
  | .phys a => a % 16 | .win _ _ o => o % 16 | .host _ a => a % 16 | .mmio _ o => o % 16

/-- The new value of the word of an atomic (Table 8.2, R190), with the flags of AFADD (R192). -/
def AmoReq.compute (r : AmoReq) (old : Nat) : Nat × FFlags :=
  let w := 8 * r.n
  let sg (v : Nat) : Int := if v < 2 ^ (w - 1) then v else (v : Int) - 2 ^ w
  match r.op with
  | 0 => ((old + r.v) % 2 ^ w, 0)
  | 1 => (old &&& r.v, 0)
  | 2 => (old ||| r.v, 0)
  | 3 => (old ^^^ r.v, 0)
  | 4 => (if sg old ≤ sg r.v then old else r.v, 0)
  | 5 => (if sg old ≤ sg r.v then r.v else old, 0)
  | 6 => (if old ≤ r.v then old else r.v, 0)
  | 7 => (if old ≤ r.v then r.v else old, 0)
  | 8 => (r.v, 0)
  | 9 => (if r.n = 4 then fp32 else fp64).add 0 false false old r.v
  | _ => (if old = r.cmp then r.v else old, 0)

/-- The old value and the flags reach the thread's registers (R190, R192). -/
def Thread.amoResult (t : Thread) (op n : Nat) (d : BitVec 5) (old fl : Nat) : Thread :=
  let t1 := t.flag (BitVec.ofNat 5 fl)
  if op = 11 then (t1.wx d (BitVec.ofNat 64 old)).wx (d + 1#5) (BitVec.ofNat 64 (old / 2 ^ 64))
  else t1.wx d (loadExt old n (n == 4 && op != 9))

/-- Whether the order bits ask for a release (Table 2.12). -/
def ordRel (o : Nat) : Bool := o == 2 || o == 3
/-- Whether the order bits ask for an acquire (Table 2.12). -/
def ordAcq (o : Nat) : Bool := o == 1 || o == 3

/-- The word of an atomic inside its unit, as its signature slots know it (R166; log entry 18). -/
def sigWord (p : Place) : Place := p.align 8

/-- The signature that an acquire finds at a word (R166, R192): a release has not joined its own snapshot to it yet (log entry 33). -/
def State.foundSig (s : State) (w : Place) : Option Sig := (s.sigSlots.find? (fun e => e.word == w)).map (·.sig)

/-- The signature that an atomic leaves at its word (R192). -/
def AmoReq.leaves (r : AmoReq) (g : Option Sig) : Option Sig :=
  if ordRel r.ord then some (match g with | some h => h.join r.sig | none => r.sig) else g

/-- The last part of an atomic in its thread: a release drops its snapshot from W, an acquire performs R167 with the
signature of the word, and X[d] is written (R191, R192). -/
inductive AmoEnd where
  | ok (s : State)
  | wait (s : State) (on : RetryOn)
  | machine (s : State)

/-- The end of an atomic of the thread in focus. -/
def State.amoEnd (s : State) (r : AmoReq) (g : Option Sig) (old : Nat) (fl : FFlags) : AmoEnd :=
  let s1 := if ordRel r.ord then s.endRelease r.sig r.stamp else s
  if ordAcq r.ord then
    let sg : Sig := g.getD { all := true, lines := [] }
    match s1.acquireSteps sg with
    | .ok s2 => .ok (s2.setThr (s2.thr.amoResult r.op r.n r.d old fl.toNat))
    | .wait s2 on => .wait (s2.setThr { s2.thr with ready := 1, got := [old, fl.toNat], gotSig := sg, amo := none }) on
    | .machine s2 => .machine s2
  else .ok (s1.setThr (s1.thr.amoResult r.op r.n r.d old fl.toNat))

/-- An atomic on a unit of the own window that is at home: performed in the turn (R188). -/
def State.amoHere (s : State) (r : AmoReq) : Out :=
  if s.isBad r.place r.n then (s.noteError s.here r.place).takeTrap .machine r.va
  else
    let old := s.peek r.place r.n
    let (new, fl) := r.compute old
    let s1 := s.homeWrite r.place r.n new (2 ^ r.n - 1)
    let w := sigWord r.place
    let g := s1.foundSig w
    let s2 := if ordRel r.ord then s1.releaseSlot w r.sig else if ordAcq r.ord then s1.touchSlot w else s1
    match s2.amoEnd r g old fl with
    | .ok s3 => s3.retire
    | .wait s3 on => .next (s3.parkRetry on)
    | .machine s3 => s3.takeTrap .machine r.va

/-- Transit of a reservation unit. -/
def State.amoTransit (s : State) (core : Nat) (p : Place) : Nat := transit core (s.homeOf p)

/-- Ask another module for an atomic of the thread in focus (R40, R247): it is performed at its home and the old value comes back. -/
def State.askAmo (s : State) (r : AmoReq) : State :=
  s.linkSend s.here 0 0 (.request { tag := { modid := s.module.modid, core := s.here, who := s.slot.val }, gid := s.proc.gid,
                                    lid := s.proc.lid, kind := .amo, place := r.place, size := r.n, val := r.v, sig := r.sig, op := r.op, ord := r.ord, cmp := r.cmp })

/-- The old value of an atomic that another module has performed reaches its thread, with the signature found at the word. -/
def State.farAmo (s : State) (old : Nat) (sig : Sig) : Out :=
  match s.thr.amo with
  | none => .next s
  | some r =>
    if r.again then .next (s.goesAgain { s.thr with got := s.thr.got ++ [old], ready := s.thr.ready + 1, amo := none })
    else
      match s.amoEnd r (some sig) old (r.compute old).2 with
      | .ok s1 => .next (s1.setThr { s1.thr.resumed with amo := none })
      | .wait s1 on => .next (s1.parkBack on)
      | .machine s1 => .next (s1.trapParked Trap.machine.code r.va)

/-- Any AMO (R184, R185, R189-R192). `v` and `cmp` are read from the registers at issue. -/
def amo (op n : Nat) (ord : BitVec 2) (d a : BitVec 5) (v cmp : State → Nat) (q : BitVec 3) (s : State) : Out :=
  guarded q s (fun s =>
    let ea := s.rx a
    if 0 < s.thr.ready then
      match s.acquireSteps s.thr.gotSig with
      | .ok s1 => (s1.setThr (s1.thr.amoResult op n d (s1.thr.got.head?.getD 0) (s1.thr.got.tail.head?.getD 0))).retire
      | .wait s1 on => .next (s1.parkRetry on)
      | .machine s1 => s1.takeTrap .machine ea
    else
      atAddr .rw n n ea false s (fun p ca sc ty =>
        if ty ≠ 16 ∧ (sc = 3 ∨ ty = 3 ∨ ty = 4) then s.takeTrap .protect ea
        else if s.thr.storeQ ≠ [] then .next (s.parkRetry .storeEmpty)
        else
          let go (s1 : State) (g : Sig) (st : Nat) : Out :=
            match s1.flushUnit p ca with
            | .machine s2 => s2.takeTrap .machine ea
            | .wait s2 on => .next ((if ordRel ord.toNat then s2.setThr { s2.thr with rel := some (g, st) } else s2).parkRetry on)
            | .ok s2 =>
              let r : AmoReq := { op := op, n := n, ord := ord.toNat, d := d, place := p, va := ea, v := v s, cmp := cmp s,
                                  sig := g, stamp := st }
              if s2.isLocal p && (s2.unitAway p).isNone then s2.amoHere r
              else
                let s3 := s2.setThr ({ s2.thr with amo := some r }.parked .atomic)
                if farPlace p then .next (s3.askAmo r)
                else .next (s3.request p (s2.amoTransit s2.here p) (.atomicRequestAtHome s2.here s2.slot.val))
          if ordRel ord.toNat then
            match s.releaseSteps with
            | .wait s1 on => .next (s1.parkRetry on)
            | .machine s1 => s1.takeTrap .machine ea
            | .ok s1 g st => go s1 g st
          else go s {} 0))

/-- Size of an AMO in bytes (Table 8.2). -/
def amoSize (sz : BitVec 1) : Nat := if sz = 1#1 then 8 else 4

/-- An AMO of Table 8.2 with one register operand. -/
def amo1 (op : Nat) (q : BitVec 3) (sz : BitVec 1) (ord : BitVec 2) (d a b : BitVec 5) (s : State) : Out :=
  let n := amoSize sz
  amo op n ord d a (fun s => (s.rx b).toNat % 256 ^ n) (fun s => (s.rx d).toNat % 256 ^ n) q s

/-- AADD (R189-R191). -/
def execAadd (q : BitVec 3) (sz : BitVec 1) (ord : BitVec 2) (d a b : BitVec 5) (s : State) : Out := amo1 0 q sz ord d a b s
/-- AAND (R189-R191). -/
def execAand (q : BitVec 3) (sz : BitVec 1) (ord : BitVec 2) (d a b : BitVec 5) (s : State) : Out := amo1 1 q sz ord d a b s
/-- AOR (R189-R191). -/
def execAor (q : BitVec 3) (sz : BitVec 1) (ord : BitVec 2) (d a b : BitVec 5) (s : State) : Out := amo1 2 q sz ord d a b s
/-- AXOR (R189-R191). -/
def execAxor (q : BitVec 3) (sz : BitVec 1) (ord : BitVec 2) (d a b : BitVec 5) (s : State) : Out := amo1 3 q sz ord d a b s
/-- AMIN (R189-R191). -/
def execAmin (q : BitVec 3) (sz : BitVec 1) (ord : BitVec 2) (d a b : BitVec 5) (s : State) : Out := amo1 4 q sz ord d a b s
/-- AMAX (R189-R191). -/
def execAmax (q : BitVec 3) (sz : BitVec 1) (ord : BitVec 2) (d a b : BitVec 5) (s : State) : Out := amo1 5 q sz ord d a b s
/-- AMINU (R189-R191). -/
def execAminu (q : BitVec 3) (sz : BitVec 1) (ord : BitVec 2) (d a b : BitVec 5) (s : State) : Out := amo1 6 q sz ord d a b s
/-- AMAXU (R189-R191). -/
def execAmaxu (q : BitVec 3) (sz : BitVec 1) (ord : BitVec 2) (d a b : BitVec 5) (s : State) : Out := amo1 7 q sz ord d a b s
/-- ASWP (R189-R191). -/
def execAswp (q : BitVec 3) (sz : BitVec 1) (ord : BitVec 2) (d a b : BitVec 5) (s : State) : Out := amo1 8 q sz ord d a b s
/-- AFADD (R189-R192). -/
def execAfadd (q : BitVec 3) (sz : BitVec 1) (ord : BitVec 2) (d a b : BitVec 5) (s : State) : Out := amo1 9 q sz ord d a b s
/-- ACAS (R189-R191). -/
def execAcas (q : BitVec 3) (sz : BitVec 1) (ord : BitVec 2) (d a b : BitVec 5) (s : State) : Out := amo1 10 q sz ord d a b s

/-- The value of a register pair (R190). -/
def State.pair (s : State) (r : BitVec 4) : Nat :=
  (s.rx (r ++ 0#1)).toNat + 2 ^ 64 * (s.rx (r ++ 1#1)).toNat

/-- ACAS2 (R189-R191): the fields d and b name even registers. -/
def execAcas2 (q : BitVec 3) (ord : BitVec 2) (d : BitVec 4) (a : BitVec 5) (b : BitVec 4) (s : State) : Out :=
  amo 11 16 ord (d ++ 0#1) a (fun s => s.pair b) (fun s => s.pair d) q s

/-! ### The unit's way (R182, R183) -/

/-- Replace the record of a unit that is away. -/
def State.setUnit (s : State) (u : RUnit) : State := { s with units := s.units.map (fun r => if r.unit == u.unit then u else r) }

/-- The time in which a home serves a unit that is at home (R188). -/
def serviceTime : Place → Nat
  | .phys pa => if paType pa = 1 then 10 else 66
  | _ => 10

/-- Why a request is not served: its process has gone (R253), or its bank has left scratchpad mode (R185). -/
def State.unitFault (s : State) (p : Place) : Option Trap :=
  match p with
  | .win g l _ =>
    match s.coreOf g l with
    | some c => if (s.coreAt c).proc.ended then some .window else none
    | none => some .window
  | _ =>
    match bankOf p with
    | some (cl, b) => if s.bankMode cl b = .scratchpad then none else some .protect
    | none => none

/-- ATOMIC_REQUEST_AT_HOME (R182, R187, R188): served at once, or queued with a forward notice to the core that holds or
will next hold the unit; held or forwarded where its process moves or has moved (R215, R346). DESIGN CHOICE: the notice goes to the last
requester that is queued, which will hold the unit before the new one, and to the holder where none is (log entry 70). -/
def execAtomicRequestAtHome (core slot : Nat) (s : State) : Out :=
  let s := s.focusSlot core slot
  match s.thr.amo with
  | none => .next s
  | some r =>
    let u := r.place.align 16
    let back := s.amoTransit core r.place
    match (match r.place with | .win g l _ => s.reached g l | _ => .here) with
    | .held => .next (s.after 1 (.atomicRequestAtHome core slot))
    | .sent s1 n => .next (s1.after n (.atomicRequestAtHome core slot))
    | .here =>
      match (bankOf u).filter (fun cb =>
          s.bankChanging cb.1 cb.2 && !(s.clusterAt cb.1).passing.contains (cb.2, .atomicRequestAtHome core slot)) with
      | some (cl, b) =>
        let k := s.clusterAt cl
        .next (s.setCluster cl { k with bankWait := k.bankWait ++ [(b, .atomicRequestAtHome core slot)] })
      | none =>
      match s.unitFault r.place with
      | some t => .next (s.after back (.nonlocalReply core slot 0 t.code {}))
      | none =>
        match s.unitAway u with
        | some w =>
          let before := match w.queue.getLast? with | some h => some h | none => w.holder
          let s1 := s.setUnit { w with queue := w.queue ++ [(core, slot)] }
          match before with
          | some h => .next (s1.after (transit (s.homeOf u) h.1) (.forwardNotice u h.1 h.2 core slot))
          | none => .next s1
        | none =>
          if s.isBad u 16 then
            .next ((s.noteError (s.homeOf u) u).after (serviceTime u + back) (.nonlocalReply core slot 0 Trap.machine.code {}))
          else
            let g (p : Place) : Option Sig := (s.sigSlots.find? (fun e => e.word == p)).map (·.sig)
            let w : RUnit := { unit := u, bytes := s.peek u 16, sig0 := g u, sig1 := g (u.plus 8), holder := some (core, slot),
                               queue := [], notices := [], waiting := [], back := s.homeOf u }
            .next ({ s with units := s.units ++ [w] }.after (serviceTime u + back + 4) (.atomicUnitArrival core slot))

/-- FORWARD_NOTICE (R182): it counts while its holder has or awaits the unit and the requester it names is still queued. -/
def execForwardNotice (unit : Place) (holderCore holderSlot core slot : Nat) (s : State) : Out :=
  match s.unitAway unit with
  | some w =>
    let h := (holderCore, holderSlot)
    if (w.holder == some h || w.queue.contains h) && w.queue.contains (core, slot) then
      .next (s.setUnit { w with notices := w.notices ++ [(h, (core, slot))] })
    else .next s
  | none => .next s

/-- The holder sends the unit on: to the requester of the first notice that it has received, else home (R182), to the core that shipped it
(R186). -/
def State.passUnit (s : State) (w : RUnit) (core slot : Nat) : State :=
  match w.notices.find? (fun n => n.1 == (core, slot) && w.queue.contains n.2) with
  | some n =>
    let w1 := { w with holder := some n.2, queue := w.queue.filter (· != n.2), notices := w.notices.filter (fun m => m.1 != (core, slot)) }
    (s.setUnit w1).after (transit core n.2.1 + 4) (.atomicUnitArrival n.2.1 n.2.2)
  | none =>
    (s.setUnit { w with holder := none, from_ := core, notices := w.notices.filter (fun m => m.1 != (core, slot)) }).after
      (transit core w.back) (.atomicUnitReturn w.unit)

/-- Whether the core in focus holds the replies that reach it (R386): it is halted, and the repair that moves its process away has not been
asked for (R387; log entry 5). -/
def State.repliesHeld (s : State) : Bool := s.core.halted && !(s.moves.any (fun m => m.kind == .repair && m.a == s.here))

/-- A halted core accepts a reply and holds it. -/
def State.holdReply (s : State) (e : Instr) : State := { s with core := { s.core with replies := s.core.replies ++ [e] } }

/-- ATOMIC_UNIT_ARRIVAL (R182, R191, R192): the unit has reached its holder and the 4 cycles of the operation have passed;
the operation is performed, the unit goes on, and the thread completes. A halted core holds the unit as it does a reply (R386). -/
def execAtomicUnitArrival (core slot : Nat) (s : State) : Out :=
  let s := s.focusSlot core slot
  if s.repliesHeld then .next (s.holdReply (.atomicUnitArrival core slot))
  else
  match s.thr.amo with
  | none => .next s
  | some r =>
    match s.unitAway r.place with
    | none => .next s
    | some w =>
      let off := r.place.inUnit
      let old := w.bytes / 256 ^ off % 256 ^ r.n
      let (new, fl) := r.compute old
      let low := off < 8
      let found := if low then w.sig0 else w.sig1
      let g := r.leaves found
      let w1 := { w with bytes := w.bytes + new * 256 ^ off - old * 256 ^ off,
                         sig0 := if low then g else w.sig0, sig1 := if low then w.sig1 else g }
      if r.again then
        let s1 := s.passUnit w1 core slot
        .next (s1.goesAgain { s1.thr with got := s1.thr.got ++ [old], ready := s1.thr.ready + 1, amo := none })
      else
      match (s.passUnit w1 core slot).amoEnd r found old fl with
      | .ok s1 => .next (s1.setThr { s1.thr.resumed with amo := none })
      | .wait s1 on => .next (s1.parkBack on)
      | .machine s1 => .next (s1.trapParked Trap.machine.code r.va)

/-- The signature state of a word is stored into its slot when its unit is home again (R192). DESIGN CHOICE: one that is as it was is no use
of the slot (log entry 71). -/
def State.storeSig (s : State) (p : Place) (g : Option Sig) : State :=
  match g with
  | none => s
  | some h => if s.sigSlots.any (fun e => e.word == p && e.sig == h) then s else s.setSlot p h

/-- A unit is home again (R182, R183, R192): it is written there, and the steps and requests that have waited follow. -/
def State.unitHome (s : State) (w : RUnit) : State :=
  let s1 := s.homeWrite w.unit 16 w.bytes (2 ^ 16 - 1)
  let s2 := (s1.storeSig w.unit w.sig0).storeSig (w.unit.plus 8) w.sig1
  let evs := w.waiting ++ w.queue.map (fun r => .atomicRequestAtHome r.1 r.2)
  let s3 : State := { s2 with units := s2.units.filter (fun r => r.unit != w.unit),
                              agenda := evs.map (fun e => (s2.cycle, e)) ++ s2.agenda }
  match (bankOf w.unit).filter (fun cb => s3.bankChanging cb.1 cb.2) with
  | some (cl, b) => s3.after 0 (.bankModeSwitch cl b)
  | none => s3

/-- ATOMIC_UNIT_RETURN (R182, R183): the unit is written home; the steps that wait for it follow in their order of
arrival, and then the requests that are still queued. One that reaches a core from which its window is being moved is held, and one that
reaches a core which the window has left is forwarded (R186, R215, R346). -/
def execAtomicUnitReturn (unit : Place) (s : State) : Out :=
  match s.unitAway unit with
  | none => .next s
  | some w =>
    match (match w.unit with | .win g l _ => (s.coreOf g l).map (fun c => (g, l, c)) | _ => none) with
    | some (g, l, c) =>
      if s.inTransfer w.back then .next (s.after 1 (.atomicUnitReturn unit))
      else if c = w.back then .next (s.unitHome w)
      else
        let r := s.forward w.back w.from_ g l
        if r.2 = w.back then .next (s.unitHome w)
        else .next ((r.1.setUnit { w with back := r.2 }).after (transit w.back r.2) (.atomicUnitReturn unit))
    | none => .next (s.unitHome w)

end Sys2Proof.Machine
end

