-- ==== Sys2Proof/Machine/Boundary.lean ====
section
/-! DEFINITION. Instruction boundaries (R224, R256, R302, R345): where a thread may be held, moved, stopped or ended. -/

namespace Sys2Proof.Machine

/-- A thread of a core, by its slot. -/
def Core.thr (k : Core) (slot : Nat) : Thread := (k.slots.toList[slot]?).getD {}

/-- A thread of a core of the grid. -/
def State.thrAt (s : State) (core slot : Nat) : Thread := (s.coreAt core).thr slot

/-- Replace a thread of a core of the grid. -/
def State.setThrAt (s : State) (core slot : Nat) (t : Thread) : State :=
  let k := s.coreAt core
  s.setCoreAt core { k with slots := k.slots.setIfInBounds slot t }

/-- Whether a SEND on a handle waits for room in its window, no packet of it being injected and no payload being read (R224). -/
def Proc.sendWaits (p : Proc) (h : Nat) : Bool :=
  match ((p.handles.toList[h]?).getD none).bind (·.cur) with
  | some c => c.inj.isNone && !c.reading && !c.claimed
  | none => true

/-- Whether a helper slot of a core is withheld (R353, R407, R408). -/
def State.withheld (s : State) (core slot : Nat) : Bool :=
  let k := s.coreAt core
  decide (1 ≤ slot) && decide (slot ≤ 10) &&
    (decide (s.module.slotcap < slot) || decide (10 - k.thermWithheld < slot) || k.hot)

/-- Whether a thread is parked in a SPAWNW that has had no effect yet: it has tested nothing that it keeps, and R256 and R265 put it at a
boundary whatever it waits for. -/
def Thread.inSpawnw (t : Thread) : Bool :=
  fld t.ir 23 6 == 0x38#6 && fld t.ir 0 8 == 1#8 && (match t.wait with | some (.retry .fetch) => false | some (.retry _) => true | _ => false)

/-- Whether a wait leaves its thread at an instruction boundary. A thread that waits for its store queue, or for write-backs that have been
acknowledged, waits to make an access (R152, R153), unless its slot is withheld: then it issues nothing (R345). An LDF or LDFC on an
own-window granule does, while it is in the granule's queue (R345), and so does a SPAWNW (R265). -/
def State.waitBound (s : State) (core slot : Nat) (t : Thread) : Bool :=
  match t.wait with
  | none => true
  | some (.retry on) =>
    t.inSpawnw ||
    (match on with
     | .walk | .fetch | .bank .. | .more | .unitHome _ => false
     | .storeRoom | .storeEmpty => s.withheld core slot
     | .wbAck c => s.withheld core slot && decide (c ≤ s.cycle)
     | .remoteAcks => (s.coreAt core).proc.remoteStores == 0
     | _ => true)
  | some .access =>
    (match t.pend.head? with
     | some a =>
       (match a.place with
        | .win g l _ => g == (s.coreAt core).proc.gid && l == (s.coreAt core).proc.lid
        | _ => false) &&
       s.waiters.any (fun w => w.core == core && w.slot == slot)
     | none => false)
  | some (.send h) => (s.coreAt core).proc.sendWaits h
  | some (.barwait _) | some (.ctrwait ..) | some (.waitm ..) | some (.hjoin ..) | some (.chclose _)
  | some (.cpwait ..) | some (.push _) => true
  | _ => false

/-- Whether a thread is at an instruction boundary: no instruction of it has begun to act, and its wait, if it has one, is at a boundary. In
a withheld slot it issues nothing and is at one (R249, R345), once what is under way outside the core has come back. -/
def State.paused (s : State) (core slot : Nat) : Bool :=
  let t := s.thrAt core slot
  ((t.ready == 0 && t.rel.isNone) || (s.withheld core slot && !t.inTake)) && s.waitBound core slot t

/-- Whether a thread is at an instruction boundary outside any frame, with no trap outstanding (R345). -/
def State.atBoundary (s : State) (core slot : Nat) : Bool :=
  let t := s.thrAt core slot
  t.frame.isNone && t.trap.isNone && s.paused core slot

/-- Whether a thread counts as held: at an instruction boundary, or suspended in a withheld slot with no trap outstanding, also
inside a frame (R345; log entry 84). -/
def State.heldAt (s : State) (core slot : Nat) : Bool :=
  s.atBoundary core slot || (s.withheld core slot && (s.thrAt core slot).trap.isNone && s.paused core slot)

/-- Whether a process is at its swap point: every live thread of slots 0-10 is held, its stores
acknowledged (R153, R345). -/
def State.atSwapPoint (s : State) (core : Nat) : Bool :=
  (List.range 11).all (fun i =>
    let t := s.thrAt core i
    !t.live || (s.heldAt core i && t.storeQ.isEmpty))

/-! ### The trap queue (R378, R379, R383) -/

/-- The four dwords of a record (Table 19.2). -/
def TrapRec.dwords (r : TrapRec) : List Word :=
  [r.pc, r.addr,
   BitVec.ofNat 64 (r.code + r.slot * 2 ^ 8 + r.src * 2 ^ 12 + (if r.frame then 2 ^ 15 else 0) + r.pass * 2 ^ 16 + r.posn * 2 ^ 24 +
     r.info.toNat * 2 ^ 32),
   BitVec.ofNat 64 (r.word.toNat + r.cause * 2 ^ 32)]

/-- Deliver a record in X[d] to X[d+3]. -/
def Thread.takeRecord (t : Thread) (d : BitVec 5) (r : TrapRec) : Thread :=
  match r.dwords with
  | [w0, w1, w2, w3] => (((t.wx d w0).wx (d + 1) w1).wx (d + 2) w2).wx (d + 3) w3
  | _ => t

/-- Records that wait enter a queue of 8 in their turn (R379). -/
def Core.refill (k : Core) : Core :=
  let n := 8 - k.trapQ.length
  { k with trapQ := k.trapQ ++ k.trapWait.take n, trapWait := k.trapWait.drop n }

/-- Pop the head of the trap queue of the core in focus. -/
def State.popRecord (s : State) : Option (TrapRec × State) :=
  match s.core.trapQ with
  | [] => none
  | r :: rest => some (r, { s with core := ({ s.core with trapQ := rest } : Core).refill })

/-- A TRGET that is parked gets the record at the head of the queue (R383). -/
def State.serveTrget (s : State) : State :=
  let t := s.core.thr 11
  match t.wait with
  | some (.trget d) =>
    match s.popRecord with
    | some (r, s1) => s1.setThrAt s1.here 11 { (t.takeRecord d r).resumed with got := [] }
    | none => s
  | _ => s

/-! ### Giving up a wait -/

/-- A wait that is given up: the instruction will be executed again in full, and is not counted as issued. The turn in which an
instruction has begun that goes on when its wait ends is in no counter yet (R411). -/
def Thread.abandon (t : Thread) : Thread :=
  match t.wait with
  | none => t
  | some (.retry on) =>
    let t1 := { t with wait := none, pend := [], got := [], cont := .nop, desc := none, fms := none, rel := none }
    if on.atOnce then t1.bubble (Wait.retry on).turnClass else t1
  | some _ => { t with wait := none, pend := [], got := [], cont := .nop, desc := none, fms := none, instret := t.instret - 1 }

/-- Mark the send in progress on a handle as cut off: its message ends with an ABORT packet (R223, R256). -/
def Proc.cutSend (p : Proc) (h : Nat) : Proc :=
  match ((p.handles.toList[h]?).getD none) with
  | some o => { p with handles := p.handles.setIfInBounds h (some { o with cur := o.cur.map (fun c => { c with abort := true }) }) }
  | none => p

/-- Grant entries of the op queue that are free to the threads that wait, in their order (R302). -/
def MatQ.grantOps (m : MatQ) : Nat → MatQ
  | 0 => m
  | f + 1 =>
    match m.waiting with
    | w :: rest =>
      if m.queue.length + m.granted.length < 2 then
        MatQ.grantOps { m with waiting := rest, granted := m.granted ++ [w] } f
      else m
    | [] => m

/-- Grant latch slots that are free to the MLDB threads at the head of those that wait; a blocked landing at the head keeps
its place (R302, R316). Landings are listed as numbers from 1000 on. -/
def Proc.grantLatch (p : Proc) : Nat → Proc
  | 0 => p
  | f + 1 =>
    match p.mq.latchWait with
    | w :: rest =>
      if p.latch.length + p.mq.latchGrant.length < 2 && decide (w < 1000) then
        Proc.grantLatch { p with mq := { p.mq with latchWait := rest, latchGrant := p.mq.latchGrant ++ [w] } } f
      else p
    | [] => p

/-- Threads to which an entry or a slot has been granted since the queues were `before` go on at their first own turn after this cycle
(R302). -/
def State.noteGrants (s : State) (before : MatQ) : State :=
  let m := s.proc.mq
  let fresh (i : Nat) : Bool := (m.granted.contains i && !before.granted.contains i) || (m.latchGrant.contains i && !before.latchGrant.contains i)
  if m.granted == before.granted && m.latchGrant == before.latchGrant then s
  else { s with core := { s.core with slots := vmapIdx (fun i t => if fresh i then { t with notBefore := max t.notBefore (s.cycle + 1) } else t) s.core.slots } }

/-- A latch entry has been sent, or is given up: its slot frees when nothing is bound to it (R316). -/
def Proc.latchSent (p : Proc) (id : Nat) : Proc :=
  let l := p.latch.map (fun e => if e.id == id then { e with sending := false } else e)
  ({ p with latch := l.filter (fun e => !(e.popped && e.bound == 0 && !e.sending)) }).grantLatch 2

/-- The number by which a PRECV of a slot waits for a latch slot (`Proc.grantLatch`). -/
def precvKey (slot : Nat) : Nat := 2 ^ 40 + slot

/-- The queues of the matrix engine without the thread of a slot. -/
def MatQ.without (m : MatQ) (slot : Nat) : MatQ :=
  { m with waiting := m.waiting.filter (· != slot), granted := m.granted.filter (· != slot),
           latchWait := m.latchWait.filter (fun k => k != slot && k != precvKey slot), latchGrant := m.latchGrant.filter (· != slot) }

/-- The thread of a slot of the core in focus leaves the queues of the matrix engine: what it has been granted goes to those behind it, blocked
landings among them (R302, R317). -/
def State.leaveQueues (s : State) (slot : Nat) : State :=
  let p := s.proc
  if p.mq.without slot == p.mq then s
  else
    let p1 := ({ p with mq := (p.mq.without slot).grantOps 2 } : Proc).grantLatch 2
    ((s.setProc p1).noteGrants p.mq).after 0 (.latchEntryAppend p.gid p.lid 0)

/-- A thread that has been granted a place and no longer waits to execute its instruction again gives it back (R302). -/
def State.dropGrant (s : State) : State :=
  let m := s.proc.mq
  let waits := match s.thr.wait with | some (.retry _) => true | _ => false
  if (m.granted.contains s.slot.val || m.latchGrant.contains s.slot.val) && !waits then s.leaveQueues s.slot.val else s

/-- The SEND of a slot no longer holds a handle (R222). -/
def Proc.unclaim (p : Proc) (slot h : Nat) : Proc :=
  match ((p.handles.toList[h]?).getD none) with
  | some o =>
    if o.cur.any (fun c => c.claimed && c.slot == slot) then { p with handles := p.handles.setIfInBounds h (some { o with cur := none }) } else p
  | none => p

/-- The mark by which a thread tells that its SEND on a handle has passed its checks. -/
def sendMark (h : Nat) : Nat := 2 ^ 70 + h

/-- Give up the wait of a thread on the core in focus: it leaves a granule's queue, and a send of it is cut off. -/
def State.abandonWait (s : State) (slot : Nat) : State :=
  let t := s.thrAt s.here slot
  let s1 := s.setThrAt s.here slot t.abandon
  let s2 := ({ s1 with waiters := s1.waiters.filter (fun w => !(w.core == s.here && w.slot == slot)) } : State).leaveQueues slot
  match t.wait with
  | some (.send h) => s2.setProc (s2.proc.cutSend h)
  | some (.retry (.unitHome _)) =>
    { s2 with units := s2.units.map (fun r => { r with waiting := r.waiting.filter (· != .threadResume s.here slot) }) }
  | some (.push _) => s2.setProc { s2.proc with pushQ := s2.proc.pushQ.filter (fun r => r.slot != slot) }
  | some (.retry _) =>
    match t.got with
    | m :: rest =>
      if m < sendMark 0 then s2
      else
        let s3 := match rest with
          | id :: _ => ((s2.setProc (s2.proc.latchSent id)).noteGrants s2.proc.mq).after 0 (.latchEntryAppend s2.proc.gid s2.proc.lid 0)
          | [] => s2
        (s3.setProc (s3.proc.unclaim slot (m - sendMark 0))).after 0 (.packetInject s3.proc.gid s3.proc.lid (m - sendMark 0))
    | [] => s2
  | _ => s2

end Sys2Proof.Machine
end

