-- ==== Sys2Proof/Machine/Barrier.lean ====
section
/-! DEFINITION. Named barriers (spec 08, R201-R208). -/

namespace Sys2Proof.Machine

/-- A thread's state on a barrier. -/
def Thread.bar (t : Thread) (b : Nat) : BarState := (t.barSt.toList[b]?).getD .none

/-- Set it. -/
def Thread.setBar (t : Thread) (b : Nat) (st : BarState) : Thread := { t with barSt := t.barSt.setIfInBounds b st }

/-- A barrier of a process. -/
def Proc.bar (p : Proc) (b : Nat) : Barrier := (p.bars.toList[b]?).getD {}

/-- A parked BARWAIT whose thread's state is passed goes on with none (R205), at its first own turn after the cycle (R208). -/
def Thread.testBarwait (t : Thread) (c : Nat) : Thread :=
  match t.wait with
  | some (.barwait b) => if t.bar b = .passed then (t.setBar b .none).resumedAfter c else t
  | _ => t

/-- A completed phase reaches a thread that has arrived (R203); a wait of a held process is tested when the hold ends
(R345). -/
def Thread.phaseEnds (t : Thread) (b : Nat) (held : Bool) (c : Nat) : Thread :=
  if t.bar b = .arrived then (if held then t.setBar b .passed else (t.setBar b .passed).testBarwait c) else t

/-- Whether an arrival with this count finds an open phase with another target (R203). -/
def State.barMismatch (s : State) (b count : Nat) : Bool :=
  let r := s.proc.bar b
  r.tgt != 0 && r.tgt != count

/-- An arrival of a slot's thread on the core in focus (R203): `alive` is false for the deferred arrival of a thread that
has ended. -/
def State.arrive (s : State) (b count slot : Nat) (alive : Bool) : State :=
  let r := s.proc.bar b
  let tgt := if r.tgt = 0 then count else r.tgt
  let s1 := if alive then s.setThrAt s.here slot ((s.thrAt s.here slot).setBar b .arrived) else s
  let done := r.arr + 1 = tgt
  let s2 := s1.setProc { s1.proc with bars := s1.proc.bars.setIfInBounds b (if done then {} else { tgt := tgt, arr := r.arr + 1 }) }
  if done then { s2 with core := { s2.core with slots := vmap (fun t => t.phaseEnds b s2.proc.hold.isSome s.cycle) s2.core.slots } } else s2

/-- After its own arrival, a BARARR is complete; a BARSYNC goes on at once when the phase is complete, and else waits
(R205, R208). -/
def Thread.afterArrival (t : Thread) (b : Nat) (sync : Bool) : Thread :=
  if !sync then t.resumed
  else if t.bar b = .passed then (t.setBar b .none).resumed
  else { t with wait := some (.barwait b) }

/-- Whether a count is outside 1-11 (R203). -/
def badCount (v : Word) : Bool := v.toNat == 0 || decide (11 < v.toNat)

/-- BARARR and BARSYNC (R202-R205): the arrival waits for the thread's stores. -/
def barArrive (q : BitVec 3) (a b : BitVec 5) (sync : Bool) (s : State) : Out :=
  guarded q s (fun s =>
    let c := (s.rx a).toNat
    if s.thr.task || badCount (s.rx a) || s.barMismatch b.toNat c then s.takeTrap .illegal 0
    else if s.thr.storeQ ≠ [] then .next (s.park (.barArr b.toNat c sync))
    else
      let s1 := (s.setThr s.thr.issued).arrive b.toNat c s.slot.val true
      .next (s1.setThr (s1.thr.afterArrival b.toNat sync)))

/-- BARARR (R202-R204). -/
def execBararr (q : BitVec 3) (a b : BitVec 5) (s : State) : Out := barArrive q a b false s
/-- BARSYNC (R202-R205). -/
def execBarsync (q : BitVec 3) (a b : BitVec 5) (s : State) : Out := barArrive q a b true s

/-- BARRIER_ARRIVAL (R203, R204): the thread's accesses are acknowledged and its arrival is performed; a phase with
another target traps it ILLEGAL. -/
def execBarrierArrival (core slot : Nat) (s : State) : Out :=
  let s := s.focusSlot core slot
  match s.thr.wait with
  | some (.barArr b c sync) =>
    if s.thr.storeQ ≠ [] then .next s
    else if s.barMismatch b c then .next (s.trapParked Trap.illegal.code 0)
    else
      let s1 := s.arrive b c slot true
      let t := s1.thr.afterArrival b sync
      .next (s1.setThr (if sync && t.wait.isNone then { t with notBefore := s.cycle + 1 } else t))
  | _ => .next s

/-- BARWAIT (R202, R205). -/
def execBarwait (q : BitVec 3) (b : BitVec 5) (s : State) : Out :=
  guarded q s (fun s =>
    if s.thr.task then s.takeTrap .illegal 0
    else
      match s.thr.bar b.toNat with
      | .none => s.retire
      | .passed => (s.setThr (s.thr.setBar b.toNat .none)).retire
      | _ => .next (s.park (.barwait b.toNat)))

/-- The copy requests of a slot's thread that have not landed: waiting, active or suspended, and not aborted (R206). -/
def Proc.unlanded (p : Proc) (slot : Nat) : List Nat :=
  (p.fifo.filter (fun r => r.slot == slot && r.mine && !r.aborted && (r.state == 1 || r.state == 2 || r.state == 3))).map (·.id)

/-- The record of a deferred arrival that found another target (R206, R378). -/
def Thread.defRecord (t : Thread) (slot b : Nat) : TrapRec :=
  { t.record slot Trap.engine.code 0 (BitVec.ofNat 32 b) with src := 3 }

/-- Queue the record of a deferred arrival of a thread that has ended: it has the slot, and no PC or word (R206, R378). -/
def State.raiseEnded (s : State) (slot b : Nat) : State := s.raise s.here (({} : Thread).defRecord slot b)

/-- Stop the thread in focus with the record of a deferred arrival: at an instruction boundary (R206). A further one stops it again once
it has been resumed (R379). -/
def State.stopDeferred (s : State) (b : Nat) : State :=
  let s0 := s.abandonWait s.slot.val
  let r := s0.thr.defRecord s.slot.val b
  let s1 := s0.setThr { (s0.thr.trapped r) with defStop := s0.thr.defStop.tail }
  if s.slot.val = 11 then s1.haltCore (some r) else s1.raise s.here r

/-- A deferred arrival with the wrong count is discarded (R206): the thread's state, its stop, and the record. A thread
that issues is stopped at its next turn, one parked elsewhere when its operation has completed, before its next
instruction: `defStop` keeps the barriers until then. -/
def State.discardDeferred (s : State) (d : Deferred) : State :=
  if !d.alive then s.raiseEnded d.slot d.bar
  else
    let t := s.thrAt s.here d.slot
    let more := s.proc.defs.any (fun e => e.slot == d.slot && e.alive && e.bar == d.bar)
    let t1 := { t.setBar d.bar (if more then .deferred else .none) with defStop := t.defStop ++ [d.bar] }
    let s1 := s.setThrAt s.here d.slot t1
    if t1.wait.isSome && s1.atBoundary s1.here d.slot then (s1.focusSlot s1.here d.slot).stopDeferred d.bar else s1

/-- Perform a deferred arrival on the core in focus (R203, R206). -/
def State.performDeferred (s : State) (d : Deferred) : State :=
  if s.barMismatch d.bar d.count then s.discardDeferred d else s.arrive d.bar d.count d.slot d.alive

/-- BARDEF (R202, R206): with nothing outstanding the arrival is performed in the turn. -/
def execBardef (q : BitVec 3) (a b : BitVec 5) (s : State) : Out :=
  guarded q s (fun s =>
    let slot := s.slot.val
    if s.thr.task || badCount (s.rx a) then s.takeTrap .illegal 0
    else if 4 ≤ (s.proc.defs.filter (fun e => e.slot == slot && e.alive)).length then .next (s.parkRetry .defRoom)
    else
      let d : Deferred := { slot := slot, alive := true, bar := b.toNat, count := (s.rx a).toNat,
                            stores := s.thr.storeQ.length, copies := s.proc.unlanded slot }
      let s1 := s.setThr (s.thr.retired.setBar b.toNat .deferred)
      if d.stores = 0 ∧ d.copies = [] then .next (s1.performDeferred d)
      else .next (s1.setProc { s1.proc with defs := s1.proc.defs ++ [d] }))

/-- Whether a pending deferred arrival waits for nothing more. -/
def Deferred.due (d : Deferred) : Bool := d.stores == 0 && d.copies.isEmpty

/-- Change the pending deferred arrivals of the process in focus, and let those happen that become due (R206). -/
def State.updateDefs (s : State) (f : Deferred → Deferred) : State :=
  let p := s.proc
  let due := p.defs.filter (fun d => !d.due && (f d).due)
  due.foldl (fun (acc : State) d => acc.after 0 (.deferredArrival p.gid p.lid d.slot)) (s.setProc { p with defs := p.defs.map f })

/-- A store of a slot has been acknowledged. -/
def State.storeAcked (s : State) (slot : Nat) : State :=
  if s.proc.defs.isEmpty then s
  else s.updateDefs (fun d => if d.slot == slot && d.alive then { d with stores := d.stores - 1 } else d)

/-- A copy request has landed (R206). -/
def State.copyLanded (s : State) (id : Nat) : State :=
  if s.proc.defs.isEmpty then s
  else s.updateDefs (fun d => { d with copies := d.copies.filter (· != id) })

/-- Remove the first of some entries of a list. -/
def eraseFirst {α : Type} (f : α → Bool) : List α → List α
  | [] => []
  | a :: t => if f a then t else a :: eraseFirst f t

/-- DEFERRED_ARRIVAL (R206). -/
def execDeferredArrival (gid lid slot : Nat) (s : State) : Out :=
  match s.coreOf gid lid with
  | none => .next s
  | some c =>
    let s := s.focus c
    match s.proc.defs.find? (fun d => d.slot == slot && d.due) with
    | none => .next s
    | some d =>
      .next ((s.setProc { s.proc with defs := eraseFirst (fun e => e.slot == slot && e.due) s.proc.defs }).performDeferred d)

/-- BARST (R207, Table 8.8). -/
def execBarst (q : BitVec 3) (d b : BitVec 5) (s : State) : Out :=
  guarded q s (fun s =>
    let r := s.proc.bar b.toNat
    let st := match s.thr.bar b.toNat with | .none => 0 | .arrived => 1 | .passed => 2 | .deferred => 3
    let nd := (s.proc.defs.filter (fun e => e.slot == s.slot.val && e.alive && e.bar == b.toNat)).length
    (s.wx d (BitVec.ofNat 64 (r.tgt + 16 * r.arr + 256 * st + 1024 * nd))).retire)

end Sys2Proof.Machine
end

