-- ==== Sys2Proof/Machine/MemEvents.lean ====
section
/-! DEFINITION. The memory system's own steps: requests at home, replies, the store queue, walks, evictions, soft errors and
the FIFO port (R152-R163, R370-R373). -/

namespace Sys2Proof.Machine

/-- The access of a thread that is in flight: the store at the head of its queue, or the access that parks it (R152). -/
def Thread.inFlight (t : Thread) : Option Acc :=
  match t.storeQ with
  | a :: _ => some a
  | [] => t.pend.head?

/-- The time from the moment an access is performed to its reply. -/
def State.backTime (s : State) (a : Acc) (hit : Bool) : Nat := s.replyTime a hit - s.reqTime a

/-- The time from the moment an access is performed to its reply: one that has waited at its home only travels back (Table 8.1). -/
def State.answerTime (s : State) (a : Acc) (hit : Bool) : Nat :=
  if a.waited && !a.cached then min (s.reqTime a) (s.backTime a hit) else s.backTime a hit

/-- The access in flight of a thread waits at its home (R183). -/
def Thread.waitsAtHome (t : Thread) : Thread :=
  match t.storeQ with
  | a :: rest => { t with storeQ := { a with waited := true } :: rest }
  | [] =>
    match t.pend with
    | a :: rest => { t with pend := { a with waited := true } :: rest }
    | [] => t

/-- The access in flight of a thread is not cached after all (R160). -/
def Thread.uncached (t : Thread) : Thread :=
  match t.storeQ with
  | a :: rest => { t with storeQ := { a with cached := false } :: rest }
  | [] =>
    match t.pend with
    | a :: rest => { t with pend := { a with cached := false } :: rest }
    | [] => t

/-- A request of the thread (core, slot) reaches its home and is performed there; its reply goes back (R370). One to a process that is
being moved is held, one to a process that has left is forwarded (R215, R346). A cacheable access that finds no bank of its cluster in
cache mode goes on to its home (R160). -/
def serveRequest (core slot : Nat) (s : State) : Out :=
  let s := s.focusSlot core slot
  match s.thr.inFlight with
  | none => .next s
  | some a =>
    match (match a.place with | .win g l _ => s.reached g l | _ => .here) with
    | .held => .next (s.after 1 (accessStep a.kind core slot))
    | .sent s1 n => .next (s1.after n (accessStep a.kind core slot))
    | .here =>
      let late := a.cached && !s.cacheOn
      let a := if late then { a with cached := false } else a
      let s := if late then s.setThr s.thr.uncached else s
      let back (hit : Bool) : Nat := if late then s.replyTime a hit - 4 else s.answerTime a hit
      if late && !farPlace a.place && 4 < s.reqTime a then .next (s.after (s.reqTime a - 4) (accessStep a.kind core slot))
      else
      match s.perform a core slot with
      | .done s1 v g hit => .next (s1.after (back hit) (.nonlocalReply core slot v 0 g))
      | .fault s1 t => .next (s1.after (back true) (.nonlocalReply core slot 0 t.code {}))
      | .wait s1 => .next (s1.setThr s1.thr.waitsAtHome)
      | .ask b => .next (s.askFar b)

/-- REMOTE_ACCESS_AT_HOME (R370). -/
def execRemoteAccessAtHome (core slot : Nat) (s : State) : Out := serveRequest core slot s
/-- RELEASE_AT_HOME (R165, R166): a release store reaches its word's home. -/
def execReleaseAtHome (core slot : Nat) (s : State) : Out := serveRequest core slot s
/-- MONITOR_ARM_AT_HOME (R195): the dword is read and the watch entry installed in one cycle. -/
def execMonitorArmAtHome (core slot : Nat) (s : State) : Out := serveRequest core slot s

/-- STORE_QUEUE_SEND (R152): the store at the head of the queue is sent. -/
def execStoreQueueSend (core slot : Nat) (s : State) : Out :=
  let s := s.focusSlot core slot
  match s.thr.storeQ with
  | a :: _ =>
    .next (s.after (s.reqTime a) (accessStep a.kind core slot))
  | [] => .next s

/-- A store of the thread in focus has been acknowledged: the next is sent, and what waited for the queue goes on (R152,
R204, R206). -/
def State.ackStore (s : State) : Out :=
  let rest := s.thr.storeQ.tail
  let s1 := (s.setThr { s.thr with storeQ := rest }).storeAcked s.slot.val
  if rest ≠ [] then (s1.after 0 (.storeQueueSend s.here s.slot.val)).pumpOn
  else
    match s1.thr.wait with
    | some (.barArr ..) => .next (s1.after 0 (.barrierArrival s.here s.slot.val))
    | some .fence => .next s1.unpark
    | some .iflush => .next s1.dropICache.unpark
    | some (.hend _) | some (.mldb _) => .next (s1.after 0 (.threadResume s.here s.slot.val))
    | some (.retry .more) => .next (s1.goOn s.here s.slot.val)
    | _ => s1.pumpOn

/-- What a reply to the access in flight delivers: the value, or for a cached access the bytes of the sector that another module has
sent, which fills the line first (R162, R247). -/
def State.replied (s : State) (a : Acc) (val core slot : Nat) : State × Nat :=
  match a.asked && a.cached, a.place with
  | true, .phys pa =>
    let s1 := s.fillFar (clusterOf core) pa a.scope val
    match s1.performCached a pa core slot with
    | .done s2 v _ _ => (s2, v)
    | _ => (s1, val / 256 ^ (pa % 64) % 256 ^ a.size)
  | _, _ => (if a.asked && a.kind == .arm then s.armMonitor a.place a.mask else s, val)

/-- The answer to the access in flight of the thread in focus. -/
def State.accessReply (s : State) (val fault : Nat) (sig : Sig) : Out :=
  match s.thr.pend with
  | [] => s.pumpOn
  | a :: rest =>
    let s1 := s.countRemote a (-1)
    if fault ≠ 0 then
      if s.thr.cont = .again then
        .next (s1.goesAgain { s1.thr.apply .again (s1.thr.got ++ [faultMark fault]) with pend := [], cont := .nop })
      else .next (s1.trapParked fault a.va)
    else
      let r := s1.replied a val s.here s.slot.val
      (r.1.setThr { r.1.thr with pend := rest, got := r.1.thr.got ++ [r.2], gotSig := sig }).pumpOn

/-- NONLOCAL_REPLY (R153, R154): the acknowledgement of a queued store, or the answer to the access or the atomic that
parks the thread. A fault is taken in the thread (R163, R253), or is handed to an instruction of two stages. A halted core accepts the
reply and holds it (R386). -/
def execNonlocalReply (core slot val fault : Nat) (sig : Sig) (s : State) : Out :=
  let s := s.focusSlot core slot
  if s.repliesHeld then .next (s.holdReply (.nonlocalReply core slot val fault sig))
  else if s.thr.storeQ ≠ [] then s.ackStore
  else
    match s.thr.wait with
    | some .atomic =>
      if fault = 0 then s.farAmo val sig
      else if (s.thr.amo.map (·.again)).getD false then
        .next (s.goesAgain { s.thr with got := s.thr.got ++ [faultMark fault], ready := s.thr.ready + 1, amo := none })
      else .next (s.trapParked fault ((s.thr.amo.map (·.va)).getD 0))
    | some .access => s.accessReply val fault sig
    | some (.chopen d) => .next ((s.unparkX d (BitVec.ofNat 64 val)).setThr { (s.unparkX d (BitVec.ofNat 64 val)).thr with got := [] })
    | _ => .next s

/-- Whether the thread in focus is parked for a walk; a walk for the fetch of an instruction ends the wait. -/
def Thread.walkDone (t : Thread) : Option Thread :=
  match t.wait with
  | some (.retry .walk) => some t
  | some (.retry .fetch) => some { t with wait := none }
  | _ => none

/-- PAGE_WALK (R156, R158): the second-level TLB or the tables answer, and the instruction goes on; a walk that traps leaves no
entry, and the instruction takes the trap. It goes through the root of its beginning (R385), and waits at a bank whose mode is being changed
(R161). -/
def execPageWalk (core slot : Nat) (s : State) : Out :=
  let s := s.focusSlot core slot
  match s.thr.walkDone, s.thr.walked with
  | some t, page :: _ =>
    let sv := slot == 11
    let va := page.toNat * 2 ^ 16
    let s1 := if t.wait.isSome then s.goOn core slot else s.setThr t
    match (s.clusterAt (clusterOf core)).tlb2.find? (fun e => e.hits (s.tlbTag sv) va) with
    | some e => .next (s1.fillTlb e)
    | none =>
      match walkBusy s va 3 s.thr.walkRoot.toNat with
      | some (cl, b) => .next (s.waitBank cl b (.pageWalk core slot))
      | none =>
      match s.begunWalk va with
      | .ok (pte, large) =>
        let e := tlbEntry (s.tlbTag sv) va pte large
        .next ((s1.fillTlb e).fillTlb2 e)
      | .error _ => .next s1
  | _, _ => .next s

/-- CAPACITY_EVICTION (R162, R373): a cluster writes a line back and drops it; a unit that is away delays it (R183). -/
def execCapacityEviction (cluster line : Nat) (s : State) : Out :=
  match s.writeBackAll cluster (fun l => l.line == line) true with
  | .done s1 _ => .next s1
  | .blocked u => .next (s.waitUnit u (.capacityEviction cluster line))

/-- Mark a 16-byte unit with an uncorrectable error, in the copy of a cluster where it holds one, else at home (R163); unit n of a bank in
FIFO mode is its n-th entry, which no error strikes where there is none. -/
def State.markBad (s : State) (cl : Nat) (unit : Place) : State :=
  let u := unit.align 16
  let k := s.clusterAt cl
  let home : State := if s.bad.contains u then s else { s with bad := u :: s.bad }
  let home : State := match bankOf u, u with
    | some (c, b), .phys pa =>
      if s.bankMode c b = .fifo ∧ (((s.clusterAt c).fifos[b]?).getD []).length ≤ pa % 2 ^ 18 / 16 then s else home
    | _, _ => home
  match u with
  | .phys pa =>
    match k.lineOf pa with
    | some l =>
      if l.valid.getLsbD (pa % 256 / 64) || (l.dirty &&& byteMask (pa % 256) 16) != 0 then
        s.setCluster cl (k.setLine { l with bad := l.bad ||| BitVec.ofNat 16 (2 ^ (pa % 256 / 16)) })
      else home
    | none => home
  | _ => home

/-- ECC_SOFT_ERROR (R163, R315, Table 19.4): a corrected error is counted in ECCCNT of the core; an uncorrectable one marks the
16-byte unit, the entry of the core's B latch or the 4-byte word of its accumulators that it strikes. -/
def execEccSoftError (core : Nat) (at_ : EccAt) (corrected : Bool) (s : State) : Out :=
  let k := s.coreAt core
  if corrected then
    .next (s.setCoreAt core { k with ecccnt := if k.ecccnt = BitVec.allOnes 64 then k.ecccnt else k.ecccnt + 1 })
  else
    match at_ with
    | .unit p => .next (s.markBad (clusterOf core) p)
    | .latch n =>
      let l := k.proc.latch.zipIdx.map (fun e => if e.2 = n then { e.1 with bad := true } else e.1)
      .next (s.setCoreAt core { k with proc := { k.proc with latch := l } })
    | .acc n =>
      .next (s.setCoreAt core { k with proc := { k.proc with accBad := if k.proc.accBad.contains n then k.proc.accBad else n :: k.proc.accBad } })

/-- Serve the accessors parked at a FIFO bank, in their order (R160). The flag tells whether one was served. -/
def serveFifo (cl b : Nat) : List (Nat × Nat × Nat) → State → State × Bool
  | [], s => (s, false)
  | (b', core, slot) :: rest, s =>
    if b' ≠ b then serveFifo cl b rest s
    else
      let s0 := s.focusSlot core slot
      match s0.thr.pend.head? with
      | none => serveFifo cl b rest s0
      | some a =>
        let served (s1 : State) (v code : Nat) : State :=
          let k := s1.clusterAt cl
          (s1.setCluster cl { k with fifoWait := k.fifoWait.filter (fun w => !(w.2 == (core, slot))) }).after (s0.backTime a true)
            (.nonlocalReply core slot v code {})
        match s0.fifoServe cl b a with
        | .park => serveFifo cl b rest s0
        | .done s1 v => ((serveFifo cl b rest (served s1 v 0)).1, true)
        | .machine s1 => ((serveFifo cl b rest (served s1 0 Trap.machine.code)).1, true)

/-- FIFO_PORT_SERVE (R160). -/
def execFifoPortServe (cluster bank : Nat) (s : State) : Out :=
  let r := serveFifo cluster bank (s.clusterAt cluster).fifoWait s
  if r.2 then .next (r.1.after 0 (.fifoPortServe cluster bank)) else .next r.1

end Sys2Proof.Machine
end

