-- ==== Sys2Proof/Machine/Monitor.lean ====
section
/-! DEFINITION. Monitors (spec 08, R193-R200). -/

namespace Sys2Proof.Machine

/-- The core that a thread's key names, with its thread in focus. -/
def State.focusKey (s : State) (gid lid slot : Nat) : Option State := (s.coreOfKey gid lid).map (fun c => s.focusSlot c slot)

/-- Monitor `i` of a thread. -/
def Thread.mon (t : Thread) (i : Nat) : Monitor := (t.mons.toList[i]?).getD {}

/-- Replace a monitor. -/
def Thread.setMon (t : Thread) (i : Nat) (m : Monitor) : Thread := { t with mons := t.mons.setIfInBounds i m }

/-- Disarm a monitor: its watch entry is cancelled, its triggered bit cleared, its generation increased (R198). -/
def State.disarm (s : State) (i : Nat) : State :=
  let s1 := s.sendCancel i
  let m := s1.thr.mon i
  s1.setThr (s1.thr.setMon i { m with armed := false, trig := false, gen := (m.gen + 1) % 16 })

/-- Disarm all four monitors of the thread in focus (R198, R200). -/
def State.disarmAll (s : State) : State := (List.range 4).foldl State.disarm s

/-- MONARM (R185, R195, R199): the home reads the dword of the home copy and installs the watch entry in one action; the monitor is
armed then, so that a fault leaves it as it was (R163, R253). -/
def execMonarm (q : BitVec 3) (d a : BitVec 5) (idx : BitVec 2) (s : State) : Out :=
  guarded q s (fun s =>
    let ea := s.rx a
    atAddr .r 8 8 ea false s (fun p _ sc ty =>
      if ty ≠ 16 ∧ (sc = 3 ∨ ty = 3 ∨ ty = 4) then s.takeTrap .protect ea
      else startAcc [{ kind := .arm, place := p, va := ea, size := 8, mask := idx.toNat,
                       val := if (s.thr.mon idx.toNat).armed then ((s.thr.mon idx.toNat).gen + 1) % 16 else (s.thr.mon idx.toNat).gen }]
        (.xreg d 8 false) s))

/-- MONDIS (R198): monitor `idx`, or all four for 4. -/
def execMondis (q idx : BitVec 3) (s : State) : Out :=
  guarded q s (fun s => (if idx.toNat = 4 then s.disarmAll else s.disarm idx.toNat).retire)

/-- Bits of the triggered armed monitors. -/
def Thread.trigBits (t : Thread) : Nat :=
  ((List.range 4).map (fun i => if (t.mon i).armed && (t.mon i).trig then 2 ^ i else 0)).sum

/-- Bits of the armed monitors. -/
def Thread.armedBits (t : Thread) : Nat := ((List.range 4).map (fun i => if (t.mon i).armed then 2 ^ i else 0)).sum

/-- WAITM clears the triggered bits that it reports (R197). -/
def Thread.clearTrig (t : Thread) : Thread := { t with mons := vmap (fun m => if m.armed then { m with trig := false } else m) t.mons }

/-- WAITM (R197, R385, Table 8.5). -/
def execWaitm (q : BitVec 3) (d a : BitVec 5) (s : State) : Out :=
  guarded q s (fun s =>
    let t := s.thr
    let lim := s.rx a
    let finite := lim != BitVec.allOnes 64
    let none_ := t.armedBits == 0 && !finite
    let bits := t.trigBits + (if lim = 0 then 16 else 0) + (if t.intr then 32 else 0) + (if none_ then 64 else 0)
    if bits ≠ 0 then ((s.setThr { t.clearTrig with intr := false }).wx d (BitVec.ofNat 64 bits)).retire
    else
      let k := s.keyOf s.here s.slot.val
      let s1 := s.park (.waitm d (if finite then some (s.cycle + lim.toNat) else none))
      .next (if finite then s1.after lim.toNat (.waitmTimeout k.1 k.2 s.slot.val) else s1))

/-- Test the conditions of the thread in focus, if it waits in WAITM, and end the wait when one holds (R197); while its
process is held the test is left until the hold ends (R345). The thread goes on at its first own turn after the cycle. -/
def State.testWaitm (s : State) : State :=
  if s.proc.hold.isSome && s.slot.val != 11 then s
  else
    match s.thr.wait with
    | some (.waitm d dl) =>
      let k := s.clusterAt (clusterOf s.here)
      let now := if k.dbgHalted then k.dbgSince else s.cycle
      let time := match dl with | some c => decide (c ≤ now) | none => false
      let bits := s.thr.trigBits + (if time then 16 else 0) + (if s.thr.intr then 32 else 0)
      if bits = 0 then s
      else s.setThr (({ s.thr.clearTrig with intr := false }.wx d (BitVec.ofNat 64 bits)).resumedAfter s.cycle)
    | _ => s

/-- MONST (R198). -/
def execMonst (q : BitVec 3) (d : BitVec 5) (s : State) : Out :=
  guarded q s (fun s =>
    let t := s.thr
    let trig := ((List.range 4).map (fun i => if (t.mon i).trig then 2 ^ i else 0)).sum
    (s.wx d (BitVec.ofNat 64 (t.armedBits + 16 * trig))).retire)

/-- MONITOR_CANCEL_AT_HOME (R198): the watch entry is removed. -/
def execMonitorCancelAtHome (gid lid slot mon gen : Nat) (s : State) : Out :=
  .next { s with watches := s.watches.filter (fun w =>
    !(w.gid == gid && w.lid == lid && w.slot == slot && w.mon == mon && w.gen == gen)) }

/-- A wake takes effect at the core that holds its thread (R196): the triggered bit is set if the generation matches, and a thread parked
in WAITM goes on. While that core takes part in a transfer it is held (R346); one for a process that has ended is discarded (R253). -/
def State.wakeActs (s : State) (gid lid slot mon gen : Nat) : Out :=
  match s.focusKey gid lid slot with
  | none => .next s
  | some s =>
    let m := s.thr.mon mon
    if gid < 65536 ∧ s.inTransfer s.here then .next (s.after 1 (.monitorWake gid lid slot mon gen))
    else if m.armed && m.gen == gen then .next ((s.setThr (s.thr.setMon mon { m with trig := true })).testWaitm)
    else .next s

/-- MONITOR_WAKE (R193, R196, R215, R346): a wake reaches the core that it is addressed to. A core in whose transfer it comes holds it; one
that the process has left forwards it like a channel packet, with a moved notice to the core that has sent it. -/
def execMonitorWake (gid lid slot mon gen : Nat) (s : State) : Out :=
  let e : Instr := .monitorWake gid lid slot mon gen
  match s.wakes.find? (fun w => w.1 == e) with
  | none => s.wakeActs gid lid slot mon gen
  | some w =>
    let c := w.2.1
    let s1 : State := { s with wakes := s.wakes.erase w }
    if s.inTransfer c then .next (s.after 1 e)
    else if (s.coreOf gid lid).isNone || s.coreOf gid lid == some c then s1.wakeActs gid lid slot mon gen
    else
      let r := s1.forwardOn c w.2.2 gid lid
      if r.2 = c then r.1.wakeActs gid lid slot mon gen else .next (r.1.wakeTo c r.2 (transit c r.2) e)

/-- WAITM_TIMEOUT (R197): the timeout of the thread's present WAITM has elapsed. -/
def execWaitmTimeout (gid lid slot : Nat) (s : State) : Out :=
  match s.focusKey gid lid slot with
  | none => .next s
  | some s => .next s.testWaitm

end Sys2Proof.Machine
end

