-- ==== Sys2Proof/Machine/Counter.lean ====
section
/-! DEFINITION. Counters and the waiting-task table (spec 09, R238-R240; R258). -/

namespace Sys2Proof.Machine

/-- Whether a counter has reached a value (R239). -/
def reached (c v : BitVec 32) : Bool := decide ((c - v).toNat < 2 ^ 31)

/-- A counter of the process in focus. -/
def State.ctr (s : State) (n : Nat) : BitVec 32 := (s.proc.ctr.toList[n]?).getD 0

/-- A parked CTRWAIT whose counter has reached its value goes on, at its first own turn after cycle `now` (R239). -/
def Thread.testCtrwait (t : Thread) (p : Proc) (now : Nat) : Thread :=
  match t.wait with
  | some (.ctrwait d n v) =>
    let c := (p.ctr.toList[n]?).getD 0
    if reached c v then (t.wx d (c.setWidth 64)).resumedAfter now else t
  | _ => t

/-- Test the CTRWAITs of the core in focus; those of a held process when the hold ends (R345). -/
def State.testCtrwaits (s : State) : State :=
  { s with core := { s.core with slots := vmapIdx (fun i t =>
      if s.proc.hold.isSome && i != 11 then t else t.testCtrwait s.proc s.cycle) s.core.slots } }

/-- Mark the entries of the task table that a counter's value triggers (R240). -/
def triggerAll (n : Nat) (v : BitVec 32) (now : Nat) (e : Option TtEnt) : Option TtEnt :=
  e.map (fun t => if t.ctr == n && t.trig.isNone && reached v t.thr then { t with trig := some now } else t)

/-- Set a counter of the process in focus: its waiters and its task-table entries are tested (R239, R240); triggered
entries enter the ready queue in the next cycle (R258). -/
def State.setCtr (s : State) (n : Nat) (v : BitVec 32) : State :=
  let p := s.proc
  let tt := vmap (triggerAll n v s.cycle) p.tt
  let s1 := (s.setProc { p with ctr := p.ctr.setIfInBounds n v, tt := tt }).testCtrwaits
  if tt != p.tt then s1.afterOnce 1 (.readyQueueEnter p.gid p.lid) else s1

/-- Add to a counter, modulo 2^32 (R230). -/
def State.addCtr (s : State) (n v : Nat) : State := s.setCtr n (s.ctr n + BitVec.ofNat 32 v)

/-- The counter that an operand names (R238). -/
def ctrNum (v : Word) : Nat := v.toNat % 64

/-- CTRGET (R238). -/
def execCtrget (q : BitVec 3) (d a : BitVec 5) (s : State) : Out :=
  guarded q s (fun s => (s.wx d ((s.ctr (ctrNum (s.rx a))).setWidth 64)).retire)

/-- CTRSET (R238). -/
def execCtrset (q : BitVec 3) (a b : BitVec 5) (s : State) : Out :=
  guarded q s (fun s => (s.setCtr (ctrNum (s.rx a)) (lo32 (s.rx b))).retire)

/-- CTRADD (R238): the old value is delivered. -/
def execCtradd (q : BitVec 3) (d a b : BitVec 5) (s : State) : Out :=
  guarded q s (fun s =>
    let n := ctrNum (s.rx a)
    let old := s.ctr n
    ((s.setCtr n (old + lo32 (s.rx b))).wx d (old.setWidth 64)).retire)

/-- CTRWAIT (R239). -/
def execCtrwait (q : BitVec 3) (d a b : BitVec 5) (s : State) : Out :=
  guarded q s (fun s =>
    let n := ctrNum (s.rx a)
    let v := lo32 (s.rx b)
    if reached (s.ctr n) v then (s.wx d ((s.ctr n).setWidth 64)).retire else .next (s.park (.ctrwait d n v)))

/-- Read a record of `n` bytes, aligned to its size, as a load, and act on it (R240, R269). -/
def readRecord (n : Nat) (ea : Word) (s : State) (k : State → Nat → Out) : Out :=
  if 0 < s.thr.ready then withData 0 [{ va := ea }] s (fun s g => k s (g.head?.getD 0))
  else
    atAddr .r n n ea false s (fun p ca sc _ =>
      withData 0 [{ kind := .load, place := p, va := ea, size := n, cached := ca, scope := sc }] s
        (fun s g => k s (g.head?.getD 0)))

/-- A field of a record: `n` bytes at an offset. -/
def recField (r off n : Nat) : Nat := r / 256 ^ off % 256 ^ n

/-- The index of the first free entry of a table, below `n`. -/
def firstFree (f : Nat → Bool) (n : Nat) : Option Nat := (List.range n).find? f

/-- An entry of the task table. -/
def Proc.ttEnt (p : Proc) (i : Nat) : Option TtEnt := (p.tt.toList[i]?).getD none

/-- TTSET (R240). -/
def execTtset (q : BitVec 3) (d a : BitVec 5) (s : State) : Out :=
  guarded q s (fun s =>
    readRecord 32 (s.rx a) s (fun s r =>
      let pc := recField r 0 8
      let ctr := recField r 20 1
      let prio := recField r 21 1
      if pc % 4 ≠ 0 ∨ 63 < ctr ∨ 3 < prio ∨ recField r 22 10 ≠ 0 then s.takeTrap .channel 0
      else
        match firstFree (fun i => (s.proc.ttEnt i).isNone) 16 with
        | none => (s.wx d (-1)).retire
        | some i =>
          let thr := BitVec.ofNat 32 (recField r 16 4)
          let trig := if reached (s.ctr ctr) thr then some s.cycle else none
          let e : TtEnt := { pc := BitVec.ofNat 64 pc, arg := BitVec.ofNat 64 (recField r 8 8), thr := thr, ctr := ctr, prio := prio,
                             trig := trig }
          let s1 := s.setProc { s.proc with tt := s.proc.tt.setIfInBounds i (some e) }
          let s2 := if trig.isSome then s1.afterOnce 1 (.readyQueueEnter s.proc.gid s.proc.lid) else s1
          (s2.wx d (BitVec.ofNat 64 i)).retire))

/-- TTCLR (R240). -/
def execTtclr (q : BitVec 3) (d a : BitVec 5) (s : State) : Out :=
  guarded q s (fun s =>
    let i := (s.rx a).toNat
    if 15 < i then s.takeTrap .channel 0
    else if (s.proc.ttEnt i).isSome then
      ((s.setProc { s.proc with tt := s.proc.tt.setIfInBounds i none }).wx d 0).retire
    else (s.wx d 1).retire)

end Sys2Proof.Machine
end

