-- ==== Sys2Proof/Machine/Task.lean ====
section
/-! DEFINITION. Threads, helpers, the ready queue and the deque (spec 10, R248-R271). -/

namespace Sys2Proof.Machine

/-! ### Slots (R20, R249, R353, R407, R408) -/

/-- Whether slot `i` of the core in focus is free in cycle `now` (R249, R252). -/
def State.slotFree (s : State) (now i : Nat) : Bool :=
  let t := s.core.thr i
  !t.live && decide (t.notBefore ≤ now) && !s.withheld s.here i

/-- The lowest free helper slot (R251, R259). -/
def State.freeSlot (s : State) (now : Nat) : Option Nat := (List.range 11).find? (fun i => i != 0 && s.slotFree now i)

/-- A new thread in a slot that has held another: what stays is the slot's exit value and KILLED bit, and the generations of
its monitors, by which late wakes are told apart (R193, R248, R254). -/
def Thread.fresh (t : Thread) : Thread :=
  { exitv := t.exitv, killed := t.killed, notBefore := t.notBefore,
    mons := vmap (fun m => { m with armed := false, trig := false }) t.mons }

/-- A thread starts in a slot (R248). -/
def Thread.start (t : Thread) (pc arg : Word) (notBefore : Nat) : Thread :=
  ({ t.fresh with live := true, pc := pc, notBefore := notBefore }).wx 10#5 arg

/-! ### The end of a thread (R200, R208, R252, R254, R256) -/

/-- The exit value of a killed thread (R256). -/
def killedExit : Word := 0x8000000000000000#64

/-- Whether a helper lives on the core in focus. -/
def State.helperLives (s : State) : Bool := (List.range 11).any (fun i => i != 0 && (s.core.thr i).live)

/-- An HJOIN for a slot gets its exit value in cycle `c` (R254). -/
def Thread.joined (t : Thread) (slot : Nat) (exit : Word) (c : Nat) : Thread :=
  match t.wait with
  | some (.hjoin d k) => if k = slot then (t.wx d exit).resumedAfter c else t
  | _ => t

/-- The HJOIN of the core in focus is looked at when a slot's thread ends, and when a hold of the process ends (R254, R345). -/
def State.testJoin (s : State) : State :=
  if s.proc.hold.isSome then s
  else
    match (s.core.thr 0).wait with
    | some (.hjoin _ k) =>
      if (s.core.thr k).live then s else s.setThrAt s.here 0 ((s.core.thr 0).joined k (s.core.thr k).exitv s.cycle)
    | _ => s

/-- What the thread of a slot leaves behind in its process when it ends: its deferred arrivals and copy requests are no longer its own
(R206, R208), and a copy request that waits for the FIFO is not made. -/
def Proc.leftBy (p : Proc) (slot : Nat) : Proc :=
  { p with defs := p.defs.map (fun d => if d.slot == slot then { d with alive := false } else d),
           fifo := p.fifo.map (fun q => if q.slot == slot then { q with mine := false } else q),
           pushQ := p.pushQ.filter (fun q => q.slot != slot),
           ctlEnded := p.ctlEnded || slot == 0 }

/-- The thread of a slot of the core in focus ends. The deferred arrivals that have still to stop it leave their records (R206). -/
def State.endThread (s : State) (slot : Nat) (exit : Word) (killed : Bool) : State :=
  let s0 := ((s.abandonWait slot).focusSlot s.here slot).disarmAll
  let t := s0.thr
  let s1 := s0.setThr { t.fresh with exitv := exit, killed := killed, notBefore := s.cycle + 1 }
  let s2 := s1.testJoin
  let p := s2.proc
  let s3 := t.defStop.foldl (fun (acc : State) b => acc.raiseEnded slot b) (s2.setProc (p.leftBy slot))
  let s4 := s3.askDispatch 2 p.gid p.lid
  if s4.proc.ctlEnded && !s4.helperLives then s4.afterOnce 0 (.processEnd p.gid p.lid) else s4

/-- Whether a pending HKILL may end the thread of a slot of the core in focus now: it issues, or is parked at an instruction
boundary, and no transfer of its process has begun (R256). -/
def State.killable (s : State) (slot : Nat) : Bool :=
  let t := s.core.thr slot
  t.live && t.kpend && t.trap.isNone && s.paused s.here slot &&
  !(s.moves.any (fun m => m.transfer && (m.a == s.here || m.b == s.here)))

/-- Carry out a pending HKILL: the thread ends, its slot being freed when its store queue has drained (R256). -/
def State.killNow (s : State) (slot : Nat) : State :=
  if !s.killable slot then s
  else if (s.core.thr slot).storeQ.isEmpty then s.endThread slot killedExit true
  else
    let s1 := s.abandonWait slot
    s1.setThrAt s1.here slot { s1.core.thr slot with wait := some (.hend killedExit) }

/-! ### THRD (R250-R257) -/

/-- HEND (R252). -/
def execHend (q : BitVec 3) (a : BitVec 5) (s : State) : Out :=
  guarded q s (fun s =>
    if s.slot.val = 11 then s.takeTrap .illegal 0
    else if s.thr.storeQ = [] then .next ((s.setThr s.thr.issued).endThread s.slot.val (s.rx a) false)
    else .next (s.park (.hend (s.rx a))))

/-- HSTART (R249-R251). The uses that trap by slot or by operand value are tested under a true guard only (log entry 55). -/
def execHstart (q : BitVec 3) (d a b : BitVec 5) (s : State) : Out :=
  guarded q s (fun s =>
    if s.slot.val ≠ 0 then s.takeTrap .illegal 0
    else
      let pc := s.rx a
      if pc.extractLsb' 0 2 ≠ 0 then s.takeTrap .misalign pc
      else
        match s.freeSlot s.cycle with
        | none => (s.wx d (-1)).retire
        | some i =>
          let s1 := s.setThrAt s.here i ((s.core.thr i).start pc (s.rx b) (s.cycle + 12))
          (s1.wx d (BitVec.ofNat 64 i)).retire)

/-- The slot that an operand of HJOIN, HSTAT or HKILL names: 1-10 (R250). -/
def slotArg (v : Word) : Option Nat := if 1 ≤ v.toNat ∧ v.toNat ≤ 10 then some v.toNat else none

/-- HJOIN (R250, R254). -/
def execHjoin (q : BitVec 3) (d a : BitVec 5) (s : State) : Out :=
  guarded q s (fun s =>
    if s.slot.val ≠ 0 then s.takeTrap .illegal 0
    else
      match slotArg (s.rx a) with
      | none => s.takeTrap .illegal 0
      | some i =>
        let t := s.core.thr i
        if t.live then .next (s.park (.hjoin d i)) else (s.wx d t.exitv).retire)

/-- The status of a slot (R255, Table 10.2). -/
def State.hstat (s : State) (i : Nat) : Word :=
  let t := s.core.thr i
  let b (c : Bool) (k : Nat) : Nat := if c then 2 ^ k else 0
  let trapped := t.live && t.trap.isSome
  BitVec.ofNat 64 (b t.live 0 + b (t.live && t.task) 2 + b (t.live && t.wait.isSome) 3 + b trapped 4 +
    b (s.withheld s.here i) 5 + b (t.live && t.kpend) 6 + b t.killed 7 +
    (if trapped then (t.trap.map (·.code)).getD 0 * 256 else 0) + t.exitv.toNat % 2 ^ 32 * 2 ^ 32)

/-- HSTAT (R250, R255). -/
def execHstat (q : BitVec 3) (d a : BitVec 5) (s : State) : Out :=
  guarded q s (fun s =>
    if s.slot.val = 11 then s.takeTrap .illegal 0
    else
      match slotArg (s.rx a) with
      | none => s.takeTrap .illegal 0
      | some i => (s.wx d (s.hstat i)).retire)

/-- Set KPEND of a thread (R256). One that issues or is parked at a boundary ends in the next cycle, any other when its operation
completes. -/
def State.askKill (s : State) (i : Nat) : State :=
  let t := s.core.thr i
  match t.wait with
  | some (.hend _) => s
  | _ =>
    let s1 := s.setThrAt s.here i { t with kpend := true }
    if s.paused s.here i then s1.afterOnce 1 (.threadResume s.here i) else s1

/-- HKILL (R250, R256). -/
def execHkill (q : BitVec 3) (d a : BitVec 5) (s : State) : Out :=
  guarded q s (fun s =>
    if s.slot.val ≠ 0 then s.takeTrap .illegal 0
    else
      match slotArg (s.rx a) with
      | none => s.takeTrap .illegal 0
      | some i =>
        if (s.core.thr i).live then ((s.askKill i).wx d 0).retire else (s.wx d 1).retire)

/-! ### The ready queue (R258, R259) -/

/-- Whether the ready queue of the process in focus is full, reservations counted (R258, R266). -/
def State.rqFull (s : State) : Bool := decide (16 ≤ s.proc.rq.length + s.proc.rqRes)

/-- The arrival stamp of an entry that enters in a cycle (R258): triggered entries come first, by their index `k` below 16, then the
tasks of threads, as 16 and twice the slot; the second task of a slot in one cycle takes the number after its first. -/
def rqStamp (cycle k : Nat) : Nat := 64 * cycle + k

/-- The cycle in which an entry has entered. -/
def RqEnt.entered (e : RqEnt) : Nat := e.stamp / 64

/-- Append a task with an arrival stamp (R258). -/
def Proc.appendTask (p : Proc) (pc arg : Word) (prio src stamp : Nat) : Proc :=
  { p with rq := p.rq ++ [{ pc := pc, arg := arg, prio := prio, src := src, stamp := stamp }] }

/-- Append a task of the thread in focus to the ready queue of its process and let a selection follow. -/
def State.appendTask (s : State) (pc arg : Word) (prio src : Nat) : State :=
  let n := rqStamp s.cycle (16 + 2 * s.slot.val)
  let p := s.proc.appendTask pc arg prio src (if s.proc.rq.any (fun e => e.stamp == n) then n + 1 else n)
  (s.setProc p).askDispatch 1 p.gid p.lid

/-- The index of the triggered entry that enters next: the oldest by trigger cycle, then by index, among those triggered
before `now` (R258). -/
def nextTriggered (tt : List (Option TtEnt)) (now : Nat) : Option Nat :=
  let c := (tt.zipIdx.filterMap (fun e => (e.1.bind (·.trig)).bind (fun k => if k < now then some (k, e.2) else none)))
  (c.foldl (fun (best : Option (Nat × Nat)) e => match best with
    | none => some e
    | some b => if e.1 < b.1 then some e else best) none).map Prod.snd

/-- Move triggered entries into the ready queue while it has room. -/
def enterTriggered : Nat → State → State
  | 0, s => s
  | f + 1, s =>
    if s.rqFull then s
    else
      match nextTriggered s.proc.tt.toList s.cycle with
      | none => s
      | some i =>
        match s.proc.ttEnt i with
        | none => s
        | some e =>
          enterTriggered f (s.setProc ({ s.proc with tt := s.proc.tt.setIfInBounds i none }.appendTask e.pc e.arg e.prio i (rqStamp s.cycle i)))

/-- READY_QUEUE_ENTER (R258). -/
def execReadyQueueEnter (gid lid : Nat) (s : State) : Out :=
  match s.coreOf gid lid with
  | none => .next s
  | some c =>
    let s1 := enterTriggered 16 (s.focus c)
    .next (if s1.proc.rq = [] then s1 else s1.askDispatch 1 gid lid)

/-- The priority of an entry for a selection in cycle `k`: a TPRIO counts from the next cycle on (R270). -/
def RqEnt.prioIn (e : RqEnt) (k : Nat) : Nat :=
  match e.was with
  | some (c, p) => if c = k then p else e.prio
  | none => e.prio

/-- The entry selected in cycle `k` (R259): of those in the queue by then the highest priority, then the earliest stamp. -/
def pickTask (rq : List RqEnt) (k : Nat) : Option RqEnt :=
  (rq.filter (fun e => decide (e.entered ≤ k))).foldl (fun (best : Option RqEnt) e => match best with
    | none => some e
    | some b => if b.prioIn k < e.prioIn k || (b.prioIn k == e.prioIn k && e.stamp < b.stamp) then some e else best) none

/-- Whether a process was held in the cycle before this one. -/
def Proc.wasHeld (p : Proc) (now : Nat) : Bool := if p.holdAt < now then p.hold.isSome else p.hold.isNone

/-- TASK_DISPATCH (R259): the selection of the cycle before, whose instructions have been served first (R251); none if
the process was held then (R345). A task breakpoint halts the cluster (R410). -/
def execTaskDispatch (gid lid : Nat) (s : State) : Out :=
  match s.coreOf gid lid with
  | none => .next s
  | some c =>
    let s := s.focus c
    let k := s.cycle - 1
    if s.proc.wasHeld s.cycle then .next s
    else
      match pickTask s.proc.rq k, s.freeSlot k with
      | some e, some i =>
        let s1 := s.setProc { s.proc with rq := s.proc.rq.filter (fun x => x.stamp != e.stamp) }
        let t := { ((s1.core.thr i).start e.pc e.arg (k + 24)) with task := true }
        let s2 := s1.setThrAt s1.here i (t.wx 11#5 (BitVec.ofNat 64 e.src))
        let s3 := if s2.proc.tt.toList.any (fun x => (x.bind (·.trig)).isSome) then s2.afterOnce 0 (.readyQueueEnter gid lid) else s2
        let s4 := if s3.proc.rq = [] then s3 else s3.askDispatch 1 gid lid
        let cl := clusterOf c
        .next (if (s4.clusterAt cl).breaks.toList.contains (.task e.pc) then s4.after 0 (.debugHalt cl) else s4)
      | _, _ => .next s

/-- TPRIO (R270). -/
def execTprio (q : BitVec 3) (d a b : BitVec 5) (s : State) : Out :=
  guarded q s (fun s =>
    let i := (s.rx a).toNat
    let pr := (s.rx b).toNat
    if 15 < i ∨ 3 < pr then s.takeTrap .deque 0
    else
      let p := s.proc
      let n := (if (p.ttEnt i).isSome then 1 else 0) + (p.rq.filter (fun e => e.src == i)).length
      let tt := p.tt.setIfInBounds i ((p.ttEnt i).map (fun e => { e with prio := pr }))
      let rq := p.rq.map (fun e => if e.src == i then { e with prio := pr, was := some (s.cycle, e.prioIn s.cycle) } else e)
      ((s.setProc { p with tt := tt, rq := rq }).wx d (BitVec.ofNat 64 n)).retire)

/-- TRUN (R269). -/
def execTrun (q : BitVec 3) (d a : BitVec 5) (s : State) : Out :=
  guarded q s (fun s =>
    readRecord 32 (s.rx a) s (fun s r =>
      let pc := recField r 0 8
      let prio := recField r 21 1
      if pc % 4 ≠ 0 ∨ 3 < prio ∨ recField r 22 10 ≠ 0 then s.takeTrap .deque 0
      else if s.rqFull then (s.wx d 2).retire
      else ((s.appendTask (BitVec.ofNat 64 pc) (BitVec.ofNat 64 (recField r 8 8)) prio 16).wx d 0).retire))

/-! ### Deques (R261-R268) -/

/-- A deque descriptor (Table 10.3): its offset and fields. -/
structure Deque where
  dq : Nat
  top : Nat
  bottom : Nat
  base : Nat
  cap : Nat
  prio : Nat
  deriving DecidableEq, Repr

/-- The fields of a descriptor, where it is valid (R262). -/
def readDeque (winsize dq desc : Nat) : Option Deque :=
  let w24 := recField desc 24 8
  let base := w24 % 2 ^ 18
  let lc := w24 / 2 ^ 20 % 16
  let top := recField desc 0 8
  let bottom := recField desc 16 8
  let diff := (BitVec.ofNat 64 bottom - BitVec.ofNat 64 top : Word).toNat
  if dq ≠ 0 ∧ dq % 32 = 0 ∧ dq + 32 ≤ winsize ∧ recField desc 8 8 = 0 ∧ w24 / 2 ^ 18 % 4 = 0 ∧ w24 / 2 ^ 26 = 0 ∧
     base % 16 = 0 ∧ lc ≤ 12 ∧ base + 16 * 2 ^ lc ≤ winsize ∧ diff ≤ 2 ^ lc then
    some { dq := dq, top := top, bottom := bottom, base := base, cap := 2 ^ lc, prio := w24 / 2 ^ 24 % 4 }
  else none

/-- Window offset of record `i` (R261). -/
def Deque.rec_ (d : Deque) (i : Nat) : Nat := d.base + 16 * (i % d.cap)

/-- A place of the own window. -/
def State.own (s : State) (off : Nat) : Place := .win s.proc.gid s.proc.lid off

/-- The own deque that DQBASE names. -/
def State.ownDeque (s : State) (dq : Nat) : Option Deque :=
  if s.proc.winsize < dq + 32 then none else readDeque s.proc.winsize dq (s.peek (s.own dq) 32)

/-- The first unit away among the descriptor's and a record's (R183). -/
def State.dequeAway (s : State) (dq : Nat) (rec : Option Nat) : Option Place :=
  match s.awayIn (s.own dq) 32 with
  | some u => some u
  | none => rec.bind (fun r => s.awayIn (s.own r) 16)

/-- The descriptor that a SPAWN, SPAWNW or TAKE of the thread in focus uses: the one that DQBASE named at its issue (R263). -/
def State.dequeAtIssue (s : State) : Nat := (s.thr.desc.getD s.proc.dqbase).toNat

/-- Park such an instruction; it keeps its descriptor (R263). -/
def State.parkDeque (s : State) (on : RetryOn) : Out :=
  .next ((s.setThr { s.thr with desc := some (BitVec.ofNat 64 s.dequeAtIssue) }).parkRetry on)

/-- SPAWN and SPAWNW (R262-R265). -/
def spawnOn (q : BitVec 3) (d a b : BitVec 5) (wait : Bool) (s : State) : Out :=
  guarded q s (fun s =>
    let dq := s.dequeAtIssue
    if s.thr.storeQ ≠ [] then s.parkDeque .storeEmpty
    else
      match s.dequeAway dq none with
      | some u => s.parkDeque (.unitHome u)
      | none =>
        match s.ownDeque dq with
        | none => s.takeTrap .deque 0
        | some k =>
          if (s.rx a).extractLsb' 0 2 ≠ 0 then s.takeTrap .deque 0
          else if s.isBad (s.own dq) 32 then (s.noteError s.here (s.own dq)).takeTrap .machine 0
          else if (k.bottom + 2 ^ 64 - k.top) % 2 ^ 64 = k.cap then
            if wait then s.parkDeque .deque else (s.wx d 2).retire
          else
            let r := k.rec_ k.bottom
            match s.awayIn (s.own r) 16 with
            | some u => s.parkDeque (.unitHome u)
            | none =>
              let s1 := s.homeWrite (s.own r) 16 ((s.rx a).toNat + 2 ^ 64 * (s.rx b).toNat) (2 ^ 16 - 1)
              let s2 := s1.homeWrite (s1.own (dq + 16)) 8 (k.bottom + 1) (2 ^ 8 - 1)
              (s2.wx d 0).retire)

/-- SPAWN (R262-R265). -/
def execSpawn (q : BitVec 3) (d a b : BitVec 5) (s : State) : Out := spawnOn q d a b false s
/-- SPAWNW (R262-R265). -/
def execSpawnw (q : BitVec 3) (d a b : BitVec 5) (s : State) : Out := spawnOn q d a b true s

/-- Reserve an entry of the ready queue from the issue of a TAKE or STEAL to its end (R266, R267). -/
def State.reserveEntry (s : State) : State := s.setProc { s.proc with rqRes := s.proc.rqRes + 1 }

/-- The end of a TAKE or STEAL that had reserved a ready-queue entry: a triggered entry of the table that finds room now enters in the
next cycle (R258; log entry 56). -/
def State.unreserve (s : State) : State :=
  let s1 := s.setProc { s.proc with rqRes := s.proc.rqRes - 1 }
  if s1.proc.tt.toList.any (fun x => (x.bind (·.trig)).isSome) then s1.afterOnce 1 (.readyQueueEnter s1.proc.gid s1.proc.lid) else s1

/-- Whether requests wait at home for a unit that has just come back (R182, R188). -/
def State.requestedAt (s : State) (u : Place) : Bool :=
  s.agenda.any (fun e => decide (e.1 ≤ s.cycle) &&
    (match e.2 with
     | .atomicRequestAtHome c i => ((s.thrAt c i).amo.map (fun r => r.place.align 16)) == some u
     | _ => false))

/-- The stages of a TAKE (R266), each with what has been found out so far: it has issued, with the ready queue full or with an entry
reserved; BOTTOM holds `b`; TOP was `t`; the ACAS of TOP has found `old`. -/
inductive TakeStage where
  | issued (full : Bool)
  | popped (k : Deque)
  | top (k : Deque) (t : Nat)
  | swapped (k : Deque) (t old : Nat)

/-- The stage of the TAKE of a thread, none before its issue. The deque's `bottom` is `b`. -/
def Thread.takeStage (t : Thread) : Option TakeStage :=
  let k (dq b base cap prio : Nat) : Deque := { dq := dq, top := 0, bottom := b, base := base, cap := cap, prio := prio }
  match t.ready, t.got with
  | 1, [f] => some (.issued (f == 1))
  | 2, [dq, b, base, cap, prio] => some (.popped (k dq b base cap prio))
  | 3, [dq, b, base, cap, prio, tp] => some (.top (k dq b base cap prio) tp)
  | 4, [dq, b, base, cap, prio, tp, old] => some (.swapped (k dq b base cap prio) tp old)
  | _, _ => none

/-- Keep a stage of a TAKE in its thread. -/
def State.keepStage (s : State) (g : TakeStage) : State :=
  let l (k : Deque) : List Nat := [k.dq, k.bottom, k.base, k.cap, k.prio]
  let r : Nat × List Nat := match g with
    | .issued f => (1, [if f then 1 else 0])
    | .popped k => (2, l k)
    | .top k tp => (3, l k ++ [tp])
    | .swapped k tp old => (4, l k ++ [tp, old])
  s.setThr { s.thr with ready := r.1, got := r.2 }

/-- Park a TAKE between its accesses. -/
def State.parkTake (s : State) (g : TakeStage) (on : RetryOn) : Out := (s.keepStage g).parkDeque on

/-- Write BOTTOM at the end of a TAKE, and then write its status (R266). -/
def takeEnds (d : BitVec 5) (k : Deque) (bottom : Nat) (v : Word) (s : State) : Out :=
  ((s.homeWrite (s.own (k.dq + 16)) 8 bottom (2 ^ 8 - 1)).wx d v).retire

/-- A TAKE meets an uncorrectable error: it takes MACHINE and has no effect (R163, R187). BOTTOM waits at home if away. -/
def takeBad (g : TakeStage) (k : Deque) (p : Place) (s : State) : Out :=
  match s.awayIn (s.own (k.dq + 16)) 8 with
  | some u => s.parkTake g (.unitHome u)
  | none =>
    (((s.noteError s.here p).unreserve).homeWrite (s.own (k.dq + 16)) 8 ((k.bottom + 1) % 2 ^ 64) (2 ^ 8 - 1)).takeTrap .machine 0

/-- The record that a TAKE has obtained becomes a task, in the entry that it reserved (R266). -/
def State.takeTask (s : State) (k : Deque) : State :=
  let w := s.peek (s.own (k.rec_ k.bottom)) 16
  let s1 := s.setProc { s.proc with rqRes := s.proc.rqRes - 1 }
  s1.appendTask (BitVec.ofNat 64 w) (BitVec.ofNat 64 (w / 2 ^ 64)) k.prio 17

/-- TAKE after its ACAS (R266): the record is this process's, or another party has obtained it. -/
def takeSwapped (d : BitVec 5) (k : Deque) (t old : Nat) (s : State) : Out :=
  let stage : TakeStage := .swapped k t old
  let r := s.own (k.rec_ k.bottom)
  let next := (t + 1) % 2 ^ 64
  if 2 ^ 512 ≤ old then takeBad stage k (s.own k.dq) s
  else
    match (s.awayIn (s.own (k.dq + 16)) 8).or (if old = t then s.awayIn r 16 else none) with
    | some u => s.parkTake stage (.unitHome u)
    | none =>
      if old ≠ t then takeEnds d k next 3 s.unreserve
      else if s.isBad r 16 then
        (((s.noteError s.here r).unreserve).homeWrite (s.own (k.dq + 16)) 8 next (2 ^ 8 - 1)).takeTrap .machine 0
      else takeEnds d k next 0 (s.takeTask k)

/-- TAKE after its read of TOP (R266). The ACAS is an atomic of the thread on its own window: performed by the core where the unit is at home
and nobody waits for it, else requested (R188). -/
def takeTop (d : BitVec 5) (k : Deque) (t : Nat) (s : State) : Out :=
  let tw : Word := BitVec.ofNat 64 t
  let bw : Word := BitVec.ofNat 64 k.bottom
  let r := s.own (k.rec_ k.bottom)
  let tp := s.own k.dq
  if tw.slt bw then
    match s.awayIn r 16 with
    | some u => s.parkTake (.top k t) (.unitHome u)
    | none => if s.isBad r 16 then takeBad (.top k t) k r s else ((s.takeTask k).wx d 0).retire
  else if tw = bw then
    if (s.unitAway tp).isNone && !s.requestedAt (tp.align 16) then
      if s.isBad tp 8 then takeBad (.top k t) k tp s
      else
        let old := s.peek tp 8
        takeSwapped d k t old (s.homeWrite tp 8 (if old = t then (t + 1) % 2 ^ 64 else old) (2 ^ 8 - 1))
    else
      let q : AmoReq := { op := 10, n := 8, ord := 0, d := 0, place := tp, va := 0, v := (t + 1) % 2 ^ 64, cmp := t, sig := {}, stamp := 0, again := true }
      let s1 := s.keepStage (.top k t)
      .next ((s1.setThr { s1.thr with amo := some q, wait := some .atomic }).request tp 0 (.atomicRequestAtHome s.here s.slot.val))
  else
    match s.awayIn (s.own (k.dq + 16)) 8 with
    | some u => s.parkTake (.top k t) (.unitHome u)
    | none => takeEnds d k t 1 s.unreserve

/-- TAKE once BOTTOM holds `b`: TOP is read, when its unit is at home (R266). DESIGN CHOICE: an ACAS follows the read by one cycle, so that
another party's may come between them, as in Table 11.4 (R188, R274; log entry 82). -/
def takePopped (d : BitVec 5) (k : Deque) (s : State) : Out :=
  match s.awayIn (s.own k.dq) 8 with
  | some u => s.parkTake (.popped k) (.unitHome u)
  | none =>
    if s.isBad (s.own k.dq) 8 then takeBad (.popped k) k (s.own k.dq) s
    else
      let t := s.peek (s.own k.dq) 8
      if t = k.bottom then andThen (s.parkTake (.top k t) .more) (fun s1 => .next (s1.after 1 (.threadResume s1.here s1.slot.val)))
      else takeTop d k t s

/-- TAKE from its issue: its descriptor is read, and BOTTOM lowered (R262, R263, R266). `full` says that the ready queue was full at its
issue; else an entry is reserved. -/
def takeIssued (d : BitVec 5) (full : Bool) (s : State) : Out :=
  let dq := s.dequeAtIssue
  let free (s : State) : State := if full then s else s.unreserve
  if s.thr.storeQ ≠ [] then s.parkTake (.issued full) .more
  else
    match s.awayIn (s.own (dq + 16)) 8 with
    | some u => s.parkTake (.issued full) (.unitHome u)
    | none =>
      match s.ownDeque dq with
      | none => (free s).takeTrap .deque 0
      | some k =>
        if s.isBad (s.own dq) 32 then (free (s.noteError s.here (s.own dq))).takeTrap .machine 0
        else if full then (s.wx d 2).retire
        else
          let b := (k.bottom + 2 ^ 64 - 1) % 2 ^ 64
          takePopped d { k with bottom := b } (s.homeWrite (s.own (dq + 16)) 8 b (2 ^ 8 - 1))

/-- TAKE (R262, R263, R266). -/
def execTake (q : BitVec 3) (d : BitVec 5) (s : State) : Out :=
  guarded q s (fun s =>
    match s.thr.takeStage with
    | none => takeIssued d s.rqFull (if s.rqFull then s else s.reserveEntry)
    | some (.issued full) => takeIssued d full s
    | some (.popped k) => takePopped d k s
    | some (.top k t) => takeTop d k t s
    | some (.swapped k t old) => takeSwapped d k t old s)

/-- Start an access of a STEAL at the victim's window: the thread parks, and the STEAL goes on with the answer (R267). -/
def stealAccess (a : Acc) (s : State) : Out :=
  let s1 := s.setThr { s.thr with cont := .again, wait := some .access, pend := [a] }
  .next (s1.request a.place (s.reqTime a) (accessStep a.kind s.here s.slot.val))

/-- STEAL ends with a status, its reserved entry released (R267). -/
def stealEnds (d : BitVec 5) (v : Word) (s : State) : Out := (s.unreserve.wx d v).retire

/-- STEAL after its answers so far: the descriptor, the record, the old TOP (R267). A window that has ended gives INVALID. -/
def stealStage (d : BitVec 5) (lid : Nat) (s : State) : Out :=
  let g := s.thr.got
  match faultIn g 0 with
  | some (_, c) => if c = Trap.window.code then stealEnds d 4 s else s.unreserve.takeTrap .machine 0
  | none =>
    match g with
    | v :: rest =>
      let dq := v % 2 ^ 64
      match readDeque s.proc.winsize dq (v / 2 ^ 64) with
      | none => stealEnds d 4 s
      | some k =>
        match rest with
        | [] =>
          if !(BitVec.ofNat 64 k.top : Word).slt (BitVec.ofNat 64 k.bottom) then stealEnds d 1 s
          else stealAccess { kind := .load, place := .win s.proc.gid lid (k.rec_ k.top), size := 16 } s
        | [_] =>
          let p : Place := .win s.proc.gid lid dq
          let r : AmoReq := { op := 10, n := 8, ord := 0, d := 0, place := p, va := 0, v := (k.top + 1) % 2 ^ 64, cmp := k.top,
                              sig := {}, stamp := 0, again := true }
          let s1 := s.setThr { s.thr with amo := some r, wait := some .atomic }
          .next (s1.request p (s.amoTransit s.here p) (.atomicRequestAtHome s.here s.slot.val))
        | w :: old :: _ =>
          if old = k.top then
            let prio := ((s.ownDeque s.proc.dqbase.toNat).map (·.prio)).getD 0
            let s1 := s.setProc { s.proc with rqRes := s.proc.rqRes - 1 }
            ((s1.appendTask (BitVec.ofNat 64 w) (BitVec.ofNat 64 (w / 2 ^ 64)) prio 18).wx d 0).retire
          else stealEnds d 3 s
    | [] =>
      if s.thr.storeQ ≠ [] then .next (s.parkRetry .more)
      else stealAccess { kind := .deque, place := .win s.proc.gid lid 0, size := 32 } s

/-- STEAL (R263, R267). -/
def execSteal (q : BitVec 3) (d a : BitVec 5) (s : State) : Out :=
  guarded q s (fun s =>
    let lid := (s.rx a).toNat
    if 0 < s.thr.ready then stealStage d lid s
    else if s.proc.gsize ≤ lid ∨ lid = s.proc.lid then s.takeTrap .deque 0
    else if s.rqFull then (s.wx d 2).retire
    else
      let s1 := s.reserveEntry
      stealStage d lid (s1.setThr { s1.thr with ready := 1, got := [] }))

end Sys2Proof.Machine
end

