-- ==== Sys2Proof/Machine/Engine.lean ====
section
/-! DEFINITION. Accesses of the engines of a core (R277, R228, R222): the copy engine, the receive engine, the matrix engine
and the payload of a SEND act as parties of the resident process. -/

namespace Sys2Proof.Machine

/-- What an access of an engine may have to wait for: a unit that is away (R183), a bank whose mode changes (R161), a process in the
transfer of a move (R346), or the answer of another module (R40, R247). -/
inductive EWait where
  | unit (u : Place)
  | bank (cl b : Nat)
  | moving
  | link (a : Acc)
  deriving DecidableEq, Repr

/-- The outcome of an access of an engine: done, with what was read and the time that Table 7.1 gives; a fault at an address;
a wait. -/
inductive ERes where
  | ok (s : State) (val : Nat) (time : Nat)
  | fault (s : State) (t : Trap) (va : Word)
  | wait (w : EWait)

/-- Ask another module for an access of a step, unless it is already asked. -/
def State.askFor (s : State) (a : Acc) (e : Instr) : State :=
  if s.far.any (fun f => f.step == some e && f.place == a.place) then s
  else
    ({ s with far := s.far ++ [{ id := s.nextFar, core := s.here, step := some e, place := a.place }], nextFar := s.nextFar + 1 } : State).linkAsk
      s.here (16 + s.nextFar) a

/-- Ask another module for an access of a step that may stand several times for equal accesses. -/
def State.askMore (s : State) (a : Acc) (e : Instr) : State :=
  ({ s with far := s.far ++ [{ id := s.nextFar, core := s.here, step := some e, place := a.place }], nextFar := s.nextFar + 1 } : State).linkAsk
    s.here (16 + s.nextFar) a

/-- What an engine's walk waits for (R161). -/
def State.walkWait (s : State) (sv : Bool) (va : Word) : EWait :=
  match walkBusy s va.toNat 3 (s.rootFor sv) with
  | some (cl, b) => .bank cl b
  | none => .moving

/-- Let a step wait. -/
def State.waitOn (s : State) (w : EWait) (e : Instr) : State :=
  match w with
  | .unit u => s.waitUnit u e
  | .bank cl b => s.waitBank cl b e
  | .moving => s.after 1 e
  | .link a => s.askFor a e

/-- The answer of another module to an access of the step in progress at a place: its value and its fault. -/
def State.farAnswer (s : State) (p : Place) : Option (Nat × Nat) :=
  (s.far.find? (fun f => f.step == s.event && f.step.isSome && f.place == p && f.val.isSome)).bind (·.val)

/-- One such answer has been used. -/
def State.farTaken (s : State) (p : Place) : State :=
  match s.far.find? (fun f => f.step == s.event && f.step.isSome && f.place == p && f.val.isSome) with
  | some f => { s with far := s.far.filter (fun g => g.id != f.id) }
  | none => s

/-- A step is over, or waits for a further answer only: what it has been told is kept in the second case, since it is performed anew
then. The additions of a PUT take their answers themselves (R286). -/
def State.farSpent (s : State) (e : Instr) : State :=
  if (match e with | .putCounterAdd .. => true | _ => false) then s
  else if s.far.any (fun f => f.step == some e && f.val.isNone) then s
  else { s with far := s.far.filter (fun f => f.step != some e) }

/-- The trap of a code that a reply brings. -/
def trapOf (code : Nat) : Trap :=
  if code = Trap.window.code then .window else if code = Trap.page.code then .page
  else if code = Trap.protect.code then .protect else .machine

/-- What is in the way of an access at a place: the lid has gone, a wait, or nothing (R161, R183, R253). -/
inductive Obstacle where
  | none
  | fault (t : Trap)
  | wait (w : EWait)
  deriving DecidableEq, Repr

/-- An access at another module: it waits until it is answered (R40, R247). -/
def State.farObstacle (s : State) (a : Acc) : Obstacle :=
  match s.farAnswer a.place with
  | some (_, 0) => .none
  | some (_, c) => .fault (trapOf c)
  | none => .wait (.link a)

/-- Whether a place is at another module: its vault, or the window of a lid placed there. -/
def State.farAt (s : State) (p : Place) : Bool :=
  match p with
  | .win g l _ => (s.coreOf g l).isNone && s.elsewhere s.here g l
  | _ => farPlace p

/-- The obstacle of an access of an engine of the core in focus. -/
def State.obstacle (s : State) (a : Acc) : Obstacle :=
  let p := a.place
  let away : Obstacle := match s.awayIn p a.size with | some u => .wait (.unit u) | none => .none
  if s.farAt p then s.farObstacle a
  else
    match p with
    | .win g l _ =>
      match s.coreOf g l with
      | none => .fault .window
      | some c =>
        if (s.coreAt c).proc.ended then .fault .window
        else if c != s.here && s.inTransfer c then .wait .moving
        else away
    | .phys _ =>
      match s.bankBusy p with
      | some (cl, b) => .wait (.bank cl b)
      | none => away
    | _ => away

/-- Read `n` bytes at an address, all in one 16-byte unit, for an engine of the core in focus; `sv` chooses the supervisor's
tables, for what a thread of slot 11 asked for (R376). -/
def State.engRead (s : State) (sv : Bool) (va : Word) (n i : Nat) : ERes :=
  match s.resolveNow sv .r n va i with
  | .fault t => .fault s t va
  | .miss => .wait (s.walkWait sv va)
  | .ok p cached scope _ =>
    let a : Acc := { kind := .load, place := p, size := n, cached := cached }
    let time (s : State) (hit : Bool) : Nat := if s.isLocal p then 0 else s.replyTime a hit
    match cached, p with
    | true, .phys pa =>
      let cl := clusterOf s.here
      let sector : Acc := { kind := .load, place := p.align 64, size := 64 }
      let s0 := match s.farAnswer sector.place with | some (v, _) => s.fillFar cl pa scope v | none => s
      match s0.cacheLoad cl pa n scope with
      | .ok s1 v hit => .ok (if scope = 3 then s1 else s1.setProc (s1.proc.enterR (pa / 256))) v (time s1 hit)
      | .machine s1 => .fault s1 .machine va
      | .away u => .wait (.unit u)
      | .ask => match s.farObstacle sector with | .fault t => .fault s t va | _ => .wait (.link sector)
    | _, _ =>
      match s.obstacle a with
      | .fault t => .fault s t va
      | .wait w => .wait w
      | .none =>
        match s.farAnswer p with
        | some (v, _) => .ok s v (time s true)
        | none =>
          if s.isBad p n then .fault (s.noteError (s.homeOf p) p) .machine va
          else let r := s.seek s.here p; .ok r.1 (s.delivered p n i) (time s true + r.2)

/-- A write of an engine at a place: in a window or a scratchpad bank it makes its granule full (R169, R288), unless `fill` is false
(R323). -/
def State.landAt (s : State) (p : Place) (n v : Nat) (fill : Bool) : State :=
  let s1 := s.homeWrite p n v (2 ^ n - 1)
  if !fill then s1
  else
    match p with
    | .win .. => s1.fillGranule p
    | .phys pa => if paType pa = 1 then s1.fillGranule p else s1
    | _ => s1

/-- Write `n` bytes at an address, all in one 16-byte unit, for an engine of the core in focus. `bypass` writes at home without passing through any cache (R286, R289). MMIO takes
PROTECT (R277). -/
def State.engWrite (s : State) (sv : Bool) (va : Word) (n v i : Nat) (bypass fill : Bool) : ERes :=
  match s.resolveNow sv .w n va i with
  | .fault t => .fault s t va
  | .miss => .wait (s.walkWait sv va)
  | .ok p cached scope _ =>
    let a : Acc := { kind := .put, place := p, size := n, val := v, cached := cached && !bypass, mask := if fill then 1 else 0 }
    let time (s : State) : Nat := if s.isLocal p then 0 else s.replyTime a true
    match cached && !bypass, p with
    | _, .mmio _ _ => .fault s .protect va
    | true, .phys pa =>
      let s1 := s.cacheStore (clusterOf s.here) pa n v (2 ^ n - 1) scope
      .ok (if scope = 3 then s1 else s1.setProc (s1.proc.enterScoped (pa / 256) scope)) 0 (time s1)
    | _, _ =>
      match s.obstacle a with
      | .fault t => .fault s t va
      | .wait w => .wait w
      | .none =>
        let r := if (s.farAnswer p).isSome then (s, 0) else let r := s.seek s.here p; (r.1.landAt p n v fill, r.2)
        let s1 := match cached, p with | true, .phys pa => r.1.passCache (clusterOf s.here) pa n v | _, _ => r.1
        .ok s1 0 (time s + r.2)

/-- Cut a range of `n` bytes from an address on into pieces that stay in one 16-byte unit. `fuel` bounds their number. -/
def pieces : Nat → Word → Nat → List (Word × Nat)
  | 0, _, _ => []
  | f + 1, va, n =>
    if n = 0 then []
    else
      let k := min n (16 - va.toNat % 16)
      (va, k) :: pieces f (va + BitVec.ofNat 64 k) (n - k)

/-- Read pieces in order; `acc` is what has been read of `pos` bytes, `tm` the longest time so far. -/
def readPieces (sv : Bool) : List (Word × Nat) → State → Nat → Nat → Nat → ERes
  | [], s, _, acc, tm => .ok s acc tm
  | (va, k) :: rest, s, pos, acc, tm =>
    match s.engRead sv va k pos with
    | .ok s1 v t => readPieces sv rest s1 (pos + k) (acc + v * 256 ^ pos) (max tm t)
    | r => r

/-- Write pieces in order, from a number. -/
def writePieces (sv bypass fill : Bool) : List (Word × Nat) → State → Nat → Nat → Nat → ERes
  | [], s, _, _, tm => .ok s 0 tm
  | (va, k) :: rest, s, pos, v, tm =>
    match s.engWrite sv va k (v % 256 ^ k) pos bypass fill with
    | .ok s1 _ t => writePieces sv bypass fill rest s1 (pos + k) (v / 256 ^ k) (max tm t)
    | r => r

/-- The time until the accesses of a range have reached their places (R253, log entry 1): 0 for a local one. -/
def State.engReach (s : State) (sv : Bool) (need : Need) (va : Word) (n : Nat) (bypass : Bool) : Nat :=
  (pieces (n + 1) va n).foldl (fun (m : Nat) e =>
    match s.resolveNow sv need e.2 e.1 0 with
    | .ok p cached _ _ =>
      if s.isLocal p then m
      else max m (s.reqTime { kind := if need = .w then .store else .load, place := p, size := e.2, cached := cached && !bypass })
    | _ => m) 0

/-- Read a range (R277). -/
def State.engReadRange (s : State) (sv : Bool) (va : Word) (n : Nat) : ERes := readPieces sv (pieces (n + 1) va n) s 0 0 0

/-- Whether a piece of a range cannot be written at all, or has to wait: the first such, in order. `v` is the value of the whole range
and `fill` as in the write, for a piece that another module has to write. -/
def State.writeObstacle (s : State) (sv : Bool) (ps : List (Word × Nat)) (v : Nat) (bypass fill : Bool) : Option ERes :=
  let starts := ps.foldl (fun (acc : List Nat × Nat) e => (acc.1 ++ [acc.2], acc.2 + e.2)) ([], 0)
  (ps.zip starts.1).findSome? (fun ek =>
    let e := ek.1
    match s.resolveNow sv .w e.2 e.1 0 with
    | .fault t => some (.fault s t e.1)
    | .miss => some (.wait (s.walkWait sv e.1))
    | .ok p cached _ _ =>
      match p with
      | .mmio _ _ => some (.fault s .protect e.1)
      | _ =>
        if cached && !bypass then none
        else
          match s.obstacle { kind := .put, place := p, size := e.2, val := v / 256 ^ ek.2 % 256 ^ e.2, mask := if fill then 1 else 0 } with
          | .fault t => some (.fault s t e.1)
          | .wait w => some (.wait w)
          | .none => none)

/-- Write a range as a whole: where a piece of it faults or has to wait, nothing is written (R291). -/
def State.engWriteRange (s : State) (sv : Bool) (va : Word) (n v : Nat) (bypass fill : Bool) : ERes :=
  let ps := pieces (n + 1) va n
  match s.writeObstacle sv ps v bypass fill with
  | some r => r
  | none => writePieces sv bypass fill ps s 0 v 0

/-! ### The check of a range of addresses (R222, R68) -/

/-- The answer of checking a range: the fault that R68 ranks first, or a page that has to be walked. -/
inductive RangeRes where
  | ok
  | fault (t : Trap) (va : Word)
  | miss (va : Word)
  deriving DecidableEq, Repr

/-- Cut a range into pieces that stay in one 64 KiB page. -/
def pagePieces : Nat → Word → Nat → List (Word × Nat)
  | 0, _, _ => []
  | f + 1, va, n =>
    if n = 0 then []
    else
      let k := min n (65536 - va.toNat % 65536)
      (va, k) :: pagePieces f (va + BitVec.ofNat 64 k) (n - k)

/-- The rank of a check (R68): a walk that has to be waited for ranks before PAGE. -/
def RangeRes.rank : RangeRes → Nat
  | .ok => 9 | .fault t _ => faultRank t | .miss _ => 2

/-- The check that decides among several: of the lowest rank, and of these the first (R68). -/
def worstRange : List RangeRes → RangeRes
  | [] => .ok
  | r :: t => if (worstRange t).rank < r.rank then worstRange t else r

/-- Check one piece of a range for the thread in focus. -/
def State.checkPiece (s : State) (need : Need) (va : Word) (k i : Nat) : RangeRes :=
  let beyond (off : Nat) : RangeRes := .fault .window (va + BitVec.ofNat 64 (s.proc.winsize - off))
  match s.space va with
  | .bad t => .fault t va
  | .own off => if s.proc.winsize < off + k then beyond off else .ok
  | .other lid off =>
    if s.proc.winsize < off + k then beyond off
    else if s.endedAt (.win s.proc.gid lid off) then .fault .window va
    else .ok
  | .global =>
    match s.resolve need k va false i with
    | .fault t => .fault t va
    | .miss => .miss va
    | .ok .. => .ok

/-- Check the pieces of a range for the thread in focus. -/
def checkPieces (s : State) (need : Need) (ps : List (Word × Nat)) : RangeRes :=
  worstRange (ps.zipIdx.map (fun e => s.checkPiece need e.1.1 e.1.2 e.2))

/-- CheckAccess over a range (R222, R303, R319). -/
def State.checkRange (s : State) (need : Need) (va : Word) (n : Nat) : RangeRes :=
  checkPieces s need (pagePieces (n / 65536 + 2) va n)

end Sys2Proof.Machine
end

