-- ==== Sys2Proof/Machine/Channel.lean ====
section
/-! DEFINITION. Channels on the sender's side (spec 09, R209-R225) and the ways of packets and acknowledgements
(R215, R216, R247, R333, R334, R367, R412). -/

namespace Sys2Proof.Machine

/-- Lid HOST (R28). -/
def hostLid : Nat := 0xFFFE

/-! ### Location caches, departed tables and routing -/

/-- Whether a move count is newer (R332). -/
def newerMc (m m' : Nat) : Bool := let d := (m + 65536 - m') % 65536; decide (1 ≤ d) && decide (d ≤ 32767)

/-- A packet leaves a core, its first bytes `d` cycles from now. It is with the receive engine when its landing can start,
5 cycles after its first bytes arrive (Table 9.9). -/
def State.emit (s : State) (c : Nat) (pkt : Packet) (d : Nat) : State :=
  if pkt.dst = hostLid then s.after (d + transit c 0 + 4) (.channelPacketArrival gateCore pkt)
  else if s.coreOf pkt.gid pkt.dst = some c then s.after (d + 5) (.channelPacketArrival c { pkt with origin := c })
  else
    let k := s.coreAt c
    let p : Packet := { pkt with origin := c }
    match findLoc k.loc pkt.gid pkt.dst with
    | some e => (s.useLoc c e).after (d + transit c e.core + 5) (.channelPacketArrival e.core p)
    | none => (s.setCoreAt c { k with lookup := k.lookup ++ [p] }).lookUp c pkt.gid pkt.dst

/-- A request of a thread, or a wake, that waited for a placement entry leaves: to the core that the entry names, or over a link (R247,
R333). -/
def State.seekOn (s : State) (core : Nat) (far : Bool) (e : LocEnt) (slot : Nat) (ev : Instr) : State :=
  match ev with
  | .monitorWake g l sl mon gen =>
    if far then s.linkSend core 0 0 (.wake g l sl mon gen) else s.wakeTo core e.core (transit core e.core) ev
  | _ =>
  let s1 := s.focusSlot core slot
  if !far then (s1.setThr { s1.thr with sentTo := some e.core }).after (transit core e.core) ev
  else
    match s1.thr.wait, s1.thr.amo with
    | some .atomic, some r => s1.askAmo r
    | some (.chopen _), _ =>
      s1.linkAsk core slot { kind := .chopen, place := .win e.gid e.lid 0, val := s1.thr.got.head?.getD 0 }
    | _, _ =>
      match s1.thr.inFlight with
      | some a => s1.askFar { a with asked := true }
      | none => s1

/-- LOCATION_LOOKUP_REPLY (R333, R247): the entry is cached, and the packets and the requests that waited leave; those to another module
over a link. A halted core holds the reply (R386). -/
def execLocationLookupReply (core gid lid : Nat) (s : State) : Out :=
  let s := s.focus core
  if s.repliesHeld then .next (s.holdReply (.locationLookupReply core gid lid))
  else
  let k := s.coreAt core
  let mine (g l : Nat) : Bool := g == gid && l == lid
  let go := k.lookup.filter (fun p => mine p.gid p.dst)
  let ask := k.seeking.filter (fun r => mine r.1 r.2.1)
  let e := s.placeLoc core gid lid
  let far := s.elsewhere core gid lid
  let k1 := { k with lookup := k.lookup.filter (fun p => !mine p.gid p.dst), seeking := k.seeking.filter (fun r => !mine r.1 r.2.1),
                     loc := if far then k.loc else putLoc k.loc e 64 }
  let s1 := go.foldl (fun (acc : State) p =>
    if far then acc.linkSend core p.ch 0 (.packet p)
    else acc.after (transit core e.core + 5) (.channelPacketArrival e.core p)) (s.setCoreAt core k1)
  .next (ask.foldl (fun (acc : State) r => acc.seekOn core far e r.2.2.1 r.2.2.2) s1)

/-- Send an acknowledgement from a core to the sender of a channel, `d` cycles from now (R212). -/
def State.sendAck (s : State) (c : Nat) (a : Ack) (d : Nat) : State :=
  if a.src = hostLid then s.after (d + transit c 0 + 4) (.ackArrival gateCore a)
  else if s.coreOf a.gid a.src = some c then s.after d (.ackArrival c { a with origin := c })
  else
    let b : Ack := { a with origin := c }
    match findLoc (s.coreAt c).loc a.gid a.src with
    | some e => (s.useLoc c e).after (d + transit c e.core) (.ackArrival e.core b)
    | none =>
      if s.elsewhere c a.gid a.src then s.linkSend c a.ch d (.ack b)
      else let e := s.placeLoc c a.gid a.src; s.after (d + transit c e.core) (.ackArrival e.core b)

/-- MOVED_NOTICE_ARRIVAL (R333, R367): a newer entry replaces the one held. DESIGN CHOICE: that counts as a use of it for the order of
replacement (log entry 94). -/
def execMovedNoticeArrival (core : Nat) (ent : LocEnt) (s : State) : Out :=
  let k := s.coreAt core
  match findLoc k.loc ent.gid ent.lid with
  | some e => if newerMc ent.mc e.mc then .next (s.setCoreAt core { k with loc := putLoc k.loc ent 64 }) else .next s
  | none => .next s

/-! ### The sender (R210-R212, R222-R225) -/

/-- A process as a sender: resident, or what is left of one that has ended (R252), with its core. -/
def State.sender (s : State) (gid lid : Nat) : Option (Nat × Proc) :=
  let has (k : Core) : Option Proc := k.ghosts.find? (fun p => p.gid == gid && p.lid == lid)
  match s.coreOf gid lid with
  | some c => some (c, (s.coreAt c).proc)
  | none =>
    match has s.core with
    | some p => some (s.here, p)
    | none => s.others.findSome? (fun e => (has e.2).map (fun p => (e.1, p)))

/-- Whether nothing is left of a process that has ended: its handles are free, and what its engine has issued is done (R252, R292). -/
def Proc.spent (p : Proc) : Bool := p.handles.toList.all (·.isNone) && p.fifo.isEmpty

/-- Replace a sender. -/
def State.setSender (s : State) (c : Nat) (p : Proc) : State :=
  let k := s.coreAt c
  if k.occupied && k.proc.gid == p.gid && k.proc.lid == p.lid then s.setCoreAt c { k with proc := p }
  else
    let rest := k.ghosts.filter (fun g => !(g.gid == p.gid && g.lid == p.lid))
    s.setCoreAt c { k with ghosts := if p.spent then rest else p :: rest }

/-- A handle of a process. -/
def Proc.handle (p : Proc) (h : Nat) : Option OutCh := (p.handles.toList[h]?).getD none

/-- Replace a handle. -/
def Proc.setHandle (p : Proc) (h : Nat) (o : Option OutCh) : Proc := { p with handles := p.handles.setIfInBounds h o }

/-- Cycles of an injection interval (R225). -/
def interval (n : Nat) : Nat := max 1 ((n + 31) / 32)

/-- A packet of a channel: it takes the next sequence number, and asks for an acknowledgement when it brings the count to
16 (R211, R212). -/
def OutCh.packet (o : OutCh) (gid src : Nat) (first last release close abort : Bool) (tag len : Nat) (payload : List Byte) (sig : Sig) :
    Packet :=
  { gid := gid, src := src, dst := o.lid, ch := o.ch, seq := o.seq, first := first, last := last, release := release,
    ackreq := o.unack + 1 == 16, close := close, abort := abort, tag := tag, len := len, payload := payload, sig := sig }

/-- A channel after a packet has been sent. -/
def OutCh.sent (o : OutCh) : OutCh := { o with seq := (o.seq + 1) % 4096, unack := o.unack + 1 }

/-- Start the injection of a packet whose payload is at hand after `d` cycles. -/
def State.startPacket (s : State) (c : Nat) (p : Proc) (h : Nat) (o : OutCh) (cur : SendCur) (pkt : Packet) (d : Nat) : State :=
  let o1 := { o.sent with cur := some { cur with inj := some pkt, readUntil := s.cycle + d, reading := false } }
  ((s.setSender c (p.setHandle h (some o1))).emit c pkt d).after (d + interval pkt.payload.length) (.packetInject p.gid p.lid h)

/-- Trap the thread of a SEND whose payload could not be read (R222, R223). In the SEND's own turn that turn issues nothing (log entry
11). -/
def State.sendTrap (s : State) (slot : Nat) (t : Trap) (va : Word) : State :=
  let s1 := { s with slot := Fin.ofNat 12 slot }
  match s1.thr.wait with
  | some (.send _) =>
    let s2 := if s1.event.isNone then s1.setThr ({ s1.thr with sciss := s1.thr.sciss - 1 }.bubble .vac) else s1
    s2.trapParked t.code va
  | _ => s1

/-- Whether a thread has a SEND or MPASS under way that has passed its checks and has still to begin on a handle (R219, R222). -/
def Thread.sendsOn (t : Thread) (h : Nat) : Bool :=
  t.wait == some (.retry (.sendBusy h)) || ((match t.wait with | some (.retry _) => true | _ => false) && t.got.head? == some (sendMark h))

/-- Whether the CHCLOSE of a handle is held with its thread (R345). -/
def State.closeHeld (s : State) (c : Nat) (p : Proc) (h : Nat) : Bool :=
  p.hold.isSome && (List.range 11).any (fun i => (s.thrAt c i).wait == some (.chclose h))

/-- The payload of the next packet of a SEND from memory could not be read. Before its first packet the SEND takes a precise trap (R222);
later its message ends with an ABORT packet (R223), which is its last: DESIGN CHOICE, it carries LAST (log entry 86). -/
def State.cutShort (s : State) (c : Nat) (h : Nat) (o : OutCh) (cur : SendCur) (t : Trap) (va : Word) : State :=
  let s1 := s.sendTrap cur.slot t va
  if cur.off = 0 then
    (s1.setSender c (s1.proc.setHandle h (some { o with cur := none }))).after 0 (.packetInject s1.proc.gid s1.proc.lid h)
  else
    s1.startPacket c s1.proc h o { cur with abort := true } (o.packet s1.proc.gid s1.proc.lid false true false false true 0 0 [] {}) 0

/-- Let the next packet of a handle begin, where there is one and the window has room (R222, R225): a packet of the send in
progress, the ABORT of one that was cut off, or the CLOSE, once no SEND that has issued on the handle is left (R219). -/
def State.inject (s : State) (c : Nat) (p : Proc) (h : Nat) : State :=
  match p.handle h with
  | none => s.setSender c p
  | some o =>
    if 32 ≤ o.unack then s.setSender c p
    else
      match o.cur with
      | none =>
        let waits := (s.coreAt c).slots.toList.any (fun t => t.sendsOn h)
        if o.closing && !o.closeSent && !waits && !s.closeHeld c p h then
          let pkt := o.packet p.gid p.lid false false false true false 0 0 [] {}
          (s.setSender c (p.setHandle h (some { o.sent with closeSent := true }))).emit c pkt 0
        else s.setSender c p
      | some cur =>
        if cur.inj.isSome || cur.claimed then s.setSender c p
        else if cur.abort then s.startPacket c p h o cur (o.packet p.gid p.lid false true false false true 0 0 [] {}) 0
        else
          let n := min 256 (cur.len - cur.off)
          let mk (bytes : List Byte) : Packet :=
            o.packet p.gid p.lid (cur.off == 0) (decide (cur.len ≤ cur.off + n)) (cur.release && cur.off == 0) false false cur.tag
              cur.len bytes (if cur.off = 0 then cur.sig else {})
          match cur.addr with
          | none => s.startPacket c p h o cur (mk ((cur.bytes.drop cur.off).take n)) 0
          | some a =>
            let s1 := (s.setSender c p).focus c
            match s1.engReadRange (cur.slot == 11) (a + BitVec.ofNat 64 cur.off) n with
            | .ok s2 v t => s2.startPacket c s2.proc h o cur (mk (leBytes n v)) t
            | .wait w =>
              (s1.setSender c (p.setHandle h (some { o with cur := some { cur with reading := true } }))).waitOn w (.packetInject p.gid p.lid h)
            | .fault s2 t va => s2.cutShort c h o cur t va

/-- Let the next packet of a handle begin once its window has room again, unless its thread is held where it waits (R345). -/
def State.injectMore (s : State) (c : Nat) (p : Proc) (h : Nat) : State :=
  let held := match (p.handle h).bind (·.cur) with
    | some cur => p.hold.isSome && cur.slot != 11 && cur.inj.isNone && !cur.reading && !cur.abort
    | none => false
  if held then s.setSender c p else s.inject c p h

/-- The thread of a send that has ended goes on at its first own turn after this cycle (R222, R225; log entry 21); one
with a pending HKILL ends (R256). -/
def State.sendDone (s : State) (c slot h : Nat) : State :=
  let t := s.thrAt c slot
  match t.wait with
  | some (.send k) =>
    if k = h then ((s.setThrAt c slot { t.resumed with notBefore := s.cycle + 1 }).focus c).killNow slot else s
  | _ => s

/-- PACKET_INJECT (R222, R225, R336): the interval of a packet ends; the bytes count in TOTAL and SINCE; after the last
packet the send is done and, for a release, its snapshot leaves W (R165); then the next packet begins. -/
def execPacketInject (gid lid handle : Nat) (s : State) : Out :=
  match s.sender gid lid with
  | none => .next s
  | some (c, p) =>
    match p.handle handle with
    | none => .next s
    | some o =>
      match o.cur with
      | none => .next (s.inject c p handle)
      | some cur =>
        match cur.inj with
        | none => .next (s.inject c p handle)
        | some pkt =>
          let n := pkt.payload.length
          let o1 := { o with total := (o.total + n) % 2 ^ 48,
                             since := if o.lid = hostLid then o.since else min (o.since + n) (2 ^ 32 - 1) }
          if pkt.last then
            let p1 := p.setHandle handle (some { o1 with cur := none })
            let p2 := if cur.release then p1.dropSnapshot cur.sig cur.stamp else p1
            let p3 := match cur.latch with | some id => p2.latchSent id | none => p2
            let s1 := (s.setSender c p3).sendDone c cur.slot handle
            let s2 := if cur.latch.isSome then s1.after 0 (.latchEntryAppend gid lid 0) else s1
            match s2.sender gid lid with
            | some (c2, p4) => .next (s2.inject c2 p4 handle)
            | none => .next s2
          else .next (s.inject c (p.setHandle handle (some { o1 with cur := some { cur with off := cur.off + n, inj := none } })) handle)

/-- A CHCLOSE whose handle has been freed completes, unless its thread is held (R219, R345). -/
def State.testClose (s : State) (c : Nat) (h : Nat) : State :=
  let k := s.coreAt c
  let free (i : Nat) (t : Thread) : Thread := match t.wait with
    | some (.chclose x) => if x = h && !(k.proc.hold.isSome && i != 11) then t.resumed else t
    | _ => t
  s.setCoreAt c { k with slots := vmapIdx free k.slots }

/-- Free a handle whose channel is closed and acknowledged, and let the CHCLOSE that waits for it complete (R219). DESIGN CHOICE: what SINCE
has counted of it and no fold has read is lost, and SINCE of a handle that opens starts at 0 (log entry 78). -/
def State.freeHandle (s : State) (c : Nat) (p : Proc) (h : Nat) : State :=
  let s1 := s.setSender c (p.setHandle h none)
  if (s.coreAt c).occupied && (s.coreAt c).proc.gid == p.gid && (s.coreAt c).proc.lid == p.lid then s1.testClose c h else s1

/-- The packets of a channel that an acknowledgement covers (R212). -/
def ackCount (seq unack a : Nat) : Nat :=
  let n := (a + 4096 + unack + 1 - seq) % 4096
  if n ≤ unack then n else 0

/-- ACK_ARRIVAL (R212, R215, R216, R219): the window frees; a closing channel whose packets are all acknowledged is freed.
At a core that the sender has left the acknowledgement is forwarded. -/
def execAckArrival (core : Nat) (ack : Ack) (s : State) : Out :=
  if core = gateCore then
    let cs := s.module.hostCh.map (fun k =>
      if k.gid == ack.gid && k.lid == ack.dst then { k with unack := k.unack - ackCount k.seq k.unack ack.seq } else k)
    .next (({ s with module := { s.module with hostCh := cs } } : State).afterOnce 0 .edgeQueueSend)
  else if s.inTransfer core then .next (s.after 1 (.ackArrival core ack))
  else
    match s.sender ack.gid ack.src with
    | none => .next s
    | some (c, p) =>
      if c ≠ core then
        let r := s.forwardOn core ack.origin ack.gid ack.src
        .next (if r.2 = core then s else r.1.after (transit core r.2) (.ackArrival r.2 ack))
      else
        match (List.range 32).find? (fun h => match p.handle h with
          | some o => o.lid == ack.dst && o.ch == ack.ch
          | none => false) with
        | none => .next s
        | some h =>
          match p.handle h with
          | none => .next s
          | some o =>
            let o1 := { o with unack := o.unack - ackCount o.seq o.unack ack.seq }
            if o1.closeSent && o1.unack == 0 then .next (s.freeHandle c p h)
            else .next (s.injectMore c (p.setHandle h (some o1)) h)

/-! ### CHAN (R217-R220) -/

/-- The lowest free handle. -/
def Proc.freeHandle (p : Proc) : Option Nat := (List.range 32).find? (fun h => (p.handle h).isNone)

/-- Whether a channel of this process with these ends is open. -/
def Proc.hasChannel (p : Proc) (lid ch : Nat) : Bool :=
  p.handles.toList.any (fun o => match o with | some o => o.lid == lid && o.ch == ch | none => false)

/-- CHOPEN (R218): the tests that need no request, then the request. -/
def execChopen (q : BitVec 3) (d a : BitVec 5) (s : State) : Out :=
  guarded q s (fun s =>
    let v := s.rx a
    let ch := v.toNat % 8
    let lid := v.toNat / 8 % 2 ^ 16
    let latch := v.getLsbD 19
    if v >>> 20 ≠ 0 ∨ (latch ∧ lid = hostLid) then (s.wx d (-5)).retire
    else if lid ≠ hostLid ∧ s.proc.gsize ≤ lid then (s.wx d (-2)).retire
    else if s.proc.freeHandle.isNone then (s.wx d (-1)).retire
    else if s.proc.hasChannel lid ch then (s.wx d (-3)).retire
    else if s.thr.storeQ ≠ [] then .next (s.parkRetry .storeEmpty)
    else
      let s1 := s.setThr { s.thr.parked (.chopen d) with got := [v.toNat] }
      let e : Instr := .chopenRequest s.here s.slot.val
      if lid = hostLid then .next (s1.after (transit s.here 0 + 4) e)
      else .next (s1.request (.win s.proc.gid lid 0) (s.transitTo (.win s.proc.gid lid 0)) e))

/-- The gateway's end of a channel to HOST that opens: what an earlier channel of the same name has left to be written stays
(R246). -/
def openGate (l : List GateCh) (gid lid ch : Nat) : List GateCh :=
  if l.any (fun g => g.gid == gid && g.lid == lid && g.ch == ch) then
    l.map (fun g => if g.gid == gid && g.lid == lid && g.ch == ch then { gid := gid, lid := lid, ch := ch, full := g.full } else g)
  else l ++ [{ gid := gid, lid := lid, ch := ch }]

/-- The inbound end of a channel opens at its destination on core `c`, or the status that says why not (R210, R218, R253). -/
def State.openInbound (s : State) (c src ch : Nat) (latch : Bool) : Except Nat State :=
  let k := s.coreAt c
  let p := k.proc
  if p.ended then .error (2 ^ 64 - 6)
  else if 128 ≤ (p.inb.filter (fun i => i.src != hostLid)).length then .error (2 ^ 64 - 4)
  else .ok (s.setCoreAt c { k with proc := { p with inb := p.inb ++ [{ src := src, ch := ch, latch := latch }] } })

/-- CHOPEN_REQUEST (R218, R210): the destination allocates the inbound entry, and the reply goes back. One on another module has answered
already, with 0 or a status: then only the handle is left to be allocated. -/
def execChopenRequest (core slot : Nat) (s : State) : Out :=
  let s := s.focusSlot core slot
  match s.thr.wait, s.thr.got with
  | some (.chopen _), v :: told =>
    let ch := v % 8
    let lid := v / 8 % 2 ^ 16
    let latch := v / 2 ^ 19 % 2 == 1
    let gid := s.proc.gid
    let host := lid == hostLid
    let t := if host then transit core 0 + 4 else if told.isEmpty then s.transitTo (.win gid lid 0) else 0
    let answer (s : State) (r : Nat) : Out := .next (s.after (if told.isEmpty then 14 + t else 0) (.nonlocalReply core slot r 0 {}))
    match (if host || !told.isEmpty then Reached.here else s.reached gid lid) with
    | .held => .next (s.after 1 (.chopenRequest core slot))
    | .sent s1 n => .next (s1.after n (.chopenRequest core slot))
    | .here =>
      match s.proc.freeHandle with
      | none => answer s (2 ^ 64 - 1)
      | some h =>
        if s.proc.hasChannel lid ch then answer s (2 ^ 64 - 3)
        else
          let s1 := s.setProc (s.proc.setHandle h (some { lid := lid, ch := ch, latch := latch }))
          if host then answer { s1 with module := { s1.module with gate := openGate s1.module.gate gid s.proc.lid ch } } h
          else
            match told with
            | r :: _ => if r = 0 then answer s1 h else answer s r
            | [] =>
              match s.coreOf gid lid with
              | none => answer s (2 ^ 64 - 6)
              | some c => match s1.openInbound c s.proc.lid ch latch with | .ok s2 => answer s2 h | .error r => answer s r
  | _, _ => .next s

/-- CHCLOSE (R219): the handle is marked closing, and the thread waits until everything is acknowledged. -/
def execChclose (q : BitVec 3) (a : BitVec 5) (s : State) : Out :=
  guarded q s (fun s =>
    let h := (s.rx a).toNat
    match s.proc.handle h with
    | none => s.takeTrap .channel 0
    | some o =>
      if o.closing then s.takeTrap .channel 0
      else
        let s1 := s.park (.chclose h)
        .next (s1.inject s1.here (s1.proc.setHandle h (some { o with closing := true })) h))

/-- CHINFO (R220, Table 9.2). -/
def execChinfo (q : BitVec 3) (d a : BitVec 5) (s : State) : Out :=
  guarded q s (fun s =>
    let h := (s.rx a).toNat
    if 31 < h then s.takeTrap .channel 0
    else
      match s.proc.handle h with
      | none => (s.wx d 0).retire
      | some o =>
        let b (c : Bool) (k : Nat) : Nat := if c then 2 ^ k else 0
        (s.wx d (BitVec.ofNat 64 (2 ^ 63 + b o.latch 62 + b o.cur.isSome 61 + b o.closing 60 + o.seq * 2 ^ 38 + o.unack * 2 ^ 32 +
          o.lid * 8 + o.ch))).retire)

/-! ### SEND (R221-R225) -/

/-- The checks of the send control and the handle (R222). -/
def sendBad (ctl : Word) (o : Option OutCh) (len : Nat) : Bool :=
  ctl.extractLsb' 5 11 != 0 || ctl.extractLsb' 32 32 != 0 ||
  (match o with
   | none => true
   | some o => o.closing || decide (65536 < len) || (o.latch && len != 512))

/-- A SEND that has passed its checks waits: they are not made again (R222). -/
def State.sendWait (s : State) (h : Nat) (on : RetryOn) : Out := .next ((s.setThr { s.thr with got := [sendMark h] }).parkRetry on)

/-- Whether the SEND of the thread in focus has passed its checks already. -/
def State.sendChecked (s : State) (h : Nat) : Bool := s.thr.got.head? == some (sendMark h)

/-- A SEND of any form, after the check of its source (R222). One in a release form holds its handle until its write-backs are
acknowledged. SENDV and SENDW retire in their turn where the window has room. -/
def sendForm (ctl : Word) (addr : Option Word) (bytes : List Byte) (len : Nat) (release : Bool) (s : State) : Out :=
  let h := ctl.toNat % 32
  let o := s.proc.handle h
  if !s.sendChecked h && sendBad ctl o len then s.takeTrap .channel 0
  else if s.thr.storeQ ≠ [] then s.sendWait h .storeEmpty
  else
    match o with
    | none => s.takeTrap .channel 0
    | some o =>
      let mine := match o.cur with | some c => c.claimed && c.slot == s.slot.val | none => false
      if o.cur.isSome && !mine then s.sendWait h (.sendBusy h)
      else
        let cur : SendCur := { slot := s.slot.val, addr := addr, bytes := bytes, len := len, off := 0, tag := ctl.toNat / 2 ^ 16 % 2 ^ 16,
                               release := release, sig := {}, latch := none, abort := false }
        let hold (s : State) (c : Option SendCur) : State := s.setProc (s.proc.setHandle h (some { o with cur := c }))
        let go (s1 : State) (g : Sig) (st : Nat) : Out :=
          let s2 := if addr.isNone && decide (o.unack < 32) then s1.setThr s1.thr.retired else s1.park (.send h)
          .next (s2.inject s2.here (s2.proc.setHandle h (some { o with cur := some { cur with sig := g, stamp := st } })) h)
        if release then
          match s.releaseSteps with
          | .wait s1 on => (hold s1 (some { cur with claimed := true })).sendWait h on
          | .machine s1 => ((hold s1 none).after 0 (.packetInject s.proc.gid s.proc.lid h)).takeTrap .machine 0
          | .ok s1 g st => go s1 g st
        else go s {} 0

/-- SEND and SENDR: the source range is checked first (R222). -/
def sendMem (q : BitVec 3) (d a b : BitVec 5) (release : Bool) (s : State) : Out :=
  guarded q s (fun s =>
    let len := (s.rx b).toNat
    match (if !s.sendChecked ((s.rx d).toNat % 32) then s.checkRange .r (s.rx a) (min len 65536) else .ok) with
    | .fault t va => s.takeTrap t va
    | .miss va => s.startWalk va
    | .ok => sendForm (s.rx d) (some (s.rx a)) [] len release s)

/-- SEND (R221-R225). -/
def execSend (q : BitVec 3) (d a b : BitVec 5) (s : State) : Out := sendMem q d a b false s
/-- SENDR (R221-R225). -/
def execSendr (q : BitVec 3) (d a b : BitVec 5) (s : State) : Out := sendMem q d a b true s
/-- SENDV (R221-R225). -/
def execSendv (q : BitVec 3) (d : BitVec 5) (b : BitVec 4) (s : State) : Out :=
  guarded q s (fun s => sendForm (s.rx d) none (leBytes 32 (s.rv b).toNat) 32 false s)
/-- SENDVR (R221-R225). -/
def execSendvr (q : BitVec 3) (d : BitVec 5) (b : BitVec 4) (s : State) : Out :=
  guarded q s (fun s => sendForm (s.rx d) none (leBytes 32 (s.rv b).toNat) 32 true s)
/-- SENDW (R221-R225). -/
def execSendw (q : BitVec 3) (d b : BitVec 5) (s : State) : Out :=
  guarded q s (fun s => sendForm (s.rx d) none (leBytes 8 (s.rx b).toNat) 8 false s)
/-- SENDWR (R221-R225). -/
def execSendwr (q : BitVec 3) (d b : BitVec 5) (s : State) : Out :=
  guarded q s (fun s => sendForm (s.rx d) none (leBytes 8 (s.rx b).toNat) 8 true s)

/-- CHTRAF (R336, R362). -/
def execChtraf (q : BitVec 3) (d a : BitVec 5) (s : State) : Out :=
  guarded q s (fun s =>
    let h := (s.rx a).toNat
    if 31 < h then s.takeTrap .channel 0
    else
      match s.proc.handle h with
      | none => (s.wx d (-1)).retire
      | some o => (s.wx d (BitVec.ofNat 64 o.total)).retire)

end Sys2Proof.Machine
end

