-- ==== Sys2Proof/WellFormed.lean ====
section
/-! DEFINITION. Which terms of `Instr` are well formed: the combinations of fields that the entries of the
instructions declare illegal (spec 02, R66) are not. -/

namespace Sys2Proof

/-- The status register numbers below 0x800 that exist (R54, Table 2.6); from 0x800 on, the decoder accepts every
number, and what it means depends on the slot (R60). -/
def statusNumDefined (num : BitVec 12) : Bool :=
  let n := num.toNat
  n == 0x000 || (0x002 ≤ n && n ≤ 0x00D) || (0x010 ≤ n && n ≤ 0x017) || n == 0x020 || n == 0x030 || n == 0x031 ||
    (0x040 ≤ n && n ≤ 0x045) || 0x800 ≤ n

/-- A rounding field holds none of 0b101 and 0b110 (R66, Table 2.12). -/
def rndOk (r : BitVec 3) : Bool := r != 5#3 && r != 6#3

/-- The lane types 4 to 7 are floating point (Table 6.1). -/
def laneFp (t : BitVec 3) : Bool := 4 ≤ t.toNat

/-- Lane width in bits of a lane type (Table 6.1). -/
def laneWidth (t : BitVec 3) : Nat :=
  match t.toNat with
  | 0 => 8 | 1 => 16 | 2 => 32 | 3 => 64 | 4 => 16 | 5 => 16 | 6 => 32 | _ => 64

/-- The ratio of the wider to the narrower lane width is 1, 2 or 4, and the part lies below it (R146). -/
def vcvtOk (dst src : BitVec 3) (part : BitVec 2) : Bool :=
  let a := laneWidth dst; let b := laneWidth src
  let r := if a ≤ b then b / a else a / b
  r != 8 && part.toNat < r

/-- The conditions of VCMP for a lane type (R140, Table 2.13). -/
def vcmpOk (t cnd : BitVec 3) : Bool :=
  if laneFp t then cnd != 4#3 && cnd != 5#3 && cnd != 7#3 else cnd != 6#3 && cnd != 7#3

/-- The term is an instruction word (not a step of the machine). -/
def Instr.isWord : Instr → Bool
  | .threadResume _ _ => false
  | .nonlocalReply _ _ _ _ _ => false
  | .storeQueueSend _ _ => false
  | .remoteAccessAtHome _ _ => false
  | .releaseAtHome _ _ => false
  | .pageWalk _ _ => false
  | .capacityEviction _ _ => false
  | .eccSoftError _ _ _ => false
  | .fifoPortServe _ _ => false
  | .bankModeSwitch _ _ => false
  | .atomicRequestAtHome _ _ => false
  | .atomicUnitArrival _ _ => false
  | .forwardNotice _ _ _ _ _ => false
  | .atomicUnitReturn _ => false
  | .monitorArmAtHome _ _ => false
  | .monitorCancelAtHome _ _ _ _ _ => false
  | .monitorWake _ _ _ _ _ => false
  | .waitmTimeout _ _ _ => false
  | .barrierArrival _ _ => false
  | .deferredArrival _ _ _ => false
  | .chopenRequest _ _ => false
  | .packetInject _ _ _ => false
  | .channelPacketArrival _ _ => false
  | .messageLanded _ _ _ => false
  | .ackTimer _ _ _ _ => false
  | .ackArrival _ _ => false
  | .movedNoticeArrival _ _ => false
  | .locationLookupReply _ _ _ => false
  | .multicastReplicate _ _ => false
  | .copyRequestStart _ _ => false
  | .engineAccessReply _ _ _ => false
  | .engineAccessAck _ _ _ _ => false
  | .putCounterAdd _ _ _ _ => false
  | .matrixOpStart _ _ => false
  | .matrixOpComplete _ _ => false
  | .latchEntryAppend _ _ _ => false
  | .engineCold _ _ => false
  | .readyQueueEnter _ _ => false
  | .taskDispatch _ _ => false
  | .processEnd _ _ => false
  | .proposalTimer _ _ => false
  | .proposal _ _ => false
  | .foldEnd _ _ => false
  | .swapProposalArrival _ _ => false
  | .swapTransfer _ => false
  | .swapResume _ => false
  | .swapTimeout _ _ => false
  | .sensorUpdate _ _ => false
  | .slotWithholdStep _ => false
  | .thermalRetryTimer _ _ => false
  | .migrationRequestService _ _ => false
  | .trapRecordEnqueue _ _ => false
  | .trgetTimeout _ => false
  | .coreRepair _ _ _ => false
  | .preempt _ _ _ _ _ => false
  | .preemptHoldTimeout _ => false
  | .preemptDrained _ => false
  | .saved _ _ => false
  | .loaded _ _ => false
  | .groupResume _ => false
  | .tripWrite _ _ => false
  | .uqcfgWrite _ _ => false
  | .intpostWrite _ _ => false
  | .txvalWrite _ _ => false
  | .rhselClr _ => false
  | .propose _ _ => false
  | .fold _ _ => false
  | .tposWrite _ _ _ => false
  | .weightWrite _ _ _ _ _ => false
  | .registerWrite _ _ => false
  | .mailboxWrite _ _ => false
  | .mailboxTake => false
  | .edgeQueueSend => false
  | .hostRingWrite _ _ _ => false
  | .hrheadWrite _ => false
  | .hrbaseWrite _ => false
  | .hrsizeWrite _ => false
  | .slotcapWrite _ => false
  | .attctlWrite _ => false
  | .attestationReport => false
  | .linkFlitReceive _ _ _ _ => false
  | .linkResendTimeout _ => false
  | .reset => false
  | .firmwareVerified => false
  | .vaultTrained => false
  | .droopDetect _ => false
  | .droopHoldEnd _ => false
  | .debugHalt _ => false
  | .debugResume _ => false
  | .undefinedWord _ => false
  | .instructionFetchFault _ _ => false
  | .msiXVectorUnmask => false
  | _ => true

/-- Well-formedness: for a word, the declared illegal combinations are absent; for a step, its core and slot numbers
exist (R9, R15); 3072 stands for the host gateway (R412). -/
def Instr.wf : Instr → Bool
  | .fma _ _ rnd _ _ _ => rndOk rnd
  | .fms _ _ rnd _ _ _ => rndOk rnd
  | .fnma _ _ rnd _ _ _ => rndOk rnd
  | .fnms _ _ rnd _ _ _ => rndOk rnd
  | .fcmpd _ pd1 pd2 ty cnd _ _ => !(ty.toNat < 2 && pd1 == pd2) && cnd != 7#3
  | .fcmps _ pd1 pd2 ty cnd _ _ => !(ty.toNat < 2 && pd1 == pd2) && cnd != 7#3
  | .fcvt _ dst src rnd _ _ => rndOk rnd && !(dst.toNat >= 4 && src.toNat >= 4)
  | .vsqrt _ t _ _ _ => laneFp t
  | .vminu _ t _ _ _ _ => !laneFp t
  | .vmaxu _ t _ _ _ _ => !laneFp t
  | .vshl _ t _ _ _ _ => !laneFp t
  | .vshra _ t _ _ _ _ => !laneFp t
  | .vshrl _ t _ _ _ _ => !laneFp t
  | .vext _ t zx _ _ _ => !(zx == 1#1 && laneFp t)
  | .vredn _ t var _ _ _ => !(var.toNat >= 2 && laneFp t)
  | .vredx _ t _ _ _ => t != 7#3
  | .vcvt _ dst part src _ _ => vcvtOk dst src part
  | .vcmp _ _ _ _ t cnd _ => vcmpOk t cnd
  | .ktest _ d _ b => d != b
  | .cmp _ pd1 pd2 ty _ _ _ => !(ty.toNat < 2 && pd1 == pd2)
  | .cmpi _ pd1 pd2 ty _ _ _ => !(ty.toNat < 2 && pd1 == pd2)
  | .gets _ _ num => statusNumDefined num
  | .puts _ num _ => statusNumDefined num
  | .mondis _ idx => idx.toNat <= 4
  | .cppush _ _ a => 1 <= a.toNat && a.toNat <= 28
  | .cppushb _ _ a => 1 <= a.toNat && a.toNat <= 28
  | .trget _ d _ => 1 <= d.toNat && d.toNat <= 28
  | .threadResume core slot => core < 3072 && slot < 12
  | .nonlocalReply core slot _ _ _ => core < 3072 && slot < 12
  | .storeQueueSend core slot => core < 3072 && slot < 12
  | .remoteAccessAtHome core slot => core < 3072 && slot < 12
  | .releaseAtHome core slot => core < 3072 && slot < 12
  | .pageWalk core slot => core < 3072 && slot < 12
  | .eccSoftError core _ _ => core < 3072
  | .atomicRequestAtHome core slot => core < 3072 && slot < 12
  | .atomicUnitArrival core slot => core < 3072 && slot < 12
  | .forwardNotice _ _ _ core slot => core < 3072 && slot < 12
  | .monitorArmAtHome core slot => core < 3072 && slot < 12
  | .monitorCancelAtHome _ _ slot _ _ => slot < 12
  | .monitorWake _ _ slot _ _ => slot < 12
  | .waitmTimeout _ _ slot => slot < 12
  | .barrierArrival core slot => core < 3072 && slot < 12
  | .deferredArrival _ _ slot => slot < 12
  | .chopenRequest core slot => core < 3072 && slot < 12
  | .channelPacketArrival core _ => core <= 3072
  | .ackArrival core _ => core < 3072
  | .movedNoticeArrival core _ => core < 3072
  | .locationLookupReply core _ _ => core < 3072
  | .swapProposalArrival _ core => core < 3072
  | .swapTimeout _ core => core < 3072
  | .sensorUpdate core _ => core < 3072
  | .slotWithholdStep core => core < 3072
  | .migrationRequestService core slot => core < 3072 && slot < 12
  | .trapRecordEnqueue core _ => core < 3072
  | .trgetTimeout core => core < 3072
  | .coreRepair core _ _ => core < 3072
  | .preempt _ _ _ _ core => core < 3072
  | .tripWrite core _ => core < 3072
  | .uqcfgWrite core _ => core < 3072
  | .intpostWrite core _ => core < 3072
  | .txvalWrite core _ => core < 3072
  | .rhselClr core => core < 3072
  | _ => true

end Sys2Proof
end

