-- ==== Sys2Proof/Decode.lean ====
section
/-! DEFINITION. The decoder (spec 02, R61-R66, Tables 2.10-2.14), total on any word: a word that is not defined (R66) is
answered by none. After it the encoder, from the same tables. -/

namespace Sys2Proof

/-- Keep a decoded instruction when the condition on its unnamed fields holds (R66: they are zero). -/
def need (c : Bool) (i : Instr) : Option Instr := if c then some i else none

/-- A 5-bit field that names a v register has bit 4 clear (R66). -/
def isV (f : BitVec 5) : Bool := f.toNat < 16
/-- A 5-bit field that names a k, p or fm register has bits 4:3 clear (R66). -/
def isK (f : BitVec 5) : Bool := f.toNat < 8
/-- A field that names an XACC pair names an even v register (R131). -/
def isJ (f : BitVec 5) : Bool := f.toNat < 16 && f.toNat % 2 == 0
/-- The pair number of such a field. -/
def pairOf (f : BitVec 5) : BitVec 3 := f.extractLsb' 1 3
/-- The field that names pair `j`. -/
def pairFld (j : BitVec 3) : BitVec 5 := 0#1 ++ j ++ 0#1
/-- The even register field of ACAS2 (R189). -/
def evenFld (e : BitVec 4) : BitVec 5 := e ++ 0#1

/-- Format R: q op d a b fn. -/
def joinR (q : BitVec 3) (op : BitVec 6) (d a b : BitVec 5) (fn : BitVec 8) : IWord := q ++ op ++ d ++ a ++ b ++ fn
/-- Formats I, and K as hw and imm16 below: q op d a and 13 bits. -/
def joinI (q : BitVec 3) (op : BitVec 6) (d a : BitVec 5) (imm : BitVec 13) : IWord := q ++ op ++ d ++ a ++ imm
/-- Formats IM and M: q op d a, a 3-bit minor and 10 bits. -/
def joinM (q : BitVec 3) (op : BitVec 6) (d a : BitVec 5) (sz : BitVec 3) (imm : BitVec 10) : IWord :=
  q ++ op ++ d ++ a ++ sz ++ imm
/-- Format L. -/
def joinL (q : BitVec 3) (op : BitVec 6) (d : BitVec 5) (imm : BitVec 18) : IWord := q ++ op ++ d ++ imm
/-- Format K. -/
def joinK (q : BitVec 3) (op : BitVec 6) (d : BitVec 5) (hw : BitVec 2) (imm : BitVec 16) : IWord :=
  q ++ op ++ d ++ hw ++ imm
/-- Format B. -/
def joinB (q : BitVec 3) (op : BitVec 6) (h : BitVec 1) (disp : BitVec 22) : IWord := q ++ op ++ h ++ disp
/-- Format C, its low 6 bits b and zero, or imm6. -/
def joinC (q : BitVec 3) (op : BitVec 6) (pd1 pd2 ty cnd : BitVec 3) (a : BitVec 5) (lo : BitVec 6) : IWord :=
  q ++ op ++ pd1 ++ pd2 ++ ty ++ cnd ++ a ++ lo
/-- Format VC. -/
def joinVC (q : BitVec 3) (op : BitVec 6) (kd : BitVec 3) (a b : BitVec 4) (t cnd kg z : BitVec 3) : IWord :=
  q ++ op ++ kd ++ a ++ b ++ t ++ cnd ++ kg ++ z
/-- Format X. -/
def joinX (q : BitVec 3) (op : BitVec 6) (acc : BitVec 2) (a m : BitVec 5) (fA fB : BitVec 3) (s : BitVec 4)
    (z : BitVec 1) : IWord := q ++ op ++ acc ++ a ++ m ++ fA ++ fB ++ s ++ z
/-- Format P. -/
def joinP (q : BitVec 3) (op : BitVec 6) (n : BitVec 6) (len : BitVec 4) (stag mask : BitVec 3) (z : BitVec 7) : IWord :=
  q ++ op ++ n ++ len ++ stag ++ mask ++ z

/-- Major 0x01: ADD, SUB, AND, OR, XOR, ANDN, SLL, SRL, SRA, ROTR, ADDW, SUBW, SLLW, SRLW, SRAW, MIN, MAX, MINU, MAXU, LEA1, LEA2, LEA3. -/
def dec01 (q : BitVec 3) (d a b : BitVec 5) (fn : BitVec 8) : Option Instr :=
  match fn.toNat with
  | 0 => some (.add q d a b)
  | 1 => some (.sub q d a b)
  | 2 => some (.and q d a b)
  | 3 => some (.or q d a b)
  | 4 => some (.xor q d a b)
  | 5 => some (.andn q d a b)
  | 6 => some (.sll q d a b)
  | 7 => some (.srl q d a b)
  | 8 => some (.sra q d a b)
  | 9 => some (.rotr q d a b)
  | 10 => some (.addw q d a b)
  | 11 => some (.subw q d a b)
  | 12 => some (.sllw q d a b)
  | 13 => some (.srlw q d a b)
  | 14 => some (.sraw q d a b)
  | 15 => some (.min q d a b)
  | 16 => some (.max q d a b)
  | 17 => some (.minu q d a b)
  | 18 => some (.maxu q d a b)
  | 19 => some (.lea1 q d a b)
  | 20 => some (.lea2 q d a b)
  | 21 => some (.lea3 q d a b)
  | _ => none

/-- Major 0x02: MUL, MULH, MULHU, MULW, DIV, DIVU, REM, REMU, DIVW, DIVUW, REMW, REMUW. -/
def dec02 (q : BitVec 3) (d a b : BitVec 5) (fn : BitVec 8) : Option Instr :=
  match fn.toNat with
  | 0 => some (.mul q d a b)
  | 1 => some (.mulh q d a b)
  | 2 => some (.mulhu q d a b)
  | 3 => some (.mulw q d a b)
  | 4 => some (.div q d a b)
  | 5 => some (.divu q d a b)
  | 6 => some (.rem q d a b)
  | 7 => some (.remu q d a b)
  | 8 => some (.divw q d a b)
  | 9 => some (.divuw q d a b)
  | 10 => some (.remw q d a b)
  | 11 => some (.remuw q d a b)
  | _ => none

/-- Major 0x03: CLZ, CTZ, POPC, BREV, BSWAP, SEXTB, SEXTH, SEXTW, ZEXTB, ZEXTH, ZEXTW, EXTS, EXTU, INSB. -/
def dec03 (q : BitVec 3) (d a b : BitVec 5) (fn : BitVec 8) : Option Instr :=
  match fn.toNat with
  | 0 => need (b == 0#5) (.clz q d a)
  | 1 => need (b == 0#5) (.ctz q d a)
  | 2 => need (b == 0#5) (.popc q d a)
  | 3 => need (b == 0#5) (.brev q d a)
  | 4 => need (b == 0#5) (.bswap q d a)
  | 5 => need (b == 0#5) (.sextb q d a)
  | 6 => need (b == 0#5) (.sexth q d a)
  | 7 => need (b == 0#5) (.sextw q d a)
  | 8 => need (b == 0#5) (.zextb q d a)
  | 9 => need (b == 0#5) (.zexth q d a)
  | 10 => need (b == 0#5) (.zextw q d a)
  | 11 => some (.exts q d a b)
  | 12 => some (.extu q d a b)
  | 13 => some (.insb q d a b)
  | _ => none

/-- Major 0x04: SEL, PAND, POR, PXOR, PANDN, PMOVX, XMOVP. -/
def dec04 (q : BitVec 3) (d a b : BitVec 5) (fn : BitVec 8) : Option Instr :=
  match fn.toNat with
  | 0 => some (.sel q d a b)
  | 1 => need (isK d && isK a && isK b) (.pand q (d.setWidth 3) (a.setWidth 3) (b.setWidth 3))
  | 2 => need (isK d && isK a && isK b) (.por q (d.setWidth 3) (a.setWidth 3) (b.setWidth 3))
  | 3 => need (isK d && isK a && isK b) (.pxor q (d.setWidth 3) (a.setWidth 3) (b.setWidth 3))
  | 4 => need (isK d && isK a && isK b) (.pandn q (d.setWidth 3) (a.setWidth 3) (b.setWidth 3))
  | 5 => need (a == 0#5 && b == 0#5) (.pmovx q d)
  | 6 => need (d == 0#5 && b == 0#5) (.xmovp q a)
  | _ => none

/-- Major 0x05: ADDI. -/
def dec05 (q : BitVec 3) (d a : BitVec 5) (imm13 : BitVec 13) : Option Instr := some (.addi q d a imm13)

/-- Major 0x06: ANDI. -/
def dec06 (q : BitVec 3) (d a : BitVec 5) (imm13 : BitVec 13) : Option Instr := some (.andi q d a imm13)

/-- Major 0x07: ORI. -/
def dec07 (q : BitVec 3) (d a : BitVec 5) (imm13 : BitVec 13) : Option Instr := some (.ori q d a imm13)

/-- Major 0x08: XORI. -/
def dec08 (q : BitVec 3) (d a : BitVec 5) (imm13 : BitVec 13) : Option Instr := some (.xori q d a imm13)

/-- Major 0x09: SLLI, SRLI, SRAI, ROTRI, SLLIW, SRLIW, SRAIW. -/
def dec09 (q : BitVec 3) (d a : BitVec 5) (sz : BitVec 3) (imm : BitVec 10) : Option Instr :=
  match sz.toNat with
  | 0 => need (imm.toNat < 64) (.slli q d a (imm.setWidth 6))
  | 1 => need (imm.toNat < 64) (.srli q d a (imm.setWidth 6))
  | 2 => need (imm.toNat < 64) (.srai q d a (imm.setWidth 6))
  | 3 => need (imm.toNat < 64) (.rotri q d a (imm.setWidth 6))
  | 4 => need (imm.toNat < 32) (.slliw q d a (imm.setWidth 5))
  | 5 => need (imm.toNat < 32) (.srliw q d a (imm.setWidth 5))
  | 6 => need (imm.toNat < 32) (.sraiw q d a (imm.setWidth 5))
  | _ => none

/-- Major 0x0A: MOVI. -/
def dec0A (q : BitVec 3) (d : BitVec 5) (imm18 : BitVec 18) : Option Instr := some (.movi q d imm18)

/-- Major 0x0B: MOVK. -/
def dec0B (q : BitVec 3) (d : BitVec 5) (hw : BitVec 2) (imm16 : BitVec 16) : Option Instr := some (.movk q d hw imm16)

/-- Major 0x18: FADD, FSUB, FMUL, FDIV, FSQRT, FMIN, FMAX, FMINN, FMAXN, FABS, FNEG, FCPYS, FCLASS, FMVXF, FMVFX. -/
def dec18 (q : BitVec 3) (d a b : BitVec 5) (fn : BitVec 8) : Option Instr :=
  let fmt := fn.extractLsb' 6 2
  match (fn.extractLsb' 0 6).toNat with
  | 0 => some (.fadd q fmt d a b)
  | 1 => some (.fsub q fmt d a b)
  | 2 => some (.fmul q fmt d a b)
  | 3 => some (.fdiv q fmt d a b)
  | 4 => need (b == 0#5) (.fsqrt q fmt d a)
  | 5 => some (.fmin q fmt d a b)
  | 6 => some (.fmax q fmt d a b)
  | 7 => some (.fminn q fmt d a b)
  | 8 => some (.fmaxn q fmt d a b)
  | 9 => need (b == 0#5) (.fabs q fmt d a)
  | 10 => need (b == 0#5) (.fneg q fmt d a)
  | 11 => some (.fcpys q fmt d a b)
  | 12 => need (b == 0#5) (.fclass q fmt d a)
  | 13 => need (b == 0#5) (.fmvxf q fmt d a)
  | 14 => need (b == 0#5) (.fmvfx q fmt d a)
  | _ => none

/-- Major 0x19: FMA, FMS, FNMA, FNMS. -/
def dec19 (q : BitVec 3) (d a b : BitVec 5) (fn : BitVec 8) : Option Instr :=
  let fmt := fn.extractLsb' 6 2
  let rnd := fn.extractLsb' 0 3
  match (fn.extractLsb' 3 3).toNat with
  | 0 => some (.fma q fmt rnd d a b)
  | 2 => some (.fms q fmt rnd d a b)
  | 4 => some (.fnma q fmt rnd d a b)
  | 6 => some (.fnms q fmt rnd d a b)
  | _ => none

/-- Major 0x1A: FCMPD. -/
def dec1A (q pd1 pd2 ty cnd : BitVec 3) (a : BitVec 5) (lo : BitVec 6) : Option Instr :=
  need (lo.extractLsb' 0 1 == 0#1) (.fcmpd q pd1 pd2 ty cnd a (lo.extractLsb' 1 5))

/-- Major 0x1B: FCMPS. -/
def dec1B (q pd1 pd2 ty cnd : BitVec 3) (a : BitVec 5) (lo : BitVec 6) : Option Instr :=
  need (lo.extractLsb' 0 1 == 0#1) (.fcmps q pd1 pd2 ty cnd a (lo.extractLsb' 1 5))

/-- Major 0x1C: FCVT. -/
def dec1C (q : BitVec 3) (d a b : BitVec 5) (fn : BitVec 8) : Option Instr :=
  need (fn.extractLsb' 0 2 == 0#2 && isK b) (.fcvt q (fn.extractLsb' 2 3) (fn.extractLsb' 5 3) (b.setWidth 3) d a)

/-- Major 0x1D: FEXP2, FLOG2, FSINP, FCOSP, FRSQ, FRCP, FTANH. -/
def dec1D (q : BitVec 3) (d a b : BitVec 5) (fn : BitVec 8) : Option Instr :=
  let c := fn.extractLsb' 7 1
  if b != 0#5 then none else
  match (fn.extractLsb' 0 7).toNat with
  | 0 => some (.fexp2 q c d a)
  | 1 => some (.flog2 q c d a)
  | 2 => some (.fsinp q c d a)
  | 3 => some (.fcosp q c d a)
  | 4 => some (.frsq q c d a)
  | 5 => some (.frcp q c d a)
  | 6 => some (.ftanh q c d a)
  | _ => none

/-- Major 0x1E: XCLR, XADDV, XADDS, XADDX, XRND, XNEG. -/
def dec1E (q : BitVec 3) (d a b : BitVec 5) (fn : BitVec 8) : Option Instr :=
  match fn.toNat with
  | 0 => need (isJ d && a == 0#5 && b == 0#5) (.xclr q (pairOf d))
  | 1 => need (isJ d && isV a && isK b) (.xaddv q (pairOf d) (a.setWidth 4) (b.setWidth 3))
  | 2 => need (isJ d && isK b) (.xadds q (pairOf d) a (b.setWidth 3))
  | 3 => need (isJ d && isJ a && b == 0#5) (.xaddx q (pairOf d) (pairOf a))
  | 4 => need (isJ a && isK b) (.xrnd q d (pairOf a) (b.setWidth 3))
  | 5 => need (isJ d && isJ a && b == 0#5) (.xneg q (pairOf d) (pairOf a))
  | _ => none

/-- Major 0x20: VADD, VSUB, VMUL, VFMA, VDIV, VSQRT, VMIN, VMAX, VMINU, VMAXU, VABS, VNEG, VAND, VOR, VXOR, VSHL, VSHRA, VSHRL, VSEL, VMOV. -/
def dec20 (q : BitVec 3) (d a b : BitVec 5) (fn : BitVec 8) : Option Instr :=
  let t : BitVec 3 := d.extractLsb' 4 1 ++ a.extractLsb' 4 1 ++ b.extractLsb' 4 1
  let vd : BitVec 4 := d.setWidth 4
  let va : BitVec 4 := a.setWidth 4
  let vb : BitVec 4 := b.setWidth 4
  let k : BitVec 3 := fn.setWidth 3
  match (fn.extractLsb' 3 5).toNat with
  | 0 => some (.vadd q t vd va vb k)
  | 1 => some (.vsub q t vd va vb k)
  | 2 => some (.vmul q t vd va vb k)
  | 3 => some (.vfma q t vd va vb k)
  | 4 => some (.vdiv q t vd va vb k)
  | 5 => need (vb == 0#4) (.vsqrt q t vd va k)
  | 6 => some (.vmin q t vd va vb k)
  | 7 => some (.vmax q t vd va vb k)
  | 8 => some (.vminu q t vd va vb k)
  | 9 => some (.vmaxu q t vd va vb k)
  | 10 => need (vb == 0#4) (.vabs q t vd va k)
  | 11 => need (vb == 0#4) (.vneg q t vd va k)
  | 12 => some (.vand q t vd va vb k)
  | 13 => some (.vor q t vd va vb k)
  | 14 => some (.vxor q t vd va vb k)
  | 15 => some (.vshl q t vd va vb k)
  | 16 => some (.vshra q t vd va vb k)
  | 17 => some (.vshrl q t vd va vb k)
  | 18 => some (.vsel q t vd va vb k)
  | 19 => need (vb == 0#4) (.vmov q t vd va k)
  | _ => none

/-- Major 0x21: VBCAST, VEXT, VINS, VPERM, VREDS, VREDN, VREDX, VCVT. -/
def dec21 (q : BitVec 3) (d a b : BitVec 5) (fn : BitVec 8) : Option Instr :=
  let t := fn.extractLsb' 5 3
  let var := fn.extractLsb' 3 2
  match (fn.extractLsb' 0 3).toNat with
  | 0 => need (isV d && isK b && var == 0#2) (.vbcast q t (d.setWidth 4) a (b.setWidth 3))
  | 1 => need (isV a && var.toNat < 2) (.vext q t (var.setWidth 1) d (a.setWidth 4) b)
  | 2 => need (isV d && var == 0#2) (.vins q t (d.setWidth 4) a b)
  | 3 => need (isV d && isV a && isV b && var == 0#2) (.vperm q t (d.setWidth 4) (a.setWidth 4) (b.setWidth 4))
  | 4 => need (isV a && isK b && var == 0#2) (.vreds q t d (a.setWidth 4) (b.setWidth 3))
  | 5 => need (isV a && isK b) (.vredn q t var d (a.setWidth 4) (b.setWidth 3))
  | 6 => need (isJ d && isV a && isK b && var == 0#2) (.vredx q t (pairOf d) (a.setWidth 4) (b.setWidth 3))
  | 7 => need (isV d && isV a && isK b) (.vcvt q t var (b.setWidth 3) (d.setWidth 4) (a.setWidth 4))
  | _ => none

/-- Major 0x22: VCMP. -/
def dec22 (q kd : BitVec 3) (a b : BitVec 4) (t cnd kg z : BitVec 3) : Option Instr :=
  need (z == 0#3) (.vcmp q kd a b t cnd kg)

/-- Major 0x23: KAND, KOR, KXOR, KNOT, KSET, KGET, KPOP, KTEST. -/
def dec23 (q : BitVec 3) (d a b : BitVec 5) (fn : BitVec 8) : Option Instr :=
  match fn.toNat with
  | 0 => need (isK d && isK a && isK b) (.kand q (d.setWidth 3) (a.setWidth 3) (b.setWidth 3))
  | 1 => need (isK d && isK a && isK b) (.kor q (d.setWidth 3) (a.setWidth 3) (b.setWidth 3))
  | 2 => need (isK d && isK a && isK b) (.kxor q (d.setWidth 3) (a.setWidth 3) (b.setWidth 3))
  | 3 => need (isK d && isK a && b == 0#5) (.knot q (d.setWidth 3) (a.setWidth 3))
  | 4 => need (isK d && b == 0#5) (.kset q (d.setWidth 3) a)
  | 5 => need (isK a && b == 0#5) (.kget q d (a.setWidth 3))
  | 6 => need (isK a && b == 0#5) (.kpop q d (a.setWidth 3))
  | 7 => need (isK d && isK a && isK b) (.ktest q (d.setWidth 3) (a.setWidth 3) (b.setWidth 3))
  | _ => none

/-- Major 0x24: VQNT, VDQNT. -/
def dec24 (q : BitVec 3) (d a b : BitVec 5) (fn : BitVec 8) : Option Instr :=
  match fn.toNat with
  | 0 => need (isV d) (.vqnt q (d.setWidth 4) (a.extractLsb' 3 2) (a.setWidth 3) b)
  | 1 => need (isV a) (.vdqnt q (d.extractLsb' 3 2) (d.setWidth 3) (a.setWidth 4) b)
  | _ => none

/-- Major 0x3A: MMA, MMAZ. -/
def dec3A (q : BitVec 3) (acc : BitVec 2) (a m : BitVec 5) (fA fB : BitVec 3) (s : BitVec 4) (z : BitVec 1) : Option Instr :=
  if 8 ≤ s.toNat then none
  else if z == 0#1 then some (.mma q acc a m fA fB (s.setWidth 3))
  else some (.mmaz q acc a m fA fB (s.setWidth 3))

/-- Major 0x0C: CMP. -/
noncomputable def dec0C (q pd1 pd2 ty cnd : BitVec 3) (a : BitVec 5) (lo : BitVec 6) : Option Instr :=
  need (lo.extractLsb' 0 1 == 0#1) (.cmp q pd1 pd2 ty cnd a (lo.extractLsb' 1 5))

/-- Major 0x0D: CMPI. -/
noncomputable def dec0D (q pd1 pd2 ty cnd : BitVec 3) (a : BitVec 5) (lo : BitVec 6) : Option Instr :=
  some (.cmpi q pd1 pd2 ty cnd a lo)

/-- Major 0x0E: GETS, PUTS. -/
noncomputable def dec0E (q : BitVec 3) (d a : BitVec 5) (imm13 : BitVec 13) : Option Instr :=
  if imm13.extractLsb' 12 1 == 0#1 then need (a == 0#5) (.gets q d (imm13.setWidth 12))
  else need (d == 0#5) (.puts q (imm13.setWidth 12) a)

/-- Major 0x10: BR. -/
noncomputable def dec10 (q : BitVec 3) (h : BitVec 1) (disp : BitVec 22) : Option Instr := some (.br q h disp)

/-- Major 0x11: BRL. -/
noncomputable def dec11 (q : BitVec 3) (h : BitVec 1) (disp : BitVec 22) : Option Instr := some (.brl q h disp)

/-- Major 0x12: JR, JRL. -/
noncomputable def dec12 (q : BitVec 3) (d a b : BitVec 5) (fn : BitVec 8) : Option Instr :=
  if b != 0#5 then none else
  let h := fn.extractLsb' 7 1
  match (fn.extractLsb' 0 7).toNat with
  | 0 => need (d == 0#5) (.jr q h a)
  | 1 => some (.jrl q h d a)
  | _ => none

/-- Major 0x13: BDEC. -/
noncomputable def dec13 (q : BitVec 3) (d a : BitVec 5) (imm13 : BitVec 13) : Option Instr := need (a == 0#5) (.bdec q d imm13)

/-- Major 0x14: RPT. -/
noncomputable def dec14 (q : BitVec 3) (n : BitVec 6) (len : BitVec 4) (stag mask : BitVec 3) (z : BitVec 7) : Option Instr :=
  need (z == 0#7) (.rpt q n len stag mask)

/-- Major 0x15: HSTART, HEND, HJOIN, HSTAT, HKILL. -/
noncomputable def dec15 (q : BitVec 3) (d a b : BitVec 5) (fn : BitVec 8) : Option Instr :=
  match fn.toNat with
  | 0 => some (.hstart q d a b)
  | 1 => need (d == 0#5 && b == 0#5) (.hend q a)
  | 2 => need (b == 0#5) (.hjoin q d a)
  | 3 => need (b == 0#5) (.hstat q d a)
  | 4 => need (b == 0#5) (.hkill q d a)
  | _ => none

/-- Major 0x16: IFLUSH. -/
noncomputable def dec16 (q : BitVec 3) (d a b : BitVec 5) (fn : BitVec 8) : Option Instr :=
  match fn.toNat with
  | 0 => need (d == 0#5 && a == 0#5 && b == 0#5) (.iflush q)
  | _ => none

/-- Major 0x28: LDB, LDH, LDW, LDD, LDBU, LDHU, LDWU. -/
noncomputable def dec28 (q : BitVec 3) (d a : BitVec 5) (sz : BitVec 3) (imm : BitVec 10) : Option Instr :=
  match sz.toNat with
  | 0 => some (.ldb q d a imm)
  | 1 => some (.ldh q d a imm)
  | 2 => some (.ldw q d a imm)
  | 3 => some (.ldd q d a imm)
  | 4 => some (.ldbu q d a imm)
  | 5 => some (.ldhu q d a imm)
  | 6 => some (.ldwu q d a imm)
  | _ => none

/-- Major 0x29: STB, STH, STW, STD. -/
noncomputable def dec29 (q : BitVec 3) (d a : BitVec 5) (sz : BitVec 3) (imm : BitVec 10) : Option Instr :=
  match sz.toNat with
  | 0 => some (.stb q d a imm)
  | 1 => some (.sth q d a imm)
  | 2 => some (.stw q d a imm)
  | 3 => some (.std q d a imm)
  | _ => none

/-- Major 0x2A: FLDH, FLDW, FLDD, FSTH, FSTW, FSTD. -/
noncomputable def dec2A (q : BitVec 3) (d a : BitVec 5) (sz : BitVec 3) (imm : BitVec 10) : Option Instr :=
  match sz.toNat with
  | 0 => some (.fldh q d a imm)
  | 1 => some (.fldw q d a imm)
  | 2 => some (.fldd q d a imm)
  | 4 => some (.fsth q d a imm)
  | 5 => some (.fstw q d a imm)
  | 6 => some (.fstd q d a imm)
  | _ => none

/-- Major 0x2B: VLD, VST. -/
noncomputable def dec2B (q : BitVec 3) (d a : BitVec 5) (sz : BitVec 3) (imm : BitVec 10) : Option Instr :=
  if isV d then some (.vld q (d.setWidth 4) a sz imm) else some (.vst q (d.setWidth 4) a sz imm)

/-- Major 0x2C: LDF, LDFC, STF, FESETE, FESETF, FEGET. -/
noncomputable def dec2C (q : BitVec 3) (d a : BitVec 5) (sz : BitVec 3) (imm : BitVec 10) : Option Instr :=
  match sz.toNat with
  | 0 => some (.ldf q d a imm)
  | 1 => some (.ldfc q d a imm)
  | 2 => some (.stf q d a imm)
  | 3 => need (d == 0#5) (.fesete q a imm)
  | 4 => need (d == 0#5) (.fesetf q a imm)
  | 5 => some (.feget q d a imm)
  | _ => none

/-- Major 0x2D: LDA, STL, FENCE, PREF, CWB, CINV. -/
noncomputable def dec2D (q : BitVec 3) (d a : BitVec 5) (sz : BitVec 3) (imm : BitVec 10) : Option Instr :=
  match sz.toNat with
  | 0 => some (.lda q d a imm)
  | 1 => some (.stl q d a imm)
  | 2 => need (d == 0#5 && a == 0#5 && imm == 0#10) (.fence q)
  | 3 => need (d.toNat < 4) (.pref q (d.setWidth 2) a imm)
  | 4 => need (d == 0#5) (.cwb q a imm)
  | 5 => need (d == 0#5) (.cinv q a imm)
  | _ => none

/-- Major 0x2E: VLDS, VSTS. -/
noncomputable def dec2E (q : BitVec 3) (d a b : BitVec 5) (fn : BitVec 8) : Option Instr :=
  if 4 ≤ (fn.extractLsb' 3 5).toNat then none
  else if isV d then some (.vlds q (d.setWidth 4) a b (fn.extractLsb' 3 2) (fn.setWidth 3))
  else some (.vsts q (d.setWidth 4) a b (fn.extractLsb' 3 2) (fn.setWidth 3))

/-- Major 0x30: AADD, AAND, AOR, AXOR, AMIN, AMAX, AMINU, AMAXU, ASWP, AFADD, ACAS, ACAS2. -/
noncomputable def dec30 (q : BitVec 3) (d a b : BitVec 5) (fn : BitVec 8) : Option Instr :=
  let sz := fn.extractLsb' 3 1
  let ord := fn.extractLsb' 1 2
  if fn.extractLsb' 0 1 != 0#1 then none else
  match (fn.extractLsb' 4 4).toNat with
  | 0 => some (.aadd q sz ord d a b)
  | 1 => some (.aand q sz ord d a b)
  | 2 => some (.aor q sz ord d a b)
  | 3 => some (.axor q sz ord d a b)
  | 4 => some (.amin q sz ord d a b)
  | 5 => some (.amax q sz ord d a b)
  | 6 => some (.aminu q sz ord d a b)
  | 7 => some (.amaxu q sz ord d a b)
  | 8 => some (.aswp q sz ord d a b)
  | 9 => some (.afadd q sz ord d a b)
  | 10 => some (.acas q sz ord d a b)
  | 11 => need (sz == 1#1 && d.toNat % 2 == 0 && b.toNat % 2 == 0)
      (.acas2 q ord (d.extractLsb' 1 4) a (b.extractLsb' 1 4))
  | _ => none

/-- Major 0x31: MONARM, MONDIS, WAITM, MONST. -/
noncomputable def dec31 (q : BitVec 3) (d a b : BitVec 5) (fn : BitVec 8) : Option Instr :=
  match fn.toNat with
  | 0 => need (b.toNat < 4) (.monarm q d a (b.setWidth 2))
  | 1 => need (d == 0#5 && a == 0#5 && isK b) (.mondis q (b.setWidth 3))
  | 2 => need (b == 0#5) (.waitm q d a)
  | 3 => need (a == 0#5 && b == 0#5) (.monst q d)
  | _ => none

/-- Major 0x32: BARARR, BARWAIT, BARSYNC, BARDEF, BARST. -/
noncomputable def dec32 (q : BitVec 3) (d a b : BitVec 5) (fn : BitVec 8) : Option Instr :=
  match fn.toNat with
  | 0 => need (d == 0#5) (.bararr q a b)
  | 1 => need (d == 0#5 && a == 0#5) (.barwait q b)
  | 2 => need (d == 0#5) (.barsync q a b)
  | 3 => need (d == 0#5) (.bardef q a b)
  | 4 => need (a == 0#5) (.barst q d b)
  | _ => none

/-- Major 0x34: CHOPEN, CHCLOSE, CHINFO. -/
noncomputable def dec34 (q : BitVec 3) (d a b : BitVec 5) (fn : BitVec 8) : Option Instr :=
  match fn.toNat with
  | 0 => need (b == 0#5) (.chopen q d a)
  | 1 => need (d == 0#5 && b == 0#5) (.chclose q a)
  | 2 => need (b == 0#5) (.chinfo q d a)
  | _ => none

/-- Major 0x35: SEND, SENDR, SENDV, SENDVR, SENDW, SENDWR. -/
noncomputable def dec35 (q : BitVec 3) (d a b : BitVec 5) (fn : BitVec 8) : Option Instr :=
  match fn.toNat with
  | 0 => some (.send q d a b)
  | 1 => some (.sendr q d a b)
  | 2 => need (a == 0#5 && isV b) (.sendv q d (b.setWidth 4))
  | 3 => need (a == 0#5 && isV b) (.sendvr q d (b.setWidth 4))
  | 4 => need (a == 0#5) (.sendw q d b)
  | 5 => need (a == 0#5) (.sendwr q d b)
  | _ => none

/-- Major 0x36: PRECV, PCANCEL, PROBE, UQTAKE. -/
noncomputable def dec36 (q : BitVec 3) (d a b : BitVec 5) (fn : BitVec 8) : Option Instr :=
  match fn.toNat with
  | 0 => need (b == 0#5) (.precv q d a)
  | 1 => need (b == 0#5) (.pcancel q d a)
  | 2 => need (b == 0#5) (.probe q d a)
  | 3 => need (b == 0#5) (.uqtake q d a)
  | _ => none

/-- Major 0x37: CTRGET, CTRSET, CTRADD, CTRWAIT, TTSET, TTCLR. -/
noncomputable def dec37 (q : BitVec 3) (d a b : BitVec 5) (fn : BitVec 8) : Option Instr :=
  match fn.toNat with
  | 0 => need (b == 0#5) (.ctrget q d a)
  | 1 => need (d == 0#5) (.ctrset q a b)
  | 2 => some (.ctradd q d a b)
  | 3 => some (.ctrwait q d a b)
  | 4 => need (b == 0#5) (.ttset q d a)
  | 5 => need (b == 0#5) (.ttclr q d a)
  | _ => none

/-- Major 0x38: SPAWN, SPAWNW, TAKE, STEAL, TRUN, TPRIO. -/
noncomputable def dec38 (q : BitVec 3) (d a b : BitVec 5) (fn : BitVec 8) : Option Instr :=
  match fn.toNat with
  | 0 => some (.spawn q d a b)
  | 1 => some (.spawnw q d a b)
  | 2 => need (a == 0#5 && b == 0#5) (.take q d)
  | 3 => need (b == 0#5) (.steal q d a)
  | 4 => need (b == 0#5) (.trun q d a)
  | 5 => some (.tprio q d a b)
  | _ => none

/-- Major 0x3B: MLDB, MPASS, MPOP, MLDA, MSTA, MCLR, MBURST, MSTAT. -/
noncomputable def dec3B (q : BitVec 3) (d a b : BitVec 5) (fn : BitVec 8) : Option Instr :=
  match fn.toNat with
  | 0 => need (d == 0#5 && b == 0#5) (.mldb q a)
  | 1 => need (d == 0#5 && b == 0#5) (.mpass q a)
  | 2 => need (a == 0#5 && b == 0#5) (.mpop q d)
  | 3 => need (d.toNat < 4 && b == 0#5) (.mlda q (d.setWidth 2) a)
  | 4 => some (.msta q (d.extractLsb' 2 3) (d.setWidth 2) a b)
  | 5 => need (d.toNat < 4 && a == 0#5 && b == 0#5) (.mclr q (d.setWidth 2))
  | 6 => need (d == 0#5 && b == 0#5) (.mburst q a)
  | 7 => need (a == 0#5 && b == 0#5) (.mstat q d)
  | _ => none

/-- Major 0x3C: CPPUSH, CPPUSHB, CPWAIT, CPSTAT, CPABORT. -/
noncomputable def dec3C (q : BitVec 3) (d a b : BitVec 5) (fn : BitVec 8) : Option Instr :=
  match fn.toNat with
  | 0 => need (b == 0#5) (.cppush q d a)
  | 1 => need (b == 0#5) (.cppushb q d a)
  | 2 => need (b == 0#5) (.cpwait q d a)
  | 3 => need (b == 0#5) (.cpstat q d a)
  | 4 => need (b == 0#5) (.cpabort q d a)
  | _ => none

/-- Major 0x3D: POSGET, LIDGET, WHERE, ANCHOR, UNANCHOR, MIGREQ, CHTRAF, ANNGET, ANNSET. -/
noncomputable def dec3D (q : BitVec 3) (d a b : BitVec 5) (fn : BitVec 8) : Option Instr :=
  match fn.toNat with
  | 0 => need (a == 0#5 && b == 0#5) (.posget q d)
  | 1 => need (b == 0#5) (.lidget q d a)
  | 2 => need (b == 0#5) (.whereLid q d a)
  | 3 => need (a == 0#5 && b == 0#5) (.anchor q d)
  | 4 => need (a == 0#5 && b == 0#5) (.unanchor q d)
  | 5 => need (b == 0#5) (.migreq q d a)
  | 6 => need (b == 0#5) (.chtraf q d a)
  | 7 => need (b == 0#5) (.annget q d a)
  | 8 => some (.annset q d a b)
  | _ => none

/-- Major 0x3E: SYSC, BRK, TRET, TRGET, CTXSAVE, CTXLOAD, GLAUNCH, BANKCFG, TLBINV, DUMP, HALT, SVSEND. -/
noncomputable def dec3E (q : BitVec 3) (d a b : BitVec 5) (fn : BitVec 8) : Option Instr :=
  match fn.toNat with
  | 0 => need (d == 0#5 && b == 0#5) (.sysc q a)
  | 1 => need (d == 0#5 && a == 0#5) (.brk q b)
  | 2 => some (.tret q d a b)
  | 3 => need (b == 0#5) (.trget q d a)
  | 4 => need (b == 0#5) (.ctxsave q d a)
  | 5 => need (b == 0#5) (.ctxload q d a)
  | 6 => need (b == 0#5) (.glaunch q d a)
  | 7 => need (b == 0#5) (.bankcfg q d a)
  | 8 => some (.tlbinv q d a b)
  | 9 => some (.dump q d a b)
  | 10 => need (d == 0#5 && a == 0#5 && b == 0#5) (.halt q)
  | 11 => need (b == 0#5) (.svsend q d a)
  | _ => none

/-- The majors that may stand in a repeat frame (R103): 0x01-0x0B, 0x18-0x24 and 0x3A. -/
def decodeFrameRaw (w : IWord) : Option Instr :=
  let q := fld w 29 3
  let d := fld w 18 5
  let a := fld w 13 5
  let b := fld w 8 5
  let fn := fld w 0 8
  let sz := fld w 10 3
  let imm := fld w 0 10
  let imm13 := fld w 0 13
  match (fld w 23 6).toNat with
  | 0x01 => dec01 q d a b fn
  | 0x02 => dec02 q d a b fn
  | 0x03 => dec03 q d a b fn
  | 0x04 => dec04 q d a b fn
  | 0x05 => dec05 q d a imm13
  | 0x06 => dec06 q d a imm13
  | 0x07 => dec07 q d a imm13
  | 0x08 => dec08 q d a imm13
  | 0x09 => dec09 q d a sz imm
  | 0x0A => dec0A q d (fld w 0 18)
  | 0x0B => dec0B q d (fld w 16 2) (fld w 0 16)
  | 0x18 => dec18 q d a b fn
  | 0x19 => dec19 q d a b fn
  | 0x1A => dec1A q (fld w 20 3) (fld w 17 3) (fld w 14 3) (fld w 11 3) (fld w 6 5) (fld w 0 6)
  | 0x1B => dec1B q (fld w 20 3) (fld w 17 3) (fld w 14 3) (fld w 11 3) (fld w 6 5) (fld w 0 6)
  | 0x1C => dec1C q d a b fn
  | 0x1D => dec1D q d a b fn
  | 0x1E => dec1E q d a b fn
  | 0x20 => dec20 q d a b fn
  | 0x21 => dec21 q d a b fn
  | 0x22 => dec22 q (fld w 20 3) (fld w 16 4) (fld w 12 4) (fld w 9 3) (fld w 6 3) (fld w 3 3) (fld w 0 3)
  | 0x23 => dec23 q d a b fn
  | 0x24 => dec24 q d a b fn
  | 0x3A => dec3A q (fld w 21 2) (fld w 16 5) (fld w 11 5) (fld w 8 3) (fld w 5 3) (fld w 1 4) (fld w 0 1)
  | _ => none

/-- The other majors of Table 2.14. -/
noncomputable def decodeRestRaw (w : IWord) : Option Instr :=
  let q := fld w 29 3
  let d := fld w 18 5
  let a := fld w 13 5
  let b := fld w 8 5
  let fn := fld w 0 8
  let sz := fld w 10 3
  let imm := fld w 0 10
  let imm13 := fld w 0 13
  match (fld w 23 6).toNat with
  | 0x0C => dec0C q (fld w 20 3) (fld w 17 3) (fld w 14 3) (fld w 11 3) (fld w 6 5) (fld w 0 6)
  | 0x0D => dec0D q (fld w 20 3) (fld w 17 3) (fld w 14 3) (fld w 11 3) (fld w 6 5) (fld w 0 6)
  | 0x0E => dec0E q d a imm13
  | 0x10 => dec10 q (fld w 22 1) (fld w 0 22)
  | 0x11 => dec11 q (fld w 22 1) (fld w 0 22)
  | 0x12 => dec12 q d a b fn
  | 0x13 => dec13 q d a imm13
  | 0x14 => dec14 q (fld w 17 6) (fld w 13 4) (fld w 10 3) (fld w 7 3) (fld w 0 7)
  | 0x15 => dec15 q d a b fn
  | 0x16 => dec16 q d a b fn
  | 0x28 => dec28 q d a sz imm
  | 0x29 => dec29 q d a sz imm
  | 0x2A => dec2A q d a sz imm
  | 0x2B => dec2B q d a sz imm
  | 0x2C => dec2C q d a sz imm
  | 0x2D => dec2D q d a sz imm
  | 0x2E => dec2E q d a b fn
  | 0x30 => dec30 q d a b fn
  | 0x31 => dec31 q d a b fn
  | 0x32 => dec32 q d a b fn
  | 0x34 => dec34 q d a b fn
  | 0x35 => dec35 q d a b fn
  | 0x36 => dec36 q d a b fn
  | 0x37 => dec37 q d a b fn
  | 0x38 => dec38 q d a b fn
  | 0x3B => dec3B q d a b fn
  | 0x3C => dec3C q d a b fn
  | 0x3D => dec3D q d a b fn
  | 0x3E => dec3E q d a b fn
  | _ => none

/-- Whether a major may stand in a repeat frame (R103). -/
def frameMajor (w : IWord) : Bool :=
  let m := (fld w 23 6).toNat
  (0x01 ≤ m && m ≤ 0x0B) || (0x18 ≤ m && m ≤ 0x24) || m == 0x3A

/-- The instruction of a word by its major and minor (Table 2.14), before the combinations of fields are checked. -/
noncomputable def decodeRaw (w : IWord) : Option Instr :=
  if frameMajor w then decodeFrameRaw w else decodeRestRaw w

/-- Keep a decoded instruction when it is well formed (R66). -/
def keepWf : Option Instr → Option Instr
  | some i => if i.wf then some i else none
  | none => none

/-- The decoder on the words of a frame: none when the word is not defined or may not stand in a frame (R103). -/
def decodeFrameWord (w : IWord) : Option Instr := if frameMajor w then keepWf (decodeFrameRaw w) else none

/-- The decoder: the instruction a word stands for, or none when the word is not defined (R66). -/
noncomputable def decodeWord (w : IWord) : Option Instr := keepWf (decodeRaw w)

/-- The decoder on bytes: an instruction word is 32 bits, little-endian (R61). The rest of the bytes comes back. -/
noncomputable def decodeBytes : List Byte → Option (Instr × List Byte)
  | b0 :: b1 :: b2 :: b3 :: rest => (decodeWord (b3 ++ b2 ++ b1 ++ b0)).map (fun i => (i, rest))
  | _ => none

/-- The instruction read from the bits of an opcode-table row: bit 0 is the least significant bit of the word. -/
noncomputable def decodeTableWord (nbits w : Nat) : Option Instr :=
  if nbits ≤ 32 then
    let v : IWord := BitVec.ofNat 32 (w % 2 ^ nbits)
    (decodeBytes [v.extractLsb' 0 8, v.extractLsb' 8 8, v.extractLsb' 16 8, v.extractLsb' 24 8]).map Prod.fst
  else none

/-- The word of an instruction (Tables 2.10-2.14). A step of the machine has no word; it is answered by the all-zero
word, which is not defined (R66). -/
def encode : Instr → IWord
  | .add q d a b => joinR q 1#6 d a b 0#8
  | .sub q d a b => joinR q 1#6 d a b 1#8
  | .and q d a b => joinR q 1#6 d a b 2#8
  | .or q d a b => joinR q 1#6 d a b 3#8
  | .xor q d a b => joinR q 1#6 d a b 4#8
  | .andn q d a b => joinR q 1#6 d a b 5#8
  | .sll q d a b => joinR q 1#6 d a b 6#8
  | .srl q d a b => joinR q 1#6 d a b 7#8
  | .sra q d a b => joinR q 1#6 d a b 8#8
  | .rotr q d a b => joinR q 1#6 d a b 9#8
  | .addw q d a b => joinR q 1#6 d a b 10#8
  | .subw q d a b => joinR q 1#6 d a b 11#8
  | .sllw q d a b => joinR q 1#6 d a b 12#8
  | .srlw q d a b => joinR q 1#6 d a b 13#8
  | .sraw q d a b => joinR q 1#6 d a b 14#8
  | .min q d a b => joinR q 1#6 d a b 15#8
  | .max q d a b => joinR q 1#6 d a b 16#8
  | .minu q d a b => joinR q 1#6 d a b 17#8
  | .maxu q d a b => joinR q 1#6 d a b 18#8
  | .lea1 q d a b => joinR q 1#6 d a b 19#8
  | .lea2 q d a b => joinR q 1#6 d a b 20#8
  | .lea3 q d a b => joinR q 1#6 d a b 21#8
  | .mul q d a b => joinR q 2#6 d a b 0#8
  | .mulh q d a b => joinR q 2#6 d a b 1#8
  | .mulhu q d a b => joinR q 2#6 d a b 2#8
  | .mulw q d a b => joinR q 2#6 d a b 3#8
  | .div q d a b => joinR q 2#6 d a b 4#8
  | .divu q d a b => joinR q 2#6 d a b 5#8
  | .rem q d a b => joinR q 2#6 d a b 6#8
  | .remu q d a b => joinR q 2#6 d a b 7#8
  | .divw q d a b => joinR q 2#6 d a b 8#8
  | .divuw q d a b => joinR q 2#6 d a b 9#8
  | .remw q d a b => joinR q 2#6 d a b 10#8
  | .remuw q d a b => joinR q 2#6 d a b 11#8
  | .clz q d a => joinR q 3#6 d a 0#5 0#8
  | .ctz q d a => joinR q 3#6 d a 0#5 1#8
  | .popc q d a => joinR q 3#6 d a 0#5 2#8
  | .brev q d a => joinR q 3#6 d a 0#5 3#8
  | .bswap q d a => joinR q 3#6 d a 0#5 4#8
  | .sextb q d a => joinR q 3#6 d a 0#5 5#8
  | .sexth q d a => joinR q 3#6 d a 0#5 6#8
  | .sextw q d a => joinR q 3#6 d a 0#5 7#8
  | .zextb q d a => joinR q 3#6 d a 0#5 8#8
  | .zexth q d a => joinR q 3#6 d a 0#5 9#8
  | .zextw q d a => joinR q 3#6 d a 0#5 10#8
  | .exts q d a b => joinR q 3#6 d a b 11#8
  | .extu q d a b => joinR q 3#6 d a b 12#8
  | .insb q d a b => joinR q 3#6 d a b 13#8
  | .sel q d a b => joinR q 4#6 d a b 0#8
  | .pand q d a b => joinR q 4#6 (d.setWidth 5) (a.setWidth 5) (b.setWidth 5) 1#8
  | .por q d a b => joinR q 4#6 (d.setWidth 5) (a.setWidth 5) (b.setWidth 5) 2#8
  | .pxor q d a b => joinR q 4#6 (d.setWidth 5) (a.setWidth 5) (b.setWidth 5) 3#8
  | .pandn q d a b => joinR q 4#6 (d.setWidth 5) (a.setWidth 5) (b.setWidth 5) 4#8
  | .pmovx q d => joinR q 4#6 d 0#5 0#5 5#8
  | .xmovp q a => joinR q 4#6 0#5 a 0#5 6#8
  | .addi q d a imm => joinI q 5#6 d a imm
  | .andi q d a imm => joinI q 6#6 d a imm
  | .ori q d a imm => joinI q 7#6 d a imm
  | .xori q d a imm => joinI q 8#6 d a imm
  | .slli q d a sh => joinM q 9#6 d a 0#3 (sh.setWidth 10)
  | .srli q d a sh => joinM q 9#6 d a 1#3 (sh.setWidth 10)
  | .srai q d a sh => joinM q 9#6 d a 2#3 (sh.setWidth 10)
  | .rotri q d a sh => joinM q 9#6 d a 3#3 (sh.setWidth 10)
  | .slliw q d a sh => joinM q 9#6 d a 4#3 (sh.setWidth 10)
  | .srliw q d a sh => joinM q 9#6 d a 5#3 (sh.setWidth 10)
  | .sraiw q d a sh => joinM q 9#6 d a 6#3 (sh.setWidth 10)
  | .movi q d imm => joinL q 10#6 d imm
  | .movk q d hw imm => joinK q 11#6 d hw imm
  | .fadd q fmt d a b => joinR q 24#6 d a b (fmt ++ 0#6)
  | .fsub q fmt d a b => joinR q 24#6 d a b (fmt ++ 1#6)
  | .fmul q fmt d a b => joinR q 24#6 d a b (fmt ++ 2#6)
  | .fdiv q fmt d a b => joinR q 24#6 d a b (fmt ++ 3#6)
  | .fsqrt q fmt d a => joinR q 24#6 d a 0#5 (fmt ++ 4#6)
  | .fmin q fmt d a b => joinR q 24#6 d a b (fmt ++ 5#6)
  | .fmax q fmt d a b => joinR q 24#6 d a b (fmt ++ 6#6)
  | .fminn q fmt d a b => joinR q 24#6 d a b (fmt ++ 7#6)
  | .fmaxn q fmt d a b => joinR q 24#6 d a b (fmt ++ 8#6)
  | .fabs q fmt d a => joinR q 24#6 d a 0#5 (fmt ++ 9#6)
  | .fneg q fmt d a => joinR q 24#6 d a 0#5 (fmt ++ 10#6)
  | .fcpys q fmt d a b => joinR q 24#6 d a b (fmt ++ 11#6)
  | .fclass q fmt d a => joinR q 24#6 d a 0#5 (fmt ++ 12#6)
  | .fmvxf q fmt d a => joinR q 24#6 d a 0#5 (fmt ++ 13#6)
  | .fmvfx q fmt d a => joinR q 24#6 d a 0#5 (fmt ++ 14#6)
  | .fma q fmt rnd d a b => joinR q 25#6 d a b (fmt ++ 0#2 ++ 0#1 ++ rnd)
  | .fms q fmt rnd d a b => joinR q 25#6 d a b (fmt ++ 1#2 ++ 0#1 ++ rnd)
  | .fnma q fmt rnd d a b => joinR q 25#6 d a b (fmt ++ 2#2 ++ 0#1 ++ rnd)
  | .fnms q fmt rnd d a b => joinR q 25#6 d a b (fmt ++ 3#2 ++ 0#1 ++ rnd)
  | .fcmpd q pd1 pd2 ty cnd a b => joinC q 26#6 pd1 pd2 ty cnd a (b ++ 0#1)
  | .fcmps q pd1 pd2 ty cnd a b => joinC q 27#6 pd1 pd2 ty cnd a (b ++ 0#1)
  | .fcvt q dst src rnd d a => joinR q 28#6 d a (rnd.setWidth 5) (src ++ dst ++ 0#2)
  | .fexp2 q c d a => joinR q 29#6 d a 0#5 (c ++ 0#7)
  | .flog2 q c d a => joinR q 29#6 d a 0#5 (c ++ 1#7)
  | .fsinp q c d a => joinR q 29#6 d a 0#5 (c ++ 2#7)
  | .fcosp q c d a => joinR q 29#6 d a 0#5 (c ++ 3#7)
  | .frsq q c d a => joinR q 29#6 d a 0#5 (c ++ 4#7)
  | .frcp q c d a => joinR q 29#6 d a 0#5 (c ++ 5#7)
  | .ftanh q c d a => joinR q 29#6 d a 0#5 (c ++ 6#7)
  | .xclr q d => joinR q 30#6 (pairFld d) 0#5 0#5 0#8
  | .xaddv q d a b => joinR q 30#6 (pairFld d) (a.setWidth 5) (b.setWidth 5) 1#8
  | .xadds q d a b => joinR q 30#6 (pairFld d) a (b.setWidth 5) 2#8
  | .xaddx q d a => joinR q 30#6 (pairFld d) (pairFld a) 0#5 3#8
  | .xrnd q d a b => joinR q 30#6 d (pairFld a) (b.setWidth 5) 4#8
  | .xneg q d a => joinR q 30#6 (pairFld d) (pairFld a) 0#5 5#8
  | .vadd q t d a b k => joinR q 32#6 (t.extractLsb' 2 1 ++ d) (t.extractLsb' 1 1 ++ a) (t.extractLsb' 0 1 ++ b) (0#5 ++ k)
  | .vsub q t d a b k => joinR q 32#6 (t.extractLsb' 2 1 ++ d) (t.extractLsb' 1 1 ++ a) (t.extractLsb' 0 1 ++ b) (1#5 ++ k)
  | .vmul q t d a b k => joinR q 32#6 (t.extractLsb' 2 1 ++ d) (t.extractLsb' 1 1 ++ a) (t.extractLsb' 0 1 ++ b) (2#5 ++ k)
  | .vfma q t d a b k => joinR q 32#6 (t.extractLsb' 2 1 ++ d) (t.extractLsb' 1 1 ++ a) (t.extractLsb' 0 1 ++ b) (3#5 ++ k)
  | .vdiv q t d a b k => joinR q 32#6 (t.extractLsb' 2 1 ++ d) (t.extractLsb' 1 1 ++ a) (t.extractLsb' 0 1 ++ b) (4#5 ++ k)
  | .vsqrt q t d a k => joinR q 32#6 (t.extractLsb' 2 1 ++ d) (t.extractLsb' 1 1 ++ a) (t.extractLsb' 0 1 ++ 0#4) (5#5 ++ k)
  | .vmin q t d a b k => joinR q 32#6 (t.extractLsb' 2 1 ++ d) (t.extractLsb' 1 1 ++ a) (t.extractLsb' 0 1 ++ b) (6#5 ++ k)
  | .vmax q t d a b k => joinR q 32#6 (t.extractLsb' 2 1 ++ d) (t.extractLsb' 1 1 ++ a) (t.extractLsb' 0 1 ++ b) (7#5 ++ k)
  | .vminu q t d a b k => joinR q 32#6 (t.extractLsb' 2 1 ++ d) (t.extractLsb' 1 1 ++ a) (t.extractLsb' 0 1 ++ b) (8#5 ++ k)
  | .vmaxu q t d a b k => joinR q 32#6 (t.extractLsb' 2 1 ++ d) (t.extractLsb' 1 1 ++ a) (t.extractLsb' 0 1 ++ b) (9#5 ++ k)
  | .vabs q t d a k => joinR q 32#6 (t.extractLsb' 2 1 ++ d) (t.extractLsb' 1 1 ++ a) (t.extractLsb' 0 1 ++ 0#4) (10#5 ++ k)
  | .vneg q t d a k => joinR q 32#6 (t.extractLsb' 2 1 ++ d) (t.extractLsb' 1 1 ++ a) (t.extractLsb' 0 1 ++ 0#4) (11#5 ++ k)
  | .vand q t d a b k => joinR q 32#6 (t.extractLsb' 2 1 ++ d) (t.extractLsb' 1 1 ++ a) (t.extractLsb' 0 1 ++ b) (12#5 ++ k)
  | .vor q t d a b k => joinR q 32#6 (t.extractLsb' 2 1 ++ d) (t.extractLsb' 1 1 ++ a) (t.extractLsb' 0 1 ++ b) (13#5 ++ k)
  | .vxor q t d a b k => joinR q 32#6 (t.extractLsb' 2 1 ++ d) (t.extractLsb' 1 1 ++ a) (t.extractLsb' 0 1 ++ b) (14#5 ++ k)
  | .vshl q t d a b k => joinR q 32#6 (t.extractLsb' 2 1 ++ d) (t.extractLsb' 1 1 ++ a) (t.extractLsb' 0 1 ++ b) (15#5 ++ k)
  | .vshra q t d a b k => joinR q 32#6 (t.extractLsb' 2 1 ++ d) (t.extractLsb' 1 1 ++ a) (t.extractLsb' 0 1 ++ b) (16#5 ++ k)
  | .vshrl q t d a b k => joinR q 32#6 (t.extractLsb' 2 1 ++ d) (t.extractLsb' 1 1 ++ a) (t.extractLsb' 0 1 ++ b) (17#5 ++ k)
  | .vsel q t d a b k => joinR q 32#6 (t.extractLsb' 2 1 ++ d) (t.extractLsb' 1 1 ++ a) (t.extractLsb' 0 1 ++ b) (18#5 ++ k)
  | .vmov q t d a k => joinR q 32#6 (t.extractLsb' 2 1 ++ d) (t.extractLsb' 1 1 ++ a) (t.extractLsb' 0 1 ++ 0#4) (19#5 ++ k)
  | .vbcast q t d a k => joinR q 33#6 (d.setWidth 5) a (k.setWidth 5) (t ++ 0#2 ++ 0#3)
  | .vext q t zx d a b => joinR q 33#6 d (a.setWidth 5) b (t ++ 0#1 ++ zx ++ 1#3)
  | .vins q t d a b => joinR q 33#6 (d.setWidth 5) a b (t ++ 0#2 ++ 2#3)
  | .vperm q t d a b => joinR q 33#6 (d.setWidth 5) (a.setWidth 5) (b.setWidth 5) (t ++ 0#2 ++ 3#3)
  | .vreds q t d a k => joinR q 33#6 d (a.setWidth 5) (k.setWidth 5) (t ++ 0#2 ++ 4#3)
  | .vredn q t var d a k => joinR q 33#6 d (a.setWidth 5) (k.setWidth 5) (t ++ var ++ 5#3)
  | .vredx q t d a k => joinR q 33#6 (pairFld d) (a.setWidth 5) (k.setWidth 5) (t ++ 0#2 ++ 6#3)
  | .vcvt q dst part src d a => joinR q 33#6 (d.setWidth 5) (a.setWidth 5) (src.setWidth 5) (dst ++ part ++ 7#3)
  | .vcmp q kd a b t cnd kg => joinVC q 34#6 kd a b t cnd kg 0#3
  | .kand q d a b => joinR q 35#6 (d.setWidth 5) (a.setWidth 5) (b.setWidth 5) 0#8
  | .kor q d a b => joinR q 35#6 (d.setWidth 5) (a.setWidth 5) (b.setWidth 5) 1#8
  | .kxor q d a b => joinR q 35#6 (d.setWidth 5) (a.setWidth 5) (b.setWidth 5) 2#8
  | .knot q d a => joinR q 35#6 (d.setWidth 5) (a.setWidth 5) 0#5 3#8
  | .kset q d a => joinR q 35#6 (d.setWidth 5) a 0#5 4#8
  | .kget q d a => joinR q 35#6 d (a.setWidth 5) 0#5 5#8
  | .kpop q d a => joinR q 35#6 d (a.setWidth 5) 0#5 6#8
  | .ktest q d a b => joinR q 35#6 (d.setWidth 5) (a.setWidth 5) (b.setWidth 5) 7#8
  | .vqnt q d g fm b => joinR q 36#6 (d.setWidth 5) (g ++ fm) b 0#8
  | .vdqnt q g fm a b => joinR q 36#6 (g ++ fm) (a.setWidth 5) b 1#8
  | .mma q acc a m fA fB s => joinX q 58#6 acc a m fA fB (s.setWidth 4) 0#1
  | .mmaz q acc a m fA fB s => joinX q 58#6 acc a m fA fB (s.setWidth 4) 1#1
  | .cmp q pd1 pd2 ty cnd a b => joinC q 12#6 pd1 pd2 ty cnd a (b ++ 0#1)
  | .cmpi q pd1 pd2 ty cnd a imm => joinC q 13#6 pd1 pd2 ty cnd a imm
  | .gets q d num => joinI q 14#6 d 0#5 (0#1 ++ num)
  | .puts q num a => joinI q 14#6 0#5 a (1#1 ++ num)
  | .br q h disp => joinB q 16#6 h disp
  | .brl q h disp => joinB q 17#6 h disp
  | .jr q h a => joinR q 18#6 0#5 a 0#5 (h ++ 0#7)
  | .jrl q h d a => joinR q 18#6 d a 0#5 (h ++ 1#7)
  | .bdec q d imm => joinI q 19#6 d 0#5 imm
  | .rpt q n len stag mask => joinP q 20#6 n len stag mask 0#7
  | .hstart q d a b => joinR q 21#6 d a b 0#8
  | .hend q a => joinR q 21#6 0#5 a 0#5 1#8
  | .hjoin q d a => joinR q 21#6 d a 0#5 2#8
  | .hstat q d a => joinR q 21#6 d a 0#5 3#8
  | .hkill q d a => joinR q 21#6 d a 0#5 4#8
  | .iflush q => joinR q 22#6 0#5 0#5 0#5 0#8
  | .ldb q d a imm => joinM q 40#6 d a 0#3 imm
  | .ldh q d a imm => joinM q 40#6 d a 1#3 imm
  | .ldw q d a imm => joinM q 40#6 d a 2#3 imm
  | .ldd q d a imm => joinM q 40#6 d a 3#3 imm
  | .ldbu q d a imm => joinM q 40#6 d a 4#3 imm
  | .ldhu q d a imm => joinM q 40#6 d a 5#3 imm
  | .ldwu q d a imm => joinM q 40#6 d a 6#3 imm
  | .stb q d a imm => joinM q 41#6 d a 0#3 imm
  | .sth q d a imm => joinM q 41#6 d a 1#3 imm
  | .stw q d a imm => joinM q 41#6 d a 2#3 imm
  | .std q d a imm => joinM q 41#6 d a 3#3 imm
  | .fldh q d a imm => joinM q 42#6 d a 0#3 imm
  | .fldw q d a imm => joinM q 42#6 d a 1#3 imm
  | .fldd q d a imm => joinM q 42#6 d a 2#3 imm
  | .fsth q d a imm => joinM q 42#6 d a 4#3 imm
  | .fstw q d a imm => joinM q 42#6 d a 5#3 imm
  | .fstd q d a imm => joinM q 42#6 d a 6#3 imm
  | .vld q d a k imm => joinM q 43#6 (0#1 ++ d) a k imm
  | .vst q d a k imm => joinM q 43#6 (1#1 ++ d) a k imm
  | .ldf q d a imm => joinM q 44#6 d a 0#3 imm
  | .ldfc q d a imm => joinM q 44#6 d a 1#3 imm
  | .stf q d a imm => joinM q 44#6 d a 2#3 imm
  | .fesete q a imm => joinM q 44#6 0#5 a 3#3 imm
  | .fesetf q a imm => joinM q 44#6 0#5 a 4#3 imm
  | .feget q d a imm => joinM q 44#6 d a 5#3 imm
  | .lda q d a imm => joinM q 45#6 d a 0#3 imm
  | .stl q d a imm => joinM q 45#6 d a 1#3 imm
  | .fence q => joinM q 45#6 0#5 0#5 2#3 0#10
  | .pref q d a imm => joinM q 45#6 (d.setWidth 5) a 3#3 imm
  | .cwb q a imm => joinM q 45#6 0#5 a 4#3 imm
  | .cinv q a imm => joinM q 45#6 0#5 a 5#3 imm
  | .vlds q d a b sz k => joinR q 46#6 (0#1 ++ d) a b (0#3 ++ sz ++ k)
  | .vsts q d a b sz k => joinR q 46#6 (1#1 ++ d) a b (0#3 ++ sz ++ k)
  | .aadd q sz ord d a b => joinR q 48#6 d a b (0#4 ++ sz ++ ord ++ 0#1)
  | .aand q sz ord d a b => joinR q 48#6 d a b (1#4 ++ sz ++ ord ++ 0#1)
  | .aor q sz ord d a b => joinR q 48#6 d a b (2#4 ++ sz ++ ord ++ 0#1)
  | .axor q sz ord d a b => joinR q 48#6 d a b (3#4 ++ sz ++ ord ++ 0#1)
  | .amin q sz ord d a b => joinR q 48#6 d a b (4#4 ++ sz ++ ord ++ 0#1)
  | .amax q sz ord d a b => joinR q 48#6 d a b (5#4 ++ sz ++ ord ++ 0#1)
  | .aminu q sz ord d a b => joinR q 48#6 d a b (6#4 ++ sz ++ ord ++ 0#1)
  | .amaxu q sz ord d a b => joinR q 48#6 d a b (7#4 ++ sz ++ ord ++ 0#1)
  | .aswp q sz ord d a b => joinR q 48#6 d a b (8#4 ++ sz ++ ord ++ 0#1)
  | .afadd q sz ord d a b => joinR q 48#6 d a b (9#4 ++ sz ++ ord ++ 0#1)
  | .acas q sz ord d a b => joinR q 48#6 d a b (10#4 ++ sz ++ ord ++ 0#1)
  | .acas2 q ord d a b => joinR q 48#6 (evenFld d) a (evenFld b) (11#4 ++ 1#1 ++ ord ++ 0#1)
  | .monarm q d a idx => joinR q 49#6 d a (idx.setWidth 5) 0#8
  | .mondis q idx => joinR q 49#6 0#5 0#5 (idx.setWidth 5) 1#8
  | .waitm q d a => joinR q 49#6 d a 0#5 2#8
  | .monst q d => joinR q 49#6 d 0#5 0#5 3#8
  | .bararr q a b => joinR q 50#6 0#5 a b 0#8
  | .barwait q b => joinR q 50#6 0#5 0#5 b 1#8
  | .barsync q a b => joinR q 50#6 0#5 a b 2#8
  | .bardef q a b => joinR q 50#6 0#5 a b 3#8
  | .barst q d b => joinR q 50#6 d 0#5 b 4#8
  | .chopen q d a => joinR q 52#6 d a 0#5 0#8
  | .chclose q a => joinR q 52#6 0#5 a 0#5 1#8
  | .chinfo q d a => joinR q 52#6 d a 0#5 2#8
  | .send q d a b => joinR q 53#6 d a b 0#8
  | .sendr q d a b => joinR q 53#6 d a b 1#8
  | .sendv q d b => joinR q 53#6 d 0#5 (b.setWidth 5) 2#8
  | .sendvr q d b => joinR q 53#6 d 0#5 (b.setWidth 5) 3#8
  | .sendw q d b => joinR q 53#6 d 0#5 b 4#8
  | .sendwr q d b => joinR q 53#6 d 0#5 b 5#8
  | .precv q d a => joinR q 54#6 d a 0#5 0#8
  | .pcancel q d a => joinR q 54#6 d a 0#5 1#8
  | .probe q d a => joinR q 54#6 d a 0#5 2#8
  | .uqtake q d a => joinR q 54#6 d a 0#5 3#8
  | .ctrget q d a => joinR q 55#6 d a 0#5 0#8
  | .ctrset q a b => joinR q 55#6 0#5 a b 1#8
  | .ctradd q d a b => joinR q 55#6 d a b 2#8
  | .ctrwait q d a b => joinR q 55#6 d a b 3#8
  | .ttset q d a => joinR q 55#6 d a 0#5 4#8
  | .ttclr q d a => joinR q 55#6 d a 0#5 5#8
  | .spawn q d a b => joinR q 56#6 d a b 0#8
  | .spawnw q d a b => joinR q 56#6 d a b 1#8
  | .take q d => joinR q 56#6 d 0#5 0#5 2#8
  | .steal q d a => joinR q 56#6 d a 0#5 3#8
  | .trun q d a => joinR q 56#6 d a 0#5 4#8
  | .tprio q d a b => joinR q 56#6 d a b 5#8
  | .mldb q a => joinR q 59#6 0#5 a 0#5 0#8
  | .mpass q a => joinR q 59#6 0#5 a 0#5 1#8
  | .mpop q d => joinR q 59#6 d 0#5 0#5 2#8
  | .mlda q d a => joinR q 59#6 (d.setWidth 5) a 0#5 3#8
  | .msta q fm acc a b => joinR q 59#6 (fm ++ acc) a b 4#8
  | .mclr q d => joinR q 59#6 (d.setWidth 5) 0#5 0#5 5#8
  | .mburst q a => joinR q 59#6 0#5 a 0#5 6#8
  | .mstat q d => joinR q 59#6 d 0#5 0#5 7#8
  | .cppush q d a => joinR q 60#6 d a 0#5 0#8
  | .cppushb q d a => joinR q 60#6 d a 0#5 1#8
  | .cpwait q d a => joinR q 60#6 d a 0#5 2#8
  | .cpstat q d a => joinR q 60#6 d a 0#5 3#8
  | .cpabort q d a => joinR q 60#6 d a 0#5 4#8
  | .posget q d => joinR q 61#6 d 0#5 0#5 0#8
  | .lidget q d a => joinR q 61#6 d a 0#5 1#8
  | .whereLid q d a => joinR q 61#6 d a 0#5 2#8
  | .anchor q d => joinR q 61#6 d 0#5 0#5 3#8
  | .unanchor q d => joinR q 61#6 d 0#5 0#5 4#8
  | .migreq q d a => joinR q 61#6 d a 0#5 5#8
  | .chtraf q d a => joinR q 61#6 d a 0#5 6#8
  | .annget q d a => joinR q 61#6 d a 0#5 7#8
  | .annset q d a b => joinR q 61#6 d a b 8#8
  | .sysc q a => joinR q 62#6 0#5 a 0#5 0#8
  | .brk q b => joinR q 62#6 0#5 0#5 b 1#8
  | .tret q d a b => joinR q 62#6 d a b 2#8
  | .trget q d a => joinR q 62#6 d a 0#5 3#8
  | .ctxsave q d a => joinR q 62#6 d a 0#5 4#8
  | .ctxload q d a => joinR q 62#6 d a 0#5 5#8
  | .glaunch q d a => joinR q 62#6 d a 0#5 6#8
  | .bankcfg q d a => joinR q 62#6 d a 0#5 7#8
  | .tlbinv q d a b => joinR q 62#6 d a b 8#8
  | .dump q d a b => joinR q 62#6 d a b 9#8
  | .halt q => joinR q 62#6 0#5 0#5 0#5 10#8
  | .svsend q d a => joinR q 62#6 d a 0#5 11#8
  | _ => 0#32

end Sys2Proof
end

