-- ==== Sys2Proof/Machine/Control.lean ====
section
/-! DEFINITION. Compares, branches, repeat frames and IFLUSH (spec 04). -/

namespace Sys2Proof.Machine

/-! ### Compares (R92-R96) -/

/-- The integer conditions (R93, Table 4.2). -/
def intCond (cnd : BitVec 3) (a b : Word) : Bool :=
  match cnd.toNat with
  | 0 => a == b
  | 1 => a != b
  | 2 => a.slt b
  | 3 => !a.slt b
  | 4 => a.ult b
  | 5 => !a.ult b
  | 6 => (a &&& b) != 0
  | _ => (a &&& b) == 0

/-- What a compare writes to its two predicates (R94), from the guard `g`, the condition `c` and the old values. -/
def combine (ty : BitVec 3) (g c o1 o2 : Bool) : Option (Bool × Bool) :=
  match ty.toNat with
  | 0 => if g then some (c, !c) else none
  | 1 => some (g && c, g && !c)
  | 2 => if g && !c then some (false, false) else none
  | 3 => if g && c then some (true, true) else none
  | 4 => if g && c then some (false, false) else none
  | 5 => if g && !c then some (true, true) else none
  | 6 => if g then some (o1 && c, o2 || c) else none
  | _ => if g then some (o1 || c, o2 ^^ c) else none

/-- The predicates after a compare (R94): the write to pd2 is the one that stands. -/
def Thread.combined (t : Thread) (q pd1 pd2 ty : BitVec 3) (c : Bool) : Thread :=
  match combine ty (t.rp q) c (t.rp pd1) (t.rp pd2) with
  | some (n1, n2) => (t.wp pd1 n1).wp pd2 n2
  | none => t

/-- A compare: its guard is an input of the combine type (R60, R94). -/
def State.compare (s : State) (q pd1 pd2 ty : BitVec 3) (c : Bool) : Out :=
  (s.setThr (s.thr.combined q pd1 pd2 ty c)).retire

/-- CMP (R92-R95). -/
def execCmp (q pd1 pd2 ty cnd : BitVec 3) (a b : BitVec 5) (s : State) : Out :=
  s.compare q pd1 pd2 ty (intCond cnd (s.rx a) (s.rx b))

/-- CMPI (R92-R95). -/
def execCmpi (q pd1 pd2 ty cnd : BitVec 3) (a : BitVec 5) (imm : BitVec 6) (s : State) : Out :=
  s.compare q pd1 pd2 ty (intCond cnd (s.rx a) (imm6Val imm))

/-! ### Branches (R97-R100) -/

/-- The thread goes on at `target`; fetch had been steered to `steered` (none: nowhere), and a wrong steer costs one turn
(R100, Table 4.3). -/
def Thread.goTo (t : Thread) (target : Word) (steered : Option Word) : Thread :=
  { t.issued with pc := target, lost := if steered = some target then 0 else 1 }

/-- Push a return address: four entries, the oldest dropped (R100). -/
def Thread.pushRet (t : Thread) (pc : Word) : Thread := { t with rstack := (pc :: t.rstack).take 4 }

/-- A branch under its guard: a false guard goes to PC + 4 (R91, Table 4.3). -/
def branch (q : BitVec 3) (steered : Option Word) (s : State) (body : Thread → Out) : Out :=
  if s.rp q then body s.thr else .next (s.setThr (s.thr.goTo (s.thr.pc + 4) steered))

/-- Where the hint of BR and BRL steers fetch (R100). -/
def steerB (h : BitVec 1) (pc : Word) (disp : BitVec 22) : Option Word :=
  some (if h = 1#1 then target22 pc disp else pc + 4)

/-- BR (R97). -/
def execBr (q : BitVec 3) (h : BitVec 1) (disp : BitVec 22) (s : State) : Out :=
  branch q (steerB h s.thr.pc disp) s (fun t =>
    .next (s.setThr (t.goTo (target22 t.pc disp) (steerB h t.pc disp))))

/-- BRL: links to x1 (R97). -/
def execBrl (q : BitVec 3) (h : BitVec 1) (disp : BitVec 22) (s : State) : Out :=
  branch q (steerB h s.thr.pc disp) s (fun t =>
    .next (s.setThr ((((t.wx 1#5 (t.pc + 4)).pushRet (t.pc + 4))).goTo (target22 t.pc disp) (steerB h t.pc disp))))

/-- Where the hint of JR and JRL steers fetch: the top of the return stack, or nowhere (R100). -/
def steerJ (h : BitVec 1) (t : Thread) : Option Word := if h = 1#1 then t.rstack.head? else none

/-- The return stack after a hinted JR or JRL has popped (R100). -/
def Thread.popRet (t : Thread) (h : BitVec 1) : Thread := if h = 1#1 then { t with rstack := t.rstack.tail } else t

/-- Where fetch goes for a JR or JRL whose guard is false (Table 4.3): with fn[7] = 1 to the top of the return stack, or nowhere where the
stack is empty; with fn[7] = 0 nothing steers it from PC + 4 (log entry 16). -/
def steerJFalse (h : BitVec 1) (t : Thread) : Option Word := if h = 1#1 then t.rstack.head? else some (t.pc + 4)

/-- JR (R61, R98). -/
def execJr (q : BitVec 3) (h : BitVec 1) (a : BitVec 5) (s : State) : Out :=
  branch q (steerJFalse h s.thr) s (fun t =>
    let tgt := t.rx a
    if tgt.extractLsb' 0 2 ≠ 0 then s.takeTrap .misalign tgt
    else .next (s.setThr ((t.popRet h).goTo tgt (steerJ h t))))

/-- JRL (R61, R98): the target is read before the link is written; a hinted JRL pops before it pushes (R100). -/
def execJrl (q : BitVec 3) (h : BitVec 1) (d a : BitVec 5) (s : State) : Out :=
  branch q (steerJFalse h s.thr) s (fun t =>
    let tgt := t.rx a
    if tgt.extractLsb' 0 2 ≠ 0 then s.takeTrap .misalign tgt
    else .next (s.setThr ((((t.popRet h).pushRet (t.pc + 4)).wx d (t.pc + 4)).goTo tgt (steerJ h t))))

/-- Where fetch is steered for BDEC: as if the hint were taken for imm13 ≤ 0 (R99). -/
def steerD (pc : Word) (imm : BitVec 13) : Option Word := some (if imm.toInt ≤ 0 then target13 pc imm else pc + 4)

/-- BDEC (R99). -/
def execBdec (q : BitVec 3) (d : BitVec 5) (imm : BitVec 13) (s : State) : Out :=
  branch q (steerD s.thr.pc imm) s (fun t =>
    let v := t.rx d - 1
    .next (s.setThr ((t.wx d v).goTo (if v ≠ 0 then target13 t.pc imm else t.pc + 4) (steerD t.pc imm))))

/-! ### Repeat frames (R102-R107) -/

/-- The answer of capturing words. -/
inductive Capture where
  | ok (ws : List IWord)
  | trap (t : Trap) (addr : Word)
  | miss (addr : Word)
  | busy (cl b : Nat)
  deriving DecidableEq, Repr

/-- Fetch and test `n` words from an address on, in order; the first that fails decides (R103). The frame keeps the words; that they do
not enter the instruction cache is the model's choice (log entry 63). -/
def captureFrom (s : State) (sv : Bool) : Nat → Word → Nat → Capture
  | 0, _, _ => .ok []
  | n + 1, pc, i =>
    match s.fetch sv pc i with
    | .miss => .miss pc
    | .busy cl b => .busy cl b
    | .fault t => .trap t pc
    | .word w _ =>
      match decodeFrameWord w with
      | none => .trap .illegal 0
      | some _ =>
        match captureFrom s sv n (pc + 4) (i + 1) with
        | .ok ws => .ok (w :: ws)
        | r => r

/-- The words that a frame at `base` captures. -/
def State.capture (s : State) (base : Word) (len : Nat) : Capture :=
  captureFrom s (s.slot.val == 11) (len + 1) (base + 4) 1

/-- RPT (R103, R104): the words are captured in the turn of the RPT, and the frame opens with its PC at the RPT. -/
def execRpt (q : BitVec 3) (n : BitVec 6) (len : BitVec 4) (stag mask : BitVec 3) (s : State) : Out :=
  guarded q s (fun s =>
    match s.capture s.thr.pc len.toNat with
    | .miss a => s.startWalk a
    | .busy cl b => .next (s.parkRetry (.bank cl b))
    | .trap t a => s.takeTrap t a
    | .ok ws =>
      .next (s.setThr { s.thr.issued with
        frame := some { base := s.thr.pc, pass := 0, posn := 0, n := n.toNat, len := len.toNat, stag := stag.toNat,
                        mask := mask, words := ws, retest := false } }))

/-- The word that a frame executes at its cursor (R104). -/
def Frame.word (f : Frame) : IWord := stepWord ((f.words[f.posn]?).getD 0) f.mask (f.pass * f.stag)

/-! ### IFLUSH (R108) -/

/-- IFLUSH: waits for the thread's stores, then empties the core's instruction cache. -/
def execIflush (q : BitVec 3) (s : State) : Out :=
  guarded q s (fun s =>
    if s.thr.storeQ = [] then s.dropICache.retire
    else .next (s.park .iflush))

end Sys2Proof.Machine
end

