-- ==== Sys2Proof/Machine/FpFn.lean ====
section
/-! DEFINITION. The transcendental functions of FTR (R127-R129): special and exact cases, and elsewhere the function value
to 640 fractional bits, from which one rounding is made (log entry 6). -/

namespace Sys2Proof.Machine

/-- Fractional bits of the fixed-point values of this file. -/
def fxP : Nat := 640

/-- One in fixed point. -/
def fxOne : Int := 2 ^ fxP

/-- Product of fixed-point values, rounded down. -/
def fxMul (a b : Int) : Int := (a * b) / 2 ^ fxP

/-- Sum of z^(2k+1) / (2k+1) for the first `n` terms: `pw` is the power reached, `z2` the square. -/
def atanhSum : Nat → Nat → Int → Int → Int
  | 0, _, _, _ => 0
  | n + 1, k, pw, z2 => pw / (2 * k + 1 : Nat) + atanhSum n (k + 1) (fxMul pw z2) z2

/-- Natural logarithm of (1 + z) / (1 - z) for 0 ≤ z ≤ 1/3. -/
def fxLogRatio (z : Int) : Int := 2 * atanhSum 210 0 z (fxMul z z)

/-- ln 2. -/
def fxLn2 : Int := fxLogRatio (fxOne / 3)

/-- Alternating sum for the arctangent of 1 / d. -/
def atanSum : Nat → Nat → Int → Int → Int
  | 0, _, _, _ => 0
  | n + 1, k, pw, d2 => pw / (2 * k + 1 : Nat) - atanSum n (k + 1) (pw / d2) d2

/-- π, by Machin's formula. -/
def fxPi : Int := 16 * atanSum 150 0 (fxOne / 5) 25 - 4 * atanSum 50 0 (fxOne / 239) (239 * 239)

/-- Sum of x^k / k! from term `k` on, `term` the term reached. -/
def expSum : Nat → Nat → Int → Int → Int
  | 0, _, _, _ => 0
  | n + 1, k, term, x => term + expSum n (k + 1) (fxMul term x / (k + 1 : Nat)) x

/-- e^x for 0 ≤ x < 1. -/
def fxExp (x : Int) : Int := expSum 130 0 fxOne x

/-- Alternating Taylor sum: the term reached is `term`, the next is term · x² / ((k+1)(k+2)). -/
def sinSum : Nat → Nat → Int → Int → Int
  | 0, _, _, _ => 0
  | n + 1, k, term, x2 => term - sinSum n (k + 2) (fxMul term x2 / ((k + 1) * (k + 2) : Nat)) x2

/-- sin x for 0 ≤ x ≤ π/2. -/
def fxSin (x : Int) : Int := sinSum 80 1 x (fxMul x x)
/-- cos x for 0 ≤ x ≤ π/2. -/
def fxCos (x : Int) : Int := sinSum 80 0 fxOne (fxMul x x)

/-- A finite value in fixed point, toward minus infinity; exact when its lowest bit is not below 2^-640. -/
def fxOf (neg : Bool) (m : Nat) (e : Int) : Int :=
  let a : Int := if 0 ≤ e + fxP then (m * 2 ^ (e + fxP).toNat : Nat) else (m / 2 ^ (-(e + fxP)).toNat : Nat)
  if neg then -a else a

/-- A fixed-point value that stands for an irrational one: its last bit set, so that no rounding takes it as exact. -/
def fvIrr (neg : Bool) (a : Int) : FV := .fin neg (2 * a.natAbs + 1) (-(fxP + 1 : Nat))

/-- The result of a function: a special or exact case of Table 5.11 with its flags, or a value to be rounded. -/
inductive FnRes where
  | exact (code : Nat) (f : FFlags)
  | value (v : FV)

/-- The code of ± 2^n in FP32, n in the range of normal and subnormal numbers. -/
def pow2Code (neg : Bool) (n : Int) : Nat := (fp32.roundFin 0 false neg 1 n).1

/-- 2^x (Table 5.11). -/
def fnExp2 (ftz : Bool) (n : Bool) (m : Nat) (e : Int) : FnRes :=
  if m = 0 then .exact 0x3F800000 0
  else if 9 ≤ topExp m e then .value (.fin false 3 (if n then -1000 else 1000))
  else
    let x := fxOf n m e
    let k := x / fxOne
    let f := x - k * fxOne
    if f = 0 ∧ -149 ≤ k ∧ k ≤ 127 then
      if k < -126 ∧ ftz then .exact 0 (fUF ||| fNX) else .exact (pow2Code false k) 0
    else if f = 0 then .value (.fin false 1 k)
    else
      match fvIrr false (fxExp (fxMul f fxLn2)) with
      | .fin _ m1 e1 => .value (.fin false m1 (e1 + k))
      | v => .value v

/-- Odd part and exponent of a magnitude. -/
def oddPart : Nat → Nat → Int → Nat × Int
  | 0, m, e => (m, e)
  | k + 1, m, e => if m % 2 = 0 ∧ m ≠ 0 then oddPart k (m / 2) (e + 1) else (m, e)

/-- log2 x of a positive value (Table 5.11). -/
def fnLog2 (n : Bool) (m : Nat) (e : Int) : FnRes :=
  if m = 0 then .exact (0xFF800000) fDZ
  else if n then .exact fp32.qnan fNV
  else
    let o := oddPart 64 m e
    if o.1 = 1 then .exact (fp32.roundFin 0 false (decide (o.2 < 0)) o.2.natAbs 0).1 0
    else
      let top := topExp m e
      let mant : Int := (m * 2 ^ fxP / 2 ^ Nat.log2 m : Nat)
      let ln := fxLogRatio ((mant - fxOne) * fxOne / (mant + fxOne))
      let v := top * fxOne + ln * fxOne / fxLn2
      .value (fvIrr (decide (v < 0)) v)

/-- The position of |x| modulo 2 in fixed point, for values below 2^23; x is n + r with r in [0, 1). -/
def fxMod2 (m : Nat) (e : Int) : Int := fxOf false m e % (2 * fxOne)

/-- A zero with a sign. -/
def zeroCode (neg : Bool) : Nat := if neg then 0x80000000 else 0

/-- Plus or minus one. -/
def oneCode (neg : Bool) : Nat := if neg then 0xBF800000 else 0x3F800000

/-- sin πx (Table 5.11). -/
def fnSinP (n : Bool) (m : Nat) (e : Int) : FnRes :=
  if m = 0 ∨ 23 ≤ topExp m e then .exact (zeroCode n) 0
  else
    let r := fxMod2 m e
    let half := fxOne / 2
    if r % fxOne = 0 then .exact (zeroCode n) 0
    else if r = half then .exact (oneCode n) 0
    else if r = fxOne + half then .exact (oneCode (!n)) 0
    else
      let neg := n ^^ decide (fxOne < r)
      let q := r % fxOne
      let q := if half < q then fxOne - q else q
      .value (fvIrr neg (fxSin (fxMul q fxPi)))

/-- cos πx (Table 5.11). -/
def fnCosP (m : Nat) (e : Int) : FnRes :=
  if m = 0 then .exact (oneCode false) 0
  else
    let top := topExp m e
    if 24 ≤ top then .exact (oneCode false) 0
    else
      let r := fxMod2 m e
      let half := fxOne / 2
      if r = 0 then .exact (oneCode false) 0
      else if r = fxOne then .exact (oneCode true) 0
      else if r % fxOne = half then .exact 0 0
      else
        let q := if fxOne < r then 2 * fxOne - r else r
        let neg := decide (half < q)
        let q := if neg then fxOne - q else q
        .value (fvIrr neg (fxCos (fxMul q fxPi)))

/-- 1 / √x (Table 5.11). -/
def fnRsq (n : Bool) (m : Nat) (e : Int) : FnRes :=
  if m = 0 then .exact (if n then 0xFF800000 else 0x7F800000) fDZ
  else if n then .exact fp32.qnan fNV
  else
    let o := oddPart 64 m e
    if o.1 = 1 ∧ o.2 % 2 = 0 then .exact (pow2Code false (-(o.2 / 2))) 0
    else
      let m1 := if e % 2 = 0 then m else 2 * m
      let e1 := if e % 2 = 0 then e else e - 1
      let q := 2 ^ 400 / m1
      let r := isqrt q
      .value (.fin false (2 * r + (if r * r * m1 = 2 ^ 400 then 0 else 1)) (-200 - e1 / 2 - 1))

/-- 1 / x (Table 5.11). -/
def fnRcp (n : Bool) (m : Nat) (e : Int) : FnRes :=
  if m = 0 then .exact (if n then 0xFF800000 else 0x7F800000) fDZ
  else
    let o := oddPart 64 m e
    if o.1 = 1 ∧ -126 ≤ -o.2 ∧ -o.2 ≤ 127 then .exact (pow2Code n (-o.2)) 0
    else
      let r := quotSticky 1 m
      .value (.fin n r.1 (r.2 - e))

/-- tanh x (Table 5.11). -/
def fnTanh (n : Bool) (m : Nat) (e : Int) : FnRes :=
  if m = 0 then .exact (zeroCode n) 0
  else if 6 ≤ topExp m e then .value (.fin n (2 ^ 200 - 1) (-200))
  else
    let y := fxMul (2 * fxOf false m e) (fxOne * fxOne / fxLn2)
    let k := y / fxOne
    let f := y - k * fxOne
    let ex := fxExp (fxMul f fxLn2) * 2 ^ k.toNat
    .value (fvIrr n ((ex - fxOne) * fxOne / (ex + fxOne)))

/-- The function of FTR on an FP32 operand after DAZ (R127, Table 5.11). -/
def ftrFn (fn : Nat) (ftz : Bool) (v : FV) : FnRes :=
  match v with
  | .nan s => .exact fp32.qnan (if s then fNV else 0)
  | .inf n =>
    match fn with
    | 0 => .exact (if n then 0 else 0x7F800000) 0
    | 1 => if n then .exact fp32.qnan fNV else .exact 0x7F800000 0
    | 2 => .exact fp32.qnan fNV
    | 3 => .exact fp32.qnan fNV
    | 4 => if n then .exact fp32.qnan fNV else .exact 0 0
    | 5 => .exact (zeroCode n) 0
    | _ => .exact (oneCode n) 0
  | .fin n m e =>
    match fn with
    | 0 => fnExp2 ftz n m e
    | 1 => fnLog2 n m e
    | 2 => fnSinP n m e
    | 3 => fnCosP m e
    | 4 => fnRsq n m e
    | 5 => fnRcp n m e
    | _ => fnTanh n m e

/-- The correctly rounded form (R128). -/
def ftrCorrect (fn rm : Nat) (daz ftz : Bool) (a : Nat) : Nat × FFlags :=
  match ftrFn fn ftz (fp32.input daz a) with
  | .exact c f => (c, f)
  | .value v => fp32.round rm ftz v

/-- Bound of the approximate form in ulp (Table 5.10). -/
def ftrBound (fn : Nat) : Nat := if fn = 4 ∨ fn = 5 then 1 else 2

/-- Whether a delivered code lies within the bound of the exact value (R128): the ulp is that of the exact value. An
infinity is allowed where the exact value rounds to one. -/
def withinBound (bound : Nat) (v : FV) (code : Nat) : Bool :=
  match v, fp32.val code with
  | .fin n m e, .fin n2 m2 e2 =>
    let u := max (topExp m e - 23) (-149)
    let b := min (min e e2) u
    let d := toSigned n (m * 2 ^ (e - b).toNat) - toSigned n2 (m2 * 2 ^ (e2 - b).toNat)
    decide (d.natAbs ≤ bound * 2 ^ (u - b).toNat)
  | .fin n _ _, .inf n2 => n == n2 && (fp32.round 0 false v).1 % 2 ^ 31 == 0x7F800000
  | _, _ => false

/-- The approximate form (R128): a fixed function of the input bits within the bound (Config.ftrApprox), else the correctly
rounded value; NX, OF for an infinity delivered, UF for a tiny value, which FTZ flushes. That a zero delivered for an exact value other
than zero counts as tiny is the model's choice (log entry 64). -/
def ftrApproximate (fn : Nat) (daz ftz : Bool) (a : Nat) : Nat × FFlags :=
  match ftrFn fn ftz (fp32.input daz a) with
  | .exact c f => (c, f)
  | .value v =>
    let x := (Config.ftrApprox fn (BitVec.ofNat 32 a)).toNat
    let c := if withinBound (ftrBound fn) v x then x else (fp32.round 0 false v).1
    let mag := c % 2 ^ 31
    let tiny := decide (mag < 2 ^ 23)
    let fl := fNX ||| (if mag = 0x7F800000 then fOF else 0) ||| (if tiny then fUF else 0)
    (if tiny && ftz then c - mag else c, fl)

end Sys2Proof.Machine
end

