-- ==== Sys2Proof/Machine/Float.lean ====
section
/-! DEFINITION. Scalar floating-point instructions (spec 05): majors 0x18-0x1D. -/

namespace Sys2Proof.Machine

/-- The low bits of an f register that a format reads (R111). -/
def Thread.fpIn (t : Thread) (f : Fmt) (a : BitVec 5) : Nat := (t.rf a).toNat % 2 ^ f.width

/-- An instruction that computes one f register and flags (R119, R121): upper bits are written zero (R111). -/
def toF (q : BitVec 3) (d : BitVec 5) (f : Thread → Nat × FFlags) (s : State) : Out :=
  guarded q s (fun s =>
    let r := f s.thr
    (s.setThr ((s.thr.wf d (BitVec.ofNat 64 r.1)).flag r.2)).retire)

/-! ### FOP (R122, Table 5.5) -/

/-- FADD. -/
def execFadd (q : BitVec 3) (fmt : BitVec 2) (d a b : BitVec 5) (s : State) : Out :=
  let f := fmtOf fmt.toNat
  toF q d (fun t => f.add t.rm t.daz t.ftz (t.fpIn f a) (t.fpIn f b)) s
/-- FSUB. -/
def execFsub (q : BitVec 3) (fmt : BitVec 2) (d a b : BitVec 5) (s : State) : Out :=
  let f := fmtOf fmt.toNat
  toF q d (fun t => f.sub t.rm t.daz t.ftz (t.fpIn f a) (t.fpIn f b)) s
/-- FMUL. -/
def execFmul (q : BitVec 3) (fmt : BitVec 2) (d a b : BitVec 5) (s : State) : Out :=
  let f := fmtOf fmt.toNat
  toF q d (fun t => f.mul t.rm t.daz t.ftz (t.fpIn f a) (t.fpIn f b)) s
/-- FDIV. -/
def execFdiv (q : BitVec 3) (fmt : BitVec 2) (d a b : BitVec 5) (s : State) : Out :=
  let f := fmtOf fmt.toNat
  toF q d (fun t => f.div t.rm t.daz t.ftz (t.fpIn f a) (t.fpIn f b)) s
/-- FSQRT. -/
def execFsqrt (q : BitVec 3) (fmt : BitVec 2) (d a : BitVec 5) (s : State) : Out :=
  let f := fmtOf fmt.toNat
  toF q d (fun t => f.sqrt t.rm t.daz t.ftz (t.fpIn f a)) s
/-- FMIN. -/
def execFmin (q : BitVec 3) (fmt : BitVec 2) (d a b : BitVec 5) (s : State) : Out :=
  let f := fmtOf fmt.toNat
  toF q d (fun t => f.minMax t.daz false false (t.fpIn f a) (t.fpIn f b)) s
/-- FMAX. -/
def execFmax (q : BitVec 3) (fmt : BitVec 2) (d a b : BitVec 5) (s : State) : Out :=
  let f := fmtOf fmt.toNat
  toF q d (fun t => f.minMax t.daz true false (t.fpIn f a) (t.fpIn f b)) s
/-- FMINN. -/
def execFminn (q : BitVec 3) (fmt : BitVec 2) (d a b : BitVec 5) (s : State) : Out :=
  let f := fmtOf fmt.toNat
  toF q d (fun t => f.minMax t.daz false true (t.fpIn f a) (t.fpIn f b)) s
/-- FMAXN. -/
def execFmaxn (q : BitVec 3) (fmt : BitVec 2) (d a b : BitVec 5) (s : State) : Out :=
  let f := fmtOf fmt.toNat
  toF q d (fun t => f.minMax t.daz true true (t.fpIn f a) (t.fpIn f b)) s
/-- FABS. -/
def execFabs (q : BitVec 3) (fmt : BitVec 2) (d a : BitVec 5) (s : State) : Out :=
  let f := fmtOf fmt.toNat
  toF q d (fun t => (f.abs (t.fpIn f a), 0)) s
/-- FNEG. -/
def execFneg (q : BitVec 3) (fmt : BitVec 2) (d a : BitVec 5) (s : State) : Out :=
  let f := fmtOf fmt.toNat
  toF q d (fun t => (f.negate (t.fpIn f a), 0)) s
/-- FCPYS. -/
def execFcpys (q : BitVec 3) (fmt : BitVec 2) (d a b : BitVec 5) (s : State) : Out :=
  let f := fmtOf fmt.toNat
  toF q d (fun t => (f.copySign (t.fpIn f a) (t.fpIn f b), 0)) s
/-- FCLASS: writes an x register (Table 5.6). -/
def execFclass (q : BitVec 3) (fmt : BitVec 2) (d a : BitVec 5) (s : State) : Out :=
  let f := fmtOf fmt.toNat
  guarded q s (fun s => (s.wx d (BitVec.ofNat 64 (f.classOf (s.thr.fpIn f a)))).retire)
/-- FMVXF: from an x register. -/
def execFmvxf (q : BitVec 3) (fmt : BitVec 2) (d a : BitVec 5) (s : State) : Out :=
  let f := fmtOf fmt.toNat
  toF q d (fun t => ((t.rx a).toNat % 2 ^ f.width, 0)) s
/-- FMVFX: to an x register. -/
def execFmvfx (q : BitVec 3) (fmt : BitVec 2) (d a : BitVec 5) (s : State) : Out :=
  let f := fmtOf fmt.toNat
  guarded q s (fun s => (s.wx d (BitVec.ofNat 64 (s.thr.fpIn f a))).retire)

/-! ### FMA (R123) -/

/-- A fused multiply-add whose product, addend or both are negated; F[d] is addend and destination. -/
def fmaOp (q : BitVec 3) (fmt : BitVec 2) (rnd : BitVec 3) (d a b : BitVec 5) (negP negC : Bool) (s : State) : Out :=
  let f := fmtOf fmt.toNat
  toF q d (fun t => f.fma (t.roundMode rnd) t.daz t.ftz negP negC (t.fpIn f a) (t.fpIn f b) (t.fpIn f d)) s

/-- FMA. -/
def execFma (q : BitVec 3) (fmt : BitVec 2) (rnd : BitVec 3) (d a b : BitVec 5) (s : State) : Out :=
  fmaOp q fmt rnd d a b false false s
/-- FMS. -/
def execFms (q : BitVec 3) (fmt : BitVec 2) (rnd : BitVec 3) (d a b : BitVec 5) (s : State) : Out :=
  fmaOp q fmt rnd d a b false true s
/-- FNMA. -/
def execFnma (q : BitVec 3) (fmt : BitVec 2) (rnd : BitVec 3) (d a b : BitVec 5) (s : State) : Out :=
  fmaOp q fmt rnd d a b true false s
/-- FNMS. -/
def execFnms (q : BitVec 3) (fmt : BitVec 2) (rnd : BitVec 3) (d a b : BitVec 5) (s : State) : Out :=
  fmaOp q fmt rnd d a b true true s

/-! ### FCMPD, FCMPS (R124) -/

/-- A floating-point compare into predicates: flags only under a true guard (R121, R124). -/
def fcmpOp (f : Fmt) (q pd1 pd2 ty cnd : BitVec 3) (a b : BitVec 5) (s : State) : Out :=
  let t := s.thr
  let r := f.cond t.daz cnd.toNat (t.fpIn f a) (t.fpIn f b)
  let t1 := t.combined q pd1 pd2 ty r.1
  (s.setThr (if t.rp q then t1.flag r.2 else t1)).retire

/-- FCMPD. -/
def execFcmpd (q pd1 pd2 ty cnd : BitVec 3) (a b : BitVec 5) (s : State) : Out := fcmpOp fp64 q pd1 pd2 ty cnd a b s
/-- FCMPS. -/
def execFcmps (q pd1 pd2 ty cnd : BitVec 3) (a b : BitVec 5) (s : State) : Out := fcmpOp fp32 q pd1 pd2 ty cnd a b s

/-! ### FCVT (R125, R126) -/

/-- The source value of a conversion: an integer type reads an x register (R126). -/
def cvtSource (t : Thread) (src : Nat) (a : BitVec 5) : FV :=
  match src with
  | 4 => fvInt (lo32 (t.rx a)).toInt
  | 5 => fvInt (lo32 (t.rx a)).toNat
  | 6 => fvInt (t.rx a).toInt
  | 7 => fvInt (t.rx a).toNat
  | _ => let f := fmtOf src; f.input t.daz (t.fpIn f a)

/-- The range of an integer type (R126). -/
def intRange : Nat → Int × Int
  | 4 => (-(2 ^ 31), 2 ^ 31 - 1)
  | 5 => (0, 2 ^ 32 - 1)
  | 6 => (-(2 ^ 63), 2 ^ 63 - 1)
  | _ => (0, 2 ^ 64 - 1)

/-- FCVT (R126). -/
def execFcvt (q dst src rnd : BitVec 3) (d a : BitVec 5) (s : State) : Out :=
  guarded q s (fun s =>
    let t := s.thr
    let rm := t.roundMode rnd
    let v := cvtSource t src.toNat a
    if dst.toNat < 4 then
      let r := (fmtOf dst.toNat).finish rm t.ftz (v, snanFlag [v])
      (s.setThr ((t.wf d (BitVec.ofNat 64 r.1)).flag r.2)).retire
    else
      let rg := intRange dst.toNat
      let r := toRange rm rg.1 rg.2 v
      let w : Word := if dst.toNat = 5 then (BitVec.ofInt 32 r.1).setWidth 64 else BitVec.ofInt 64 r.1
      (s.setThr ((t.wx d w).flag r.2)).retire)

/-! ### FTR (R127-R130) -/

/-- A transcendental: the approximate form completes in its turn; the correctly rounded form parks for 30 cycles, at whose
end its result and flags are written (R130). -/
def ftrOp (fn : Nat) (q : BitVec 3) (c : BitVec 1) (d a : BitVec 5) (s : State) : Out :=
  guarded q s (fun s =>
    let t := s.thr
    if c = 1#1 then
      let r := ftrCorrect fn t.rm t.daz t.ftz (t.fpIn fp32 a)
      .next ((s.park (.ftr d r.1 r.2.toNat)).after 30 (.threadResume s.here s.slot.val))
    else
      let r := ftrApproximate fn t.daz t.ftz (t.fpIn fp32 a)
      (s.setThr ((t.wf d (BitVec.ofNat 64 r.1)).flag r.2)).retire)

/-- FEXP2. -/
def execFexp2 (q : BitVec 3) (c : BitVec 1) (d a : BitVec 5) (s : State) : Out := ftrOp 0 q c d a s
/-- FLOG2. -/
def execFlog2 (q : BitVec 3) (c : BitVec 1) (d a : BitVec 5) (s : State) : Out := ftrOp 1 q c d a s
/-- FSINP. -/
def execFsinp (q : BitVec 3) (c : BitVec 1) (d a : BitVec 5) (s : State) : Out := ftrOp 2 q c d a s
/-- FCOSP. -/
def execFcosp (q : BitVec 3) (c : BitVec 1) (d a : BitVec 5) (s : State) : Out := ftrOp 3 q c d a s
/-- FRSQ. -/
def execFrsq (q : BitVec 3) (c : BitVec 1) (d a : BitVec 5) (s : State) : Out := ftrOp 4 q c d a s
/-- FRCP. -/
def execFrcp (q : BitVec 3) (c : BitVec 1) (d a : BitVec 5) (s : State) : Out := ftrOp 5 q c d a s
/-- FTANH. -/
def execFtanh (q : BitVec 3) (c : BitVec 1) (d a : BitVec 5) (s : State) : Out := ftrOp 6 q c d a s

end Sys2Proof.Machine
end

