-- ==== Sys2Proof/Machine/Xacc.lean ====
section
/-! DEFINITION. Format descriptors (R113-R116), the exact accumulator (R118) and the XAC instructions (R131-R133). -/

namespace Sys2Proof.Machine

/-! ### Format descriptors -/

/-- A legal descriptor: its kind, its format and whether it is block-scaled. -/
structure FDesc where
  kind : Nat
  fmt : Fmt
  bs : Bool
  deriving DecidableEq, Repr

/-- What a PUTS stores in FM0-FM7: reserved bits stay zero (R88, Table 5.3). -/
def fmStored (v : Word) : Word := v &&& 0x1FF07FF#64

/-- The descriptor of a format register, none when it is illegal (R114). -/
def fmDesc (w : Word) : Option FDesc :=
  let n := w.toNat
  let kind := n % 16
  let sg := n / 2 ^ 4 % 2
  let e := n / 2 ^ 5 % 8
  let m := n / 2 ^ 8 % 8
  let bias : Int := (BitVec.ofNat 8 (n / 2 ^ 16)).toInt
  let bs := n / 2 ^ 24 % 2 == 1
  if 5 ≤ kind then none
  else if kind < 4 then (if n / 2 ^ 4 % 2 ^ 21 ≠ 0 then none else some { kind := kind, fmt := fmtOf kind, bs := false })
  else if 8 < sg + e + m ∨ e + m = 0 then none
  else some { kind := 4, fmt := { e := e, m := m, bias := bias, ieee := false, sg := sg == 1 }, bs := bs }

/-- Bits of an element's container (R116). -/
def FDesc.container (d : FDesc) : Nat :=
  match d.kind with
  | 0 => 64 | 1 => 32 | 2 => 16 | 3 => 16
  | _ => if d.fmt.width ≤ 4 then 4 else 8

/-- Element `i` of packed bits (R116): container bits above the format's width are ignored. -/
def FDesc.elem (d : FDesc) (v i : Nat) : Nat := v / 2 ^ (d.container * i) % 2 ^ d.fmt.width

/-- The format register named by a field. -/
def State.fmReg (s : State) (f : BitVec 3) : Word := s.proc.fm[f.toNat]'f.isLt

/-! ### XACC values (R118) -/

/-- The poison pattern: only bit 511 set. -/
def poison : Nat := 2 ^ 511

/-- The XACC of pair `j`. -/
def Thread.xacc (t : Thread) (j : BitVec 3) : Nat :=
  (t.rv (j ++ 0#1)).toNat + 2 ^ 256 * (t.rv (j ++ 1#1)).toNat

/-- Write the XACC of pair `j`. -/
def Thread.setXacc (t : Thread) (j : BitVec 3) (v : Nat) : Thread :=
  (t.wv (j ++ 0#1) (BitVec.ofNat 256 v)).wv (j ++ 1#1) (BitVec.ofNat 256 (v / 2 ^ 256))

/-- A finite value as a multiple of 2^-149, modulo 2^512. -/
def xaccOf (neg : Bool) (mag : Nat) (exp : Int) : Nat :=
  let m := mag * 2 ^ (exp + 149).toNat % 2 ^ 512
  if neg then (2 ^ 512 - m) % 2 ^ 512 else m

/-- XAdd (R132): NaN and infinity poison the sum, and raise NV unless the element is a quiet NaN. -/
def xAdd (x : Nat × FFlags) (v : FV) : Nat × FFlags :=
  if x.1 = poison then x
  else
    match v with
    | .nan s => (poison, if s then x.2 ||| fNV else x.2)
    | .inf _ => (poison, x.2 ||| fNV)
    | .fin n m e => ((x.1 + xaccOf n m e) % 2 ^ 512, x.2)

/-- The signed value of an XACC as an exact number. -/
def xaccVal (x : Nat) : FV := if x < 2 ^ 511 then .fin false x (-149) else .fin true (2 ^ 512 - x) (-149)

/-! ### XAC (R131, R132, Table 5.12) -/

/-- The kinds that XADDV and XADDS accept: 1 to 4 without block scale. -/
def xaddKind (d : FDesc) : Bool := decide (1 ≤ d.kind) && !d.bs

/-- XCLR. -/
def execXclr (q d : BitVec 3) (s : State) : Out := guarded q s (fun s => (s.setThr (s.thr.setXacc d 0)).retire)

/-- XADDV. DESIGN CHOICE: the elements are added from element 0 up, which decides whether NV is raised where an infinity and a quiet NaN stand
side by side (log entry 72). -/
def execXaddv (q d : BitVec 3) (a : BitVec 4) (b : BitVec 3) (s : State) : Out :=
  guarded q s (fun s =>
    match fmDesc (s.fmReg b) with
    | some f =>
      if xaddKind f then
        let v := (s.rv a).toNat
        let r := (List.range (256 / f.container)).foldl (fun acc i => xAdd acc (f.fmt.val (f.elem v i))) (s.thr.xacc d, 0)
        (s.setThr ((s.thr.setXacc d r.1).flag r.2)).retire
      else s.takeTrap .format 0
    | none => s.takeTrap .format 0)

/-- XADDS. -/
def execXadds (q d : BitVec 3) (a : BitVec 5) (b : BitVec 3) (s : State) : Out :=
  guarded q s (fun s =>
    match fmDesc (s.fmReg b) with
    | some f =>
      if xaddKind f then
        let r := xAdd (s.thr.xacc d, 0) (f.fmt.val (s.thr.fpIn f.fmt a))
        (s.setThr ((s.thr.setXacc d r.1).flag r.2)).retire
      else s.takeTrap .format 0
    | none => s.takeTrap .format 0)

/-- XADDX. -/
def execXaddx (q d a : BitVec 3) (s : State) : Out :=
  guarded q s (fun s =>
    let x := s.thr.xacc d
    let y := s.thr.xacc a
    (s.setThr (s.thr.setXacc d (if x = poison ∨ y = poison then poison else (x + y) % 2 ^ 512))).retire)

/-- XRND. -/
def execXrnd (q : BitVec 3) (d : BitVec 5) (a b : BitVec 3) (s : State) : Out :=
  guarded q s (fun s =>
    match fmDesc (s.fmReg b) with
    | some f =>
      if f.kind < 4 then
        let x := s.thr.xacc a
        let r := if x = poison then (f.fmt.qnan, 0) else f.fmt.finish s.thr.rm s.thr.ftz (xaccVal x, 0)
        (s.setThr ((s.thr.wf d (BitVec.ofNat 64 r.1)).flag r.2)).retire
      else s.takeTrap .format 0
    | none => s.takeTrap .format 0)

/-- XNEG: poison maps to itself. -/
def execXneg (q d a : BitVec 3) (s : State) : Out :=
  guarded q s (fun s => (s.setThr (s.thr.setXacc d ((2 ^ 512 - s.thr.xacc a) % 2 ^ 512))).retire)

end Sys2Proof.Machine
end

