-- ==== Sys2Proof/Machine/Receive.lean ====
section
/-! DEFINITION. The receive engine (spec 09, R213, R214, R226-R237): order, matching, landing, the unexpected queue, and the
RECV instructions. -/

namespace Sys2Proof.Machine

/-! ### Receive records (R226, R235) -/

/-- The fields of a receive record (Table 9.4). -/
def readRecv (r : Nat) : RecvRec :=
  let w3 := recField r 24 8
  let w2 := recField r 16 8
  { src := recField r 0 2, srcMask := recField r 2 2, tag := recField r 4 2, tagMask := recField r 6 2,
    dest := BitVec.ofNat 64 (recField r 8 8), maxlen := w2 % 2 ^ 17, rowlen := w2 / 2 ^ 20 % 2 ^ 16, stride := w2 / 2 ^ 36,
    mode := w3 % 8, ch := w3 / 8 % 8, chany := w3 / 64 % 2 == 1, inc := w3 / 128 % 2 == 1, ctr := w3 / 256 % 64,
    noctr := w3 / 2 ^ 14 % 2 == 1, stat := w3 / 2 ^ 16 % 2 ^ 16, cookie := w3 / 2 ^ 32 }

/-- Whether the bytes of a window destination pass the window's end (Table 9.5). DESIGN CHOICE: the last byte address of a 2-D landing is that
of byte MAXLEN - 1, also where rows overlap (log entry 89). -/
def recvOutside (winsize : Nat) (r : RecvRec) : Bool :=
  let off := r.dest.toNat % 2 ^ 48
  match r.mode with
  | 1 => r.maxlen != 0 && decide (winsize ≤ off + (r.maxlen - 1) / r.rowlen * r.stride + (r.maxlen - 1) % r.rowlen)
  | _ => decide (winsize < off + r.maxlen)

/-- The checks of PRECV that trap CHANNEL (R235). DESIGN CHOICE: those of MAXLEN and of a DEST of 0xFFFE are made for MODE 3 too, which
Table 9.5 says ignores the two fields (log entry 87). -/
def recvBad (winsize : Nat) (raw : Nat) (r : RecvRec) : Bool :=
  let own := r.dest.toNat / 2 ^ 48 == 0xFFFF
  let zeros := recField raw 16 8 / 2 ^ 17 % 8 != 0 || recField raw 24 8 / 2 ^ 15 % 2 != 0
  zeros || decide (4 ≤ r.mode) || decide (65536 < r.maxlen) || r.dest.toNat / 2 ^ 48 == 0xFFFE ||
  (r.mode == 0 && own && recvOutside winsize r) ||
  (r.mode == 1 && (r.rowlen == 0 || (own && recvOutside winsize r))) ||
  (r.mode == 2 && (!own || r.dest.toNat % 64 != 0 || recvOutside winsize r)) ||
  decide (winsize ≤ r.stat * 16)

/-- Whether a message matches a record (R227). -/
def RecvRec.matches_ (r : RecvRec) (src tag ch : Nat) : Bool :=
  ((src ^^^ r.src) &&& (0xFFFF - r.srcMask)) == 0 && ((tag ^^^ r.tag) &&& (0xFFFF - r.tagMask)) == 0 && (r.chany || r.ch == ch)

/-! ### Landing (R228) -/

/-- Status flags (R229). -/
def fTrunc : Nat := 1
/-- Status flag RELEASE. -/
def fRelease : Nat := 2
/-- Status flag ABORT. -/
def fAbort : Nat := 4
/-- Status flag POISON. -/
def fPoison : Nat := 8

/-- The outcome of landing some bytes: how many landed, and flags of Table R229 that they set. -/
inductive Landed where
  | ok (s : State) (bytes flags : Nat)
  | fault (s : State) (t : Trap) (va : Word)
  | wait (w : EWait)

/-- The address of byte `i` of a message (Table 9.5, modes 0 and 1). -/
def RecvRec.byteAt (r : RecvRec) (i : Nat) : Word :=
  if r.mode = 1 then r.dest + BitVec.ofNat 64 (i / r.rowlen * r.stride + i % r.rowlen) else r.dest + BitVec.ofNat 64 i

/-- The bytes `i` to `i + n - 1` of a message as runs of consecutive addresses: address, number, first byte. -/
def RecvRec.runs (r : RecvRec) : Nat → Nat → Nat → List (Word × Nat × Nat)
  | 0, _, _ => []
  | f + 1, i, n =>
    if n = 0 then []
    else
      let k := if r.mode = 1 then min n (r.rowlen - i % r.rowlen) else n
      (r.byteAt i, k, i) :: r.runs f (i + k) (n - k)

/-- Land runs of consecutive addresses: where a piece of one faults or has to wait, nothing is written (log entry 58). `v` is the value of
all their bytes. -/
def landRuns (v : Nat) (runs : List (Word × Nat × Nat)) (s : State) : Except ERes State :=
  let ps := runs.flatMap (fun e => pieces (e.2.1 + 1) e.1 e.2.1)
  match s.writeObstacle false ps v false true with
  | some r => .error r
  | none =>
    match writePieces false false true ps s 0 v 0 with
    | .ok s1 _ _ => .ok s1
    | r => .error r

/-- Accumulate the whole 64-byte values of the bytes from `off` on (R228, R132). -/
def landXacc (dest : Word) (v : Nat) : Nat → Nat → Nat → State → Bool → Except ERes (State × Bool)
  | 0, _, _, s, p => .ok (s, p)
  | f + 1, j, off, s, p =>
    let va := dest + BitVec.ofNat 64 (off + 64 * j)
    match s.engReadRange false va 64 with
    | .ok s1 old _ =>
      let add := v / 256 ^ (64 * j) % 2 ^ 512
      let new := if old = poison ∨ add = poison then poison else (old + add) % 2 ^ 512
      match s1.engWriteRange false va 64 new false true with
      | .ok s2 _ _ => landXacc dest v f (j + 1) off s2 (p || new == poison)
      | r => .error r
    | r => .error r

/-- What is in the way of an accumulation of `n` values, found before any of them is changed (log entry 58). -/
def State.xaccObstacle (s : State) (dest : Word) (off n : Nat) : Option ERes :=
  let va := dest + BitVec.ofNat 64 off
  match s.engReadRange false va (64 * n) with
  | .ok .. => s.writeObstacle false (pieces (64 * n + 1) va (64 * n)) 0 false true
  | r => some r

/-- What ended a landing early. -/
def landedErr (s : State) : ERes → Landed
  | .fault s1 t va => .fault s1 t va
  | .wait w => .wait w
  | .ok _ _ _ => .ok s 0 0

/-- Land the bytes of a message from byte `off` on under a record of modes 0 to 2 (R228). -/
def State.land (s : State) (r : RecvRec) (off : Nat) (bytes : List Byte) : Landed :=
  let v := leNat bytes
  let room := min bytes.length (r.maxlen - off)
  if r.mode = 2 then
    let n := room / 64
    match s.xaccObstacle r.dest off n with
    | some e => landedErr s e
    | none =>
      match landXacc r.dest v n 0 off s false with
      | .ok (s1, p) => .ok s1 (64 * n) ((if p then fPoison else 0) + (if 64 * n < bytes.length then fTrunc else 0))
      | .error e => landedErr s e
  else
    match landRuns v (r.runs (room + 1) off room) s with
    | .ok s1 => .ok s1 room (if room < bytes.length then fTrunc else 0)
    | .error e => landedErr s e

/-! ### The unexpected queue (R231, R232) -/

/-- Bytes of the ring in use, PAD entries included. -/
def uqUsed (l : List UqEnt) : Nat := (l.map (·.size)).sum

/-- The header of an entry (R232) as a number of 32 bytes. -/
def UqEnt.header (e : UqEnt) : Nat :=
  let b (c : Bool) (k : Nat) : Nat := if c then 2 ^ k else 0
  let flags := b e.complete 0 + b e.taken 1 + b e.release 2 + b e.pad 3 + b e.abort 4
  e.src + e.ch * 2 ^ 16 + flags * 2 ^ 24 + e.tag * 2 ^ 32 + e.len * 2 ^ 64 + e.size * 2 ^ 96

/-- Write the header of an entry into the window of the process in focus: the 32 bytes, granules full. One whose reservation unit is away
waits for its return, and headers behind it for it (R183). -/
def State.putHeader (s : State) (e : UqEnt) : State :=
  let p (k : Nat) : Place := s.own (e.off + k)
  match s.awayIn (p 0) 32 with
  | some u => (s.setProc { s.proc with hdrs := s.proc.hdrs ++ [e] }).waitUnit u (.latchEntryAppend s.proc.gid s.proc.lid 0)
  | none =>
    let s1 := (s.homeWrite (p 0) 16 (e.header % 2 ^ 128) (2 ^ 16 - 1)).fillGranule (p 0)
    (s1.homeWrite (p 16) 16 0 (2 ^ 16 - 1)).fillGranule (p 16)

/-- The headers that wait for a unit are written, those that can be (R183). -/
def State.putHeaders (s : State) : State := s.proc.hdrs.foldl State.putHeader (s.setProc { s.proc with hdrs := [] })

/-- Replace an entry of the queue and write its header. -/
def State.setUq (s : State) (e : UqEnt) : State :=
  (s.setProc { s.proc with uq := s.proc.uq.map (fun x => if x.off == e.off && !x.pad then e else x) }).putHeader e

/-- Allocate an entry for a message at the ring's tail, with a PAD entry where it would run past the end (R231). DESIGN CHOICE: a PAD entry
that stands at the head as soon as it is allocated counts as used until the next reclaim (log entry 73). -/
def State.uqAlloc (s : State) (src ch tag len : Nat) (release : Bool) : Option (State × Nat) :=
  let p := s.proc
  let size := 32 + (len + 31) / 32 * 32
  let pad := if p.uqsize < p.uqtail + size then p.uqsize - p.uqtail else 0
  if p.uqsize < size ∨ p.uqsize < uqUsed p.uq + pad + size then none
  else
    let padEnt : UqEnt := { off := p.uqbase + p.uqtail, size := pad, pad := true }
    let off := if pad = 0 then p.uqtail else 0
    let e : UqEnt := { off := p.uqbase + off, size := size, src := src, ch := ch, tag := tag, len := len, release := release }
    let s1 := s.setProc { p with uq := p.uq ++ (if pad = 0 then [e] else [padEnt, e]), uqtail := (off + size) % p.uqsize }
    let s2 := if pad = 0 then s1 else s1.putHeader padEnt
    some (s2.putHeader e, e.off)

/-- Reclaim space from the head (R232): the flag tells whether an entry has gone. -/
def uqReclaim : List UqEnt → List UqEnt × Bool
  | [] => ([], false)
  | e :: t => if e.pad || (e.taken && e.complete && e.by_.isNone) then ((uqReclaim t).1, true) else (e :: t, false)

/-- Let held deliveries be looked at again in this cycle. -/
def State.retryLater (s : State) : State := s.afterOnce 0 (.latchEntryAppend s.proc.gid s.proc.lid 0)

/-- Reclaim, and let a blocked message be tried again when space has come free (R232, R233). -/
def State.reclaim (s : State) : State :=
  let r := uqReclaim s.proc.uq
  let s1 := s.setProc { s.proc with uq := r.1 }
  if r.2 then s1.retryLater else s1

/-! ### The B latch as a place of landing (R316, R317) -/

/-- The number by which a channel waits for a latch slot (`Proc.grantLatch`). -/
def latchKey (src ch : Nat) : Nat := 1000 + 8 * src + ch

/-- Reserve a latch slot for a landing, in the order in which landings and MLDB threads began to wait (R302, R316). -/
def Proc.reserveLatch (p : Proc) (key : Nat) : Proc × Option Nat :=
  let m := p.mq
  let turn : Bool := match m.latchWait with | [] => true | w :: _ => w == key
  if turn && p.latch.length + m.latchGrant.length < 2 then
    let id := p.nextLatch + 1
    ({ p with latch := p.latch ++ [{ id := id }], nextLatch := id, mq := { m with latchWait := m.latchWait.filter (· != key) } }, some id)
  else ({ p with mq := { m with latchWait := if m.latchWait.contains key then m.latchWait else m.latchWait ++ [key] } }, none)

/-- A landing no longer waits for a latch slot: it has matched elsewhere, or its entry has been taken (R302, R316). Those behind it are
looked at. -/
def State.leaveLatchWait (s : State) (key : Nat) : State :=
  let m := s.proc.mq
  if m.latchWait.contains key then
    ((s.setProc (({ s.proc with mq := { m with latchWait := m.latchWait.filter (· != key) } } : Proc).grantLatch 2)).noteGrants m).retryLater
  else s

/-- Change a latch entry. -/
def Proc.mapLatch (p : Proc) (id : Nat) (f : LatchEnt → LatchEnt) : Proc :=
  { p with latch := p.latch.map (fun e => if e.id == id then f e else e) }

/-- Give a reserved latch slot back; the step that follows grants it. -/
def Proc.dropLatch (p : Proc) (id : Nat) : Proc := { p with latch := p.latch.filter (fun e => e.id != id) }

/-! ### Delivery (R213, R227, R230, R233) -/

/-- The inbound entry of a channel; the one from HOST is always open (R210). -/
def Proc.inbound (p : Proc) (src ch : Nat) : Option InCh :=
  match p.inb.find? (fun i => i.src == src && i.ch == ch) with
  | some i => some i
  | none => if src = hostLid then some { src := src, ch := ch } else none

/-- Replace or add an inbound entry. -/
def Proc.setInbound (p : Proc) (i : InCh) : Proc :=
  if p.inb.any (fun x => x.src == i.src && x.ch == i.ch) then
    { p with inb := p.inb.map (fun x => if x.src == i.src && x.ch == i.ch then i else x) }
  else { p with inb := p.inb ++ [i] }

/-- The posted record that a message matches: the first in posting order (R227). -/
def Proc.matchPosted (p : Proc) (src tag ch : Nat) : Option (Nat × Posted) :=
  (p.posted.toList.zipIdx.filterMap (fun e => e.1.bind (fun r =>
    if !r.landing && r.rcd.matches_ src tag ch then some (e.2, r) else none))).foldl
    (fun (best : Option (Nat × Posted)) e => match best with
      | none => some e
      | some b => if e.2.order < b.2.order then some e else best) none

/-- A record under which a message lands: a slot below 64, or a record taken by PRECV from the queue. -/
def Proc.landRec (p : Proc) (id : Nat) : Option Posted :=
  if id < 64 then (p.posted.toList[id]?).getD none else (p.taken.find? (fun e => e.1 == id)).map Prod.snd

/-- Replace it. -/
def Proc.setLandRec (p : Proc) (id : Nat) (r : Option Posted) : Proc :=
  if id < 64 then { p with posted := p.posted.setIfInBounds id r }
  else
    let rest := p.taken.filter (fun e => e.1 != id)
    { p with taken := match r with | some r => rest ++ [(id, r)] | none => rest }

/-- Suspend the process's deliveries with a fault of a landing, and queue the record for slot 11 (R228, R378, R380). -/
def State.suspendLanding (s : State) (src ch : Nat) (t : Trap) (va : Word) : State :=
  let r : TrapRec := { pc := 0, addr := va, code := Trap.engine.code, slot := 0, src := 2, frame := false, pass := 0, posn := 0,
                       info := BitVec.ofNat 32 (src % 2 ^ 16 + ch * 2 ^ 16), word := 0, cause := t.code }
  (s.setProc { s.proc with landFault := some (src, ch, t.code, va) }).raise s.here r

/-- What a delivery came to: delivered; held for now; blocked by the unexpected queue; a fault that suspends. -/
inductive Delivered where
  | ok (s : State)
  | stuck (s : State)
  | blocked (s : State)
  | faulted (s : State) (t : Trap) (va : Word)

/-- Hold a delivery until a wait is over: the packet's arrival is looked at again then. -/
def State.holdDelivery (s : State) (w : EWait) : State := s.waitOn w (.latchEntryAppend s.proc.gid s.proc.lid 0)

/-! A landing streams 32 bytes a cycle (R225, Table 9.9): the receive engine is busy with one packet, or one copy of an entry of the
unexpected queue, after the other, and lands a piece of it in each cycle. -/

/-- Whether the copy by which a PRECV takes an entry under a record is still to be made, or is under way (R233). -/
def Proc.copying (p : Proc) (id : Nat) : Bool := p.copies.any (fun c => c.1 == id)

/-- The entry of the unexpected queue that a record has taken. -/
def Proc.takenBy (p : Proc) (id : Nat) : Option UqEnt := p.uq.find? (fun e => !e.pad && e.by_ == some id)

/-- The record under which a message lands whose packets come: the one it matched, or the one that has taken its entry and copied it. -/
def Proc.recordOf (p : Proc) (m : InMsg) : Option (Nat × Posted) :=
  let rec_ (id : Nat) : Option (Nat × Posted) := (p.landRec id).map (fun r => (id, r))
  match m.at_ with
  | .record id => rec_ id
  | .queue off => ((p.uq.find? (fun e => e.off == off && !e.pad)).bind (·.by_)).bind (fun id => if p.copying id then none else rec_ id)
  | .latch _ r => r.bind rec_
  | .drop => none

/-- The record under which the landing in progress lands. -/
def Proc.landsUnder (p : Proc) (l : Landing) : Option (Nat × Posted) :=
  match l.pkt with
  | some k => ((p.inbound k.src k.ch).bind (·.msg)).bind p.recordOf
  | none => p.copies.head?.bind (fun c => (p.landRec c.1).map (fun r => (c.1, r)))

/-- The bytes of a copy: those of the entry that its record has room for (R228, R235). -/
def Proc.copySize (p : Proc) (id : Nat) : Nat :=
  match p.takenBy id, p.landRec id with
  | some e, some r => if r.rcd.mode = 3 then e.got else min e.got r.rcd.maxlen
  | _, _ => 0

/-- The bytes of the landing in progress. -/
def Proc.landSize (p : Proc) (l : Landing) : Nat :=
  match l.pkt with
  | some k => k.payload.length
  | none => match p.copies.head? with | some c => p.copySize c.1 | none => 0

/-- The bytes of the next piece of the landing in progress: 32, or a whole value of an accumulation (R228). -/
def Proc.pieceSize (p : Proc) (l : Landing) : Nat :=
  min (if (p.landsUnder l).any (fun r => r.2.rcd.mode == 2) then 64 else 32) (p.landSize l - l.off)

/-- The engine goes on with a landing from `d` cycles on: its next piece is there in the cycle of its last byte. -/
def State.nextPiece (s : State) (l : Landing) (d : Nat) : State :=
  let due := s.cycle + d + interval (s.proc.pieceSize l) - 1
  let s1 := s.setProc { s.proc with stream := some { l with due := due } }
  if due = s.cycle then s1 else s1.afterOnce (due - s.cycle) (.latchEntryAppend s.proc.gid s.proc.lid 0)

/-- `k` more bytes of the landing in progress count. -/
def State.landed (s : State) (k : Nat) : State :=
  s.setProc { s.proc with stream := s.proc.stream.map (fun l => { l with k := l.k + k }) }

/-- A landing that `ends` counts in the cycle after its last bytes, and the last of a message ends it (R229, R230, Table 9.9). -/
def State.counts (s : State) (id : Nat) (r : Posted) (ends last : Bool) : State :=
  let k := (s.proc.stream.map (·.k)).getD 0
  let at_ := s.cycle + 1
  if !ends then s.setProc (s.proc.setLandRec id (some r))
  else
    let r1 := if last then { r with lastBytes := k, ends := some at_ } else { r with adds := r.adds ++ [(at_, k)] }
    (s.setProc (s.proc.setLandRec id (some r1))).after 1 (.messageLanded s.proc.gid s.proc.lid id)

/-- Land a piece of a packet under a record; its last packet lets the message end (R228-R230). A fault names the address of the message's
next byte (Table 19.2). -/
def State.landPacket (s : State) (pkt : Packet) (ends : Bool) (i : InCh) (m : InMsg) (id : Nat) (r : Posted) : Delivered :=
  match s.land r.rcd m.got pkt.payload with
  | .fault s1 t _ => .faulted s1 t (r.rcd.byteAt m.got)
  | .wait w => .stuck (s.holdDelivery w)
  | .ok s1 k fl =>
    let flags := r.flags ||| fl ||| (if pkt.abort then fAbort else 0) ||| (if m.release then fRelease else 0)
    let p1 := s1.proc.setInbound { i with msg := if pkt.last then none else some { m with got := m.got + pkt.payload.length } }
    .ok (((s1.setProc p1).landed k).counts id { r with flags := flags } ends pkt.last)

/-- A piece of a message has come for an entry of the unexpected queue: its last makes it COMPLETE, and where the copy of it is over it need
not be kept (R231, R232). -/
def State.queued (s : State) (pkt : Packet) (e : UqEnt) : State :=
  let e1 := { e with got := e.got + pkt.payload.length, complete := e.complete || pkt.last, abort := e.abort || pkt.abort,
                     by_ := if pkt.last then e.by_.filter s.proc.copying else e.by_ }
  if pkt.last then (s.setUq e1).reclaim
  else s.setProc { s.proc with uq := s.proc.uq.map (fun x => if x.off == e.off && !x.pad then e1 else x) }

/-- Land a piece of a packet of a queued message in its ring entry (R231, R232), or under the record by which a PRECV has taken it (R235).
The ring lies in the window, and a write of it does not fault. -/
def State.landQueued (s : State) (pkt : Packet) (ends : Bool) (i : InCh) (m : InMsg) (off : Nat) : Delivered :=
  match s.proc.uq.find? (fun e => e.off == off && !e.pad) with
  | none => .ok (s.setProc (s.proc.setInbound { i with msg := if pkt.last then none else some m }))
  | some e =>
    match s.proc.recordOf m with
    | some (id, r) =>
      match s.landPacket pkt ends i m id r with
      | .ok s1 => .ok (s1.queued pkt e)
      | d => d
    | none =>
      let n := pkt.payload.length
      let va : Word := BitVec.ofNat 64 (0xFFFF * 2 ^ 48 + off + 32 + m.got)
      match s.engWriteRange false va n (leNat pkt.payload) false true with
      | .wait w => .stuck (s.holdDelivery w)
      | .fault s1 t va => .faulted s1 t va
      | .ok s1 _ _ =>
        .ok ((s1.setProc (s1.proc.setInbound { i with msg := if pkt.last then none else some { m with got := m.got + n } })).queued pkt e)

/-- Land a piece of a packet in a latch entry; the entry is appended when its 512 bytes are there (R317). -/
def State.landLatch (s : State) (pkt : Packet) (ends : Bool) (i : InCh) (m : InMsg) (id : Nat) (rcd : Option Nat) : Delivered :=
  let n := pkt.payload.length
  let p1 := s.proc.mapLatch id (fun e => { e with bytes := e.bytes ++ pkt.payload })
  let p2 := p1.setInbound { i with msg := if pkt.last then none else some { m with got := m.got + n } }
  let whole := m.got + n == 512 && !pkt.abort
  let p3 := if pkt.last && !whole then p2.dropLatch id else p2
  let s0 := s.setProc p3
  let s1 := match p3.uq.find? (fun e => rcd.isSome && e.by_ == rcd) with
    | some e => s0.queued pkt e
    | none => s0
  let s2 := if pkt.last then s1.after 1 (.latchEntryAppend p3.gid p3.lid (if whole then id else 0)) else s1
  match rcd.bind (fun k => (s2.proc.landRec k).map (fun r => (k, r))) with
  | some (k, r) =>
    let fl := (if pkt.abort then fAbort else 0) ||| (if m.release then fRelease else 0)
    .ok ((s2.landed n).counts k { r with flags := r.flags ||| fl } ends pkt.last)
  | none => .ok s2

/-- Land a piece of a packet of a message that has begun. -/
def State.landMore (s : State) (pkt : Packet) (ends : Bool) (i : InCh) (m : InMsg) : Delivered :=
  match m.at_ with
  | .record id =>
    match s.proc.landRec id with
    | some r => s.landPacket pkt ends i m id r
    | none => .ok (s.setProc (s.proc.setInbound { i with msg := none }))
  | .queue off => s.landQueued pkt ends i m off
  | .latch e rcd => s.landLatch pkt ends i m e rcd
  | .drop => .ok (s.setProc (s.proc.setInbound { i with msg := if pkt.last then none else some m }))

/-- The acquire of a release message, when its FIRST packet lands (R230, R374). An error met by a write-back traps nowhere: it is reported,
and the acquire goes on (R163; log entry 52). An acquire that has to wait is tried again when its wait is over. -/
def State.firstAcquire (s : State) (pkt : Packet) : Except State State :=
  if !pkt.release then .ok s
  else
    match s.acquireSteps pkt.sig with
    | .ok s1 => .ok s1
    | .machine s1 => .ok (s1.setProc ({ s1.proc with sigR := {} }.enterSig pkt.sig))
    | .wait s1 (.unitHome u) => .error (s1.holdDelivery (.unit u))
    | .wait s1 (.wbAck t) => .error (s1.after (t - s1.cycle) (.latchEntryAppend s1.proc.gid s1.proc.lid 0))
    | .wait s1 _ => .error (s1.afterOnce 1 (.latchEntryAppend s1.proc.gid s1.proc.lid 0))

/-- A message begins to land at a place. -/
def State.beginMsg (s : State) (pkt : Packet) (i : InCh) (a : LandAt) : State :=
  s.setProc (s.proc.setInbound { i with msg := some { tag := pkt.tag, len := pkt.len, got := 0, release := pkt.release, at_ := a } })

/-- Reserve a latch slot for the message of a FIRST packet (R316, R317), under the record that it matched where there is one. -/
def State.firstInLatch (s sa : State) (pkt : Packet) (i : InCh) (rcd : Option (Nat × Posted)) : Delivered :=
  let key := latchKey pkt.src pkt.ch
  match s.proc.reserveLatch key with
  | (p1, none) => .stuck (s.setProc p1)
  | (_, some id) =>
    let p2 := (sa.proc.reserveLatch key).1
    let p3 := match rcd with | some (slot, r) => p2.setLandRec slot (some r) | none => p2
    .ok ((sa.setProc p3).beginMsg pkt i (.latch id (rcd.map Prod.fst)))

/-- The delivery of a FIRST packet begins: its message gets the latch of a latch channel, the first matching record, or an entry of the
unexpected queue (R227, R231, R233). -/
def State.deliverFirst (s : State) (pkt : Packet) (i : InCh) : Delivered :=
  match s.firstAcquire pkt with
  | .error s1 => .stuck s1
  | .ok sa =>
  if i.latch then s.firstInLatch sa pkt i none
  else
    let sb := sa.leaveLatchWait (latchKey pkt.src pkt.ch)
    match s.proc.matchPosted pkt.src pkt.tag pkt.ch with
    | some (slot, r) =>
      let r1 := { r with landing := true, src := pkt.src, ch := pkt.ch, tag := pkt.tag, len := pkt.len }
      if r.rcd.mode = 3 ∧ pkt.len = 512 then s.firstInLatch sa pkt i (some (slot, r1))
      else
        let r2 := if r.rcd.mode = 3 then { r1 with flags := r1.flags ||| fTrunc, rcd := { r1.rcd with mode := 0, maxlen := 0 } } else r1
        .ok ((sb.setProc (sb.proc.setLandRec slot (some r2))).beginMsg pkt i (.record slot))
    | none =>
      match s.awayIn (s.own (s.proc.uqbase)) s.proc.uqsize with
      | some u => .stuck (s.holdDelivery (.unit u))
      | none =>
        match sb.uqAlloc pkt.src pkt.ch pkt.tag pkt.len pkt.release with
        | none => .blocked (s.leaveLatchWait (latchKey pkt.src pkt.ch))
        | some (s1, off) => .ok (s1.beginMsg pkt i (.queue off))

/-- After a delivery, in the cycle in which the packet's last bytes have landed: the next number is expected, and an acknowledgement is sent in
the next cycle, or the timer runs (R212, R219). DESIGN CHOICE: the delivery from which the 256 cycles run is that cycle (log entry 88). -/
def State.afterDelivery (s : State) (pkt : Packet) : State :=
  let p := s.proc
  match p.inbound pkt.src pkt.ch with
  | none => s
  | some i =>
    let k := i.sinceAck + 1
    let now := decide (8 ≤ k) || pkt.ackreq || pkt.close
    let i1 := { i with expect := (pkt.seq + 1) % 4096, sinceAck := if now then 0 else k, lastDeliver := s.cycle }
    let p1 := if pkt.close then { p with inb := p.inb.filter (fun x => !(x.src == pkt.src && x.ch == pkt.ch)) } else p.setInbound i1
    let s1 := s.setProc p1
    if now then s1.sendAck s.here { gid := p.gid, src := pkt.src, dst := p.lid, ch := pkt.ch, seq := pkt.seq } 1
    else s1.after 256 (.ackTimer p.gid p.lid pkt.src pkt.ch)

/-- Land the next `n` bytes of a packet; `ends` says that they are its last. -/
def State.packetPiece (s : State) (k : Packet) (off n : Nat) (ends : Bool) : Delivered :=
  match s.proc.inbound k.src k.ch with
  | none => .ok s
  | some i =>
    let d : Delivered := match i.msg with
      | some m =>
        if k.close then .ok s
        else s.landMore { k with payload := (k.payload.drop off).take n, last := k.last && ends, abort := k.abort && ends } ends i m
      | none => .ok s
    match d with
    | .ok s1 => .ok (if ends then s1.afterDelivery k else s1)
    | d => d

/-- The copy of an entry under a record is over: it counts, and what the record's mode asks of its latch slot is done. The entry may be
reclaimed once it is COMPLETE (R229, R230, R233, R317). -/
def State.copyOver (s : State) (id : Nat) (slot : Option Nat) (e : UqEnt) (r : Posted) : State :=
  let whole := e.got == 512 && !e.abort
  let fl := (if s.proc.copySize id < e.got then fTrunc else 0) ||| (if e.abort then fAbort else 0)
  let s1 := s.counts id { r with flags := r.flags ||| fl } true e.complete
  let p1 := { s1.proc with copies := s1.proc.copies.tail }
  let s2 : State := match slot with
    | none => s1.setProc p1
    | some l =>
      if e.complete then
        (s1.setProc (if whole then p1 else p1.dropLatch l)).after 1 (.latchEntryAppend p1.gid p1.lid (if whole then l else 0))
      else
        match p1.inbound e.src e.ch with
        | some i => s1.setProc (p1.setInbound { i with msg := i.msg.map (fun m => { m with at_ := .latch l (some id) }) })
        | none => s1.setProc p1
  (s2.setProc { s2.proc with uq := s2.proc.uq.map (fun x =>
    if x.off == e.off && !x.pad then { x with by_ := if e.complete then none else some id } else x) }).reclaim

/-- Copy the next `n` bytes of the entry that the first of the pending copies takes (R228, R235). -/
def State.copyPiece (s : State) (off n : Nat) (ends : Bool) : Delivered :=
  match s.proc.copies with
  | [] => .ok s
  | (id, slot) :: _ =>
    match s.proc.takenBy id, s.proc.landRec id with
    | some e, some r =>
      let fin (s1 : State) (k fl : Nat) : Delivered :=
        let r1 := { r with flags := r.flags ||| fl }
        let s2 := (s1.setProc (s1.proc.setLandRec id (some r1))).landed k
        .ok (if ends then s2.copyOver id slot e r1 else s2)
      let at_ : Word := BitVec.ofNat 64 (0xFFFF * 2 ^ 48 + e.off + 32 + off)
      match (if n = 0 then .ok s 0 0 else s.engReadRange false at_ n) with
      | .wait w => .stuck (s.holdDelivery w)
      | .fault s1 t _ => .faulted s1 t at_
      | .ok s1 v _ =>
        let bytes := leBytes n v
        if r.rcd.mode = 3 then
          fin (match slot with | some l => s1.setProc (s1.proc.mapLatch l (fun x => { x with bytes := x.bytes ++ bytes })) | none => s1) n 0
        else
          match s1.land r.rcd off bytes with
          | .ok s2 k fl => fin s2 k fl
          | .wait w => .stuck (s.holdDelivery w)
          | .fault s2 t _ => .faulted s2 t (r.rcd.byteAt off)
    | _, _ => .ok (s.setProc { s.proc with copies := s.proc.copies.tail })

/-- The source and channel of the landing in progress. -/
def Proc.landSource (p : Proc) (l : Landing) : Nat × Nat :=
  match l.pkt, p.landsUnder l with
  | some k, _ => (k.src, k.ch)
  | none, some r => (r.2.src, r.2.ch)
  | none, none => (0, 0)

/-- The next piece of the landing in progress lands. One that faults stays, with those before it, and suspends delivery (R228, R380). -/
def State.landPiece (s : State) (l : Landing) : Delivered :=
  let n := s.proc.pieceSize l
  let ends := decide (s.proc.landSize l ≤ l.off + n)
  match (match l.pkt with | some k => s.packetPiece k l.off n ends | none => s.copyPiece l.off n ends) with
  | .ok s1 =>
    if ends then .ok (s1.setProc { s1.proc with stream := none, landUntil := s1.cycle + 1 })
    else .ok (match s1.proc.stream with | some x => s1.nextPiece { x with off := x.off + n } 1 | none => s1)
  | .faulted s1 t va => let c := s.proc.landSource l; .faulted (s1.suspendLanding c.1 c.2 t va) t va
  | d => d

/-- The delivery of a packet of the process in focus begins. -/
def State.deliver (s : State) (pkt : Packet) (i : InCh) : Delivered := if pkt.first && !pkt.close then s.deliverFirst pkt i else .ok s

/-- Whether the thread is in a PRECV that has issued and has not yet posted its record or taken an entry (R235). -/
def Thread.inPrecv (t : Thread) : Bool :=
  t.live && t.trap.isNone && fld t.ir 23 6 == 0x36#6 && fld t.ir 0 8 == 0#8 && (t.ready != 0 || (t.wait.isSome && t.wait != some (.retry .fetch)))

/-- Whether a PRECV holds matching for the process in focus (R235). -/
def State.searching (s : State) : Bool := s.core.slots.toList.any Thread.inPrecv

/-- The packets that the process holds (R213). -/
def Proc.waiting (p : Proc) : List Packet := p.held ++ p.spilled.map Prod.snd

/-- A held packet is held no longer; while a message is blocked, only its own packet is (R233). -/
def Proc.unhold (p : Proc) (k : Packet) : Proc :=
  { p with held := p.held.filter (· != k), spilled := p.spilled.filter (fun e => e.2 != k), blocked := false, blockedBy := none }

/-- The lowest free slot of the spill area. -/
def Proc.spillSlot (p : Proc) : Nat := (firstFree (fun i => !p.spilled.any (fun e => e.1 == i)) 4128).getD 0

/-- Write a packet into the spill area (R213): 288 bytes, whose layout the spec leaves open (log entry 29), each part as any write of the hardware. -/
def State.spill (s : State) (k : Packet) : State :=
  let n := s.proc.spillSlot
  let a := s.proc.spill.toNat + 288 * n
  let s1 := (List.range 18).foldl (fun (acc : State) i =>
    acc.hardWrite (a + 16 * i) 16 (leNat ((List.range 16).map (fun j => Config.spillByte (s.free + 16 * i + j))))) s
  (s1.setProc { s1.proc with held := s1.proc.held.filter (· != k), spilled := s1.proc.spilled ++ [(n, k)] }).bump 288

/-- The reorder buffer keeps 64 packets: the last ones go to the spill area (R213). -/
def spillOver : Nat → State → State
  | 0, s => s
  | f + 1, s => if s.proc.held.length ≤ 64 then s else match s.proc.held.getLast? with | some k => spillOver f (s.spill k) | none => s

/-- Whether a held packet may be delivered now: next in sequence, and not a FIRST packet that a search makes wait. -/
def State.deliverable (s : State) (pkt : Packet) : Bool :=
  match s.proc.inbound pkt.src pkt.ch with
  | some i => i.expect == pkt.seq && !(pkt.first && !i.latch && s.searching)
  | none => false

/-- A message breakpoint that a packet about to be delivered meets, the first time that it is (R410). -/
def State.breaksOn (s : State) (pkt : Packet) : Bool :=
  pkt.first && !s.core.broke.contains pkt && (s.clusterAt (clusterOf s.here)).breaks.toList.any (fun b => match b with
    | .message lid tag mask => lid == s.proc.lid && ((pkt.tag ^^^ tag) &&& (0xFFFF - mask)) == 0
    | _ => false)

/-- The breakpoint that a packet meets halts the cluster before it lands (R410). -/
def State.breakAt (s : State) (pkt : Packet) : State :=
  ({ s with core := { s.core with broke := pkt :: s.core.broke.filter s.proc.waiting.contains } } : State).after 0 (.debugHalt (clusterOf s.here))

/-- A breakpoint has been met by a packet that is now delivered: it is forgotten (R410). -/
def State.forgetBreak (s : State) (pkt : Packet) : State := { s with core := { s.core with broke := s.core.broke.filter (· != pkt) } }

/-- Begin to deliver a held packet (R213): what has come of it, with the packet held no longer and its landing begun, or blocked. -/
def State.deliverHeld (s : State) (pkt : Packet) : Delivered :=
  match s.proc.inbound pkt.src pkt.ch with
  | none => .stuck s
  | some i =>
    match s.deliver pkt i with
    | .ok s1 => .ok (((s1.setProc (s1.proc.unhold pkt)).forgetBreak pkt).nextPiece { pkt := some pkt, due := s.cycle } 0)
    | .blocked s1 => .blocked (s1.setProc { s1.proc with blocked := true, blockedBy := some (pkt.src, pkt.ch) })
    | d => d

/-- The packet that the engine delivers next: the first of those held that can be delivered, and while a message is blocked its own only
(R213, R233). `skip` are packets found stuck in this pass. -/
def State.nextPacket (s : State) (skip : List Packet) : Option Packet :=
  s.proc.waiting.find? (fun p => s.deliverable p && !skip.contains p && (!s.proc.blocked || s.proc.blockedBy == some (p.src, p.ch)))

/-- What the receive engine does in this cycle (R213, R225, R233): the piece of the landing in progress that is due; then, while the engine
is free, the copies of PRECVs, and the packets that are held. A message that is blocked is tried again where `retry` says so. -/
def drainFrom : Nat → Bool → List Packet → State → State
  | 0, _, _, s => s
  | f + 1, retry, skip, s =>
    if s.proc.landFault.isSome then s
    else
      match s.proc.stream with
      | some l =>
        if s.cycle < l.due then s
        else
          match s.landPiece l with
          | .ok s1 => drainFrom f retry skip s1
          | .stuck s1 | .blocked s1 | .faulted s1 _ _ => s1
      | none =>
        if s.cycle < s.proc.landUntil then
          if s.proc.waiting.isEmpty && s.proc.copies.isEmpty then s
          else s.afterOnce (s.proc.landUntil - s.cycle) (.latchEntryAppend s.proc.gid s.proc.lid 0)
        else if !s.proc.copies.isEmpty then drainFrom f retry skip (s.nextPiece { pkt := none, due := s.cycle } 0)
        else if s.proc.blocked && !retry then s
        else
          match s.nextPacket skip with
          | none => s
          | some pkt =>
            if s.breaksOn pkt then s.breakAt pkt
            else
              match s.deliverHeld pkt with
              | .ok s1 => drainFrom f retry skip s1
              | .stuck s1 => if s.proc.blocked then s1 else drainFrom f retry (pkt :: skip) s1
              | .blocked s1 | .faulted s1 _ _ => s1

/-- Whether the receive engine of the core in focus delivers (R346, R386, R392, R409, R410): not on a halted core, in the transfer of a move,
while a breakpoint halts its cluster, or for a process that has been loaded and waits for its group. -/
def State.delivers (s : State) : Bool :=
  let cl := clusterOf s.here
  s.core.occupied && !s.core.halted && !(s.clusterAt cl).dbgHalted && !s.inTransfer s.here && s.proc.hold != some .loaded &&
    (s.core.broke.isEmpty || !s.agenda.any (fun e => e.2 == .debugHalt cl))

/-- Let the receive engine of the core in focus act. -/
def State.engineGoes (s : State) (retry : Bool) : State :=
  if s.delivers then drainFrom (4 * s.proc.waiting.length + 8) retry [] s else s

/-- Deliver what can be delivered for the process of the core in focus. -/
def State.drain (s : State) : State := s.engineGoes false

/-- Try a blocked message again before any other delivery, which go on once it is placed (R233); a PRECV that holds matching makes it wait
on. -/
def State.retryBlocked (s : State) : State := s.engineGoes true

/-- A report to the service network. -/
def State.report (s : State) (r : Report) : State := { s with module := { s.module with reports := s.module.reports ++ [r] } }

/-- A packet reaches the process of the core in focus (R35, R213, R214). -/
def State.receive (s : State) (pkt : Packet) : State :=
  let p := s.proc
  match p.inbound pkt.src pkt.ch with
  | none => s.report (.badPacket s.here pkt)
  | some i =>
    if 32 ≤ (pkt.seq + 4096 - i.expect) % 4096 then s.report (.badPacket s.here pkt)
    else spillOver 65 ((s.setProc { p with held := p.held ++ [pkt] }).drain)

/-- Whether a group is drained or parked: nothing is sent for it (R390). -/
def State.isParked (s : State) (gid : Nat) : Bool :=
  match s.groupOf gid with | some g => g.phase == .parking || g.phase == .parked | none => false

/-- Replace the gateway's end of a channel. -/
def State.setGate (s : State) (g : GateCh) : State :=
  { s with module := { s.module with gate := s.module.gate.map (fun x =>
      if x.gid == g.gid && x.lid == g.lid && x.ch == g.ch then g else x) } }

/-- The gateway sends an acknowledgement of what it has received of a channel (R212, R246). -/
def State.sendGateAck (s : State) (g : GateCh) : State :=
  let c := (s.coreOf g.gid g.lid).getD (s.placeLoc 0 g.gid g.lid).core
  s.after (transit 0 c + 4)
    (.ackArrival c { gid := g.gid, src := g.lid, dst := hostLid, ch := g.ch, seq := (g.expect + 4095) % 4096, origin := gateCore })

/-- The gateway acknowledges what it has received of a channel; while a message of it is held, the acknowledgement stays owed (R246). -/
def State.gateAck (s : State) (g : GateCh) : State :=
  if g.sinceAck = 0 ∨ s.isParked g.gid then s.setGate g
  else if !g.full.isEmpty then s.setGate { g with due := true }
  else (s.setGate { g with sinceAck := 0, due := false }).sendGateAck g

/-- ACK_TIMER (R212): 256 cycles since the channel's last delivery, with deliveries not acknowledged; lid HOST stands for the
gateway. DESIGN CHOICE: an acknowledgement that is owed is sent so while a fault suspends delivery (R380) too (log entry 95). -/
def execAckTimer (gid lid src ch : Nat) (s : State) : Out :=
  if s.isParked gid then .next s
  else if lid = hostLid then
    match s.module.gate.find? (fun g => g.gid == gid && g.lid == src && g.ch == ch) with
    | some g => .next (if s.cycle < g.last + 256 then s else s.gateAck g)
    | none => .next s
  else
  match s.coreOf gid lid with
  | none => .next s
  | some c =>
    let s := s.focus c
    match s.proc.inb.find? (fun i => i.src == src && i.ch == ch) with
    | none => .next s
    | some i =>
      if i.sinceAck = 0 ∨ s.cycle < i.lastDeliver + 256 then .next s
      else
        let s1 := s.setProc (s.proc.setInbound { i with sinceAck := 0 })
        .next (s1.sendAck c { gid := gid, src := src, dst := lid, ch := ch, seq := (i.expect + 4095) % 4096 } 0)

/-- The status granule of a message (R229). -/
def Posted.status (r : Posted) : Nat :=
  r.src + r.ch * 2 ^ 16 + r.flags * 2 ^ 24 + r.len * 2 ^ 32 + r.tag * 2 ^ 64 + r.rcd.cookie * 2 ^ 96

/-- MESSAGE_LANDED (R229, R230): packets that have landed count. After the last the status granule is written and made full, the counter
takes its increment, and the record is free. -/
def execMessageLanded (gid lid record : Nat) (s : State) : Out :=
  match s.coreOf gid lid with
  | none => .next s
  | some c =>
    let s := s.focus c
    match s.proc.landRec record with
    | none => .next s
    | some r =>
      let (now, later) := r.adds.partition (fun e => decide (e.1 ≤ s.cycle))
      let s0 := if now.isEmpty then s else s.setProc (s.proc.setLandRec record (some { r with adds := later }))
      let s0 := if now.isEmpty || r.rcd.inc || r.rcd.noctr then s0 else s0.addCtr r.rcd.ctr (now.map Prod.snd).sum
      if !(r.ends.any (fun t => decide (t ≤ s.cycle))) then .next s0
      else
        let g := s.own (16 * r.rcd.stat)
        match (if r.rcd.stat = 0 then none else s.awayIn g 16) with
        | some u => .next (s0.waitUnit u (.messageLanded gid lid record))
        | none =>
          let s1 := if r.rcd.stat = 0 then s0 else (s0.homeWrite g 16 r.status (2 ^ 16 - 1)).fillGranule g
          let s2 := s1.setProc (s1.proc.setLandRec record none)
          .next (if r.rcd.noctr then s2 else s2.addCtr r.rcd.ctr (if r.rcd.inc then 1 else r.lastBytes))

/-- What an entry's append or a slot that has come free does to the threads that wait for it: the MLDB that reserved the entry completes,
one that waits for an entry executes again at its next own turn after this cycle (R302, R319). -/
def Thread.latchChanged (t : Thread) (entry : Nat) (c : Nat) : Thread :=
  match t.wait with
  | some (.mldb _) => if entry ≠ 0 ∧ t.got = [entry] then { (t.resumedAfter c) with got := [] } else t
  | some (.retry .latchEmpty) => if entry ≠ 0 then { t with wait := some (.retry .appended), notBefore := c + 1 } else t
  | _ => t

/-- LATCH_ENTRY_APPEND (R302, R316, R317, R319): an entry's data has arrived, and the MLDB that reserved it completes; entry
0 names none and stands for a slot that has come free. Headers of the unexpected queue that waited are written (R183); blocked messages are
tried again (R233), and a PRECV whose search is over and which waits for a slot; a thread that completes with a pending HKILL ends (R256). DESIGN CHOICE: an MLDB whose data has arrived completes
though the landing of an entry before its own is not over (log entry 77). -/
def execLatchEntryAppend (gid lid entry : Nat) (s : State) : Out :=
  match s.coreOf gid lid with
  | none => .next s
  | some c =>
    let s := (s.focus c).putHeaders
    let s1 := s.setProc ((s.proc.mapLatch entry (fun e => { e with ready := true })).grantLatch 2)
    let s2 : State := { s1 with core := { s1.core with slots := vmap (fun t => t.latchChanged entry s.cycle) s1.core.slots } }
    let s2 := (List.range 12).foldl (fun (acc : State) i => if s.core.thr i != acc.core.thr i then acc.killNow i else acc) s2
    let searches := (List.range 12).filter (fun i => match (s2.core.thr i).wait with | some (.precv _ _ u) => decide (u ≤ s.cycle) | _ => false)
    .next (((searches.foldl (fun (acc : State) i => acc.afterOnce 0 (.threadResume c i)) s2).retryBlocked).noteGrants s.proc.mq)

/-! ### RECV (R234-R237) -/

/-- The entries of the queue from the head to the first that matches and is not TAKEN: how many are examined (R235). -/
def uqSearch (r : RecvRec) : List UqEnt → Nat × Option UqEnt
  | [] => (0, none)
  | e :: t =>
    if e.pad then uqSearch r t
    else if !e.taken && r.matches_ e.src e.tag e.ch then (1, some e)
    else let x := uqSearch r t; (x.1 + 1, x.2)

/-- What PRECV has done when it acts: its result, or a wait. -/
inductive RecvRes where
  | done (s : State) (v : Word)
  | wait (s : State)

/-- Take an entry under a record (R235): the receive engine copies the payload that is there, from the next cycle on or when it is free, and
later packets land directly. A message of 512 bytes that was cut off by an ABORT is no latch entry, but its bytes have come (R317). Table 9.9 gives the
time of the copy for 32 bytes; the others are the model's (log entry 57). -/
def State.takeEntry (s : State) (r0 : RecvRec) (e : UqEnt) : RecvRes :=
  let id := 64 + s.proc.nextOrder
  let whole := r0.mode == 3 && e.len == 512
  let r := if r0.mode == 3 && !whole then { r0 with mode := 0, maxlen := 0 } else r0
  let fl := (if e.release then fRelease else 0) ||| (if r0.mode == 3 && !whole then fTrunc else 0)
  let po : Posted := { rcd := r, order := s.proc.nextOrder, landing := true, slotless := true, src := e.src, ch := e.ch, tag := e.tag,
                       len := e.len, flags := fl }
  let key := precvKey s.slot.val
  let take (s1 : State) (slot : Option Nat) : RecvRes :=
    let p := s1.proc.setLandRec id (some po)
    .done ((s1.setProc { p with nextOrder := p.nextOrder + 1, copies := p.copies ++ [(id, slot)],
                                landUntil := max p.landUntil (s1.cycle + 1) }).setUq { e with taken := true, by_ := some id }) 64
  if whole && !e.abort then
    match s.proc.reserveLatch key with
    | (p1, none) => .wait (s.setProc p1)
    | (p1, some l) => take (s.setProc p1) (some l)
  else take (s.leaveLatchWait key) none

/-- Post a record in the lowest free slot, last in posting order (R235). -/
def Proc.post (p : Proc) (r : RecvRec) : Option (Proc × Nat) :=
  match firstFree (fun i => ((p.posted.toList[i]?).getD none).isNone) 64 with
  | none => none
  | some i =>
    some ({ p with posted := p.posted.setIfInBounds i (some { rcd := r, order := p.nextOrder }), nextOrder := p.nextOrder + 1 }, i)

/-- PRECV acts: it takes a queued message, or posts its record, or finds no room; a blocked message is tried again
(R233, R235). -/
def State.precvAct (s : State) (r : RecvRec) : RecvRes :=
  match (uqSearch r s.proc.uq).2 with
  | some e => s.takeEntry r e
  | none =>
    let s := s.leaveLatchWait (precvKey s.slot.val)
    match s.proc.post r with
    | some (p1, i) => .done (s.setProc p1) (BitVec.ofNat 64 i)
    | none => .done s (-1)

/-- PRECV (R226, R233, R235): it completes in its turn when the queue is empty; else it parks for the search. -/
def execPrecv (q : BitVec 3) (d a : BitVec 5) (s : State) : Out :=
  guarded q s (fun s =>
    andThen (readRecord 32 (s.rx a) s (fun s raw =>
      let r := readRecv raw
      if recvBad s.proc.winsize raw r then s.takeTrap .channel 0
      else
        let n := (uqSearch r s.proc.uq).1
        if n = 0 then
          match s.precvAct r with
          | .done s1 v =>
            match (s1.wx d v).retire with
            | .next s2 => .next s2.retryBlocked
            | o => o
          | .wait s1 => .next s1
        else
          let s1 := s.setThr { (s.thr.parked (.precv d (s.rx a) (s.cycle + n))) with got := [raw] }
          .next (s1.after n (.threadResume s.here s.slot.val))))
      (fun t => .next (if t.thr.trap.isSome && t.core.occupied then t.retryLater else t)))

/-- The search of a parked PRECV has ended (R235). -/
def State.precvEnds (s : State) : State :=
  match s.thr.wait, s.thr.got with
  | some (.precv d _ until_), raw :: _ =>
    if s.cycle < until_ then s
    else
      let slot := s.slot
      match s.precvAct (readRecv raw) with
      | .done s1 v =>
        let s2 := { s1 with slot := slot }
        ((s2.setThr { s2.thr with got := [] }).unparkX d v).retryBlocked
      | .wait s1 => s1
  | _, _ => s

/-- PCANCEL (R236). -/
def execPcancel (q : BitVec 3) (d a : BitVec 5) (s : State) : Out :=
  guarded q s (fun s =>
    let i := (s.rx a).toNat
    if 63 < i then s.takeTrap .channel 0
    else
      match s.proc.landRec i with
      | none => (s.wx d 2).retire
      | some r => if r.landing then (s.wx d 1).retire else ((s.setProc (s.proc.setLandRec i none)).wx d 0).retire)

/-- PROBE (R237). -/
def execProbe (q : BitVec 3) (d a : BitVec 5) (s : State) : Out :=
  guarded q s (fun s =>
    let v := (s.rx a).toNat
    let r := { readRecv v with chany := true }
    match (uqSearch r s.proc.uq).2 with
    | some e => (s.wx d (BitVec.ofNat 64 e.off)).retire
    | none => (s.wx d (-1)).retire)

/-- UQTAKE (R237). A PRECV that waits with the entry looks for another. -/
def execUqtake (q : BitVec 3) (d a : BitVec 5) (s : State) : Out :=
  guarded q s (fun s =>
    match s.proc.uq.find? (fun e => !e.pad && e.off == (s.rx a).toNat && !e.taken) with
    | some e => ((((s.setUq { e with taken := true }).reclaim).retryLater).wx d 0).retire
    | none => (s.wx d (-1)).retire)

/-- The value of UQCFG (Table 9.6). -/
def Proc.uqcfg (p : Proc) : Word :=
  BitVec.ofNat 64 (p.uqbase + (if p.blocked then 2 ^ 31 else 0) + p.uqsize * 2 ^ 32 + (p.uq.filter (fun e => !e.pad)).length * 2 ^ 52)

/-- A write of UQCFG (R231, R233). -/
def State.writeUqcfg (s : State) (v : Word) : State :=
  let p := s.proc
  if p.uq.any (fun e => !e.pad) then s.retryBlocked
  else
    let base := v.toNat % 2 ^ 18 / 256 * 256
    let size := v.toNat / 2 ^ 32 % 2 ^ 18 / 256 * 256
    (s.setProc { p with uqbase := base, uqsize := if p.winsize < base + size then (p.winsize - base) / 256 * 256 else size, uq := [],
                        uqtail := 0 }).retryBlocked

/-- UQCFG_WRITE (R231, R233). -/
def execUqcfgWrite (core : Nat) (val : Word) (s : State) : Out := .next ((s.focus core).writeUqcfg val)

/-! ### Arrival at a core (R213, R215, R253, R334) -/

/-- CHANNEL_PACKET_ARRIVAL at a core of the grid. One for a group that is drained or parked is discarded and reported, but for a host message
(R390). -/
def packetAtCore (core : Nat) (pkt : Packet) (s : State) : State :=
  if s.isParked pkt.gid && pkt.src != hostLid then s.report (.badPacket core pkt)
  else if s.inTransfer core then s.after 1 (.channelPacketArrival core pkt)
  else
    let s := s.focus core
    if s.core.occupied && s.core.proc.gid == pkt.gid && s.core.proc.lid == pkt.dst then s.receive pkt
    else
      let r := s.forwardOn core pkt.origin pkt.gid pkt.dst
      if r.2 ≠ core then r.1.after (transit core r.2) (.channelPacketArrival r.2 pkt)
      else if s.placeEntry core pkt.gid pkt.dst / 2 ^ 30 % 2 = 1 then
        s.sendAck core { gid := pkt.gid, src := pkt.src, dst := pkt.dst, ch := pkt.ch, seq := pkt.seq } 0
      else s.report (.badPacket core pkt)

end Sys2Proof.Machine
end

