-- ==== Sys2Proof/Machine/Vector.lean ====
section
/-! DEFINITION. Vector and mask instructions (spec 06): majors 0x20-0x24. -/

namespace Sys2Proof.Machine

/-! ### Lanes and masks (R135, R136) -/

/-- Lanes of a type (Table 6.1). -/
def laneCount (t : BitVec 3) : Nat := 256 / laneWidth t

/-- Lane `i` of `w` bits. -/
def lane (v : BitVec 256) (w i : Nat) : Nat := v.toNat / 2 ^ (w * i) % 2 ^ w

/-- Replace lane `i`. -/
def setLane (v : BitVec 256) (w i x : Nat) : BitVec 256 :=
  (v &&& ~~~ (BitVec.ofNat 256 ((2 ^ w - 1) * 2 ^ (w * i)))) ||| BitVec.ofNat 256 (x % 2 ^ w * 2 ^ (w * i))

/-- Compute lanes `i` to `i + n - 1` where they are active; an inactive lane keeps its bits and adds no flag (R136). -/
def laneLoop (w : Nat) (active : Nat → Bool) (f : Nat → Nat × FFlags) : Nat → Nat → BitVec 256 → FFlags → BitVec 256 × FFlags
  | 0, _, v, fl => (v, fl)
  | n + 1, i, v, fl =>
    if active i then
      let r := f i
      laneLoop w active f n (i + 1) (setLane v w i r.1) (fl ||| r.2)
    else laneLoop w active f n (i + 1) v fl

/-- A lane-wise instruction into V[d] (R136, R137). -/
def lanesInto (d : BitVec 4) (t : BitVec 3) (active : Nat → Bool) (f : Nat → Nat × FFlags) (s : State) : Out :=
  let r := laneLoop (laneWidth t) active f (laneCount t) 0 (s.rv d) 0
  (s.setThr ((s.thr.wv d r.1).flag r.2)).retire

/-- Lane `i` as a signed number. -/
def laneInt (w x : Nat) : Int := if x < 2 ^ (w - 1) then x else (x : Int) - 2 ^ w

/-- A number as `w` bits. -/
def ofInt (w : Nat) (i : Int) : Nat := (i % 2 ^ w).toNat

/-- What the lanes of a VOP compute: from the controls of the thread, the width and the lanes A, B and D. -/
structure LaneOp where
  int : Nat → Nat → Nat → Nat → Nat
  fp : Fmt → Nat → Bool → Bool → Nat → Nat → Nat → Nat × FFlags

/-- A VOP (R138, R139) with its integer and floating-point lanes. -/
def vop (o : LaneOp) (q t : BitVec 3) (d a b : BitVec 4) (k : BitVec 3) (s : State) : Out :=
  guarded q s (fun s =>
    let w := laneWidth t
    let th := s.thr
    let va := s.rv a
    let vb := s.rv b
    let vd := s.rv d
    let m := s.rk k
    lanesInto d t (fun i => m.getLsbD i) (fun i =>
      if laneFp t then o.fp (laneFmt t) th.rm th.daz th.ftz (lane va w i) (lane vb w i) (lane vd w i)
      else (o.int w (lane va w i) (lane vb w i) (lane vd w i), 0)) s)

/-- Bits of a shift amount: the low log2 w bits of its lane (R139). -/
def laneAmt (w b : Nat) : Nat := b % w

/-- The signed quotient of R78 at a lane's width. -/
def laneDiv (w a b : Nat) : Nat := (divS (BitVec.ofNat w a) (BitVec.ofNat w b)).toNat

/-! ### VOP (R139, Table 6.3) -/

/-- The lanes of VADD. -/
def laneVadd : LaneOp :=
  { int := fun w a b _ => (a + b) % 2 ^ w, fp := fun f rm daz ftz a b _ => f.add rm daz ftz a b }
/-- VADD (R139). -/
def execVadd (q t : BitVec 3) (d a b : BitVec 4) (k : BitVec 3) (s : State) : Out :=
  vop laneVadd q t d a b k s
/-- The lanes of VSUB. -/
def laneVsub : LaneOp :=
  { int := fun w a b _ => (a + 2 ^ w - b) % 2 ^ w, fp := fun f rm daz ftz a b _ => f.sub rm daz ftz a b }
/-- VSUB (R139). -/
def execVsub (q t : BitVec 3) (d a b : BitVec 4) (k : BitVec 3) (s : State) : Out :=
  vop laneVsub q t d a b k s
/-- The lanes of VMUL. -/
def laneVmul : LaneOp :=
  { int := fun w a b _ => a * b % 2 ^ w, fp := fun f rm daz ftz a b _ => f.mul rm daz ftz a b }
/-- VMUL (R139). -/
def execVmul (q t : BitVec 3) (d a b : BitVec 4) (k : BitVec 3) (s : State) : Out :=
  vop laneVmul q t d a b k s
/-- The lanes of VFMA. -/
def laneVfma : LaneOp :=
  { int := fun w a b d => (a * b + d) % 2 ^ w, fp := fun f rm daz ftz a b d => f.fma rm daz ftz false false a b d }
/-- VFMA (R139). -/
def execVfma (q t : BitVec 3) (d a b : BitVec 4) (k : BitVec 3) (s : State) : Out :=
  vop laneVfma q t d a b k s
/-- The lanes of VDIV. -/
def laneVdiv : LaneOp :=
  { int := fun w a b _ => laneDiv w a b, fp := fun f rm daz ftz a b _ => f.div rm daz ftz a b }
/-- VDIV (R139). -/
def execVdiv (q t : BitVec 3) (d a b : BitVec 4) (k : BitVec 3) (s : State) : Out :=
  vop laneVdiv q t d a b k s
/-- The lanes of VSQRT. -/
def laneVsqrt : LaneOp :=
  { int := fun _ _ _ _ => 0, fp := fun f rm daz ftz a _ _ => f.sqrt rm daz ftz a }
/-- VSQRT (R139). -/
def execVsqrt (q t : BitVec 3) (d a : BitVec 4) (k : BitVec 3) (s : State) : Out :=
  vop laneVsqrt q t d a a k s
/-- The lanes of VMIN. -/
def laneVmin : LaneOp :=
  { int := fun w a b _ => if laneInt w a < laneInt w b then a else b, fp := fun f _ daz _ a b _ => f.minMax daz false false a b }
/-- VMIN (R139). -/
def execVmin (q t : BitVec 3) (d a b : BitVec 4) (k : BitVec 3) (s : State) : Out :=
  vop laneVmin q t d a b k s
/-- The lanes of VMAX. -/
def laneVmax : LaneOp :=
  { int := fun w a b _ => if laneInt w a < laneInt w b then b else a, fp := fun f _ daz _ a b _ => f.minMax daz true false a b }
/-- VMAX (R139). -/
def execVmax (q t : BitVec 3) (d a b : BitVec 4) (k : BitVec 3) (s : State) : Out :=
  vop laneVmax q t d a b k s
/-- The lanes of VMINU. -/
def laneVminu : LaneOp :=
  { int := fun _ a b _ => min a b, fp := fun _ _ _ _ _ _ _ => (0, 0) }
/-- VMINU (R139). -/
def execVminu (q t : BitVec 3) (d a b : BitVec 4) (k : BitVec 3) (s : State) : Out :=
  vop laneVminu q t d a b k s
/-- The lanes of VMAXU. -/
def laneVmaxu : LaneOp :=
  { int := fun _ a b _ => max a b, fp := fun _ _ _ _ _ _ _ => (0, 0) }
/-- VMAXU (R139). -/
def execVmaxu (q t : BitVec 3) (d a b : BitVec 4) (k : BitVec 3) (s : State) : Out :=
  vop laneVmaxu q t d a b k s
/-- The lanes of VABS. -/
def laneVabs : LaneOp :=
  { int := fun w a _ _ => ofInt w (laneInt w a).natAbs, fp := fun f _ _ _ a _ _ => (f.abs a, 0) }
/-- VABS (R139). -/
def execVabs (q t : BitVec 3) (d a : BitVec 4) (k : BitVec 3) (s : State) : Out :=
  vop laneVabs q t d a a k s
/-- The lanes of VNEG. -/
def laneVneg : LaneOp :=
  { int := fun w a _ _ => ofInt w (-(laneInt w a)), fp := fun f _ _ _ a _ _ => (f.negate a, 0) }
/-- VNEG (R139). -/
def execVneg (q t : BitVec 3) (d a : BitVec 4) (k : BitVec 3) (s : State) : Out :=
  vop laneVneg q t d a a k s
/-- The lanes of VAND. -/
def laneVand : LaneOp :=
  { int := fun _ a b _ => a &&& b, fp := fun _ _ _ _ a b _ => (a &&& b, 0) }
/-- VAND (R139). -/
def execVand (q t : BitVec 3) (d a b : BitVec 4) (k : BitVec 3) (s : State) : Out :=
  vop laneVand q t d a b k s
/-- The lanes of VOR. -/
def laneVor : LaneOp :=
  { int := fun _ a b _ => a ||| b, fp := fun _ _ _ _ a b _ => (a ||| b, 0) }
/-- VOR (R139). -/
def execVor (q t : BitVec 3) (d a b : BitVec 4) (k : BitVec 3) (s : State) : Out :=
  vop laneVor q t d a b k s
/-- The lanes of VXOR. -/
def laneVxor : LaneOp :=
  { int := fun _ a b _ => a ^^^ b, fp := fun _ _ _ _ a b _ => (a ^^^ b, 0) }
/-- VXOR (R139). -/
def execVxor (q t : BitVec 3) (d a b : BitVec 4) (k : BitVec 3) (s : State) : Out :=
  vop laneVxor q t d a b k s
/-- The lanes of VSHL. -/
def laneVshl : LaneOp :=
  { int := fun w a b _ => a <<< laneAmt w b % 2 ^ w, fp := fun _ _ _ _ _ _ _ => (0, 0) }
/-- VSHL (R139). -/
def execVshl (q t : BitVec 3) (d a b : BitVec 4) (k : BitVec 3) (s : State) : Out :=
  vop laneVshl q t d a b k s
/-- The lanes of VSHRA. -/
def laneVshra : LaneOp :=
  { int := fun w a b _ => ofInt w (laneInt w a / 2 ^ laneAmt w b), fp := fun _ _ _ _ _ _ _ => (0, 0) }
/-- VSHRA (R139). -/
def execVshra (q t : BitVec 3) (d a b : BitVec 4) (k : BitVec 3) (s : State) : Out :=
  vop laneVshra q t d a b k s
/-- The lanes of VSHRL. -/
def laneVshrl : LaneOp :=
  { int := fun w a b _ => a >>> laneAmt w b, fp := fun _ _ _ _ _ _ _ => (0, 0) }
/-- VSHRL (R139). -/
def execVshrl (q t : BitVec 3) (d a b : BitVec 4) (k : BitVec 3) (s : State) : Out :=
  vop laneVshrl q t d a b k s
/-- The lanes of VMOV. -/
def laneVmov : LaneOp :=
  { int := fun _ a _ _ => a, fp := fun _ _ _ _ a _ _ => (a, 0) }
/-- VMOV (R139). -/
def execVmov (q t : BitVec 3) (d a : BitVec 4) (k : BitVec 3) (s : State) : Out :=
  vop laneVmov q t d a a k s
/-- VSEL: the mask selects, and every lane is written (R139). -/
def execVsel (q t : BitVec 3) (d a b : BitVec 4) (k : BitVec 3) (s : State) : Out :=
  guarded q s (fun s =>
    let w := laneWidth t
    let m := s.rk k
    lanesInto d t (fun _ => true) (fun i => (if m.getLsbD i then lane (s.rv a) w i else lane (s.rv b) w i, 0)) s)

/-! ### VCMP (R140) and KOP (R141, Table 6.4) -/

/-- The condition of a lane and its flags (R140, Table 2.13). -/
def laneCond (t cnd : BitVec 3) (daz : Bool) (a b : Nat) : Bool × FFlags :=
  let w := laneWidth t
  if laneFp t then
    let f := laneFmt t
    match cnd.toNat with
    | 0 => f.cond daz 0 a b
    | 1 => f.cond daz 6 a b
    | 2 => f.cond daz 1 a b
    | 3 => f.cond daz 2 a b
    | _ => f.cond daz 3 a b
  else
    (match cnd.toNat with
     | 0 => a == b
     | 1 => a != b
     | 2 => decide (laneInt w a < laneInt w b)
     | 3 => decide (laneInt w a ≤ laneInt w b)
     | 4 => decide (a < b)
     | _ => decide (a ≤ b), 0)

/-- VCMP (R140): the bits above the lane count are cleared. -/
def execVcmp (q kd : BitVec 3) (a b : BitVec 4) (t cnd kg : BitVec 3) (s : State) : Out :=
  guarded q s (fun s =>
    let w := laneWidth t
    let m := s.rk kg
    let r := (List.range (laneCount t)).foldl (fun (acc : Nat × FFlags) i =>
      if m.getLsbD i then
        let c := laneCond t cnd s.thr.daz (lane (s.rv a) w i) (lane (s.rv b) w i)
        (if c.1 then acc.1 + 2 ^ i else acc.1, acc.2 ||| c.2)
      else acc) (0, 0)
    (s.setThr ((s.thr.wk kd (BitVec.ofNat 32 r.1)).flag r.2)).retire)

/-- An instruction that computes one mask. -/
def toK (q d : BitVec 3) (f : Thread → BitVec 32) (s : State) : Out := guarded q s (fun s => (s.wk d (f s.thr)).retire)

/-- KAND. -/
def execKand (q d a b : BitVec 3) (s : State) : Out := toK q d (fun t => t.rk a &&& t.rk b) s
/-- KOR. -/
def execKor (q d a b : BitVec 3) (s : State) : Out := toK q d (fun t => t.rk a ||| t.rk b) s
/-- KXOR. -/
def execKxor (q d a b : BitVec 3) (s : State) : Out := toK q d (fun t => t.rk a ^^^ t.rk b) s
/-- KNOT. -/
def execKnot (q d a : BitVec 3) (s : State) : Out := toK q d (fun t => ~~~ (t.rk a)) s
/-- KSET. -/
def execKset (q d : BitVec 3) (a : BitVec 5) (s : State) : Out := toK q d (fun t => lo32 (t.rx a)) s
/-- KGET. -/
def execKget (q : BitVec 3) (d : BitVec 5) (a : BitVec 3) (s : State) : Out :=
  guarded q s (fun s => (s.wx d ((s.rk a).setWidth 64)).retire)
/-- KPOP. -/
def execKpop (q : BitVec 3) (d : BitVec 5) (a : BitVec 3) (s : State) : Out :=
  guarded q s (fun s => (s.wx d (BitVec.ofNat 64 (popN 32 (s.rk a).toNat))).retire)
/-- KTEST. -/
def execKtest (q d a b : BitVec 3) (s : State) : Out :=
  guarded q s (fun s => (s.setThr ((s.thr.wp d (s.rk a != 0)).wp b (s.rk a == 0))).retire)

/-! ### VXF (R142-R146, Table 6.6) -/

/-- A scalar operand of VXF: an x register for integer types, an f register for floating point (R142). -/
def State.scalarIn (s : State) (t : BitVec 3) (a : BitVec 5) : Nat := (if laneFp t then s.rf a else s.rx a).toNat

/-- VBCAST (R143). -/
def execVbcast (q t : BitVec 3) (d : BitVec 4) (a : BitVec 5) (k : BitVec 3) (s : State) : Out :=
  guarded q s (fun s =>
    let m := s.rk k
    lanesInto d t (fun i => m.getLsbD i) (fun _ => (s.scalarIn t a % 2 ^ laneWidth t, 0)) s)

/-- VEXT (R143). -/
def execVext (q t : BitVec 3) (zx : BitVec 1) (d : BitVec 5) (a : BitVec 4) (b : BitVec 5) (s : State) : Out :=
  guarded q s (fun s =>
    let w := laneWidth t
    let x := lane (s.rv a) w ((s.rx b).toNat % laneCount t)
    if laneFp t then (s.wf d (BitVec.ofNat 64 x)).retire
    else if zx = 1#1 then (s.wx d (BitVec.ofNat 64 x)).retire
    else (s.wx d (BitVec.ofInt 64 (laneInt w x))).retire)

/-- VINS (R143). -/
def execVins (q t : BitVec 3) (d : BitVec 4) (a b : BitVec 5) (s : State) : Out :=
  guarded q s (fun s =>
    let w := laneWidth t
    (s.wv d (setLane (s.rv d) w ((s.rx b).toNat % laneCount t) (s.scalarIn t a))).retire)

/-- VPERM (R143). -/
def execVperm (q t : BitVec 3) (d a b : BitVec 4) (s : State) : Out :=
  guarded q s (fun s =>
    let w := laneWidth t
    lanesInto d t (fun _ => true) (fun i =>
      let j := lane (s.rv b) w i
      (if j < laneCount t then lane (s.rv a) w j else 0, 0)) s)

/-- One level of a reduction tree (R144): element 2j is combined with element 2j + 1; a pair with one absent member passes
the other on, through `pas`. -/
def treeLevel (f : Nat → Nat → Nat × FFlags) (pas : Nat → Nat) : List (Option Nat) → List (Option Nat) × FFlags
  | some a :: some b :: t =>
    let r := f a b
    let u := treeLevel f pas t
    (some r.1 :: u.1, r.2 ||| u.2)
  | some a :: none :: t => let u := treeLevel f pas t; (some (pas a) :: u.1, u.2)
  | none :: b :: t => let u := treeLevel f pas t; (b.map pas :: u.1, u.2)
  | [a] => ([a], 0)
  | [] => ([], 0)

/-- The tree of a reduction: `n` levels. -/
def tree (f : Nat → Nat → Nat × FFlags) (pas : Nat → Nat) : Nat → List (Option Nat) → Option Nat × FFlags
  | 0, l => (l.head?.join, 0)
  | n + 1, l =>
    let r := treeLevel f pas l
    let u := tree f pas n r.1
    (u.1, r.2 ||| u.2)

/-- The active lanes of a register, in order. -/
def activeLanes (v : BitVec 256) (t : BitVec 3) (m : BitVec 32) : List (Option Nat) :=
  (List.range (laneCount t)).map (fun i => if m.getLsbD i then some (lane v (laneWidth t) i) else none)

/-- NV of the active signalling NaN lanes (R145). -/
def laneSnan (f : Fmt) (l : List (Option Nat)) : FFlags := snanFlag (l.filterMap (fun o => o.map f.val))

/-- What a floating-point reduction delivers of the value at its root (R145): a NaN as the default quiet NaN, a number with
its own bits. -/
def fpRoot (f : Fmt) (x : Nat) : Nat := if (f.val x).isNan then f.qnan else x

/-- VREDS (R144, R145). -/
def execVreds (q t : BitVec 3) (d : BitVec 5) (a : BitVec 4) (k : BitVec 3) (s : State) : Out :=
  guarded q s (fun s =>
    let w := laneWidth t
    let ls := activeLanes (s.rv a) t (s.rk k)
    let th := s.thr
    if laneFp t then
      let f := laneFmt t
      let r := tree (fun x y => f.add th.rm th.daz th.ftz x y) (f.dazCode th.daz) 4 ls
      let v := match r.1 with
        | some x => fpRoot f x
        | none => 0
      (s.setThr ((th.wf d (BitVec.ofNat 64 v)).flag (r.2 ||| laneSnan f ls))).retire
    else
      let r := tree (fun x y => ((x + y) % 2 ^ w, 0)) id 5 ls
      let v := match r.1 with
        | some x => laneInt w x
        | none => 0
      (s.wx d (BitVec.ofInt 64 v)).retire)

/-- What VREDN delivers when every lane is absent (R145). -/
def emptyMin (t : BitVec 3) (var : Nat) : Nat :=
  let w := laneWidth t
  if laneFp t then
    let f := laneFmt t
    if var = 0 then f.infCode else f.signBit + f.infCode
  else
    match var with
    | 0 => 2 ^ (w - 1) - 1
    | 1 => 2 ^ (w - 1)
    | 2 => 2 ^ w - 1
    | _ => 0

/-- VREDN (R144, R145). -/
def execVredn (q t : BitVec 3) (var : BitVec 2) (d : BitVec 5) (a : BitVec 4) (k : BitVec 3) (s : State) : Out :=
  guarded q s (fun s =>
    let w := laneWidth t
    let ls := activeLanes (s.rv a) t (s.rk k)
    let th := s.thr
    let vr := var.toNat
    if laneFp t then
      let f := laneFmt t
      let r := tree (fun x y => f.minMax th.daz (vr == 1) false x y) (f.dazCode th.daz) 4 ls
      let v := match r.1 with
        | some x => fpRoot f x
        | none => emptyMin t vr
      (s.setThr ((th.wf d (BitVec.ofNat 64 v)).flag (r.2 ||| laneSnan f ls))).retire
    else
      let pick (x y : Nat) : Nat :=
        match vr with
        | 0 => if laneInt w x < laneInt w y then x else y
        | 1 => if laneInt w x < laneInt w y then y else x
        | 2 => min x y
        | _ => max x y
      let r := tree (fun x y => (pick x y, 0)) id 5 ls
      let v := match r.1 with
        | some x => x
        | none => emptyMin t vr
      (s.wx d (if vr < 2 then BitVec.ofInt 64 (laneInt w v) else BitVec.ofNat 64 v)).retire)

/-- VREDX (R145): a signalling NaN in an active lane raises NV, also where the sum was poisoned before it. DESIGN CHOICE: the lanes are added from 0
up, which decides whether an infinity beside a quiet NaN raises NV (log entry 72). -/
def execVredx (q t d : BitVec 3) (a : BitVec 4) (k : BitVec 3) (s : State) : Out :=
  guarded q s (fun s =>
    let ls := activeLanes (s.rv a) t (s.rk k)
    let r := ls.foldl (fun (acc : Nat × FFlags) o => match o with
      | some x => xAdd acc (if laneFp t then (laneFmt t).val x else fvInt (laneInt (laneWidth t) x))
      | none => acc) (s.thr.xacc d, 0)
    (s.setThr ((s.thr.setXacc d r.1).flag (r.2 ||| (if laneFp t then laneSnan (laneFmt t) ls else 0)))).retire)

/-- One lane of VCVT (R146). -/
def cvtLane (th : Thread) (dst src : BitVec 3) (x : Nat) : Nat × FFlags :=
  let wd := laneWidth dst
  if laneFp src then
    let fs := laneFmt src
    if laneFp dst then convert fs (laneFmt dst) th.rm th.daz th.ftz x
    else
      let r := toRange th.rm (-(2 ^ (wd - 1))) (2 ^ (wd - 1) - 1) (fs.input th.daz x)
      (ofInt wd r.1, r.2)
  else
    let i := laneInt (laneWidth src) x
    if laneFp dst then (laneFmt dst).finish th.rm th.ftz (fvInt i, 0) else (ofInt wd i, 0)

/-- VCVT (R146): widening takes part `p` of the source lanes, narrowing writes part `p` of the destination lanes. -/
def execVcvt (q dst : BitVec 3) (part : BitVec 2) (src : BitVec 3) (d a : BitVec 4) (s : State) : Out :=
  guarded q s (fun s =>
    let wd := laneWidth dst
    let ws := laneWidth src
    let nd := laneCount dst
    let ns := laneCount src
    let p := part.toNat
    if ws ≤ wd then
      lanesInto d dst (fun _ => true) (fun i => cvtLane s.thr dst src (lane (s.rv a) ws (p * nd + i))) s
    else
      lanesInto d dst (fun i => decide (p * ns ≤ i) && decide (i < p * ns + ns))
        (fun i => cvtLane s.thr dst src (lane (s.rv a) ws (i - p * ns))) s)

/-! ### VQNT and VDQNT (R147-R149) -/

/-- The register that holds element `i` of a group (R147). -/
def groupReg (g : BitVec 2) (i : Nat) : BitVec 4 := BitVec.ofNat 4 (4 * g.toNat + i / 8)

/-- The 32 FP32 elements of a group. -/
def Thread.groupElems (t : Thread) (g : BitVec 2) : List Nat :=
  (List.range 32).map (fun i => lane (t.rv (groupReg g i)) 32 (i % 8))

/-- The largest magnitude of the elements, as mag · 2^exp compared by value: its leading exponent, none when all are zero. -/
def maxTop (l : List FV) : Option Int :=
  l.foldl (fun acc v => match v with
    | .fin _ m e => if m = 0 then acc else
      match acc with
      | some t => some (max t (topExp m e))
      | none => some (topExp m e)
    | _ => acc) none

/-- emax of a narrow format (R116). -/
def Fmt.emax (f : Fmt) : Int := if f.e = 0 then -f.bias else 2 ^ f.e - 1 - f.bias

/-- The codes and the scale byte that VQNT computes (R148). -/
def quantize (f : FDesc) (rm : Nat) (xs : List FV) : List Nat × Nat × FFlags :=
  if xs.any (fun v => match v with | .fin .. => false | _ => true) then
    (xs.map (fun _ => 0), 0xFF, snanFlag xs)
  else
    let se : Int :=
      match f.bs, maxTop xs with
      | true, some t => max (-127) (min 127 (t - f.fmt.emax))
      | _, _ => 0
    let r := xs.map (fun v => match v with
      | .fin n m e =>
        if !f.fmt.sg && n && m != 0 then (0, fOF ||| fNX) else f.fmt.roundFin rm false n m (e - se)
      | _ => (0, 0))
    (r.map Prod.fst, (se + 127).toNat, r.foldl (fun acc x => acc ||| x.2) 0)

/-- Codes packed into their containers (R116). -/
def packCodes (c : Nat) : List Nat → Nat
  | [] => 0
  | x :: t => x + 2 ^ c * packCodes c t

/-- VQNT (R147, R148). -/
def execVqnt (q : BitVec 3) (d : BitVec 4) (g : BitVec 2) (fm : BitVec 3) (b : BitVec 5) (s : State) : Out :=
  guarded q s (fun s =>
    match fmDesc (s.fmReg fm) with
    | some f =>
      if f.kind = 4 then
        let r := quantize f s.thr.rm ((s.thr.groupElems g).map fp32.val)
        let t := (s.thr.wv d (BitVec.ofNat 256 (packCodes f.container r.1))).flag r.2.2
        (s.setThr (t.wx b (BitVec.ofNat 64 r.2.1))).retire
      else s.takeTrap .format 0
    | none => s.takeTrap .format 0)

/-- A value scaled by a power of two. -/
def FV.scale (v : FV) (k : Int) : FV :=
  match v with
  | .fin n m e => .fin n m (e + k)
  | v => v

/-- Element `i` that VDQNT delivers (R149). -/
def dequantize (f : FDesc) (rm : Nat) (codes sc i : Nat) : Nat × FFlags :=
  if f.bs ∧ sc = 0xFF then (fp32.qnan, 0)
  else fp32.round rm false ((f.fmt.val (f.elem codes i)).scale (if f.bs then (sc : Int) - 127 else 0))

/-- Write the elements of a group from element `i` on. -/
def writeGroup (g : BitVec 2) (f : Nat → Nat × FFlags) : Nat → Nat → Thread → Thread
  | 0, _, t => t
  | n + 1, i, t =>
    let r := f i
    let reg := groupReg g i
    writeGroup g f n (i + 1) ((t.wv reg (setLane (t.rv reg) 32 (i % 8) r.1)).flag r.2)

/-- VDQNT (R147, R149): the codes and the scale are read before any register is written (R137). -/
def execVdqnt (q : BitVec 3) (g : BitVec 2) (fm : BitVec 3) (a : BitVec 4) (b : BitVec 5) (s : State) : Out :=
  guarded q s (fun s =>
    match fmDesc (s.fmReg fm) with
    | some f =>
      if f.kind = 4 then
        let codes := (s.rv a).toNat
        let sc := (s.rx b).toNat % 256
        (s.setThr (writeGroup g (dequantize f s.thr.rm codes sc) 32 0 s.thr)).retire
      else s.takeTrap .format 0
    | none => s.takeTrap .format 0)

end Sys2Proof.Machine
end

