-- ==== Sys2Proof/Machine/Matrix.lean ====
section
/-! DEFINITION. The matrix engine and the B latch (spec 13, R299-R329). -/

namespace Sys2Proof.Machine

/-! ### The summation rule (R305-R310) -/

/-- Number with the given digits of `w` bits, the lowest first. -/
def packDigits (w : Nat) : List Nat → Nat
  | [] => 0
  | d :: t => d % 2 ^ w + 2 ^ w * packDigits w t

/-- Digit `i` of `w` bits. -/
def digit (v w i : Nat) : Nat := v / 2 ^ (w * i) % 2 ^ w

/-- A term of an exact sum (R308): its value, and whether it makes the sum invalid. -/
structure Term where
  bad : Bool
  val : FV
  deriving DecidableEq, Repr

/-- A product of two elements; `nanScale` says that a scale of the position is 0xFF. -/
def productTerm (nanScale : Bool) (a b : FV) : Term :=
  if nanScale then { bad := true, val := .nan false }
  else
    let r := fvMul a b
    { bad := r.2 &&& fNV != 0, val := r.1 }

/-- The smallest exponent of the finite terms. -/
def minExp : List Term → Int → Int
  | [], e => e
  | t :: r, e => minExp r (match t.val with | .fin _ _ x => min e x | _ => e)

/-- The sum of the finite terms in units of 2^`e`. -/
def sumTerms (e : Int) : List Term → Int
  | [] => 0
  | t :: r => (match t.val with | .fin n m x => toSigned n (m * 2 ^ (x - e).toNat) | _ => 0) + sumTerms e r

/-- Sum1 (R308). -/
def sum1 (rm : Nat) (ftz : Bool) (ts : List Term) : Nat × FFlags :=
  let infs (n : Bool) : Bool := ts.any (fun t => t.val == .inf n)
  if ts.isEmpty then (0, 0)
  else if ts.any (·.bad) then (fp32.qnan, fNV)
  else if ts.any (fun t => t.val.isNan) then (fp32.qnan, 0)
  else if infs false && infs true then (fp32.qnan, fNV)
  else if infs false then (fp32.infCode, 0)
  else if infs true then (fp32.infCode + fp32.signBit, 0)
  else
    let e := minExp ts 0
    let v := sumTerms e ts
    if v = 0 then
      let neg := ts.all (fun t => t.val.sign) && ts.all (fun t => match t.val with | .fin _ m _ => m == 0 | _ => false)
      ((if neg || zeroSign rm then fp32.signBit else 0), 0)
    else fp32.round rm ftz (.fin (decide (v < 0)) v.natAbs e)

/-- Depth K of a container width (Table 13.1). -/
def depthOf (w : Nat) : Nat := 256 / w

/-- The depth-mask bit that governs position `k` (Table 13.1). -/
def depthBit (w k : Nat) : Nat := if w ≤ 16 then k / (16 / w) else k

/-- What an MMA reads: the two formats, the tile and the latch entry, the scales, the masks and the modes. -/
structure MmaIn where
  fa : FDesc
  fb : FDesc
  z : Bool
  tile : Nat
  entry : Nat
  sa : Nat
  sb : Nat
  depth : Nat
  rm : Nat
  ftz : Bool
  deriving DecidableEq, Repr

/-- The scale byte of line `i` at position `k` (R305). -/
def scaleOf (sc i k : Nat) : Nat := digit sc 8 (2 * i + k / 32)

/-- An element with its block scale applied (R305). -/
def scaled (f : FDesc) (code sc : Nat) : FV := (f.fmt.val code).scale (if f.bs then (sc : Int) - 127 else 0)

/-- The positions that are on (R307). -/
def MmaIn.positions (m : MmaIn) : List Nat :=
  let w := m.fa.container
  (List.range (depthOf w)).filter (fun k => m.depth.testBit (depthBit w k))

/-- One element of a product of narrow or 16-bit operands (R308); `c` is the old element. -/
def MmaIn.exact (m : MmaIn) (i j c : Nat) : Nat × FFlags :=
  let row := digit m.tile 256 i
  let col := digit m.entry 256 j
  let ts := m.positions.map (fun k =>
    let sa := scaleOf m.sa i k
    let sb := scaleOf m.sb j k
    productTerm ((m.fa.bs && sa == 255) || (m.fb.bs && sb == 255)) (scaled m.fa (m.fa.elem row k) sa) (scaled m.fb (m.fb.elem col k) sb))
  let old : List Term := if m.z then [] else [{ bad := (fp32.val c).isSnan, val := fp32.val c }]
  sum1 m.rm m.ftz (ts ++ old)

/-- The chain of R309 over the positions that are on. -/
def chain (m : MmaIn) (row col : Nat) : List Nat → Option Nat → FFlags → Nat × FFlags
  | [], c, fl => (c.getD 0, fl)
  | k :: rest, c, fl =>
    let f := m.fa.fmt
    let a := m.fa.elem row k
    let b := m.fa.elem col k
    let r := match c with
      | none => f.mul m.rm false m.ftz a b
      | some x => f.fma m.rm false m.ftz false false a b x
    chain m row col rest (some r.1) (fl ||| r.2)

/-- One element of an MMA (R308, R309). -/
def MmaIn.element (m : MmaIn) (i j c : Nat) : Nat × FFlags :=
  if m.fa.container ≤ 16 then m.exact i j c
  else chain m (digit m.tile 256 i) (digit m.entry 256 j) m.positions (if m.z then none else some c) 0

/-- The accumulator array after an MMA, of 256 elements of `w` bits, with the united flags (R300, R307, R310). -/
def MmaIn.result (m : MmaIn) (w rows cols old : Nat) : Nat × FFlags :=
  let es := (List.range 256).map (fun e =>
    let c := digit old w e
    if rows.testBit (e / 16) && cols.testBit (e % 16) then m.element (e / 16) (e % 16) c else (c, 0))
  (packDigits w (es.map (·.1)), (es.map (·.2)).foldl (· ||| ·) 0)

/-! ### The queue (R301, R302, R311, R312) -/

/-- Replace the engine's state. -/
def State.setMq (s : State) (m : MatQ) : State := s.setProc { s.proc with mq := m }

/-- The burst counter (R312). -/
def MatQ.burstAt (m : MatQ) (now : Nat) : Nat := m.burst - now

/-- Whether the engine is cold (R312). -/
def MatQ.isCold (m : MatQ) (now : Nat) : Bool := (m.cold || decide (m.busyUntil + 256 ≤ now)) && decide (m.burst ≤ now)

/-- Whether an op that starts now ramps (R311, R312). -/
def MatQ.coldAt (m : MatQ) (now : Nat) : Bool := m.isCold now && !m.ramped

/-- Enter an op that has passed its checks, or park for room in the queue (R302). A granted thread takes its entry. While the process's state
moves, an op of slot 11 waits: the engine is idle then (R329). -/
def State.enterOp (s : State) (mk : Nat → MOp) (bind : Proc → Proc) : Out :=
  let m := s.proc.mq
  let granted := m.granted.contains s.slot.val
  if s.inTransfer s.here then .next (s.dropGrant.parkRetry .hold)
  else if granted || (m.waiting.isEmpty && decide (m.queue.length + m.granted.length < 2)) then
    let m1 := { m with queue := m.queue ++ [mk m.nextId], nextId := m.nextId + 1, granted := m.granted.filter (· != s.slot.val) }
    let s1 := (s.setProc (bind { s.proc with mq := m1 })).park .op
    let t := max 1 (m.busyUntil - s.cycle)
    .next (if m.queue.isEmpty then s1.afterFirst t (.matrixOpStart s.proc.gid s.proc.lid) else s1)
  else
    .next ((s.setMq { m with waiting := if m.waiting.contains s.slot.val then m.waiting else m.waiting ++ [s.slot.val] }).parkRetry .opQueue)

/-- The front entry of the latch, where one has been appended (R316). -/
def Proc.frontLatch (p : Proc) : Option LatchEnt :=
  match p.latch.find? (fun e => !e.popped) with
  | some e => if e.ready then some e else none
  | none => none

/-! ### MMA and MMAZ (R313-R315, R328) -/

/-- The formats of an MMA, where they can be paired (R303, R314). -/
def mmaFormats (fa fb : Word) (acc : BitVec 2) : Option (FDesc × FDesc) :=
  match fmDesc fa, fmDesc fb with
  | some a, some b => if a.container ≠ b.container ∨ (a.kind = 0 ∧ acc.toNat % 2 = 1) then none else some (a, b)
  | _, _ => none

/-- The check of a tile's address (R314): aligned, and 512 bytes of the own window. -/
def State.tileFault (s : State) (t : Word) : Option (Trap × Word) :=
  if t.toNat % 32 ≠ 0 then some (.misalign, t)
  else
    match s.space t with
    | .own off => if s.proc.winsize < off + 512 then some (.window, t + BitVec.ofNat 64 (s.proc.winsize - off)) else none
    | _ => some (.window, t)

/-- MMA and MMAZ at their issue (R314). -/
def mmaIssue (z : Bool) (q : BitVec 3) (acc : BitVec 2) (a m : BitVec 5) (fA fB sp : BitVec 3) (s : State) : Out :=
  guarded q s (fun s =>
    let fa := s.fmReg fA
    let fb := s.fmReg fB
    match mmaFormats fa fb acc with
    | none => s.dropGrant.takeTrap .format 0
    | some _ =>
      let t := s.rx a
      match s.tileFault t with
      | some (k, va) => s.dropGrant.takeTrap k va
      | none =>
        match s.proc.frontLatch with
        | none => .next (s.dropGrant.parkRetry .latchEmpty)
        | some e =>
          let th := s.thr
          s.enterOp (fun id => { id := id, slot := s.slot.val, kind := .mma z, acc := acc.toNat, addr := t, ctl := s.rx m, fa := fa, fb := fb,
                                 rm := th.rm, ftz := th.ftz, va := th.rv (sp ++ 0#1), vb := th.rv (sp ++ 1#1), latch := e.id })
            (fun p => { p with latch := p.latch.map (fun x => if x.id == e.id then { x with bound := x.bound + 1 } else x) }))

/-- MMA (R313, R314). -/
def execMma (q : BitVec 3) (acc : BitVec 2) (a m : BitVec 5) (fA fB sp : BitVec 3) (s : State) : Out := mmaIssue false q acc a m fA fB sp s
/-- MMAZ (R313, R314). -/
def execMmaz (q : BitVec 3) (acc : BitVec 2) (a m : BitVec 5) (fA fB sp : BitVec 3) (s : State) : Out := mmaIssue true q acc a m fA fB sp s

/-! ### MCLR, MLDA, MSTA at their issue (R322-R324) -/

/-- MCLR (R324). -/
def execMclr (q : BitVec 3) (d : BitVec 2) (s : State) : Out :=
  guarded q s (fun s =>
    s.enterOp (fun id => { id := id, slot := s.slot.val, kind := .mclr, acc := d.toNat, addr := 0, ctl := 0 }) (fun p => p))

/-- MLDA (R322). -/
def execMlda (q : BitVec 3) (d : BitVec 2) (a : BitVec 5) (s : State) : Out :=
  guarded q s (fun s =>
    let t := s.rx a
    if t.toNat % 32 ≠ 0 then s.dropGrant.takeTrap .misalign t
    else
      match s.checkRange .r t 1024 with
      | .fault k va => s.dropGrant.takeTrap k va
      | .miss va => s.dropGrant.startWalk va
      | .ok => s.enterOp (fun id => { id := id, slot := s.slot.val, kind := .mlda, acc := d.toNat, addr := t, ctl := 0 }) (fun p => p))

/-- The stored elements of an MSTA in order, as their index and address (R323). -/
def storedElems (base ctl : Word) (e : Nat) : List (Nat × Word) :=
  let c := ctl.toNat
  ((List.range 256).filter (fun n => c.testBit (n / 16) && c.testBit (16 + n % 16))).map
    (fun n => (n, base + BitVec.ofNat 64 (n / 16 * (c / 2 ^ 32 % 2 ^ 16) + n % 16 * e)))

/-- The check of every stored element of an MSTA (R323, R68); a page of device registers takes PROTECT (R277). -/
def checkStored (s : State) (e : Nat) (els : List (Nat × Word)) : RangeRes :=
  worstRange (els.map (fun x =>
    match s.checkRange .w x.2 e with
    | .ok => match s.resolveNow (s.slot.val == 11) .w e x.2 x.1 with | .ok (.mmio _ _) _ _ _ => .fault .protect x.2 | _ => .ok
    | r => r))

/-- MSTA (R323). -/
def execMsta (q fm : BitVec 3) (acc : BitVec 2) (a b : BitVec 5) (s : State) : Out :=
  guarded q s (fun s =>
    let fw := s.fmReg fm
    match fmDesc fw with
    | none => s.dropGrant.takeTrap .format 0
    | some f =>
      if 4 ≤ f.kind ∨ (f.kind = 0 ∧ acc.toNat % 2 = 1) then s.dropGrant.takeTrap .format 0
      else
        let e := f.container / 8
        let t := s.rx a
        let c := s.rx b
        if t.toNat % e ≠ 0 then s.dropGrant.takeTrap .misalign t
        else if c.toNat / 2 ^ 32 % 2 ^ 16 % e ≠ 0 then s.dropGrant.takeTrap .misalign t
        else
          match checkStored s e (storedElems t c e) with
          | .fault k va => s.dropGrant.takeTrap k va
          | .miss va => s.dropGrant.startWalk va
          | .ok =>
            let th := s.thr
            s.enterOp (fun id => { id := id, slot := s.slot.val, kind := .msta, acc := acc.toNat, addr := t, ctl := c, fa := fw,
                                   rm := th.rm, ftz := th.ftz, daz := th.daz }) (fun p => p))

/-! ### The engine (R311, R315, R327) -/

/-- An accumulator as the ops ahead leave it (R301): what running ops will write counts, the latest first. -/
def Proc.accSeen (p : Proc) (i : Nat) : BitVec 8192 :=
  p.mq.running.foldl (fun v o => match o.res.find? (fun r => r.1 == i) with | some r => r.2 | none => v) ((p.acc.toList[i]?).getD 0)

/-- The pair of accumulators that an FP64 op names, as one number (R300). -/
def Proc.pairSeen (p : Proc) (i : Nat) : Nat := (p.accSeen i).toNat + 2 ^ 8192 * (p.accSeen (i + 1)).toNat

/-- The elements that an op computes or stores, those that the row and column masks of its control leave on (R307, R323), or all (R322,
R324). -/
def MOp.elems (op : MOp) : List Nat :=
  match op.kind with
  | .mma _ | .msta => (List.range 256).filter (fun e => op.ctl.toNat.testBit (e / 16) && op.ctl.toNat.testBit (16 + e % 16))
  | .mclr | .mlda => List.range 256

/-- Whether an op has FP64 elements: an MMA or an MSTA of that format (R300). -/
def MOp.pairs (op : MOp) : Bool :=
  match op.kind with
  | .mma _ | .msta => (fmDesc op.fa).any (fun f => f.kind == 0)
  | .mclr | .mlda => false

/-- The 4-byte words of the accumulators, 256 each, that hold the elements of an op: FP64 elements take two words each of a pair (R300). -/
def MOp.words (op : MOp) : List Nat :=
  if op.pairs then op.elems.flatMap (fun e => [256 * op.acc + 2 * e, 256 * op.acc + 2 * e + 1])
  else op.elems.map (256 * op.acc + ·)

/-- The words that an op writes. -/
def MOp.written (op : MOp) : List Nat := match op.kind with | .msta => [] | _ => op.words

/-- Whether an op would read an uncorrectable error in an accumulator (R315): a word that an op ahead of it writes anew is sound. -/
def Proc.accError (p : Proc) (op : MOp) : Bool :=
  p.accBad.any (fun w => op.words.contains w && !p.mq.running.any (fun o => !o.res.isEmpty && o.written.contains w))

/-- An uncorrectable error in a latch entry or an accumulator is reported (R163, R315). -/
def State.engineError (s : State) : State := { s with module := { s.module with reports := s.module.reports ++ [.engine s.here] } }

/-- The outcome of what an op does at its start. -/
inductive OpRes where
  | ok (s : State) (occ lat : Nat) (res : List (Nat × BitVec 8192)) (flags : FFlags)
  | fault (s : State) (t : Trap) (va : Word)
  | wait (w : EWait)

/-- An op's start: what it reads and computes, and what it writes to memory (R308-R310, R322-R324). -/
def State.startOp (s : State) (op : MOp) : OpRes :=
  let p := s.proc
  let sv := op.slot == 11
  match op.kind with
  | .mclr => .ok s 2 2 [(op.acc, 0)] 0
  | .mma z =>
    match mmaFormats op.fa op.fb (BitVec.ofNat 2 op.acc) with
    | none => .ok s 8 18 [] 0
    | some (fa, fb) =>
      match s.engReadRange sv op.addr 512 with
      | .fault s1 t va => .fault s1 t va
      | .wait w => .wait w
      | .ok s1 tile _ =>
        let ent := (p.latch.find? (fun e => e.id == op.latch)).getD { id := op.latch }
        let entry := leNat ent.bytes
        let c := op.ctl.toNat
        let m : MmaIn := { fa := fa, fb := fb, z := z, tile := tile, entry := entry, sa := op.va.toNat, sb := op.vb.toNat,
                           depth := c / 2 ^ 32 % 2 ^ 16, rm := op.rm, ftz := op.ftz }
        if ent.bad || (!z && p.accError op) then .fault s1.engineError .machine 0
        else if fa.kind = 0 then
          let r := m.result 64 (c % 2 ^ 16) (c / 2 ^ 16 % 2 ^ 16) (p.pairSeen op.acc)
          .ok s1 32 18 [(op.acc, BitVec.ofNat 8192 r.1), (op.acc + 1, BitVec.ofNat 8192 (r.1 / 2 ^ 8192))] r.2
        else
          let r := m.result 32 (c % 2 ^ 16) (c / 2 ^ 16 % 2 ^ 16) (p.accSeen op.acc).toNat
          .ok s1 (if fa.kind = 1 then 16 else 8) 18 [(op.acc, BitVec.ofNat 8192 r.1)] r.2
  | .mlda =>
    match s.engReadRange sv op.addr 1024 with
    | .fault s1 t va => .fault s1 t va
    | .wait w => .wait w
    | .ok s1 v t => .ok s1 (if t = 0 then 32 else t) 2 [(op.acc, BitVec.ofNat 8192 v)] 0
  | .msta =>
    match fmDesc op.fa with
    | none => .ok s 16 2 [] 0
    | some f =>
      let e := f.container / 8
      let els := storedElems op.addr op.ctl e
      let src := if f.kind = 0 then fp64 else fp32
      let old := if f.kind = 0 then p.pairSeen op.acc else (p.accSeen op.acc).toNat
      let conv (x : Nat × Word) : Nat × FFlags := convert src f.fmt op.rm op.daz op.ftz (digit old src.width x.1)
      match s.writeObstacle sv (els.map (fun x => (x.2, e))) (packDigits (8 * e) (els.map (fun x => (conv x).1))) false false with
      | some (.wait w) => .wait w
      | some (.fault s1 t va) => .fault s1 t va
      | _ =>
        if p.accError op then .fault s.engineError .machine 0
        else
        let r := els.foldl (fun (acc : State × Nat × FFlags) x =>
          let v := conv x
          match acc.1.engWrite sv x.2 e v.1 x.1 false false with
          | .ok s1 _ t => (s1, max acc.2.1 t, acc.2.2 ||| v.2)
          | _ => (acc.1, acc.2.1, acc.2.2 ||| v.2)) (s, 0, 0)
        .ok r.1 (if r.2.1 = 0 then 16 else r.2.1) 2 [] r.2.2

/-- A latch entry is no longer bound by an op (R316). -/
def Proc.unbind (p : Proc) (op : MOp) : Proc :=
  match op.kind with
  | .mma _ =>
    let l := p.latch.map (fun e => if e.id == op.latch then { e with bound := e.bound - 1 } else e)
    ({ p with latch := l.filter (fun e => !(e.popped && e.bound == 0 && !e.sending)) }).grantLatch 2
  | _ => p

/-- An op ends with a fault in its thread, with no effect (R315, R322); `m` is the engine's state without it. DESIGN CHOICE: the engine is free
in the next cycle (log entry 75). -/
def State.opFault (s : State) (m : MatQ) (op : MOp) (t : Trap) (va : Word) : State :=
  let m1 := ({ m with cold := false, ramped := false, busyUntil := s.cycle + 1, lastOp := s.cycle } : MatQ).grantOps 2
  let s1 := s.setProc ({ s.proc with mq := m1 }.unbind op)
  let s2 := if m.queue.isEmpty then s1 else s1.afterFirst 1 (.matrixOpStart s.proc.gid s.proc.lid)
  let s3 : State := { s2 with slot := Fin.ofNat 12 op.slot }
  ((s3.trapParked t.code va).after 257 (.engineCold s.proc.gid s.proc.lid)).after 0 (.latchEntryAppend s.proc.gid s.proc.lid 0)

/-- The read of a started MLDA reaches its range (R253, R322). -/
def lateRead (op : MOp) (s : State) : Out :=
  let m := s.proc.mq
  let gid := s.proc.gid
  let lid := s.proc.lid
  match s.startOp op with
  | .wait w => .next (s.waitOn w (.matrixOpStart gid lid))
  | .fault s1 t va => .next (s1.opFault { s1.proc.mq with running := m.running.filter (fun o => o.id != op.id) } op t va)
  | .ok s1 occ lat res fl =>
    let left := occ - s.engReach (op.slot == 11) .r op.addr 1024 false
    let op1 := { op with res := res, flags := fl.toNat, late := false, doneAt := s.cycle + left + lat }
    let m1 : MatQ := { s1.proc.mq with running := m.running.map (fun o => if o.id == op.id then op1 else o),
                                       busyUntil := max m.busyUntil (s.cycle + left) }
    let s2 := s1.setMq m1
    let s3 := if m.queue.isEmpty then s2 else s2.afterFirst (m1.busyUntil - s.cycle) (.matrixOpStart gid lid)
    .next ((s3.after (left + lat) (.matrixOpComplete gid lid)).after (left + 256) (.engineCold gid lid))

/-- What MATRIX_OP_START does on the core that holds the process. -/
def opStart (gid lid c : Nat) (s : State) : Out :=
  let m := s.proc.mq
  let ev : Instr := .matrixOpStart gid lid
  match m.running.find? (·.late), m.queue with
  | some op, _ => if op.doneAt ≤ s.cycle then lateRead op s else .next s
  | none, [] => .next s
  | none, op :: rest =>
    let hold := (s.clusterAt (clusterOf c)).droopUntil
    if s.cycle < m.busyUntil then .next (s.afterFirst (m.busyUntil - s.cycle) ev)
    else if m.coldAt s.cycle then .next ((s.setMq { m with ramped := true }).afterFirst 24 ev)
    else if s.cycle < hold then .next (s.afterFirst (hold - s.cycle) ev)
    else if s.core.halted || s.core.hot || (s.clusterAt (clusterOf c)).dbgHalted then .next (s.afterFirst 1 ev)
    else
      let again (s : State) (n : Nat) : State := if rest.isEmpty then s else s.afterFirst n ev
      match s.startOp op with
      | .wait w => .next (s.waitOn w ev)
      | .fault s1 t va => .next (s1.opFault { s1.proc.mq with queue := rest } op t va)
      | .ok s1 occ lat res fl =>
        let reach := if op.kind = .mlda then s.engReach (op.slot == 11) .r op.addr 1024 false else 0
        if reach ≠ 0 then
          let op1 := { op with late := true, doneAt := s.cycle + reach }
          let m1 := ({ m with queue := rest, running := m.running ++ [op1], cold := false, ramped := false,
                              busyUntil := s.cycle + occ } : MatQ).grantOps 2
          .next ((s.setMq m1).afterFirst reach ev)
        else
        let op1 := { op with res := res, flags := fl.toNat, doneAt := s.cycle + occ + lat }
        let m1 := ({ s1.proc.mq with queue := rest, running := s1.proc.mq.running ++ [op1], cold := false, ramped := false,
                                     busyUntil := s.cycle + occ } : MatQ).grantOps 2
        let s2 := again (s1.setMq m1) occ
        .next ((s2.after (occ + lat) (.matrixOpComplete gid lid)).after (occ + 256) (.engineCold gid lid))

/-- MATRIX_OP_START (R311, R312, R315): not before the end of the previous occupancy, 24 cycles later on a cold engine, and
in no droop hold, not on a halted or a hot core (R386, R406, R408, R409). A fault ends the op at once, in its thread, with no effect. -/
def execMatrixOpStart (gid lid : Nat) (s : State) : Out :=
  match s.coreOf gid lid with
  | none => .next s
  | some c =>
    let s := s.focus c
    andThen (opStart gid lid c s) (fun t => .next (t.noteGrants s.proc.mq))

/-- MATRIX_OP_COMPLETE (R301, R310, R311): the results and flags are written; an op that is overtaken leaves alone what the
later op has written. The issuing thread goes on at its first own turn after this cycle. -/
def execMatrixOpComplete (gid lid : Nat) (s : State) : Out :=
  match s.coreOf gid lid with
  | none => .next s
  | some c =>
    let s := s.focus c
    let m := s.proc.mq
    match m.running.find? (fun o => !o.late && decide (o.doneAt ≤ s.cycle)) with
    | none => .next s
    | some op =>
      let others := m.running.filter (fun o => o.id != op.id)
      let cut (o : MOp) : MOp :=
        if o.id < op.id then { o with res := o.res.filter (fun r => !(op.res.any (fun x => x.1 == r.1))) } else o
      let p1 := { s.proc with acc := op.res.foldl (fun (a : Vector (BitVec 8192) 4) (r : Nat × BitVec 8192) => a.setIfInBounds r.1 r.2) s.proc.acc,
                              accBad := s.proc.accBad.filter (fun w => !op.written.contains w),
                              mq := { m with running := others.map cut, lastOp := s.cycle } }
      let s1 : State := { s.setProc (p1.unbind op) with slot := Fin.ofNat 12 op.slot }
      let t := s1.thr
      let s2 := match t.wait with
        | some .op => s1.setThr { (t.flag (BitVec.ofNat 5 op.flags)).resumed with notBefore := s.cycle + 1 }
        | _ => s1
      .next (((s2.killNow op.slot).after 0 (.latchEntryAppend gid lid 0)).noteGrants s.proc.mq)

/-- ENGINE_COLD (R312). -/
def execEngineCold (gid lid : Nat) (s : State) : Out :=
  match s.coreOf gid lid with
  | none => .next s
  | some c =>
    let s := s.focus c
    let m := s.proc.mq
    if !m.queue.isEmpty || m.cold || decide (s.cycle < m.busyUntil + 256) then .next s
    else if s.cycle < m.burst then .next (s.after (m.burst - s.cycle) (.engineCold gid lid))
    else .next (s.setMq { m with cold := true })

/-! ### MTX (R318-R321, R325, R326) -/

/-- The read of an MLDB whose slot is reserved (R319): the entry is appended 16 cycles after its issue, a non-local range
adding its reply time; a fault frees the slot. -/
def State.mldbRead (s : State) (va : Word) (id : Nat) : State :=
  match s.engReadRange (s.slot.val == 11) va 512 with
  | .wait w => s.waitOn w (.threadResume s.here s.slot.val)
  | .fault s1 t a =>
    let s2 := s1.setProc (s1.proc.dropLatch id)
    (s2.trapParked t.code a).after 0 (.latchEntryAppend s.proc.gid s.proc.lid 0)
  | .ok s1 v t =>
    let p := s1.proc.mapLatch id (fun e => { e with bytes := leBytes 512 v })
    ((s1.setProc p).setThr { s1.thr with got := [id] }).after (16 + (t - t / 2)) (.latchEntryAppend p.gid p.lid id)

/-- The reply time of a range, where it can be read now (Table 7.1). -/
def State.rangeTime (s : State) (va : Word) : Nat :=
  match s.engReadRange (s.slot.val == 11) va 512 with
  | .ok _ _ t => t
  | _ => 0

/-- MLDB (R302, R319). While it reads, the thread keeps the slot's number and the address. One of slot 11 waits while the process's state moves
(R329). -/
def execMldb (q : BitVec 3) (a : BitVec 5) (s : State) : Out :=
  guarded q s (fun s =>
    let va := s.rx a
    if va.toNat % 32 ≠ 0 then s.dropGrant.takeTrap .misalign va
    else
      match s.checkRange .r va 512 with
      | .fault k f => s.dropGrant.takeTrap k f
      | .miss f => s.dropGrant.startWalk f
      | .ok =>
        let p := s.proc
        let slot := s.slot.val
        let granted := p.mq.latchGrant.contains slot
        if s.inTransfer s.here then .next (s.dropGrant.parkRetry .hold)
        else if granted || (p.mq.latchWait.isEmpty && decide (p.latch.length + p.mq.latchGrant.length < 2)) then
          let id := p.nextLatch + 1
          let p1 := { p with latch := p.latch ++ [{ id := id }], nextLatch := id,
                             mq := { p.mq with latchGrant := p.mq.latchGrant.filter (· != slot) } }
          let far := match s.space va with | .own _ => !s.thr.storeQ.isEmpty | .other lid _ => lid != p.lid | _ => true
          let s1 := (s.setProc p1).setThr { s.thr.parked (.mldb far) with got := [id, va.toNat] }
          if s.thr.storeQ ≠ [] then .next s1
          else
            let t := s.rangeTime va
            .next (if t = 0 then s1.mldbRead va id else s1.after (t / 2) (.threadResume s.here slot))
        else
          let w := p.mq.latchWait
          .next ((s.setMq { p.mq with latchWait := if w.contains slot then w else w ++ [slot] }).parkRetry .latchFull))

/-- The read of a parked MLDB begins. -/
def State.mldbGoes (s : State) : State :=
  match s.thr.got with
  | [id, va] => s.mldbRead (BitVec.ofNat 64 va) id
  | _ => s

/-- MPASS (R320). One of slot 11 waits while the process's state moves (R329). One that waits for the handle to come free keeps its popped entry and makes no check again. -/
def execMpass (q : BitVec 3) (a : BitVec 5) (s : State) : Out :=
  guarded q s (fun s =>
    let ctl := s.rx a
    let h := ctl.toNat % 32
    let o := s.proc.handle h
    let send (s : State) (id : Nat) : Out :=
      match s.proc.handle h, s.proc.latch.find? (fun e => e.id == id) with
      | some o, some e =>
        let wait (on : RetryOn) : Out := .next ((s.setThr { s.thr with got := [sendMark h, id] }).parkRetry on)
        if s.thr.storeQ ≠ [] then wait .storeEmpty
        else if o.cur.isSome then wait (.sendBusy h)
        else
          let cur : SendCur := { slot := s.slot.val, addr := none, bytes := e.bytes, len := 512, off := 0, tag := 0, release := false,
                                 sig := {}, latch := some id, abort := false }
          let s1 := s.park (.send h)
          .next (s1.inject s1.here (s1.proc.setHandle h (some { o with cur := some cur })) h)
      | _, _ => s.takeTrap .channel 0
    match s.thr.got with
    | [_, id] => send s id
    | _ =>
      if ctl.extractLsb' 5 11 ≠ 0 ∨ ctl.extractLsb' 32 32 ≠ 0 then s.takeTrap .channel 0
      else
        match o with
        | none => s.takeTrap .channel 0
        | some o =>
          if o.closing ∨ !o.latch then s.takeTrap .channel 0
          else
            if s.inTransfer s.here then .next (s.parkRetry .hold)
            else
            match s.proc.frontLatch with
            | none => .next (s.parkRetry .latchEmpty)
            | some e =>
              if e.bad then s.engineError.takeTrap .machine 0
              else send (s.setProc (s.proc.mapLatch e.id (fun x => { x with popped := true, sending := true }))) e.id)

/-- MPOP (R321). -/
def execMpop (q : BitVec 3) (d : BitVec 5) (s : State) : Out :=
  guarded q s (fun s =>
    match s.proc.frontLatch with
    | none => (s.wx d 1).retire
    | some e =>
      let p := s.proc.mapLatch e.id (fun x => { x with popped := true })
      let s1 := (s.setProc (p.latchSent e.id)).after 0 (.latchEntryAppend p.gid p.lid 0)
      (s1.wx d 0).retire)

/-- MBURST (R325). -/
def execMburst (q : BitVec 3) (a : BitVec 5) (s : State) : Out :=
  guarded q s (fun s =>
    let n := min (s.rx a).toNat 65535
    let m := s.proc.mq
    let s1 := (s.setMq { m with burst := s.cycle + n }).after (max (m.busyUntil + 256 - s.cycle) 0) (.engineCold s.proc.gid s.proc.lid)
    s1.retire)

/-- MSTAT (R326, Table 13.8). DESIGN CHOICE: IDLE is 255 before the first op, counts from the completion of the last, and goes on with the process
when it moves (log entry 76). -/
def execMstat (q : BitVec 3) (d : BitVec 5) (s : State) : Out :=
  guarded q s (fun s =>
    let p := s.proc
    let m := p.mq
    let busy := !m.running.isEmpty
    let cold := !busy && m.isCold (max (s.cycle + 1) m.busyUntil)
    let idle := if busy then 0 else if m.lastOp = 0 then 255 else min 255 (s.cycle - m.lastOp)
    let live := p.latch.filter (fun e => !e.popped)
    let v := m.burstAt s.cycle * 2 ^ 48 + (if cold then 2 ^ 24 else 0) + idle * 2 ^ 16 +
      (p.latch.filter (·.popped)).length * 2 ^ 10 + (live.takeWhile (·.ready)).length * 2 ^ 8 + m.queue.length * 2 ^ 4 + (if busy then 1 else 0)
    (s.wx d (BitVec.ofNat 64 v)).retire)

end Sys2Proof.Machine
end

