-- ==== Sys2Proof/Machine/Copy.lean ====
section
/-! DEFINITION. The copy and gather engine (spec 12, R275-R298). Its requests move by chunks and elements; the parameter-block
cache changes only timing (R287) and has no state here. -/

namespace Sys2Proof.Machine

/-! ### Request words (R278-R285) -/

/-- KIND of a request. -/
def CopyReq.kind (r : CopyReq) : Nat := r.w0.toNat % 8
/-- LEN of a request. -/
def CopyReq.len (r : CopyReq) : Nat := r.w0.toNat / 2 ^ 40
/-- AUX of a request. -/
def CopyReq.aux (r : CopyReq) : Nat := r.w0.toNat / 2 ^ 8 % 2 ^ 16
/-- Counter number. -/
def CopyReq.ctr (r : CopyReq) : Nat := r.w0.toNat / 2 ^ 26 % 64
/-- INC flag. -/
def CopyReq.inc (r : CopyReq) : Bool := r.w0.getLsbD 25
/-- NOCTR flag. -/
def CopyReq.noctr (r : CopyReq) : Bool := r.w0.getLsbD 24
/-- ORD flag. -/
def CopyReq.ord (r : CopyReq) : Bool := r.w0.getLsbD 3
/-- REV flag. -/
def CopyReq.rev (r : CopyReq) : Bool := r.w0.getLsbD 5

/-- Whether word 3 names `n` aligned bytes of the own window. -/
def ownBlock (winsize : Nat) (w3 : Word) (n : Nat) : Bool :=
  w3.toNat / 2 ^ 48 == 0xFFFF && w3.toNat % n == 0 && decide (w3.toNat % 2 ^ 48 + n ≤ winsize)

/-- WellFormed of a push (R290). -/
def pushOk (winsize : Nat) (w0 w3 : Word) : Bool :=
  let n := w0.toNat
  let kind := n % 8
  let len := n / 2 ^ 40
  let aux := n / 2 ^ 8 % 2 ^ 16
  let ci := n / 2 ^ 25 % 2 ^ 7
  kind != 7 && n / 2 ^ 32 % 256 == 0 && n / 2 ^ 6 % 4 == 0 && n / 2 ^ 4 % 2 == 0 &&
  !(n / 2 ^ 5 % 2 == 1 && kind != 5) && !(aux != 0 && kind != 1 && kind != 2 && kind != 3) && !(kind == 5 && len != 0) &&
  !(n / 2 ^ 24 % 2 == 1 && ci != 0) &&
  (match kind with
   | 0 | 4 => w3 == 0
   | 2 | 3 => ownBlock winsize w3 32
   | 5 => ownBlock winsize w3 64
   | 6 => w3.toNat / 2 ^ 48 == 0 && w3.toNat % 8 == 0
   | _ => true)

/-- A tensor shape record (R283). -/
structure Shape where
  ndim : Nat
  fmt : Nat
  size : List Nat
  str : List Nat
  part : List Nat
  blk : List Nat
  deriving DecidableEq, Repr

/-- The fields of a record of 64 bytes, where it is valid (R284). -/
def readShape (r : Nat) : Option Shape :=
  let f4 (off : Nat) : List Nat := (List.range 4).map (fun i => recField r (off + 4 * i) 4)
  let f2 (off : Nat) : List Nat := (List.range 4).map (fun i => recField r (off + 2 * i) 2)
  let k : Shape := { ndim := recField r 0 1, fmt := recField r 1 1, size := f4 8, str := f4 24, part := f2 40, blk := f2 48 }
  let unused := (k.size.drop k.ndim ++ k.str.drop k.ndim ++ k.part.drop k.ndim ++ k.blk.drop k.ndim).all (· == 0)
  let used := ((k.part.take k.ndim) ++ (k.blk.take k.ndim)).all (· != 0)
  if 1 ≤ k.ndim ∧ k.ndim ≤ 4 ∧ k.fmt < 8 ∧ recField r 2 6 = 0 ∧ recField r 56 8 = 0 ∧ unused ∧ used then some k else none

/-- Bytes of an element of a format register, where SLICE can move it (R284). -/
def sliceSize (fm : Word) : Option Nat :=
  match fmDesc fm with
  | some d => if d.container = 4 then none else some (d.container / 8)
  | none => none

/-- The number of indices below `size` that are mine along one dimension (R285). -/
def mineCount (size part blk c : Nat) : Nat :=
  let turn := blk * part
  size / turn * blk + min blk (size % turn - c * blk)

/-- The `l`-th of them. -/
def mineAt (part blk c l : Nat) : Nat := l / blk * (blk * part) + c * blk + l % blk

/-- The dimensions of a shape as (size, stride, partitions, block, own partition) for a lid; none for a lid beyond the
partitions (R285). -/
def Shape.dims (k : Shape) (lid : Nat) : Option (List (Nat × Nat × Nat × Nat × Nat)) :=
  let rec go (q : Nat) : List (Nat × Nat × Nat × Nat) → Option (List (Nat × Nat × Nat × Nat × Nat))
    | [] => if q = 0 then some [] else none
    | (sz, st, pt, bl) :: t => (go (q / pt) t).map (fun l => (sz, st, pt, bl, q % pt) :: l)
  go lid (((k.size.zip (k.str.zip (k.part.zip k.blk)))).take k.ndim)

/-- The elements of the local part. -/
def shapeTotal (d : List (Nat × Nat × Nat × Nat × Nat)) : Nat :=
  d.foldl (fun n e => n * mineCount e.1 e.2.2.1 e.2.2.2.1 e.2.2.2.2) 1

/-- The byte offset in the tensor of element `n` of the local part. -/
def shapeOffset : List (Nat × Nat × Nat × Nat × Nat) → Nat → Nat
  | [], _ => 0
  | (sz, st, pt, bl, c) :: t, n =>
    let m := mineCount sz pt bl c
    mineAt pt bl c (n % m) * st + shapeOffset t (n / m)

/-! ### What a request does at its cursor (R280, R282, R285, R286) -/

/-- The next thing that a request does: move bytes, write bytes, read an index, pass over an element; or nothing more. The
last number is what the cursor advances by. -/
inductive CpOp where
  | move (src dst : Word) (n adv : Nat)
  | put (val : Nat) (dst : Word) (n adv : Nat) (oor : Bool)
  | index (va : Word)
  | pass
  | done
  deriving DecidableEq, Repr

/-- Whether COPY and PUT go from the end (R280): the destination starts inside the source. -/
def CopyReq.backward (r : CopyReq) : Bool := r.w2 != r.w1 && decide ((r.w2 - r.w1).toNat < r.len)

/-- The pattern of a FILL over `n` bytes from a multiple of 8 on. -/
def fillBytes (pat : Nat) : Nat → Nat
  | 0 => 0
  | n + 1 => pat + 2 ^ 64 * fillBytes pat n

/-- The next operation of a request whose block has been read; `lid` is the process's lid. -/
def CopyReq.next (r : CopyReq) (lid : Nat) : CpOp :=
  let w (n : Nat) : Word := BitVec.ofNat 64 n
  let c := r.cursor
  let len := r.len
  match r.kind with
  | 1 =>
    if len = 0 ∨ len * (r.aux + 1) ≤ c then .done
    else
      let row : Word := w (c / len)
      let n := min 64 (len - c % len)
      let ss := sext r.w3 32
      let ds := sext (r.w3 >>> 32) 32
      .move (r.w1 + row * ss + w (c % len)) (r.w2 + row * ds + w (c % len)) n n
  | 2 =>
    if len ≤ c then .done
    else
      let e := r.aux + 1
      match r.idx with
      | none => .index (w (r.blk.headD 0) + w (8 * c))
      | some k =>
        if (r.blk.getD 1 0) ≤ k then .put 0 (r.w2 + w (c * e)) e 1 true
        else .move (r.w1 + w k * w (r.blk.getD 2 0)) (r.w2 + w (c * e)) e 1
  | 3 =>
    if len ≤ c then .done
    else
      let e := r.aux + 1
      match r.idx with
      | none => .index (w (r.blk.headD 0) + w (8 * c))
      | some k =>
        if (r.blk.getD 1 0) ≤ k then .pass
        else .move (r.w1 + w (c * e)) (r.w2 + w k * w (r.blk.getD 2 0)) e 1
  | 4 =>
    if len ≤ c then .done
    else
      let n := min 64 (len - c)
      .put (fillBytes r.w1.toNat 8 % 256 ^ n) (r.w2 + w c) n n false
  | 5 =>
    match (readShape (r.blk.headD 0)).bind (fun k => (k.dims lid).map (fun d => (k, d))) with
    | none => .done
    | some (k, d) =>
      if shapeTotal d ≤ c then .done
      else
        let e := (sliceSize ((r.fms.toList[k.fmt]?).getD 0)).getD 1
        let t := r.w1 + w (shapeOffset d c)
        let p := r.w2 + w (c * e)
        if r.rev then .move p t e 1 else .move t p e 1
  | _ =>
    if len ≤ c then .done
    else
      let n := min (if r.kind = 6 then 256 else 64) (len - c)
      let pos := if r.backward then len - c - n else c
      .move (r.w1 + w pos) (r.w2 + w pos) n n

/-! ### The FIFO (R275, R276, R295) -/

/-- Replace a request. -/
def Proc.mapReq (p : Proc) (id : Nat) (f : CopyReq → CopyReq) : Proc :=
  { p with fifo := p.fifo.map (fun r => if r.id == id then f r else r) }

/-- Append a request, which takes the next id (R275). -/
def Proc.enqueue (p : Proc) (r : CopyReq) : Proc :=
  { p with fifo := p.fifo ++ [{ r with id := p.nextId }], lastId := p.nextId, nextId := if p.nextId = 2 ^ 32 - 1 then 1 else p.nextId + 1 }

/-- Whether a request still issues accesses, has a write that waits at its place, or holds its place because it is suspended (R276, R291). -/
def CopyReq.busy (r : CopyReq) : Bool := r.wr.isSome || (!r.aborted && ((!r.lastIssued && r.state == 2) || r.state == 3))

/-- Whether a request has started and has still to read its block or record (R287). -/
def CopyReq.unread (r : CopyReq) : Bool := r.busy && r.state == 2 && (r.kind == 2 || r.kind == 3 || r.kind == 5) && r.blk == []

/-- The cycle since when the engines of the core in focus issue no access (R386, R392, R409): on a halted core, in a debug halt, or for a
process that waits for its group to resume. -/
def State.stoppedAt (s : State) : Option Nat :=
  let k := s.clusterAt (clusterOf s.here)
  if s.proc.hold == some .loaded then some 0
  else
    match s.core.halted, k.dbgHalted with
    | true, true => some (min s.core.haltAt k.dbgSince)
    | true, false => some s.core.haltAt
    | false, true => some k.dbgSince
    | false, false => none

/-- Whether the engines of the core in focus act. -/
def State.enginesAct (s : State) : Bool := s.stoppedAt.isNone

/-- Whether an access of an engine that is at its place now, `d` cycles after its issue, has been issued: those issued before a stop complete
(R409). -/
def State.issuedBy (s : State) (d : Nat) : Bool := match s.stoppedAt with | none => true | some h => decide (s.cycle ≤ h + d)

/-- Whether they may issue further accesses: not while the process is held for parking, when those that are issued complete (R292). -/
def State.enginesRun (s : State) : Bool := s.enginesAct && s.proc.hold != some .preempt

/-- The request that may start next (R276). -/
def Proc.nextReq (p : Proc) : Option CopyReq :=
  if p.fifo.any (·.busy) then none
  else
    match p.fifo.find? (fun r => r.state == 1 && !r.aborted) with
    | some r => if r.ord && (p.fifo.head?.map (·.id)) != some r.id then none else some r
    | none => none

/-- Let a request start that may (R276, R294). -/
def State.startNext (s : State) (n : Nat) : State :=
  if s.proc.nextReq.isSome then s.afterOnce n (.copyRequestStart s.proc.gid s.proc.lid) else s

/-- The steps that are to come, or wait: for a cycle, at a unit, at a bank, or for another module. -/
def State.pendingSteps (s : State) : List Instr :=
  s.agenda.map Prod.snd ++ (s.units.map (·.waiting)).flatten ++ (s.clusters.map (fun k => k.2.bankWait.map Prod.snd ++ k.2.paused.map Prod.snd)).flatten ++
    s.far.filterMap (fun f => if f.val.isNone then f.step else none)

/-- Let the engine go on after a halt or a hold: its request in progress, or the next. -/
def State.kickCopy (s : State) : State :=
  match s.proc.fifo.find? (fun r => r.busy && (r.state == 2 || r.wr.isSome)) with
  | some r =>
    let e : Instr := if r.unread then .copyRequestStart s.proc.gid s.proc.lid else .engineAccessReply s.proc.gid s.proc.lid r.id
    if s.pendingSteps.contains e then s else s.after 1 e
  | none => s.startNext 1

/-- Whether an id has been retired (R295). -/
def Proc.idRetired (p : Proc) (id : Nat) : Bool := decide ((p.lastRet + 2 ^ 32 - id) % 2 ^ 32 < 2 ^ 31)

/-- Whether an id has been issued (R295). -/
def Proc.idIssued (p : Proc) (id : Nat) : Bool :=
  let d := (id + 2 ^ 32 - p.lastId) % 2 ^ 32
  id != 0 && !(decide (1 ≤ d) && decide (d < 2 ^ 31))

/-- A parked CPWAIT whose id is retired goes on at its first own turn after this cycle (R295). -/
def Thread.testCpwait (t : Thread) (p : Proc) (now : Nat) : Thread :=
  match t.wait with
  | some (.cpwait d id) => if p.idRetired id then { (t.wx d 0).resumed with notBefore := now + 1 } else t
  | _ => t

/-- Test the CPWAITs of the core in focus; those of a held process when the hold ends (R345). -/
def State.testCpwaits (s : State) : State :=
  { s with core := { s.core with slots := vmapIdx (fun i t =>
      if s.proc.hold.isSome && i != 11 then t else t.testCpwait s.proc s.cycle) s.core.slots } }

/-- The push that may enter now (R275, R294): the FIFO has room, and the threads of a held process stay parked (R345). -/
def Proc.pushFree (p : Proc) : Option CopyReq :=
  if 8 ≤ p.fifo.length then none else p.pushQ.find? (fun r => r.slot == 11 || p.hold.isNone)

/-- Pushes that wait enter the FIFO in their order as room is made (R275, R294): the id reaches X[d], and the thread goes on at its
first own turn after this cycle. -/
def State.enterPushes : Nat → State → State
  | 0, s => s
  | f + 1, s =>
    match s.proc.pushFree with
    | none => s
    | some r =>
      let p := { s.proc with pushQ := s.proc.pushQ.filter (fun q => q.slot != r.slot) }
      let t := s.core.thr r.slot
      match t.wait with
      | some (.push d) =>
        State.enterPushes f (((s.setProc (p.enqueue r)).setThrAt s.here r.slot
          { (t.wx d (BitVec.ofNat 64 p.nextId)).resumed with notBefore := s.cycle + 1 }).startNext 4)
      | _ => State.enterPushes f (s.setProc p)

/-- Retire requests at the head of the FIFO that have completed (R276, R288). -/
def retireReqs : Nat → State → State
  | 0, s => s
  | f + 1, s =>
    match s.proc.fifo with
    | r :: rest =>
      if r.state = 4 then
        let p := s.proc
        let done := ({ r with state := 0 } :: p.done).take 16
        let s1 := s.setProc { p with fifo := rest, done := done, lastRet := r.id }
        retireReqs f (if r.inc && !r.noctr then s1.addCtr r.ctr 1 else s1)
      else s
    | [] => s

/-- A request whose writes are all acknowledged completes; what can retire retires, pushes that wait enter, CPWAITs are tested, and the
next may start (R276). -/
def State.completeReq (s : State) (id : Nat) : State :=
  match s.proc.fifo.find? (fun r => r.id == id) with
  | none => s
  | some r =>
    if (r.lastIssued || r.aborted) && r.wr.isNone && r.acked == r.issued && r.state != 4 then
      let s1 := (s.setProc (s.proc.mapReq id (fun r => { r with state := 4 })))
      let s2 := retireReqs 9 (if r.aborted then s1 else s1.copyLanded id)
      (s2.testCpwaits.enterPushes 11).startNext 1
    else s

/-- Suspend a request with a fault (R291): the record holds the address at the cursor (R378), and for a fault of the block, the record or the
counter word of a request that starts the address of that (log entry 68). DESIGN CHOICE: WORD has the cursor modulo 2^24 (log entry 90). -/
def State.suspendReq (s : State) (r : CopyReq) (t : Trap) (va : Word) : State :=
  let rcd : TrapRec := { pc := 0, addr := va, code := Trap.engine.code, slot := r.slot, src := 1, frame := false, pass := 0, posn := 0,
                         info := BitVec.ofNat 32 r.id, word := BitVec.ofNat 32 (r.cursor % 2 ^ 24), cause := t.code }
  (s.setProc (s.proc.mapReq r.id (fun x => { x with state := 3, cause := t.code }))).raise s.here rcd

/-- The time of the next read of a request, as far as it can be told now (R298, Table 7.1). -/
def State.cpTime (s : State) (op : CpOp) : Nat :=
  match op with
  | .move src _ n _ => (match s.engReadRange false src n with | .ok _ _ t => max 1 t | _ => 1)
  | .index va => (match s.engReadRange false va 8 with | .ok _ _ t => max 1 t | _ => 1)
  | _ => 1

/-- The cycles from one operation to the next (R298), when the read of it takes `t`: 64 bytes a cycle, and at most 16 reads of at most
256 bytes in flight. -/
def CpOp.pace (op : CpOp) (t : Nat) : Nat :=
  match op with
  | .move _ _ n _ => max ((n + 63) / 64) ((n + 255) / 256 * ((t + 15) / 16))
  | .put _ _ n _ _ => max 1 ((n + 63) / 64)
  | _ => (t + 15) / 16

/-- The time that the write of an operation takes to reach its place (R253, R291). -/
def State.cpReach (s : State) (r : CopyReq) (op : CpOp) : Nat :=
  match op with
  | .move _ dst n _ => s.engReach false .w dst n (r.kind == 6)
  | .put _ dst n _ _ => s.engReach false .w dst n (r.kind == 6)
  | _ => 0

/-- Whether the last write of a request is issued; the next operation is due otherwise (R298). `late` is 1 for a first operation that is looked at in the cycle after the start (R287). -/
def State.cpGoOn (s : State) (id : Nat) (first : Bool) (late : Nat := 0) : State :=
  match s.proc.fifo.find? (fun r => r.id == id) with
  | none => s
  | some r =>
    let op := r.next s.proc.lid
    if op = .done then ((s.setProc (s.proc.mapReq id (fun x => { x with lastIssued := true }))).completeReq id).startNext 1
    else if !s.enginesRun then s
    else
      let t := s.cpTime op
      s.after (if first then t + s.cpReach r op - late else op.pace t) (.engineAccessReply s.proc.gid s.proc.lid id)

/-- The check of a block or record that has been read at the start (R284, R291): what the request keeps of it. -/
def checkBlock (r : CopyReq) (v : Nat) : Except Trap (List Nat) :=
  if r.kind = 5 then
    match readShape v with
    | none => .error .engine
    | some k => if (sliceSize ((r.fms.toList[k.fmt]?).getD 0)).isNone then .error .format else .ok [v]
  else if recField v 24 8 ≠ 0 then .error .engine
  else .ok [recField v 0 8, recField v 8 8, recField v 16 8]

/-- Read the 16-byte parts of a block that have not been read: what has been read, and what is in the way of the others. -/
def State.readParts (s : State) (r : CopyReq) : State × List (Nat × Nat) × Option ERes :=
  ((List.range (if r.kind = 5 then 4 else 2)).filter (fun i => !r.parts.any (fun p => p.1 == i))).foldl (fun acc i =>
    match acc.1.engRead false (r.w3 + BitVec.ofNat 64 (16 * i)) 16 (16 * i) with
    | .ok s1 v _ => (s1, acc.2.1 ++ [(i, v)], acc.2.2)
    | .fault s1 t va => (s1, acc.2.1, acc.2.2.or (some (.fault s1 t va)))
    | .wait w => (acc.1, acc.2.1, acc.2.2.or (some (.wait w)))) (s, r.parts, none)

/-- A request that has started reads its block or record, after every access of its start cycle and in one pass: a part whose unit is away is
read when that returns, the others then (R183, R284, R287). A record with an illegal format is FORMAT before ENGINE is asked only when the
record is valid. -/
def State.readBlock (s : State) (r : CopyReq) : State :=
  let x := s.readParts r
  let keep (parts : List (Nat × Nat)) (s : State) : State := s.setProc (s.proc.mapReq r.id (fun y => { y with parts := parts }))
  match x.2.2 with
  | some (.fault _ t va) => (keep [] x.1).suspendReq r t va
  | some (.wait w) => (keep x.2.1 x.1).waitOn w (.copyRequestStart s.proc.gid s.proc.lid)
  | _ =>
    match checkBlock r (x.2.1.map (fun p => p.2 * 2 ^ (128 * p.1))).sum with
    | .error t => (keep [] x.1).suspendReq r t r.w3
    | .ok blk => (x.1.setProc (x.1.proc.mapReq r.id (fun y => { y with blk := blk, parts := [] }))).cpGoOn r.id true 1

/-- COPY_REQUEST_START (R276, R284, R286, R287): a request becomes active. One with a block or record reads it when the cycle is over, whatever
stops the engine then. -/
def execCopyRequestStart (gid lid : Nat) (s : State) : Out :=
  match s.coreOf gid lid with
  | none => .next s
  | some c =>
    let ev : Instr := .copyRequestStart gid lid
    if s.inTransfer c then .next (s.after 1 ev)
    else
      let s := s.focus c
      match s.proc.fifo.find? (·.unread), s.enginesRun, s.proc.nextReq with
      | some r, _, _ => .next (s.readBlock r)
      | none, true, some r =>
        let s1 := s.setProc (s.proc.mapReq r.id (fun x => { x with state := 2, cause := 0 }))
        if ({ r with state := 2 } : CopyReq).unread then .next (s1.afterFirst 1 ev)
        else if r.kind = 6 then
          match s.resolveNow false .rw 8 r.w3 0 with
          | .fault t => .next (s.suspendReq r t r.w3)
          | .miss => .next (s.waitOn (s.walkWait false r.w3) ev)
          | .ok (.mmio _ _) _ _ _ => .next (s.suspendReq r .protect r.w3)
          | .ok .. => .next (s1.cpGoOn r.id true)
        else .next (s1.cpGoOn r.id true)
      | none, _, _ => .next s

/-- The time until the acknowledgement of a write is counted (R298). -/
def ackTime (t : Nat) : Nat := t + 1

/-- The time from the read of an index to the element (R298): the element's own for the first, else what it adds to the pace. -/
def State.afterIndex (s : State) (id : Nat) (local_ : Bool) : Nat :=
  match s.proc.fifo.find? (fun r => r.id == id) with
  | none => 0
  | some r =>
    let op := r.next s.proc.lid
    match op with
    | .pass => 0
    | _ =>
      let t := s.cpTime op
      if r.cursor = 0 then (match op with | .move src _ n _ => (match s.engReadRange false src n with | .ok _ _ k => k | _ => 0) | _ => 0) + s.cpReach r op
      else op.pace t - (if local_ then 1 else 0)

/-- A write of a request has been performed: the count of it goes on, and the next operation. -/
def State.cpWrote (s : State) (r : CopyReq) (w : CpWrite) (t : Nat) : State :=
  let g := s.proc.gid
  let l := s.proc.lid
  let s1 := s.setProc (s.proc.mapReq r.id (fun x =>
    { x with cursor := x.cursor + w.adv, idx := none, wr := none, issued := x.issued + w.n, oor := min (x.oor + w.oor) 0xFFFFFF }))
  let s2 := if r.kind = 6 then s1.after (t + 1) (.putCounterAdd g l r.id w.n) else s1.after (ackTime t) (.engineAccessAck g l r.id w.n)
  if r.aborted then s2.startNext 1 else s2.cpGoOn r.id false

/-- Perform a write of a request, or let it wait at its place, with its bytes held in the request (R183, R297). A fault of it suspends the
request; that of an aborted one is dropped. -/
def State.cpWrite (s : State) (r : CopyReq) (w : CpWrite) : State :=
  match s.engWriteRange false w.dst w.n w.val (r.kind == 6) true with
  | .wait e =>
    (s.setProc (s.proc.mapReq r.id (fun x => { x with wr := some { w with sent := true } }))).waitOn e (.engineAccessReply s.proc.gid s.proc.lid r.id)
  | .fault s1 t _ =>
    let s2 := s1.setProc (s1.proc.mapReq r.id (fun x => { x with wr := none }))
    if r.aborted then (s2.completeReq r.id).startNext 1 else s2.suspendReq r t w.dst
  | .ok s1 _ t => s1.cpWrote r w (t - s.cpReach r (r.next s.proc.lid))

/-- The operation of a request at its cursor, whose accesses are at their places now (R280, R282, R285, R291): a faulting chunk or element has no
effect and suspends the request. Where the engine has stopped, accesses issued before complete; bytes read whose write has not been issued
are kept for it (R386, R409). -/
def State.cpStep (s : State) (r : CopyReq) (ev : Instr) : State :=
  let op := r.next s.proc.lid
  let issued (d : State → Nat) : Bool := s.enginesAct || s.issuedBy (d s)
  match op with
  | .done => if s.enginesAct then s.cpGoOn r.id false else s
  | .pass =>
    if s.enginesAct then
      (s.setProc (s.proc.mapReq r.id (fun x => { x with cursor := x.cursor + 1, idx := none, oor := min (x.oor + 1) 0xFFFFFF }))).cpGoOn r.id false
    else s
  | .index va =>
    if !issued (fun s => s.cpTime op) then s
    else if va.toNat % 8 ≠ 0 then s.suspendReq r .misalign va
    else
      match s.engReadRange false va 8 with
      | .wait w => s.waitOn w ev
      | .fault s1 t _ => s1.suspendReq r t va
      | .ok s1 v t =>
        let s2 := s1.setProc (s1.proc.mapReq r.id (fun x => { x with idx := some v }))
        if s2.enginesRun then s2.after (s2.afterIndex r.id (t == 0)) ev else s2
  | .put v dst n adv oor =>
    if issued (fun s => s.cpReach r op) then s.cpWrite r { dst := dst, n := n, val := v, adv := adv, oor := if oor then 1 else 0 } else s
  | .move src dst n adv =>
    if !issued (fun s => s.cpReach r op + s.cpTime op) then s
    else
      match s.engReadRange false src n with
      | .wait w => s.waitOn w ev
      | .fault s1 t _ => s1.suspendReq r t src
      | .ok s1 v _ =>
        let w : CpWrite := { dst := dst, n := n, val := v, adv := adv, oor := 0 }
        if issued (fun s => s.cpReach r op) then s1.cpWrite r w
        else s1.setProc (s1.proc.mapReq r.id (fun x => { x with wr := some { w with sent := false } }))

/-- Perform a step of the engine that a process of core `c` has left behind: for it the engine counts as a core of its own, at the place of `c`,
with no thread and nothing resident (R252, R292). -/
def State.asGhost (s : State) (c : Nat) (p : Proc) (f : State → Out) : Out :=
  let g := c + 4096
  andThen (f (({ s with others := kvPut s.others g { proc := p } } : State).focus g)) (fun t =>
    let u := t.focus c
    let q := (u.coreAt g).proc
    let k := u.coreAt c
    .next (({ u with others := kvDel u.others g } : State).setCoreAt c { k with ghosts := k.ghosts.erase p ++ (if q.spent then [] else [q]) }))

/-- What is left of an ended process whose engine has a request, with its core. -/
def State.ghostOf (s : State) (gid lid id : Nat) : Option (Nat × Proc) :=
  s.allCores.findSome? (fun e =>
    (e.2.ghosts.find? (fun p => p.gid == gid && p.lid == lid && p.fifo.any (fun r => r.id == id))).map (fun p => (e.1, p)))

/-- The first of the numbers by which the requests of ended processes are known: an id has 32 bits (R275). -/
def ghostIds : Nat := 2 ^ 32

/-- Perform a step of the engine of a process, or of what an ended one has issued (R292, R297). -/
def State.onEngine (s : State) (gid lid id : Nat) (f : State → Out) : Out :=
  match (if id < ghostIds then s.coreOf gid lid else none), s.ghostOf gid lid id with
  | some c, _ => f (s.focus c)
  | none, some (c, p) => s.asGhost c p f
  | none, none => .next s

/-- ENGINE_ACCESS_REPLY (R280, R282, R285, R291, R292): the data of a read arrives and is written, or a write that has waited is
performed. -/
def execEngineAccessReply (gid lid id : Nat) (s : State) : Out :=
  let ev : Instr := .engineAccessReply gid lid id
  s.onEngine gid lid id (fun s =>
    if s.inTransfer s.here then .next (s.after 1 ev)
    else
      match s.proc.fifo.find? (fun r => r.id == id && r.busy && (r.wr.isSome || (r.state == 2 && !r.unread))) with
      | none => .next s
      | some r =>
        match r.wr with
        | some w => .next (if w.sent || s.enginesAct then s.cpWrite r w else s)
        | none => .next (s.cpStep r ev))

/-- ENGINE_ACCESS_ACK (R276, R288, R298). A halted core holds it (R386). -/
def execEngineAccessAck (gid lid id bytes : Nat) (s : State) : Out :=
  s.onEngine gid lid id (fun s =>
    if s.repliesHeld then .next (s.holdReply (.engineAccessAck gid lid id bytes))
    else
      match s.proc.fifo.find? (fun r => r.id == id) with
      | none => .next s
      | some r =>
        let s1 := s.setProc (s.proc.mapReq id (fun x => { x with acked := x.acked + bytes }))
        let s2 := if r.inc || r.noctr then s1 else s1.addCtr r.ctr bytes
        .next (s2.completeReq id))

/-- Add to the counter word of a PUT at its home (R286): the word's signature slot is freed. -/
def State.addAtHome (s : State) (p : Place) (bytes : Nat) : State :=
  let s1 := s.homeWrite p 8 ((s.peek p 8 + bytes) % 2 ^ 64) (2 ^ 8 - 1)
  { s1 with sigSlots := s1.sigSlots.filter (fun e => e.word != p.align 8) }

/-- The destination at the cursor of a PUT (Table 19.2; log entry 68). -/
def CopyReq.putAt (r : CopyReq) : Word :=
  match r.next 0 with
  | .move _ dst _ _ => dst
  | _ => r.w2 + BitVec.ofNat 64 (if r.backward then 0 else r.len)

/-- PUT_COUNTER_ADD (R286): the remote counter word's home adds the count of a chunk, and the word's signature slot is
freed. A fault suspends the request; of an aborted one the addition has no effect and is done with (R297; log entry 59). -/
def execPutCounterAdd (gid lid id bytes : Nat) (s : State) : Out :=
  let ev : Instr := .putCounterAdd gid lid id bytes
  s.onEngine gid lid id (fun s =>
    match s.proc.fifo.find? (fun r => r.id == id) with
    | none => .next s
    | some r =>
      let acked (s : State) (n : Nat) : Out := .next (s.after (ackTime n) (.engineAccessAck gid lid id bytes))
      let bad (s : State) (t : Trap) : Out :=
        if r.aborted then acked s 0 else if r.state = 3 then .next s else .next (s.suspendReq r t r.putAt)
      match s.resolveNow false .rw 8 r.w3 0 with
      | .fault t => bad s t
      | .miss => .next (s.waitOn (s.walkWait false r.w3) ev)
      | .ok p _ _ _ =>
        match s.obstacle { kind := .amo, place := p, size := 8, val := bytes } with
        | .fault t => bad (s.farTaken p) t
        | .wait (.link a) => .next (s.askMore a ev)
        | .wait w => .next (s.waitOn w ev)
        | .none =>
          if (s.farAnswer p).isSome then acked (s.farTaken p) 0
          else if s.isBad p 8 then bad (s.noteError (s.homeOf p) p) .machine
          else let r := s.seek s.here p; acked (r.1.addAtHome p bytes) (s.transitTo p + r.2))

/-- The bytes of a step that counts for a request of the process in focus. -/
def State.countedBy (s : State) (id : Nat) (e : Instr) : Nat :=
  match e with
  | .putCounterAdd g l i b | .engineAccessAck g l i b => if g == s.proc.gid && l == s.proc.lid && i == id then b else 0
  | _ => 0

/-- The bytes of a PUT whose count has not been added and is not under way, wherever its addition waits. -/
def State.putMissing (s : State) (r : CopyReq) : Nat := r.issued - r.acked - (s.pendingSteps.map (s.countedBy r.id)).sum

/-! ### ENG (R293-R297) -/

/-- The words of a push: four consecutive x registers. -/
def State.fourX (s : State) (a : BitVec 5) : Word × Word × Word × Word := (s.rx a, s.rx (a + 1), s.rx (a + 2), s.rx (a + 3))

/-- CPPUSH and CPPUSHB (R294). The format registers are those of the issue (R55), also of one that waits for its stores (log entry 83). Where the FIFO is full a CPPUSH waits, and its request
enters in its turn (R275). -/
def pushOn (q : BitVec 3) (d a : BitVec 5) (busy : Bool) (s : State) : Out :=
  guarded q s (fun s =>
    let w := s.fourX a
    let p := s.proc
    let fms := s.thr.fms.getD p.fm
    if !pushOk p.winsize w.1 w.2.2.2 then s.takeTrap .engine 0
    else if s.thr.storeQ ≠ [] then .next ((s.setThr { s.thr with fms := some fms }).parkRetry .storeEmpty)
    else
      let r : CopyReq := { id := 0, w0 := w.1, w1 := w.2.1, w2 := w.2.2.1, w3 := w.2.2.2, slot := s.slot.val, fms := fms }
      if 8 ≤ p.fifo.length then
        if busy then (s.wx d 0).retire else .next ((s.setProc { p with pushQ := p.pushQ ++ [r] }).park (.push d))
      else (((s.setProc (p.enqueue r)).startNext 4).wx d (BitVec.ofNat 64 p.nextId)).retire)

/-- CPPUSH (R294). -/
def execCppush (q : BitVec 3) (d a : BitVec 5) (s : State) : Out := pushOn q d a false s
/-- CPPUSHB (R294). -/
def execCppushb (q : BitVec 3) (d a : BitVec 5) (s : State) : Out := pushOn q d a true s

/-- CPWAIT (R295). -/
def execCpwait (q : BitVec 3) (d a : BitVec 5) (s : State) : Out :=
  guarded q s (fun s =>
    let id := (s.rx a).toNat % 2 ^ 32
    if !s.proc.idIssued id then (s.wx d (-1)).retire
    else if s.proc.idRetired id then (s.wx d 0).retire
    else .next (s.park (.cpwait d id)))

/-- The status of a request (Table 12.7). DESIGN CHOICE: CURSOR has the bytes done modulo 2^24 (log entry 90). -/
def CopyReq.status (r : CopyReq) : Word :=
  BitVec.ofNat 64 (r.cursor % 2 ^ 24 * 2 ^ 40 + r.oor * 2 ^ 16 + (if r.state = 3 then r.cause * 2 ^ 8 else 0) + r.kind * 2 ^ 5 +
    (if r.aborted then 2 ^ 4 else 0) + r.state)

/-- How many ids have been issued after an id that has (R275): after 2^32 - 1 comes 1. -/
def Proc.idAge (p : Proc) (id : Nat) : Nat := if id ≤ p.lastId then p.lastId - id else p.lastId + 2 ^ 32 - 1 - id

/-- CPSTAT (R296): the last 16 ids issued in full. -/
def execCpstat (q : BitVec 3) (d a : BitVec 5) (s : State) : Out :=
  guarded q s (fun s =>
    let id := (s.rx a).toNat % 2 ^ 32
    let p := s.proc
    if !p.idIssued id then (s.wx d 5).retire
    else
      match (p.fifo ++ p.done).find? (fun r => r.id == id) with
      | some r => (s.wx d (if 16 ≤ p.idAge id && r.state == 0 then 0 else r.status)).retire
      | none => (s.wx d 0).retire)

/-- The bytes of a request whose acknowledgements have arrived by this cycle (R297, R298). -/
def State.ackedNow (s : State) (r : CopyReq) : Nat :=
  r.acked + (s.agenda.map (fun e => match e.2 with
    | .engineAccessAck g l i b =>
      if g == s.proc.gid && l == s.proc.lid && i == r.id && decide (e.1 ≤ s.cycle + 1) then b else 0
    | _ => 0)).sum

/-- End a request by CPABORT, where it has not completed (R297); none when there is none. DESIGN CHOICE: one that is already aborted and has
not completed is as one that has (log entry 69). -/
def State.abortReq (s : State) (id : Nat) : Option State :=
  match s.proc.fifo.find? (fun r => r.id == id) with
  | none => none
  | some r =>
    if r.aborted ∨ r.state = 4 ∨ (r.lastIssued ∧ s.ackedNow r = r.issued) then none
    else
      let s1 := (s.setProc (s.proc.mapReq id (fun x => { x with aborted := true, cause := 0, wr := x.wr.filter (·.sent), state := if x.state == 3 then 2 else x.state }))).copyLanded id
      let n := if r.kind = 6 then s.putMissing r else 0
      let s2 := if n = 0 then s1 else s1.after 0 (.putCounterAdd s1.proc.gid s1.proc.lid id n)
      some ((s2.completeReq id).startNext 1)

/-- The requests of a process that ends are aborted as by CPABORT (R292). -/
def State.abortAll (s : State) : State := s.proc.fifo.foldl (fun (acc : State) r => (acc.abortReq r.id).getD acc) (s.setProc { s.proc with pushQ := [] })

/-- A step of the engine of a process under another number of its request. -/
def Instr.renamed (gid lid k : Nat) (e : Instr) : Instr :=
  match e with
  | .engineAccessReply g l i => if g = gid ∧ l = lid ∧ i < ghostIds then .engineAccessReply g l (i + k) else e
  | .engineAccessAck g l i b => if g = gid ∧ l = lid ∧ i < ghostIds then .engineAccessAck g l (i + k) b else e
  | .putCounterAdd g l i b => if g = gid ∧ l = lid ∧ i < ghostIds then .putCounterAdd g l (i + k) b else e
  | _ => e

/-- What the requests of a process that ends have still under way is known by numbers of its own from then on: a group launched under the same id
may have requests of the same ids. -/
def State.renameReqs (s : State) : State :=
  let k := ghostIds * (s.nextFar + 1)
  let f := Instr.renamed s.proc.gid s.proc.lid k
  let g (e : Nat × Instr) : Nat × Instr := (e.1, f e.2)
  { s with
    core := { s.core with proc := { s.proc with fifo := s.proc.fifo.map (fun r => { r with id := r.id + k }) }, replies := s.core.replies.map f },
    agenda := s.agenda.map g, units := s.units.map (fun u => { u with waiting := u.waiting.map f }),
    clusters := s.clusters.map (fun c => (c.1, { c.2 with bankWait := c.2.bankWait.map g, passing := c.2.passing.map g, paused := c.2.paused.map g })),
    far := s.far.map (fun a => { a with step := a.step.map f }), nextFar := s.nextFar + 1 }

/-- CPABORT (R297). -/
def execCpabort (q : BitVec 3) (d a : BitVec 5) (s : State) : Out :=
  guarded q s (fun s =>
    match s.abortReq ((s.rx a).toNat % 2 ^ 32) with
    | some s1 => (s1.wx d 0).retire
    | none => (s.wx d 1).retire)

end Sys2Proof.Machine
end

