-- ==== Sys2Proof/Machine/Placement.lean ====
section
/-! DEFINITION. Placement (spec 15): holds, swaps and migrations, proposals and folds of annealer units, the thermal rules, and
the PLC instructions (R332-R363, R408). -/

namespace Sys2Proof.Machine

/-! ### Holds (R345) -/

/-- Perform `f` for the threads of slots 0 to 10 of the core in focus. -/
def State.eachSlot (s : State) (f : State → State) : State :=
  let slot := s.slot
  { (List.range 11).foldl (fun (acc : State) i => f { acc with slot := Fin.ofNat 12 i }) s with slot := slot }

/-- The channel of a handle is looked at again: a CHCLOSE that waits for it, a SEND that waits for its window, a CLOSE (R219, R224). -/
def State.retestHandle (s : State) (h : Nat) : State :=
  match s.proc.handle h with
  | none => s.testClose s.here h
  | some o =>
    let s1 := if o.closing then s else s.testClose s.here h
    let waits := match o.cur with
      | some c => c.inj.isNone && !c.reading && !c.claimed
      | none => o.closing && !o.closeSent
    if waits then s1.inject s1.here s1.proc h else s1

/-- The granules of the own window at which threads of the core in focus wait, and which have been filled in the meantime, release them
(R170, R345). -/
def State.retestGranules (s : State) : State :=
  let own (w : GWaiter) : Bool := w.core == s.here && w.req.isNone &&
    (match w.granule with | .win g l _ => g == s.proc.gid && l == s.proc.lid | _ => false)
  (((s.waiters.filter own).map (·.granule)).eraseDups).foldl (fun (acc : State) g => if acc.isFull g then acc.fillGranule g else acc) s

/-- The conditions of the threads parked at boundaries on the core in focus are tested again (R345); a pending HKILL is carried out
(R256). -/
def State.retest (s : State) : State :=
  let s1 := (s.testCtrwaits.testCpwaits.enterPushes 11).testJoin
  let s2 := s1.eachSlot (fun s =>
    let s1 := (s.setThr (s.thr.testBarwait s.cycle)).testWaitm
    if s1.thr.kpend then s1.afterOnce 0 (.threadResume s1.here s1.slot.val) else s1)
  ((List.range 32).foldl State.retestHandle s2).retestGranules

/-- A hold of the process in focus ends: the conditions of its parked threads are tested again, and its queues and engines go
on (R345, R256). -/
def State.endHold (s : State) : State :=
  if !s.core.occupied then s
  else
    let s1 := (s.setProc (s.proc.setHold none s.cycle)).retest
    ((s1.askDispatch 1 s1.proc.gid s1.proc.lid).kickCopy).retryBlocked

/-- The swap timeout of a process's domain (R348, R352). -/
def State.swtoOf (s : State) (p : Proc) : Nat :=
  ((p.unit.bind (fun k => s.aunitOf k.1 k.2)).map (·.swto)).getD 8192

/-! ### Resolution of a proposal (R342) -/

/-- Begin a fold (R337): the weights and E from before it are kept. The SINCE of handle h of the process with domain index i is read 8
cycles a handle after that of the handle before, and the fold ends when 256 cycles a cell and 1,024 more have passed (log entry 35). -/
def State.startFold (s : State) (u : AUnit) : State :=
  let u1 := { u with fold := some [], foldFrom := s.cycle, foldAt := 0, wtsWas := u.wts, eWas := s.energy u }
  ((s.setAunit u1).after 0 (.fold u.die u.idx)).after (256 * (u.w * u.h) + 1024) (.foldEnd u.die u.idx)

/-- A fold's read reaches the next handle: its SINCE is read and cleared (R337). -/
def State.foldRead (s : State) (u : AUnit) (got : List (Nat × Nat × Nat × Nat)) : State :=
  let h := u.foldAt % 32
  let next (s : State) (l : List (Nat × Nat × Nat × Nat)) : State :=
    let s1 := s.setAunit { u with fold := some l, foldAt := u.foldAt + 1 }
    if u.foldAt + 1 < 32 * (u.w * u.h) then s1.after 8 (.fold u.die u.idx) else s1
  match s.indexCore u (u.foldAt / 32) with
  | none => next s got
  | some c =>
    let k := s.coreAt c
    match k.proc.handle h with
    | none => next s got
    | some o =>
      next (s.setCoreAt c { k with proc := k.proc.setHandle h (some { o with since := 0 }) })
        (if o.since = 0 then got else got ++ [(k.proc.didx, u.gid, o.lid, o.since)])

/-- A proposal or fold that waited for a fold or a swap to end is due now (R339). -/
def State.dueNow (s : State) (u : AUnit) : State :=
  if u.due && u.ctl % 4 == 3 then s.afterOnce 0 (.proposal u.die u.idx) else s.armTimer u

/-- Resolve (R342): the counts, the temperature at the end of a sweep, and the automatic fold. The unit of a group that is being pre-empted has
no fold from here on (R349). -/
def State.resolveProposal (s : State) (die idx : Nat) (r : Reason) : State :=
  match s.aunitOf die idx with
  | none => s
  | some u =>
    let u1 := if r = .committed then { u with offs := u.offs / 2, rej := 0, commits := u.commits + 1 }
      else if u.rej + 1 = 128 then { u with offs := min (u.offs + 0x400) 0x10000, rej := 0, failures := u.failures + 1 }
      else { u with rej := u.rej + 1, failures := u.failures + 1 }
    let u2 := { u1 with reason := r, inFlight := false, resolvedAt := some s.cycle }
    let runs := s.groupRuns u.gid
    let sweep := u2.props + 1 == 256
    let u3 := if sweep then { u2 with props := 0, sweeps := u2.sweeps + 1, tcur := max (u2.tcur - u2.tcur / 64) 1 }
      else { u2 with props := u2.props + 1 }
    let s1 := s.setAunit u3
    if !runs then s1.dropFold u3
    else if sweep && u3.ctl / 4 % 2 == 1 && u3.fold.isNone then
      let s2 := s1.startFold u3
      match s2.aunitOf die idx with | some u4 => s2.armTimer u4 | none => s2
    else if u3.fold.isSome then s1.armTimer u3
    else s1.dueNow u3

/-! ### Moves (R345-R349, R354) -/

/-- The cores of a region in row-major order. -/
def Proc.regionCores (p : Proc) : List Nat := (List.range (p.rw * p.rh)).map (fun i => coreId (p.rx + i % p.rw) (p.ry + i / p.rw))

/-- Whether the cluster of a core is halted by its debug module (R409). -/
def State.dbgHalted (s : State) (c : Nat) : Bool := (s.clusterAt (clusterOf c)).dbgHalted

/-- Whether a core can be the target of a migration (R353, R361); a core of a halted cluster is a halted core (R409). With a bound, its TEMP is below it. -/
def State.eligible (s : State) (bound : Option Int) (c : Nat) : Bool :=
  let k := s.coreAt c
  !k.occupied && k.moving.isNone && !k.reserved && !k.halted && !k.oos && !s.dbgHalted c &&
  (match bound with | some b => decide (k.temp.toInt < b) | none => true)

/-- The eligible core of least TEMP, then of least physical id (R353). -/
def State.coolest (s : State) (p : Proc) (bound : Option Int) : Option Nat :=
  (p.regionCores.filter (s.eligible bound)).foldl (fun (best : Option Nat) c => match best with
    | none => some c
    | some b =>
      let tb := (s.coreAt b).temp.toInt
      let tc := (s.coreAt c).temp.toInt
      if tc < tb || (tc == tb && decide (c < b)) then some c else best) none

/-- A migration of the process in focus is asked for: its target is reserved, and the request goes to both cores, at a time
that is not bounded (R345, R353, R361; log entry 1). -/
def State.startMove (s : State) (kind : MoveKind) (target : Nat) : State :=
  let m : Move := { id := s.nextMove, kind := kind, a := s.here, b := target, swto := s.swtoOf s.proc }
  let s1 := s.setCoreAt target { s.coreAt target with reserved := true, moving := some m.id }
  let s1a : State := if s1.core.moving.isNone then { s1 with core := { s1.core with moving := some m.id } } else s1
  let s2 : State := { s1a with moves := s1a.moves ++ [m], nextMove := s1a.nextMove + 1 }
  ((s2.setProc { s2.proc with migp := true }).after 250 (.swapProposalArrival m.id m.a)).after 250 (.swapProposalArrival m.id m.b)

/-- TRIP as a signed number. -/
def Proc.tripInt (p : Proc) : Int := p.trip.toInt

/-- The trip point that rules a core: its process's, or the launch value. -/
def Core.tripInt (k : Core) : Int := if k.occupied then k.proc.tripInt else 1520

/-- The power controller's next step for the core in focus starts now and goes on every 4,096 cycles (R353). -/
def State.withholdFrom (s : State) : State :=
  let e : Instr := .slotWithholdStep s.here
  ({ s with agenda := s.agenda.filter (fun x => x.2 != e) } : State).after 0 e

/-- A thermal request of the process in focus has failed: a slot is withheld in this cycle, and one every 4,096 cycles from it on (R353). -/
def State.thermalFail (s : State) : State :=
  let s1 := s.after 65536 (.thermalRetryTimer s.proc.gid s.proc.lid)
  ({ s1 with core := { s1.core with thermRun := true } } : State).withholdFrom

/-- A thermal request chooses its target (R353); one of a group that is being parked is refused, and raised again later. -/
def State.raiseThermal (s : State) : State :=
  if s.proc.anch then s.thermalFail
  else if !s.groupRuns s.proc.gid then s.after 65536 (.thermalRetryTimer s.proc.gid s.proc.lid)
  else
    match s.coolest s.proc (some (s.proc.tripInt - 80)) with
    | some c => s.startMove .thermal c
    | none => s.thermalFail

/-- Compare TEMP with TRIP for the process in focus (R352). DESIGN CHOICE: while a migration of it that TEMP has asked for is pending or in
progress, none is raised and the request stays armed (log entry 91). -/
def State.compareTemp (s : State) : State :=
  if !s.core.occupied then s
  else
    let t := s.core.temp.toInt
    let trip := s.proc.tripInt
    if t < trip - 80 then s.setProc { s.proc with armed := true }
    else if trip ≤ t ∧ s.proc.armed ∧ !s.proc.migp then (s.setProc { s.proc with armed := false }).raiseThermal
    else s

/-- In the first cycle in which TEMP reads below TRIP − 80, the slot withheld last is returned (R353). -/
def State.returnSlots (s : State) : State :=
  let e : Instr := .slotWithholdStep s.here
  if 0 < s.core.thermWithheld ∧ s.core.temp.toInt < s.core.tripInt - 80 ∧ (s.core.thermRun ∨ !(s.agenda.any (fun x => x.2 == e))) then
    ({ s with core := { s.core with thermRun := false } } : State).withholdFrom
  else s

/-- SLOT_WITHHOLD_STEP (R353): one further helper slot is withheld while TEMP is at TRIP or above; once the first slot has been returned, a
further one is returned every 4,096 cycles. DESIGN CHOICE: once TEMP has been found below TRIP at a step, no further slot is withheld until a
request fails again (log entry 92). -/
def execSlotWithholdStep (core : Nat) (s : State) : Out :=
  let s := s.focus core
  let k := s.core
  if k.thermRun then
    if k.tripInt ≤ k.temp.toInt then
      .next (({ s with core := { k with thermWithheld := min 10 (k.thermWithheld + 1) } } : State).after 4096 (.slotWithholdStep core))
    else .next { s with core := { k with thermRun := false } }
  else if 0 < k.thermWithheld then
    let s1 : State := { s with core := { k with thermWithheld := k.thermWithheld - 1 } }
    let s2 := if k.occupied then s1.askDispatch 1 k.proc.gid k.proc.lid else s1
    .next (if k.thermWithheld = 1 then s2 else s2.after 4096 (.slotWithholdStep core))
  else .next s

/-- THERMAL_RETRY_TIMER (R353). -/
def execThermalRetryTimer (gid lid : Nat) (s : State) : Out :=
  match s.coreOf gid lid with
  | none => .next s
  | some c =>
    let s := s.focus c
    if s.proc.tripInt ≤ s.core.temp.toInt ∧ !s.proc.migp then .next s.raiseThermal else .next s

/-- SENSOR_UPDATE (R352, R353, R408). -/
def execSensorUpdate (core : Nat) (temp : Word) (s : State) : Out :=
  let s := s.focus core
  let hot := decide (1760 ≤ temp.toInt) || (s.core.hot && decide (1680 ≤ temp.toInt))
  let s1 : State := { s with core := { s.core with temp := temp, hot := hot } }
  let s2 := (s1.compareTemp).returnSlots
  .next (if s2.core.occupied && !hot then s2.askDispatch 1 s2.proc.gid s2.proc.lid else s2)

/-- A write of TRIP (R88, Table 2.6, R352). -/
def State.writeTrip (s : State) (v : Word) : State :=
  ((s.setProc { s.proc with trip := if 1520 < v.toInt then 1520#64 else v }).compareTemp).returnSlots

/-- TRIP_WRITE (R88). -/
def execTripWrite (core : Nat) (val : Word) (s : State) : Out := .next ((s.focus core).writeTrip val)

/-- Release a core from a move. -/
def State.leaveMove (s : State) (c id : Nat) : State :=
  let k := s.coreAt c
  let s1 := s.setCoreAt c { k with moving := if k.moving = some id then none else k.moving, reserved := false }
  if k.occupied && k.proc.hold == some (.move id) then (s1.focus c).endHold else s1

/-- A migration of the process on a core is over: MIGP clears, and TEMP is compared (R352, R361). -/
def State.migrationOver (s : State) (c : Nat) : State :=
  let s1 := s.focus c
  if s1.core.occupied then (s1.setProc { s1.proc with migp := false }).compareTemp else s1

/-- End a move without effect (R348): both holds end, and what asked for it learns the reason. -/
def State.abortMove (s : State) (m : Move) (r : Reason) : State :=
  let s1 : State := { s with moves := s.moves.filter (fun x => x.id != m.id) }
  let s2 := (s1.leaveMove m.a m.id).leaveMove m.b m.id
  match m.kind with
  | .swap die unit => s2.resolveProposal die unit r
  | .thermal =>
    let s3 := s2.focus m.a
    if !s3.core.occupied then s3
    else
      let s4 := s3.setProc { s3.proc with migp := false }
      if r = .anchored then s4.thermalFail else s4.after 65536 (.thermalRetryTimer s4.proc.gid s4.proc.lid)
  | .requested => s2.migrationOver m.a
  | .repair => s2.migrationOver m.a

/-- Whether the matrix engine of a core is idle with no op in its queue, and no MLDB of its slot 11 reads (R329). -/
def Core.engineIdle (k : Core) : Bool :=
  k.proc.mq.queue.isEmpty && k.proc.mq.running.isEmpty && (match (k.thr 11).wait with | some (.mldb _) => false | _ => true)

/-- Whether one side of a move has reached its swap point, every op that has issued being complete (R329, R345): a core with no process
has. -/
def State.sideReady (s : State) (c : Nat) : Bool :=
  !(s.coreAt c).occupied || (s.atSwapPoint c && (s.coreAt c).engineIdle)

/-- Whether one side of a move is found anchored at its swap point (R348, R351). -/
def State.sideAnchored (s : State) (c : Nat) (arrived : Bool) : Bool :=
  let k := s.coreAt c
  arrived && k.occupied && k.proc.anch && s.atSwapPoint c

/-- Look at one move: an anchored process ends it, two swap points let its transfer begin. -/
def State.advanceMove (s : State) (m : Move) : State :=
  if m.transfer || s.dbgHalted m.a || s.dbgHalted m.b then s
  else if s.sideAnchored m.a m.arrA || s.sideAnchored m.b m.arrB then s.abortMove m .anchored
  else if m.arrA && m.arrB && s.sideReady m.a && s.sideReady m.b then s.afterOnce 0 (.swapTransfer m.id)
  else s

/-- Look at every move, once a cycle. -/
def State.advanceMoves (s : State) : State := s.moves.foldl State.advanceMove s

/-- SWAP_PROPOSAL_ARRIVAL (R36, R345, R348): the core holds its process and counts SWTO. A request that finds its core in another
move waits until that ends; one whose process has moved on follows it. -/
def execSwapProposalArrival (move core : Nat) (s : State) : Out :=
  match s.moves.find? (fun m => m.id == move) with
  | none => .next s
  | some m =>
    if core ≠ m.a ∧ core ≠ m.b then .next (s.after 1 (.swapProposalArrival move m.a))
    else if s.dbgHalted core then .next (s.after 1 (.swapProposalArrival move core))
    else
      let k := s.coreAt core
      match k.moving with
      | some x =>
        if x = move then
          if k.occupied && k.proc.hold.isSome && k.proc.hold != some (.move move) then .next (s.after 1 (.swapProposalArrival move core))
          else
          let s1 : State := { s with moves := s.moves.map (fun y => if y.id == move then
            { y with arrA := y.arrA || core == y.a, arrB := y.arrB || core == y.b } else y) }
          let s2 := if k.occupied && k.proc.hold.isNone then s1.setCoreAt core { k with proc := k.proc.setHold (some (.move move)) s.cycle } else s1
          .next (s2.after m.swto (.swapTimeout move core))
        else .next (s.after 1 (.swapProposalArrival move core))
      | none => .next ((s.setCoreAt core { k with moving := some move }).after 0 (.swapProposalArrival move core))

/-- SWAP_TIMEOUT (R348). -/
def execSwapTimeout (move core : Nat) (s : State) : Out :=
  match s.moves.find? (fun m => m.id == move) with
  | none => .next s
  | some m => .next (if m.transfer || !(core == m.a || core == m.b) then s else s.abortMove m .timeout)

/-- The lines of a process's W in a cluster, those that it may have written (R168). -/
def Proc.inW (p : Proc) (l : CacheLine) : Bool := p.wSig.has l.line
/-- The lines of W ∪ R. -/
def Proc.inWR (p : Proc) (l : CacheLine) : Bool := p.wSig.has l.line || p.sigR.has l.line

/-- The time until the dirty lines that a core's cluster writes back are acknowledged (R165, R347). -/
def State.flushTime (s : State) (c : Nat) (sel : CacheLine → Bool) : Nat :=
  (((s.clusterAt (clusterOf c)).lines.filter (fun l => sel l && l.dirty != 0)).map (s.focus c).lineTime).foldl max 0

/-- Write back, and drop where asked, selected lines of the cluster of a core; the unit that is in the way, or the state and the time that
it takes (R168, R347). -/
def State.flush (s : State) (c : Nat) (sel : CacheLine → Bool) (drop : Bool) : Except Place (State × Nat) :=
  match (s.focus c).writeBackAll (clusterOf c) sel drop with
  | .blocked u => .error u
  | .done s1 _ => .ok (s1, s.flushTime c sel)

/-- Write back the W lines of the process on a core before its state moves (R168). -/
def State.flushMover (s : State) (c : Nat) : Except Place (State × Nat) :=
  let k := s.coreAt c
  if k.occupied then s.flush c k.proc.inW false else .ok (s, 0)

/-- Write back and drop the W ∪ R lines of a process in the cluster it comes to (R168). -/
def State.flushDest (s : State) (p : Proc) (c : Nat) : Except Place (State × Nat) := s.flush c p.inWR true

/-- Run two flushes, side by side in time. -/
def flushBoth (a b : State → Except Place (State × Nat)) (s : State) : Except Place (State × Nat) :=
  match a s with
  | .ok (s1, n) => (match b s1 with | .ok (s2, m) => .ok (s2, max n m) | .error u => .error u)
  | .error u => .error u

/-- Bytes of state that a core sends (R347). -/
def Core.moveBytes (k : Core) : Nat := if k.occupied then k.proc.winsize + 24576 else 0

/-- Change a move. -/
def State.mapMove (s : State) (id : Nat) (f : Move → Move) : State :=
  { s with moves := s.moves.map (fun x => if x.id == id then f x else x) }

/-- Whether write-backs of the cores of a move to other modules are still to be acknowledged (R168). -/
def State.moveUnacked (s : State) (m : Move) : Bool :=
  decide (0 < (s.coreAt m.a).proc.remoteStores) || decide (0 < (s.coreAt m.b).proc.remoteStores)

/-- SWAP_TRANSFER (R346, R347, R354): from here on the move cannot end without effect. The write-backs of the clusters that the movers
leave add their time; those to other modules are waited for (R168). -/
def execSwapTransfer (move : Nat) (s : State) : Out :=
  match s.moves.find? (fun m => m.id == move) with
  | none => .next s
  | some m =>
    if !m.transfer && !(s.sideReady m.a && s.sideReady m.b) then .next s
    else
      let s1 := if m.transfer then s else s.mapMove move (fun x => { x with transfer := true, began := s.cycle })
      let across := clusterOf m.a != clusterOf m.b
      match (if across then flushBoth (·.flushMover m.a) (·.flushMover m.b) s1 else .ok (s1, 0)) with
      | .error u => .next (s1.waitUnit u (.swapTransfer move))
      | .ok (s2, n) =>
        if across && s2.moveUnacked m then .next (s2.after (max 1 n) (.swapTransfer move))
        else
        let bytes := max (s.coreAt m.a).moveBytes (s.coreAt m.b).moveBytes
        let t := match m.kind with
          | .swap _ _ => 64 + (bytes + 63) / 64
          | _ => (bytes + 31) / 32 + transit m.a m.b
        .next (s2.after (n + t) (.swapResume move))

/-- The lowest domain index that no process of a domain holds (R335). -/
def State.freeIndex (s : State) (gid : Nat) (dom : Nat × Nat × Nat × Nat) : Nat :=
  let used := s.allCores.filterMap (fun e =>
    if e.2.occupied && e.2.proc.gid == gid && e.2.proc.domain e.1 == dom then some e.2.proc.didx else none)
  ((List.range 257).find? (fun i => !used.contains i)).getD 0

/-- A process that has come to another domain joins it under the lowest free index; the index it leaves is freed (R335, R354). -/
def State.joinDomain (s : State) (from_ c : Nat) : State :=
  let p := (s.coreAt c).proc
  let dom := p.domain c
  if p.domain from_ == dom then s
  else
    let k := s.coreAt c
    let s0 := s.setCoreAt c { k with occupied := false }
    let i := s0.freeIndex p.gid dom
    let s1 := match p.unit.bind (fun k => s.aunitOf k.1 k.2) with | some u => s0.setAunit (u.dropIndex p.didx) | none => s0
    s1.setCoreAt c { k with proc := { p with didx := i, unit := s.unitAt p.gid dom } }

/-- Whether a record moves with its process (R380). -/
def TrapRec.moves (r : TrapRec) : Bool := r.src == 1 || r.src == 2 || r.src == 3

/-- A cycle by which something of a process falls due, put off by the time that the process has been away. -/
def putOff (c began away : Nat) : Nat := if began < c then c + away else c

/-- A thread after a move that began its transfer in a cycle (R100, R259, R346, Table 15.3): what remains of a timeout, and of the time to
the start of a task, is kept. -/
def Thread.moved (t : Thread) (now began : Nat) : Thread :=
  { t with rstack := [], lost := 0,
           notBefore := max (if t.task then putOff t.notBefore began (now - began) else t.notBefore) (now + 1),
           wait := match t.wait with
             | some (.waitm d (some c)) => some (.waitm d (some (putOff c began (now - began))))
             | w => w }

/-- A process after a move (R14, R329, R346): MC + 1, CYCLE and the burst counter go on from what they were, and the engine that it comes
to is cold; slot 11 of the core that it leaves has no place in its queues. -/
def Proc.moved (p : Proc) (now began : Nat) : Proc :=
  { p with mc := (p.mc + 1) % 2 ^ 16, cycSkew := p.cycSkew + (now - began),
           mq := { p.mq.without 11 with cold := true, burst := putOff p.mq.burst began (now - began) } }

/-- What a core is once the process of core `thereId`, or none, has come to it (Table 15.3). Records that name the movers go with them, and
those that wait fill the trap queue (R379, R380). -/
def State.takeOver (s : State) (here there : Core) (thereId began : Nat) : Core :=
  let q := here.trapQ.filter (fun r => !r.moves) ++ here.trapWait.filter (fun r => !r.moves) ++
    there.trapQ.filter (·.moves) ++ there.trapWait.filter (·.moves)
  { here with
    occupied := there.occupied, proc := if there.occupied then there.proc.moved s.cycle began else {},
    trapQ := q.take 8, trapWait := q.drop 8, tlb := [], broke := [],
    departed := if here.occupied then
        putLoc here.departed { gid := here.proc.gid, lid := here.proc.lid, core := thereId, mc := (here.proc.mc + 1) % 2 ^ 16 } 8
      else here.departed,
    slots := Vector.ofFn (fun i => if i.val = 11 then here.slots[i] else (there.slots[i]).moved s.cycle began) }

/-- Exchange what moves between two cores (Table 15.3); each keeps at most 64 signature slots (R166). -/
def State.exchange (s : State) (a b began : Nat) : State :=
  let ka := s.coreAt a
  let kb := s.coreAt b
  let s1 := (s.setCoreAt a (s.takeOver ka kb b began)).setCoreAt b (s.takeOver kb ka a began)
  let other (c : Nat) : Nat := if c = a then b else if c = b then a else c
  let s2 : State := { s1 with
    waiters := s1.waiters.map (fun w => if w.slot = 11 || w.req.isSome then w else { w with core := other w.core }),
    moves := s1.moves.map (fun m => if m.arrA then m else { m with a := other m.a }),
    agenda := s1.agenda.map (fun e => match e.2 with
      | .trapRecordEnqueue c r => if r.moves then (e.1, .trapRecordEnqueue (other c) r) else e
      | _ => e) }
  (s2.trimSlots a).trimSlots b

/-- Let the timeouts of the threads of the process on a core fall due (R197, Table 15.3). -/
def State.armTimeouts (s : State) (c : Nat) : State :=
  let k := s.coreAt c
  (List.range 11).foldl (fun (acc : State) i => match (k.thr i).wait with
    | some (.waitm _ (some due)) => acc.after (due - acc.cycle) (.waitmTimeout k.proc.gid k.proc.lid i)
    | _ => acc) s

/-- A PRECV of slot 11 that waited for a slot of the latch of a process that has left looks again (R329). -/
def State.askAgain (s : State) : State :=
  match (s.core.thr 11).wait with
  | some (.precv ..) => s.afterOnce 1 (.threadResume s.here 11)
  | _ => s

/-- Publish where the process of a core is now, and tell both cores' location caches (R346 step 4). -/
def State.publish (s : State) (c other : Nat) : State :=
  let k := s.coreAt c
  if !k.occupied then s
  else
    let p := k.proc
    let e : LocEnt := { gid := p.gid, lid := p.lid, core := c, mc := p.mc }
    ((s.setPlace c p.gid p.lid p.mc true false c).after 0 (.movedNoticeArrival c e)).after 0 (.movedNoticeArrival other e)

/-- The commit of a move (R346 steps 4 and 5, R348, R352). -/
def State.commitMove (s : State) (m : Move) : State :=
  let ka := s.coreAt m.a
  let s1 : State := { s with moves := s.moves.filter (fun x => x.id != m.id) }
  let s2 := s1.exchange m.a m.b m.began
  let s3 := if ka.occupied then s2.joinDomain m.a m.b else s2
  let s4 := ((s3.publish m.a m.b).publish m.b m.a)
  let s5 := (s4.armTimeouts m.a).armTimeouts m.b
  let s6 := ((s5.focus m.a).serveTrget.askAgain.focus m.b).serveTrget.askAgain
  let s7 := (s6.leaveMove m.a m.id).leaveMove m.b m.id
  let s8 := (((s7.focus m.a).compareTemp).returnSlots.focus m.b).compareTemp.returnSlots
  match m.kind with
  | .swap die unit => s8.resolveProposal die unit .committed
  | .thermal | .requested => s8.migrationOver m.b
  | .repair =>
    let s9 := s8.migrationOver m.b
    s9.setCoreAt m.a { s9.coreAt m.a with oos := true }

/-- SWAP_RESUME (R346 steps 4 and 5, R168, R347): the clusters that the movers come to write back and drop their lines, which adds its
time; then the move is committed. -/
def execSwapResume (move : Nat) (s : State) : Out :=
  match s.moves.find? (fun m => m.id == move) with
  | none => .next s
  | some m =>
    if m.flushed || clusterOf m.a == clusterOf m.b then .next (s.commitMove m)
    else
      let fl (k : Core) (c : Nat) (s : State) : Except Place (State × Nat) := if k.occupied then s.flushDest k.proc c else .ok (s, 0)
      match flushBoth (fl (s.coreAt m.a) m.b) (fl (s.coreAt m.b) m.a) s with
      | .error u => .next (s.waitUnit u (.swapResume move))
      | .ok (s1, n) =>
        if s1.moveUnacked m then .next (s1.after (max 1 n) (.swapResume move))
        else if n = 0 then .next (s1.commitMove m)
        else .next ((s1.mapMove move (fun x => { x with flushed := true })).after n (.swapResume move))

/-! ### Proposals (R339-R341) -/

/-- What a unit reads of its draw table (R340): an entry; the end of the table; a wait for a reservation unit or a bank (R161, R183). -/
inductive DrawRes where
  | entry (e : Nat)
  | ended
  | wait (w : EWait)
  deriving DecidableEq, Repr

/-- The root of the tables that a unit reads through (R340, R385): PTROOT of the process on its core, else of the domain's process of lowest index,
else the root that the group was launched with (log entry 20). -/
def State.drawRoot (s : State) (u : AUnit) (g : Group) : Word :=
  let k := s.coreAt u.core
  if k.occupied && k.proc.gid == u.gid then k.proc.ptroot
  else
    match (List.range 256).findSome? (s.indexCore u) with
    | some c => (s.coreAt c).proc.ptroot
    | none => g.ptroot

/-- The draw entry at TPOS: an uncached 4-byte read through the group's tables with R permission (R340). -/
def State.readDraw (s : State) (u : AUnit) : DrawRes :=
  if u.tlen ≤ u.tpos then .ended
  else
    let va := (u.tbase + BitVec.ofNat 64 (4 * u.tpos)).toNat
    match s.groupOf u.gid with
    | none => .ended
    | some g =>
      if va / 2 ^ 48 ≠ 0 then .ended
      else
        match walkBusy s va 3 (s.drawRoot u g).toNat, walkFrom s va 3 (s.drawRoot u g).toNat with
        | some (cl, b), _ => .wait (.bank cl b)
        | none, .error _ => .ended
        | none, .ok (pte, large) =>
          match checkLeaf s false .r 4 va pte large with
          | .ok pa _ =>
            (match resolvePa s pa pte false with
             | .ok p _ _ _ =>
               (match s.awayIn p 4, s.bankBusy p with
                | some x, _ => .wait (.unit x)
                | none, some (cl, b) => .wait (.bank cl b)
                | none, none => if s.isBad p 4 then .ended else .entry (s.delivered p 4 0))
             | _ => .ended)
          | _ => .ended

/-- The neighbour of a cell in a direction, where it lies in the domain (R340). -/
def AUnit.neighbour (u : AUnit) (ci dir : Nat) : Option Nat :=
  let x := ci % u.w
  let y := ci / u.w
  match dir with
  | 0 => if y = 0 then none else some (coreId (u.gx + x) (u.gy + y - 1))
  | 1 => if x + 1 < u.w then some (coreId (u.gx + x + 1) (u.gy + y)) else none
  | 2 => if y + 1 < u.h then some (coreId (u.gx + x) (u.gy + y + 1)) else none
  | _ => if x = 0 then none else some (coreId (u.gx + x - 1) (u.gy + y))

/-- Whether a core cannot take part in a swap now (R340, R349, R354, R390, R409; log entry 20 for halted and out-of-service
cores). -/
def State.moveBusy (s : State) (c : Nat) : Bool :=
  let k := s.coreAt c
  k.moving.isSome || k.reserved || k.halted || k.oos || s.dbgHalted c ||
  (k.occupied && (match k.proc.hold with | some .preempt | some .loaded => true | _ => false))

/-- Put a proposal in flight: both cores are named, and the request is on its way (R345, R365). -/
def State.launchSwap (s : State) (u : AUnit) (a b : Nat) : State :=
  let m : Move := { id := s.nextMove, kind := .swap u.die u.idx, a := a, b := b, swto := u.swto }
  let s1 := (s.setAunit { u with inFlight := true, reason := .inflight })
  let s2 : State := { s1 with moves := s1.moves ++ [m], nextMove := s1.nextMove + 1 }
  let name (s : State) (c : Nat) : State :=
    (s.setCoreAt c { s.coreAt c with moving := some m.id }).after (transit u.core c) (.swapProposalArrival m.id c)
  name (name s2 a) b

/-- Decide a draw (R340). -/
def State.decideDraw (s : State) (u : AUnit) (e : Nat) : State :=
  let ci := e / 2 ^ 8 % 2 ^ 8 % (u.w * u.h)
  let dir := e / 2 ^ 16 % 4
  let uu := e / 2 ^ 18 % 2 ^ 14 * 4
  let u1 := { u with cell := ci, dir := dir, delta := 0, kreq := 0 }
  let a := coreId (u.gx + ci % u.w) (u.gy + ci / u.w)
  let fail (r : Reason) (u : AUnit) : State := (s.setAunit u).resolveProposal u.die u.idx r
  match u.neighbour ci dir with
  | none => fail .outside u1
  | some b =>
    let ka := s.coreAt a
    let kb := s.coreAt b
    if !ka.occupied && !kb.occupied then fail .empty u1
    else if (ka.occupied && ka.proc.anch) || (kb.occupied && kb.proc.anch) then fail .anchored u1
    else if s.moveBusy a || s.moveBusy b then fail .busy u1
    else
      let dE := s.delta u a b
      let teff := u.tcur + u.offs
      let k := if dE ≤ 0 then 0 else (dE.toNat * 256 + teff - 1) / teff
      let u2 := { u1 with delta := dE, kreq := k }
      if k ≤ clz16 uu then s.launchSwap u2 a b else fail .draw u2

/-- A unit once a proposal has its draw: a timed one is made and due no longer, while one that was asked for leaves the timer as it is (R339). -/
def AUnit.drawn (u : AUnit) (timed : Bool) : AUnit :=
  { u with drawing := none, due := u.due && !timed, resolvedAt := if timed then none else u.resolvedAt }

/-- Make one proposal, timed or asked for (R340). A draw table that has ended makes none; DESIGN CHOICE: the timer then tries again only when
TPOS, CTL or PINT has been written (log entry 80). A proposal whose draw entry has to be waited for is in flight until it has been read, with the
CELL and DIR of the last draw (R365; log entry 20). -/
def State.makeProposal (s : State) (die idx : Nat) (asTimed : Bool) : State :=
  match s.aunitOf die idx with
  | none => s
  | some u =>
    let timed := u.drawing.getD asTimed
    if !s.groupRuns u.gid && u.drawing.isNone then s
    else if u.ctl / 8 % 2 = 1 then
      match s.readDraw u with
      | .ended =>
        let u1 := { u with ctl := u.ctl % 16 + 16, due := u.due && !timed, inFlight := false, drawing := none }
        if u1.due && u1.fold.isNone then (s.setAunit u1).dueNow u1 else s.setAunit u1
      | .wait w => (s.setAunit { u with inFlight := true, drawing := some timed, due := u.due && !timed }).waitOn w (.proposal die idx)
      | .entry e => s.decideDraw { u.drawn timed with tpos := u.tpos + 1 } e
    else
      let x := xorshift u.seed
      s.decideDraw { u.drawn timed with seed := x } x.toNat

/-- PROPOSAL_TIMER (R339): a proposal that falls due during a fold or a swap in flight waits until that ends. -/
def execProposalTimer (die unit : Nat) (s : State) : Out :=
  match s.aunitOf die unit with
  | none => .next s
  | some u =>
    if !u.timed s.cycle || !s.groupRuns u.gid then .next s
    else if u.inFlight || u.fold.isSome then .next (s.setAunit { u with due := true })
    else .next (s.afterOnce 0 (.proposal die unit))

/-- PROPOSAL (R340): the unit draws, evaluates and decides; a timed proposal waits for a fold or a swap in flight (R339). -/
def execProposal (die unit : Nat) (s : State) : Out :=
  match s.aunitOf die unit with
  | none => .next s
  | some u =>
    .next (if u.drawing.isNone && (u.inFlight || u.fold.isSome) then
        (if u.due || u.timed s.cycle then s.setAunit { u with due := true } else s)
      else s.makeProposal die unit true)

/-- PROPOSE (R363, R365). -/
def execPropose (die unit : Nat) (s : State) : Out := .next (s.makeProposal die unit false)

/-! ### Folds and parameter writes (R337, R363) -/

/-- The new weight of a pair (R337). -/
def foldWeight (w b : Nat) : Nat := w - w / 8 + min (b / 64) (65535 - w)

/-- A new pair of the external table (R337): 64 entries, the least replaced when the new value exceeds it. DESIGN CHOICE: of several least ones,
the first in the table (log entry 79). -/
def addExt (l : List (Nat × Nat × Nat × Nat)) (i gid lid w : Nat) : List (Nat × Nat × Nat × Nat) :=
  if w = 0 then l
  else if l.length < 64 then l ++ [(i, gid, lid, w)]
  else
    let least := l.foldl (fun m e => min m e.2.2.2) 65536
    if w ≤ least then l
    else
      match l.find? (fun e => e.2.2.2 == least) with
      | some v => l.filter (· != v) ++ [(i, gid, lid, w)]
      | none => l

/-- A fold ends: every pair is updated at once (R337). Bytes to a process that is in the domain now count in the coefficient memory only.
DESIGN CHOICE: new pairs of the external table enter after the update of its entries, in the order in which their bytes were gathered (log
entry 79). -/
def State.applyFold (s : State) (u : AUnit) (bs : List (Nat × Nat × Nat × Nat)) : AUnit :=
  let ps := s.domainProcs u
  let index (lid : Nat) : Option Nat := (ps.find? (fun e => e.2.lid == lid)).map (fun e => e.2.didx)
  let live (i : Nat) : Bool := ps.any (fun e => e.2.didx == i)
  let used := bs.filter (fun b => live b.1)
  let inPairs := used.filterMap (fun b => (index b.2.2.1).map (fun j => (b.1, j)))
  let pairs := (u.wts.map (fun e => (e.1, e.2.1)) ++ inPairs).eraseDups
  let bytes (i lid : Nat) : Nat := ((used.filter (fun b => b.1 == i && b.2.2.1 == lid)).map (fun b => b.2.2.2)).sum
  let bytesIn (i j : Nat) : Nat := ((used.filter (fun b => b.1 == i && index b.2.2.1 == some j)).map (fun b => b.2.2.2)).sum
  let wts := pairs.filterMap (fun e =>
    let w := foldWeight (u.weight e.1 e.2) (bytesIn e.1 e.2)
    if w = 0 then none else some (e.1, e.2, w))
  let outPairs := ((used.filter (fun b => (index b.2.2.1).isNone)).map (fun b => (b.1, b.2.2.1))).eraseDups
  let bytesOut (i lid : Nat) : Nat := if (index lid).isNone then bytes i lid else 0
  let ext := u.ext.map (fun e => (e.1, e.2.1, e.2.2.1, foldWeight e.2.2.2 (bytesOut e.1 e.2.2.1)))
  let fresh := outPairs.filter (fun e => !(u.ext.any (fun x => x.1 == e.1 && x.2.2.1 == e.2)))
  let ext1 := fresh.foldl (fun l e => addExt l e.1 u.gid e.2 (foldWeight 0 (bytes e.1 e.2))) ext
  { u with wts := wts, ext := ext1.filter (fun e => e.2.2.2 != 0), fold := none }

/-- FOLD_END (R337, R365). -/
def execFoldEnd (die unit : Nat) (s : State) : Out :=
  match s.aunitOf die unit with
  | none => .next s
  | some u =>
    match u.fold with
    | none => .next s
    | some bs =>
      if s.cycle < u.foldFrom + 256 * (u.w * u.h) + 1024 then .next s
      else
      let u1 := s.applyFold u bs
      let s1 := s.setAunit u1
      .next (if u1.inFlight then s1 else s1.dueNow u1)

/-- FOLD (R337, R363): a fold begins, or its read reaches the next handle. -/
def execFold (die unit : Nat) (s : State) : Out :=
  match s.aunitOf die unit with
  | none => .next s
  | some u =>
    match u.fold with
    | none => .next (if s.unitServes u then s.startFold u else s)
    | some got => .next (if s.cycle = u.foldFrom + 8 * u.foldAt then s.foldRead u got else s)

/-- TPOS_WRITE (R363, Table 15.7). -/
def execTposWrite (die unit : Nat) (val : Word) (s : State) : Out :=
  match s.aunitOf die unit with
  | none => .next s
  | some u =>
    let u1 := { u with tpos := min val.toNat (2 ^ 24), ctl := u.ctl % 16 }
    .next ((s.setAunit u1).armTimer u1)

/-- WEIGHT_WRITE (R363): ENERGY follows, being computed from the weights. -/
def execWeightWrite (die unit i j : Nat) (val : Word) (s : State) : Out :=
  match s.aunitOf die unit with
  | none => .next s
  | some u => .next (s.setAunit (u.setWeight i j (val.toNat % 2 ^ 16)))

/-- A parameter with no step of its own is stored (R6, R363). -/
def State.writeParam (s : State) (die unit num : Nat) (v : Word) : State :=
  match s.aunitOf die unit with
  | none => s
  | some u =>
    let u1 := u.store num v
    let s1 := s.setAunit u1
    if num ≤ 1 then (if u1.due && !u1.inFlight && u1.fold.isNone then s1.dueNow u1 else s1.armTimer u1) else s1

/-! ### PLC (R356-R363) -/

/-- The POS fields of a core for a process (Table 2.8). -/
def Proc.posAt (p : Proc) (c : Nat) : Nat :=
  dieOf c * 2 ^ 32 + coreY c * 2 ^ 24 + coreX c * 2 ^ 16 + (coreY c + 256 - p.ry) % 256 * 2 ^ 8 + (coreX c + 256 - p.rx) % 256

/-- POS of the core in focus; 0 on an empty core (R376). -/
def State.posReg (s : State) : Word := if s.core.occupied then BitVec.ofNat 64 (s.proc.posAt s.here) else 0

/-- POSGET (R357). -/
def execPosget (q : BitVec 3) (d : BitVec 5) (s : State) : Out :=
  guarded q s (fun s =>
    let p := s.proc
    let v := p.mc * 2 ^ 48 + p.didx % 256 * 2 ^ 40 + (if p.migp then 2 ^ 39 else 0) + (if p.anch then 2 ^ 38 else 0) + s.posReg.toNat
    (s.wx d (if s.core.occupied then BitVec.ofNat 64 v else 0)).retire)

/-- The core of a region position, where it lies in the region. -/
def Proc.regionCore (p : Proc) (v : Word) : Option Nat :=
  let x := v.toNat % 256
  let y := v.toNat / 256
  if x < p.rw ∧ y < p.rh then some (coreId (p.rx + x) (p.ry + y)) else none

/-- LIDGET (R358). -/
def execLidget (q : BitVec 3) (d a : BitVec 5) (s : State) : Out :=
  guarded q s (fun s =>
    match s.proc.regionCore (s.rx a) with
    | none => (s.wx d (-1)).retire
    | some c => startAcc [{ kind := .lidget, place := .mmio c 0, size := 8 }] (.xreg d 8 false) s)

/-- The result of WHERE for a placement entry (R359). -/
def Proc.whereOf (p : Proc) (modid e : Nat) : Word :=
  BitVec.ofNat 64 (e / 2 ^ 48 % 2 ^ 16 * 2 ^ 48 + (if entModule e ≠ modid then 2 ^ 47 else 0) + (if e / 2 ^ 31 % 2 = 0 then 2 ^ 46 else 0) +
    (if e / 2 ^ 30 % 2 = 1 then 2 ^ 45 else 0) + p.posAt (e % 2 ^ 12))

/-- WHERE (R359): an uncached 8-byte read of the lid's placement entry. In phase 1 one in a vault takes PROTECT (R403). -/
def execWhereLid (q : BitVec 3) (d a : BitVec 5) (s : State) : Out :=
  guarded q s (fun s =>
    let lid := (s.rx a).toNat
    if s.proc.gsize ≤ lid then (s.wx d (-1)).retire
    else
      let pa := s.proc.plbase.toNat + 8 * lid
      let acc : Acc := { kind := .load, place := .phys pa, size := 8 }
      if s.module.phase = 1 ∧ (paType pa = 0 ∨ paType pa = 4 ∨ paType pa = 5) then s.takeTrap .protect 0
      else withData 0 [acc] s (fun s got => (s.wx d (s.proc.whereOf s.module.modid (got.headD 0))).retire))

/-- ANCHOR (R351, R360): it also cancels a pending MIGREQ. -/
def execAnchor (q : BitVec 3) (d : BitVec 5) (s : State) : Out :=
  guarded q s (fun s =>
    let old : Word := if s.proc.anch then 1 else 0
    let s1 := s.setProc { s.proc with anch := true }
    let s2 := match s1.moves.find? (fun m => m.kind == .requested && m.a == s1.here && !m.transfer) with
      | some m => (s1.abortMove m .anchored).focusSlot s1.here s1.slot.val
      | none => s1
    (s2.wx d old).retire)

/-- UNANCHOR (R360). -/
def execUnanchor (q : BitVec 3) (d : BitVec 5) (s : State) : Out :=
  guarded q s (fun s =>
    let old : Word := if s.proc.anch then 1 else 0
    ((s.setProc { s.proc with anch := false }).wx d old).retire)

/-- MIGREQ (R361): the thread parks for the service core's reply, whose time is not bounded (log entry 1). -/
def execMigreq (q : BitVec 3) (d a : BitVec 5) (s : State) : Out :=
  guarded q s (fun s =>
    if s.thr.storeQ ≠ [] then .next (s.parkRetry .storeEmpty)
    else .next ((s.park (.migreq d (s.rx a))).after 250 (.migrationRequestService s.here s.slot.val)))

/-- The status of a request of the process in focus, and its target (R361): the first of 1, 3, 2 and 4. DESIGN CHOICE: while its group is being
pre-empted no core is taken, so that the status is 2, or 4 for the coolest core (log entry 93). -/
def State.migStatus (s : State) (target : Word) : Nat × Option Nat :=
  let p := s.proc
  if p.anch then (1, none)
  else if p.migp then (3, none)
  else if !s.groupRuns p.gid then (if target = BitVec.allOnes 64 then 4 else 2, none)
  else if target = BitVec.allOnes 64 then
    match s.coolest p none with
    | some c => (0, some c)
    | none => (4, none)
  else
    match p.regionCore target with
    | some c => if s.eligible none c then (0, some c) else (2, none)
    | none => (2, none)

/-- MIGRATION_REQUEST_SERVICE (R361). -/
def execMigrationRequestService (core slot : Nat) (s : State) : Out :=
  let s := s.focusSlot core slot
  match s.thr.wait with
  | some (.migreq d target) =>
    let st := s.migStatus target
    let s1 := s.unparkX d (BitVec.ofNat 64 st.1)
    .next (match st.2 with
      | some c => s1.startMove .requested c
      | none => s1)
  | _ => .next s

/-- The core of the unit that serves the process in focus; the own core where there is none (R363). -/
def State.unitCore (s : State) : Nat := ((s.proc.unit.bind (fun k => s.aunitOf k.1 k.2)).map AUnit.core).getD s.here

/-- ANNGET (R363). -/
def execAnnget (q : BitVec 3) (d a : BitVec 5) (s : State) : Out :=
  guarded q s (fun s => startAcc [{ kind := .annget, place := .mmio s.unitCore 0, va := s.rx a, size := 8 }] (.xreg d 8 false) s)

/-- ANNSET (R363, R365). -/
def execAnnset (q : BitVec 3) (d a b : BitVec 5) (s : State) : Out :=
  guarded q s (fun s =>
    startAcc [{ kind := .annset, place := .mmio s.unitCore 0, va := s.rx a, size := 8, val := (s.rx b).toNat }] (.xreg d 8 false) s)

end Sys2Proof.Machine
end

