-- ==== Sys2Proof/Machine/Status.lean ====
section
/-! DEFINITION. Status registers (R54-R57, R86-R88, R385, Tables 2.6 and 19.4): GETS, PUTS, and the writes that are steps of
their own. -/

namespace Sys2Proof.Machine

/-- THREAD_RESUME (R22): the condition of a parked thread has cleared: a HEND whose stores are acknowledged ends its thread
(R252), a `.c` transcendental delivers its result (R128), a PRECV's search ends (R235), an MLDB begins its read (R319), a
thread that waits to execute its instruction again may do so, at once where a unit has come home (R183) or a TAKE waits for its ACAS (R266); a pending HKILL is carried
out (R256). -/
def execThreadResume (core slot : Nat) (s : State) : Out :=
  let s := s.focusSlot core slot
  match s.thr.wait with
  | some (.hend exit) =>
    if s.thr.storeQ = [] then .next (s.endThread slot exit s.thr.kpend) else .next s
  | some (.ftr d v fl) =>
    .next ((s.setThr ((s.thr.wf d (BitVec.ofNat 64 v)).flag (BitVec.ofNat 5 fl)).resumed).killNow slot)
  | some (.precv ..) => .next (s.precvEnds.killNow slot)
  | some (.mldb _) => if s.thr.storeQ = [] then .next s.mldbGoes else .next s
  | some (.retry on) =>
    let s1 := if s.thr.kpend then s.killNow slot else s
    if !s1.thr.live || s1.thr.wait != some (.retry on) then .next s1
    else
      match on with
      | .unitHome _ | .more => .next (s1.goOn core slot)
      | _ => if s1.thr.kpend then .next s1 else .next (s1.setThr { s1.thr with wait := none })
  | _ => .next (s.killNow slot)

/-! ### Which numbers are registers (R54, R86, R385) -/

/-- The numbers of Table 2.6. -/
def isStatus (n : Nat) : Bool :=
  [0x000, 0x002, 0x003, 0x004, 0x005, 0x006, 0x007, 0x008, 0x009, 0x00A, 0x00B, 0x00C, 0x00D, 0x020, 0x030, 0x031, 0x040, 0x041,
   0x042, 0x043, 0x044, 0x045].contains n || (decide (0x010 ≤ n) && decide (n ≤ 0x017))

/-- The numbers of Table 19.4. -/
def isSupervisor (n : Nat) : Bool :=
  [0x800, 0x801, 0x802, 0x803, 0x804, 0x810, 0x811, 0x812, 0x813, 0x820, 0x821, 0x830].contains n

/-- The trap of a GETS or PUTS that names a number in a slot, before its guard is read (R54, R67, R86). -/
def statusTrap (slot n : Nat) : Option Trap :=
  if n < 0x800 then (if isStatus n then none else some .illegal)
  else if slot ≠ 11 then some .priv
  else if isSupervisor n then none
  else some .illegal

/-! ### Reading -/

/-- HLIVE (Table 2.6). -/
def Core.hlive (k : Core) : Nat := ((List.range 11).map (fun i => if i != 0 && (k.thr i).live then 2 ^ i else 0)).sum

/-- The thread that TXSEL selects, when it has a trap outstanding (Table 19.4). -/
def State.txThread (s : State) : Option Nat :=
  let i := s.core.txsel.toNat % 16
  if i < 12 ∧ (s.core.thr i).trap.isSome then some i else none

/-- The register number of TXSEL. -/
def State.txReg (s : State) : BitVec 5 := s.core.txsel.extractLsb' 16 5

/-- TXVAL (Table 19.4). -/
def State.txval (s : State) : Word :=
  match s.txThread with
  | none => 0
  | some i => if s.core.txsel.getLsbD 8 then (s.core.thr i).rf s.txReg else (s.core.thr i).rx s.txReg

/-- BANKMODE (Table 19.4): two bits a bank. -/
def bankBits : List BankMode → Nat
  | [] => 0
  | m :: t => (match m with | .cache => 0 | .scratchpad => 1 | .fifo => 2) + 4 * bankBits t

/-- A bit as a number. -/
def bit (b : Bool) : Nat := if b then 1 else 0

/-- CYCLE of the process in focus (R14): the cycles of the core. -/
def State.cycleReg (s : State) : Word := BitVec.ofNat 64 s.cycle - BitVec.ofNat 64 s.proc.cycSkew

/-- The value that a GETS of a number delivers to the thread in focus (R54, R87): before its own turn is counted. A
process-scope register reads 0 on an empty core (R376). -/
def State.readStatus (s : State) (n : Nat) : Word :=
  let t := s.thr
  let p := s.proc
  let w (v : Nat) : Word := BitVec.ofNat 64 v
  let pr (v : Word) : Word := if s.core.occupied then v else 0
  match n with
  | 0x000 => t.fpctl
  | 0x002 => w s.slot.val
  | 0x003 => pr (w p.lid)
  | 0x004 => pr (w p.gsize)
  | 0x005 => s.posReg
  | 0x006 => pr s.cycleReg
  | 0x007 => t.instret
  | 0x008 => pr (w p.winsize)
  | 0x009 => pr (w s.core.hlive)
  | 0x00A => t.hintdrop
  | 0x00B => s.core.temp
  | 0x00C => pr p.trip
  | 0x00D => w s.module.phase
  | 0x020 => pr (w (bit p.anch))
  | 0x030 => pr p.dqbase
  | 0x031 => pr p.uqcfg
  | 0x040 => t.sciss
  | 0x041 => t.scmem
  | 0x042 => t.scmsg
  | 0x043 => t.scvac
  | 0x044 => w s.core.rhsel
  | 0x045 => (s.core.hist.toList[s.core.rhsel]?).getD 0
  | 0x800 => w (s.core.trapQ.length + 16 * bit (!s.core.trapWait.isEmpty))
  | 0x802 => s.core.txsel
  | 0x803 => s.txval
  | 0x804 => s.core.svroot
  | 0x810 => pr p.ptroot
  | 0x811 => pr p.plbase
  | 0x812 => pr p.spill
  | 0x813 => pr (w p.gid)
  | 0x820 => s.core.ecccnt
  | 0x821 => s.core.meaddr
  | 0x830 => w (bankBits (s.clusterAt (clusterOf s.here)).modes.toList)
  | _ => if 0x010 ≤ n ∧ n ≤ 0x017 then pr ((p.fm.toList[n - 0x010]?).getD 0) else 0

/-- GETS (R54, R86, R87). -/
def execGets (q : BitVec 3) (d : BitVec 5) (num : BitVec 12) (s : State) : Out :=
  match statusTrap s.slot.val num.toNat with
  | some t => s.takeTrap t 0
  | none => guarded q s (fun s => (s.wx d (s.readStatus num.toNat)).retire)

/-! ### Writing -/

/-- A parked TRGET ends with no record: zero in all four registers (R383). -/
def Thread.trgetNone (t : Thread) (d : BitVec 5) : Thread := (((t.wx d 0).wx (d + 1) 0).wx (d + 2) 0).wx (d + 3) 0

/-- Post an interrupt to a slot of the core in focus (R197, R383, R385). -/
def State.postInt (s : State) (i : Nat) : State :=
  let t := s.core.thr i
  if !t.live then s
  else
    match t.wait with
    | some (.trget d) => s.setThrAt s.here i { (t.trgetNone d).resumed with got := [] }
    | _ =>
      let s1 := s.setThrAt s.here i { t with intr := true }
      { (s1.focusSlot s.here i).testWaitm with slot := s.slot }

/-- A write of INTPOST (R385). -/
def State.writeIntpost (s : State) (v : Word) : State :=
  (List.range 12).foldl (fun (acc : State) i => if v.getLsbD i then acc.postInt i else acc) s

/-- A write of TXVAL (R385). -/
def State.writeTxval (s : State) (v : Word) : State :=
  match s.txThread with
  | none => s
  | some i =>
    let t := s.core.thr i
    s.setThrAt s.here i (if s.core.txsel.getLsbD 8 then t.wf s.txReg v else t.wx s.txReg v)

/-- Clear the ready-count histogram (R411). -/
def State.clearHist (s : State) : State := { s with core := { s.core with hist := Vector.replicate 13 0 } }

/-- The write of a register by the thread in focus (R6, R55, R56, R88, R385): read-only registers keep their values, and so do
process-scope registers of an empty core. -/
def State.writeStatus (s : State) (n : Nat) (v : Word) : State :=
  let t := s.thr
  let pr (f : Proc → Proc) : State := if s.core.occupied then s.setProc (f s.proc) else s
  match n with
  | 0x000 => s.setThr { t with fpctl := fpctlStored v }
  | 0x00A => s.setThr { t with hintdrop := v }
  | 0x00C => if s.core.occupied then s.writeTrip v else s
  | 0x030 => pr (fun p => { p with dqbase := v })
  | 0x031 => if s.core.occupied then s.writeUqcfg v else s
  | 0x040 => s.setThr { t with sciss := v }
  | 0x041 => s.setThr { t with scmem := v }
  | 0x042 => s.setThr { t with scmsg := v }
  | 0x043 => s.setThr { t with scvac := v }
  | 0x044 =>
    let s1 := if v.getLsbD 63 then s.clearHist else s
    { s1 with core := { s1.core with rhsel := v.toNat % 16 } }
  | 0x801 => s.writeIntpost v
  | 0x802 => { s with core := { s.core with txsel := v &&& 0x1F010F#64 } }
  | 0x803 => s.writeTxval v
  | 0x804 => { s with core := { s.core with svroot := v &&& 0xFFFFFFFFFFFF0000#64 } }
  | 0x810 => pr (fun p => { p with ptroot := v })
  | 0x811 => pr (fun p => { p with plbase := v })
  | 0x812 => pr (fun p => { p with spill := v })
  | 0x820 => { s with core := { s.core with ecccnt := v } }
  | _ => if 0x010 ≤ n ∧ n ≤ 0x017 then pr (fun p => { p with fm := p.fm.setIfInBounds (n - 0x010) (fmStored v) }) else s

/-- PUTS (R54, R55, R86, R88): its own turn is counted first, so that a counter holds what was written. -/
def execPuts (q : BitVec 3) (num : BitVec 12) (a : BitVec 5) (s : State) : Out :=
  match statusTrap s.slot.val num.toNat with
  | some t => s.takeTrap t 0
  | none => guarded q s (fun s => .next ((s.setThr s.thr.retired).writeStatus num.toNat (s.rx a)))

/-! ### Writes that are steps of their own (R6, R88, R385, R411) -/

/-- INTPOST_WRITE (R385). -/
def execIntpostWrite (core : Nat) (val : Word) (s : State) : Out := .next ((s.focus core).writeIntpost val)

/-- TXVAL_WRITE (R385). -/
def execTxvalWrite (core : Nat) (val : Word) (s : State) : Out := .next ((s.focus core).writeTxval val)

/-- RHSEL_CLR (R411). -/
def execRhselClr (core : Nat) (s : State) : Out := .next (s.focus core).clearHist

/-- The write of a register of BAR2 that has no step of its own (R399, Table 21.1). MODID is taken only in phase 1. -/
def State.writeBar2 (s : State) (off : Nat) (v : Word) : State :=
  let m := s.module
  match off with
  | 0x0000 => if m.phase = 1 then { s with module := { m with modid := v.toNat % 2 ^ 16 } } else s
  | 0x0030 => { s with module := { m with mbdrop := v } }
  | 0x0040 => { s with module := { m with droophold := v.toNat % 256 } }
  | 0x0050 => { s with module := { m with attaddr := v } }
  | 0x0060 => { s with module := { m with attnonce := m.attnonce.set 0 v } }
  | 0x0068 => { s with module := { m with attnonce := m.attnonce.set 1 v } }
  | 0x0070 => { s with module := { m with attnonce := m.attnonce.set 2 v } }
  | 0x0078 => { s with module := { m with attnonce := m.attnonce.set 3 v } }
  | _ => s

/-- REGISTER_WRITE (R6): a status register of a thread, an annealer parameter, a register of BAR2, the mask bit of the MSI-X vector (set;
its clearing is a step of its own, R401), the failure code that a failed check of the firmware (phase 0) or a failed training of a vault
(phase 1) leaves (R403), or a comparator of a debug module (R410). A thread that may not write a status
register takes the trap before any effect (R54). -/
def execRegisterWrite (reg : RegName) (val : Word) (s : State) : Out :=
  match reg with
  | .status core slot num =>
    let s1 := s.focusSlot core slot
    (match statusTrap slot num with
     | some t => if s1.thr.live then s1.takeTrap t 0 else .next s1
     | none => .next (s1.writeStatus num val))
  | .anneal die unit num => .next (s.writeParam die unit num val)
  | .bar2 off => .next (s.writeBar2 off val)
  | .msixMask => .next (if val.getLsbD 0 then { s with module := { s.module with masked := true } } else s)
  | .failure =>
    .next (if s.module.phase = 0 then { s with module := { s.module with failCode := 1 } }
           else if s.module.phase = 1 then { s with module := { s.module with failCode := 2 } } else s)
  | .comparator cl n b =>
    let k := s.clusterAt cl
    .next (s.setCluster cl { k with breaks := k.breaks.setIfInBounds n b })

end Sys2Proof.Machine
end

