-- ==== Sys2Proof/Machine/System.lean ====
section
/-! DEFINITION. Traps and slot 11 (spec 19, R376-R387, R396): the trap queue, SYSC, BRK, TRGET, TRET, HALT, undefined words and
fetch faults, and the repair of a halted core. -/

namespace Sys2Proof.Machine

/-- A supervisor instruction: PRIV outside slot 11, before the guard is read (R60, R67, R381). -/
def superv (q : BitVec 3) (s : State) (body : State → Out) : Out :=
  if s.slot.val ≠ 11 then s.takeTrap .priv 0 else guarded q s body

/-! ### Traps of words and fetches (R66, R101, R382) -/

/-- UNDEFINED_WORD (R66, R67): ILLEGAL, whatever the guard holds. -/
def execUndefinedWord (word : IWord) (s : State) : Out := (s.setThr { s.thr with ir := word }).takeTrap .illegal 0

/-- INSTRUCTION_FETCH_FAULT (R101): the trap is taken with the PC at the word that could not be fetched. What WORD of the
record holds is not stated: a free value. -/
def execInstructionFetchFault (code : Nat) (addr : Word) (s : State) : Out :=
  .next (((s.setThr { s.thr with ir := Config.unfetchedWord s.free }).setThr
    ({ s.thr with ir := Config.unfetchedWord s.free }.bubble .vac)).trapWith code addr 0)

/-- SYSC (R382). -/
def execSysc (q : BitVec 3) (a : BitVec 5) (s : State) : Out :=
  guarded q s (fun s => s.takeTrap .syscall (s.rx a))

/-- BRK (R382): the literal stands in INFO. -/
def execBrk (q : BitVec 3) (b : BitVec 5) (s : State) : Out :=
  guarded q s (fun s => .next ((s.setThr (s.thr.bubble .vac)).trapWith Trap.brk.code 0 (b.setWidth 32)))

/-! ### The trap queue (R378, R379, R383) -/

/-- TRAP_RECORD_ENQUEUE (R379, R383). -/
def execTrapRecordEnqueue (core : Nat) (rcd : TrapRec) (s : State) : Out :=
  let s := s.focus core
  let k := ({ s.core with trapWait := s.core.trapWait ++ [rcd] } : Core).refill
  .next ({ s with core := k } : State).serveTrget

/-- TRGET (R383): a record, or zeros at once for a timeout of 0 or a pending interrupt, or a wait. -/
def execTrget (q : BitVec 3) (d a : BitVec 5) (s : State) : Out :=
  superv q s (fun s =>
    match s.popRecord with
    | some (r, s1) => (s1.setThr (s1.thr.takeRecord d r)).retire
    | none =>
      let lim := s.rx a
      if lim = 0 ∨ s.thr.intr then (s.setThr { s.thr.trgetNone d with intr := false }).retire
      else if lim = BitVec.allOnes 64 then .next (s.park (.trget d))
      else
        let s1 := s.park (.trget d)
        .next ((s1.setThr { s1.thr with got := [s.cycle + lim.toNat] }).after lim.toNat (.trgetTimeout s.here)))

/-- TRGET_TIMEOUT (R383): the timeout of the present TRGET has elapsed. -/
def execTrgetTimeout (core : Nat) (s : State) : Out :=
  let s := s.focusSlot core 11
  match s.thr.wait, s.thr.got with
  | some (.trget d), [due] =>
    if due ≤ s.cycle then .next (s.setThr { (s.thr.trgetNone d).resumed with got := [] }) else .next s
  | _, _ => .next s

/-! ### TRET (R384, Table 19.4a) -/

/-- Remove the record of a thread that has not been taken yet (R384). -/
def State.dropRecord (s : State) (r : TrapRec) : State :=
  let k := ({ s.core with trapQ := s.core.trapQ.filter (· != r), trapWait := s.core.trapWait.filter (· != r) } : Core).refill
  { s with core := k, agenda := s.agenda.filter (fun e => e.2 != .trapRecordEnqueue s.here r) }

/-- TRET of a thread: it goes on as asked, or ends where an HKILL is pending or asked for (R256). -/
def State.tretThread (s : State) (i : Nat) (how : Return) (kill : Bool) : Option State :=
  let t := s.core.thr i
  match t.trap with
  | none => none
  | some r =>
    let slot := s.slot
    let s1 := (s.dropRecord r).setThrAt s.here i { (t.returned how) with kpend := t.kpend || kill }
    some (({ (s1.killNow i) with slot := slot } : State))

/-- TRET of a copy request: it resumes at its cursor, or is aborted (R291, R297). -/
def State.tretCopy (s : State) (id : Nat) (abort : Bool) : Option State :=
  match s.proc.fifo.find? (fun r => r.id == id && r.state == 3 && !r.aborted) with
  | none => none
  | some r =>
    if abort then s.abortReq id
    else
      let s1 := s.setProc (s.proc.mapReq id (fun x => { x with state := 1, cause := 0 }))
      let n := if r.kind = 6 then s1.putMissing r else 0
      some ((if n = 0 then s1 else s1.after 0 (.putCounterAdd s1.proc.gid s1.proc.lid id n)).startNext 0)

/-- Of a message under a record, no byte at `n` or beyond lands any more (R384). -/
def Proc.cutAt (p : Proc) (id n : Nat) : Proc :=
  match p.landRec id with
  | some r =>
    let none_ := r.rcd.mode == 3 || n == 0
    p.setLandRec id (some { r with flags := r.flags ||| fTrunc,
                                   rcd := { r.rcd with maxlen := if none_ then 0 else min r.rcd.maxlen n, mode := if none_ then 0 else r.rcd.mode } })
  | none => p

/-- The copy that is under way has a latch slot no longer. -/
def State.copyLeavesLatch (s : State) : State :=
  match s.proc.copies with
  | (id, some l) :: rest =>
    let p := ({ s.proc with copies := (id, none) :: rest } : Proc).dropLatch l
    (s.setProc p).after 0 (.latchEntryAppend p.gid p.lid 0)
  | _ => s

/-- The remaining bytes of the message whose landing has faulted are discarded (R384): its record takes no further byte, and the message completes with
TRUNC. -/
def State.discardLanding (s : State) : State :=
  let p := s.proc
  match p.stream with
  | none => s
  | some l =>
    match l.pkt, p.landsUnder l with
    | some k, some (id, _) =>
      (match (p.inbound k.src k.ch).bind (·.msg) with
       | some m => s.setProc (p.cutAt id m.got)
       | none => s)
    | none, some (id, _) => (s.setProc (p.cutAt id l.off)).copyLeavesLatch
    | _, none => s

/-- TRET of a landing: it is made again, or the message's remaining bytes are discarded (R228-R230, R235, R384). -/
def State.tretLanding (s : State) (discard : Bool) : Option State :=
  match s.proc.landFault with
  | none => none
  | some _ =>
    let s1 := s.setProc { s.proc with landFault := none }
    some ((if discard then s1.discardLanding else s1).retryBlocked)

/-- TRET (R384). -/
def execTret (q : BitVec 3) (d a b : BitVec 5) (s : State) : Out :=
  superv q s (fun s =>
    let v := s.rx a
    let slot := v.toNat % 16
    let kind := v.toNat / 16 % 4
    let act := v.toNat / 64 % 4
    let pc := s.rx b
    let bad := decide (10 < slot) || decide (2 < kind) || v.extractLsb' 8 24 != 0 || (kind != 1 && v.extractLsb' 32 32 != 0) ||
      (kind == 0 && act == 3 && pc.extractLsb' 0 2 != 0) || (kind == 1 && (act == 1 || act == 3)) || (kind == 2 && decide (2 ≤ act))
    if bad then (s.wx d 2).retire
    else
      let r := match kind, act with
        | 0, 0 => s.tretThread slot .retry false
        | 0, 1 => s.tretThread slot .skip false
        | 0, 2 => s.tretThread slot .retry true
        | 0, _ => s.tretThread slot (.redirect pc) false
        | 1, 0 => s.tretCopy (v.toNat / 2 ^ 32) false
        | 1, _ => s.tretCopy (v.toNat / 2 ^ 32) true
        | _, 0 => s.tretLanding false
        | _, _ => s.tretLanding true
      match r with
      | some s1 => (s1.wx d 0).retire
      | none => (s.wx d 1).retire)

/-! ### Halted cores (R386, R387, R396) -/

/-- HALT (R386, R396). -/
def execHalt (q : BitVec 3) (s : State) : Out := superv q s (fun s => .next ((s.setThr s.thr.retired).haltCore none))

/-- The PC at which slot 11 starts (R387): a multiple of 4 that the manual does not give (log entry 5). -/
def entryPc : Word := (Config.runtimeEntry ++ 0#2).setWidth 64

/-- Slot 11 as it starts: every register zero; stores of it that are on their way are still acknowledged. -/
def Thread.restarted (t : Thread) (now : Nat) : Thread :=
  { t.fresh with live := true, pc := entryPc, notBefore := now, storeQ := t.storeQ }

/-- The replies that a halted core holds are taken (R386, R387). -/
def State.takeReplies (s : State) : State :=
  s.core.replies.foldl (fun (acc : State) e => acc.after 0 e) { s with core := { s.core with replies := [] } }

/-- CORE_REPAIR (R387): slot 11 is restarted, or the resident process is moved to a free core of its region and the halted core
goes out of service. A target that is not eligible is not taken. -/
def execCoreRepair (core target : Nat) (restart : Bool) (s : State) : Out :=
  let s := s.focus core
  if !s.core.halted then .next s
  else if restart then
    let s1 := s.setThrAt core 11 ((s.core.thr 11).restarted (s.cycle + 1))
    let s2 : State := { s1 with core := { s1.core with halted := false } }
    .next (if s2.core.occupied then s2.takeReplies.kickCopy.retryBlocked else s2.takeReplies)
  else if !s.core.occupied then .next { s with core := { s.core with oos := true } }
  else if s.eligible none target && s.proc.regionCores.contains target && s.core.moving.isNone then
    .next (s.startMove .repair target).takeReplies
  else .next s

end Sys2Proof.Machine
end

