-- ==== Sys2Proof/Machine/Launch.lean ====
section
/-! DEFINITION. The life of a group (R17, R25, R30, R31, R244, R252, R253, R272, R364, R388): GLAUNCH, the launch multicast, and
the end of a process. -/

namespace Sys2Proof.Machine

/-! ### The launch descriptor (Table 19.5) -/

/-- The fields of a descriptor. -/
structure Descriptor where
  gid : Nat
  n : Nat
  rx : Nat
  ry : Nat
  rw : Nat
  rh : Nat
  winsize : Nat
  entry : Nat
  ptroot : Nat
  plbase : Nat
  spillbase : Nat
  wimg : Nat
  wlen : Nat
  tsr : Nat
  args : List Word
  deriving DecidableEq, Repr

/-- Read the fields of 128 bytes. -/
def readDescriptor (r : Nat) : Descriptor :=
  { gid := recField r 0 2, n := recField r 4 4, rx := recField r 8 1, ry := recField r 9 1, rw := recField r 10 1, rh := recField r 11 1,
    winsize := recField r 12 4, entry := recField r 16 8, ptroot := recField r 24 8, plbase := recField r 32 8,
    spillbase := recField r 40 8, wimg := recField r 48 8, wlen := recField r 56 4, tsr := recField r 64 8,
    args := (List.range 6).map (fun i => BitVec.ofNat 64 (recField r (72 + 8 * i) 8)) }

/-- Whether a physical address may stand in a descriptor: type 0, and in phase 1 also type 1 (R388, R403). -/
def launchAddr (phase pa : Nat) : Bool := pa / 2 ^ 60 == 0 && (paType pa == 0 || (phase == 1 && paType pa == 1))

/-- The conditions of Table 19.5. -/
def descriptorOk (phase r : Nat) : Bool :=
  let d := readDescriptor r
  let zeros := recField r 2 2 == 0 && recField r 60 4 == 0 && recField r 120 8 == 0
  let even (k : Nat) : Bool := k % 2 == 0
  zeros && d.gid != 0 && decide (1 ≤ d.n) && decide (d.n ≤ d.rw * d.rh) && even d.rx && even d.ry && even d.rw && even d.rh &&
  decide (d.rx + d.rw ≤ 64) && decide (d.ry + d.rh ≤ 48) && d.winsize % 16384 == 0 && decide (16384 ≤ d.winsize) &&
  decide (d.winsize ≤ 262144) && d.entry % 4 == 0 && decide (d.wlen + 128 ≤ d.winsize) && launchAddr phase d.ptroot &&
  launchAddr phase d.plbase && launchAddr phase d.spillbase && launchAddr phase d.wimg && (d.tsr == 0 || launchAddr phase d.tsr)

/-- The core on which a lid is placed at launch: row-major in the region (R388). -/
def Group.launchCore (g : Group) (lid : Nat) : Nat := coreId (g.rx + lid % g.rw) (g.ry + lid / g.rw)

/-- The cores of a group's region. -/
def Group.cores (g : Group) : List Nat := (List.range (g.rw * g.rh)).map (fun i => coreId (g.rx + i % g.rw) (g.ry + i / g.rw))

/-! ### Domains and their units (R30, R31, R335, R364) -/

/-- The corners of a region's domains (R30), in row-major order. -/
def Group.domains (g : Group) : List (Nat × Nat × Nat × Nat) :=
  if g.rw * g.rh ≤ 256 then [(g.rx, g.ry, g.rw, g.rh)]
  else
    let nx := (g.rw + 15) / 16
    let ny := (g.rh + 15) / 16
    (List.range (nx * ny)).map (fun i => domainAt g.rx g.ry g.rw g.rh (g.rx + 16 * (i % nx)) (g.ry + 16 * (i / nx)))

/-- Assign the next free unit of the die of its north-west core to a domain, with the reset values of Table 15.7 (R31, R364,
R392). DESIGN CHOICE: the next free unit is the one of least number (log entry 60). -/
def State.assignUnit (gid : Nat) (s : State) (dom : Nat × Nat × Nat × Nat) : State :=
  let die := dieOf (coreId dom.1 dom.2.1)
  match (List.range 8).find? (fun i => (s.aunitOf die i).isNone) with
  | none => s
  | some i =>
    let u : AUnit := { die := die, idx := i, gid := gid, gx := dom.1, gy := dom.2.1, w := dom.2.2.1, h := dom.2.2.2,
                       resolvedAt := some s.cycle }
    ({ s with aunits := s.aunits ++ [u] } : State).armTimer u

/-- A process takes the unit of its domain and the row-major index of its core in it (R335). -/
def State.joinUnit (gid : Nat) (s : State) (c : Nat) : State :=
  let k := s.coreAt c
  if k.occupied && k.proc.gid == gid then
    let dom := k.proc.domain c
    let i := (coreY c - dom.2.1) * dom.2.2.1 + (coreX c - dom.1)
    s.setCoreAt c { k with proc := { k.proc with didx := i, unit := s.unitAt gid dom } }
  else s

/-- Assign annealer units to the domains of a group (R31). -/
def State.assignUnits (s : State) (g : Group) : State :=
  g.cores.foldl (State.joinUnit g.gid) (g.domains.foldl (State.assignUnit g.gid) s)

/-- A unit that is freed takes with it what it has still to do: its fold, a proposal that waits for its draw entry, and a swap in flight between
cores that have become empty (R31, R364). -/
def State.dropUnit (s : State) (u : AUnit) : State :=
  let mine (e : Instr) : Bool := e == .proposal u.die u.idx || e == .propose u.die u.idx || e == .proposalTimer u.die u.idx
  let s1 := s.dropFold u
  let s2 : State := { s1 with
    agenda := s1.agenda.filter (fun e => !mine e.2),
    units := s1.units.map (fun r => { r with waiting := r.waiting.filter (fun e => !mine e) }),
    clusters := s1.clusters.map (fun k => (k.1, { k.2 with bankWait := k.2.bankWait.filter (fun e => !mine e.2) })) }
  let (swaps, others) := s2.moves.partition (fun m => m.kind == .swap u.die u.idx)
  swaps.foldl (fun (acc : State) m => (acc.leaveMove m.a m.id).leaveMove m.b m.id) { s2 with moves := others }

/-- Free the annealer units of a group (R31, R252). -/
def State.freeUnits (s : State) (gid : Nat) : State :=
  let left (k : Core) : Core := if k.occupied && k.proc.gid == gid then { k with proc := { k.proc with unit := none } } else k
  let here := s.here
  let s1 := ((s.aunits.filter (fun u => u.gid == gid)).foldl State.dropUnit s).focus here
  { s1 with aunits := s1.aunits.filter (fun u => u.gid != gid), core := left s1.core,
            others := s1.others.map (fun e => (e.1, left e.2)) }

/-! ### GLAUNCH (R244, R272, R388) -/

/-- The window of a process at launch (R25, Table 1.3). -/
def Group.launchWindow (g : Group) (lid : Nat) : Memory :=
  let head := leBytes 4 lid ++ leBytes 4 g.n ++ leBytes 2 g.rw ++ leBytes 2 g.rh ++ leBytes 4 0
  let args := (g.args.map (fun w => leBytes 8 w.toNat)).flatten
  Memory.writeBytes [] 0 (head ++ args ++ g.tsr ++ g.wimg)

/-- A process at launch (R272). -/
def Group.launchProc (g : Group) (lid : Nat) : Proc :=
  { gid := g.gid, lid := lid, gsize := g.n, rx := g.rx, ry := g.ry, rw := g.rw, rh := g.rh, winsize := g.winsize,
    win := g.launchWindow lid, ptroot := g.ptroot, plbase := g.plbase,
    spill := g.spillbase + BitVec.ofNat 64 (lid * 0x122400) }

/-- The control thread at launch (R248). -/
def Thread.control (t : Thread) (entry : Word) (winsize lid now : Nat) : Thread :=
  (((t.fresh).start entry (BitVec.ofNat 64 lid) now).wx 2#5 (BitVec.ofNat 64 (0xFFFF * 2 ^ 48 + winsize)))

/-- Slots 0 to 10 as a launch finds them: no thread has ended in them yet (R254). -/
def Core.clearSlots (k : Core) : Core :=
  { k with slots := vmapIdx (fun i t => if i = 11 then t else { t.fresh with exitv := 0, killed := false, notBefore := 0 }) k.slots }

/-- Put a process on a core. -/
def State.place (s : State) (c : Nat) (p : Proc) : State :=
  let k := s.coreAt c
  s.setCoreAt c ({ k with occupied := true, proc := p } : Core).clearSlots

/-- The control thread of the process on a core starts. -/
def State.startControl (g : Group) (s : State) (c : Nat) : State :=
  let k := s.coreAt c
  if k.occupied && k.proc.gid == g.gid then
    s.setThrAt c 0 ((k.thr 0).control g.entry g.winsize k.proc.lid (s.cycle + 1))
  else s

/-- Every process is resident: units are assigned, the region's cores are no longer reserved, every control thread starts, and
GLAUNCH completes (R17, R388). -/
def State.startGroup (s : State) (g : Group) : State :=
  let s1 := s.setGroup { g with phase := .running }
  let s2 := g.cores.foldl (fun (acc : State) c => acc.setCoreAt c { acc.coreAt c with reserved := false }) s1
  let s3 := s2.assignUnits g
  let s4 := (g.cores.foldl (State.startControl g) s3).after 0 .edgeQueueSend
  let t := s4.thrAt g.svCore 11
  match t.wait with
  | some (.glaunch d gid) => if gid = g.gid then s4.setThrAt g.svCore 11 (t.wx d 0).resumed else s4
  | _ => s4

/-- MULTICAST_REPLICATE (R244, R25): the launch packet of a lid lands in the space reserved for it, and its window is laid out. -/
def execMulticastReplicate (gid lid : Nat) (s : State) : Out :=
  match s.groupOf gid with
  | none => .next s
  | some g =>
    if g.phase ≠ .launching then .next s
    else
      let s1 := s.place (g.launchCore lid) (g.launchProc lid)
      let g1 := { g with landed := g.landed + 1 }
      let s2 := s1.setGroup g1
      .next (if g1.landed = g.n then s2.startGroup g1 else s2)

/-- Whether a core keeps a group from being launched on it (R388). -/
def Core.taken (k : Core) : Bool := k.occupied || k.reserved || k.oos

/-- Record a group: an ended one of the same id gives way, and its channels from HOST with it (R210). -/
def State.addGroup (s : State) (g : Group) : State :=
  { s with groups := s.groups.filter (fun h => h.gid != g.gid) ++ [g],
           module := { s.module with hostCh := s.module.hostCh.filter (fun k => k.gid != g.gid) } }

/-- The banks in which `n` bytes at a physical address lie. -/
def banksOf (pa n : Nat) : List (Nat × Nat) :=
  ([pa, pa + (n - 1)].filterMap (fun a => bankOf (.phys a))).eraseDups

/-- Whether the hardware's accesses to `n` bytes at an address of a descriptor take PROTECT: to a vault in phase 1 (R403), or to a bank that is
not in scratchpad mode (R160). -/
def State.launchBars (s : State) (pa n : Nat) : Bool :=
  n != 0 && ((s.module.phase == 1 && paType pa != 1) || (banksOf pa n).any (fun cb => s.bankMode cb.1 cb.2 != .scratchpad))

/-- What a read of `n` bytes at an address of a descriptor has to wait for: a bank whose mode is being changed, or a reservation unit that is
away (R161, R183, R371). -/
def State.launchWaits (s : State) (pa n : Nat) : Option RetryOn :=
  if n = 0 then none
  else
    match (banksOf pa n).find? (fun cb => s.bankChanging cb.1 cb.2) with
    | some (cl, b) => some (.bank cl b)
    | none => (s.awayIn (.phys pa) n).map .unitHome

/-- GLAUNCH with its descriptor at hand (R388). The id of a group that has not ended counts as a condition that fails. The accesses to the
placement table, the image and the shape record may trap or wait, before anything is changed (R160, R161, R183, R403). -/
def State.launch (s : State) (d : BitVec 5) (raw : Nat) : Out :=
  let k := readDescriptor raw
  let w (n : Nat) : Word := BitVec.ofNat 64 n
  let used := match s.groupOf k.gid with | some g => g.phase != .ended | none => false
  if !descriptorOk s.module.phase raw || used then (s.wx d 2).retire
  else
    let g : Group := { gid := k.gid, n := k.n, rx := k.rx, ry := k.ry, rw := k.rw, rh := k.rh, winsize := k.winsize, entry := w k.entry,
                       ptroot := w k.ptroot, plbase := w k.plbase, spillbase := w k.spillbase,
                       wimg := Memory.bytes s.mem k.wimg k.wlen, tsr := if k.tsr = 0 then leBytes 64 0 else Memory.bytes s.mem k.tsr 64,
                       args := k.args, svCore := s.here }
    let ranges := [(k.plbase, 8 * k.n), (k.wimg, k.wlen), (k.tsr, if k.tsr = 0 then 0 else 64)]
    if g.cores.any (fun c => (s.coreAt c).taken) then (s.wx d 1).retire
    else
    match ranges.findSome? (fun r => s.launchWaits r.1 r.2), ranges.find? (fun r => s.launchBars r.1 r.2) with
    | some on, _ => .next (s.parkRetry on)
    | none, some r => s.takeTrap .protect (w r.1)
    | none, none =>
    if s.isBad (.phys k.wimg) k.wlen then (s.noteError s.here (.phys k.wimg)).takeTrap .machine (w k.wimg)
    else if k.tsr ≠ 0 ∧ s.isBad (.phys k.tsr) 64 then (s.noteError s.here (.phys k.tsr)).takeTrap .machine (w k.tsr)
    else
      let s1 := s.addGroup g
      let s2 := (List.range g.n).foldl (fun (acc : State) l => acc.setPlace s.here g.gid l 0 true false (g.launchCore l)) s1
      let s3 := g.cores.foldl (fun (acc : State) c => acc.setCoreAt c { acc.coreAt c with reserved := true }) s2
      let s4 := s3.park (.glaunch d g.gid)
      .next ((List.range g.n).foldl (fun (acc : State) l =>
        acc.after (1 + transit s.here (g.launchCore l)) (.multicastReplicate g.gid l)) s4)

/-- Read `n` bytes at an address that is a multiple of `n` in blocks of 64 bytes, as a load of slot 11, and go on with them. -/
def readBlocks (n : Nat) (ea : Word) (s : State) (k : State → Nat → Out) : Out :=
  let join (l : List Nat) : Nat := l.foldr (fun v acc => v + 2 ^ 512 * acc) 0
  let accs (p : Place) (ca : Bool) (sc : Nat) : List Acc := (List.range (n / 64)).map (fun i =>
    { kind := .load, place := p.plus (64 * i), va := ea + BitVec.ofNat 64 (64 * i), size := 64, cached := ca, scope := sc })
  if 0 < s.thr.ready then withData 0 (accs (.phys 0) false 0) s (fun s g => k s (join g))
  else atAddr .r n n ea false s (fun p ca sc _ => withData 0 (accs p ca sc) s (fun s g => k s (join g)))

/-- GLAUNCH (R388). -/
def execGlaunch (q : BitVec 3) (d a : BitVec 5) (s : State) : Out :=
  superv q s (fun s => readBlocks 128 (s.rx a) s (fun s raw => s.launch d raw))

/-! ### The end of a process and of a group (R252, R253) -/

/-- Whether a place lies in the window of a lid. -/
def Place.inWindow (p : Place) (gid lid : Nat) : Bool := match p with | .win g l _ => g == gid && l == lid | _ => false

/-- The waiters on the granules of a window take WINDOW (R253). -/
def State.dropWaiters (s : State) (c gid lid : Nat) : State :=
  let mine := s.waiters.filter (fun w => w.granule.inWindow gid lid)
  let s1 := mine.foldl (fun (acc : State) w => match w.req with
    | some r => acc.linkReply c r 0 Trap.window.code {}
    | none => acc.after (transit c w.core) (.nonlocalReply w.core w.slot 0 Trap.window.code {})) s
  { s1 with waiters := s1.waiters.filter (fun w => !w.granule.inWindow gid lid) }

/-- What else belongs to a window goes with it (R253). -/
def State.dropWindow (s : State) (gid lid : Nat) : State :=
  { s with bad := s.bad.filter (fun p => !p.inWindow gid lid), sigSlots := s.sigSlots.filter (fun e => !e.word.inWindow gid lid),
           watches := s.watches.filter (fun w => !w.line.inWindow gid lid) }

/-- Every open handle of a process that has ended is closed as by CHCLOSE (R219, R252): what is left of the process keeps its
handles until they are free, and its aborted requests until the writes that they have issued are done (R292, R297). -/
def State.closeAll (s : State) (c : Nat) (p : Proc) : State :=
  let ghost : Proc := { gid := p.gid, lid := p.lid, gsize := p.gsize, winsize := p.winsize, mc := p.mc, ptroot := p.ptroot, plbase := p.plbase,
                        ended := true, fifo := p.fifo,
                        handles := vmap (fun h => h.map (fun o => { o with closing := true })) p.handles }
  let k := s.coreAt c
  if p.spent then s
  else
    (List.range 32).foldl (fun (acc : State) h =>
      match acc.sender p.gid p.lid with
      | some (c1, p1) => if (p1.handle h).isSome then acc.inject c1 p1 h else acc
      | none => acc) (s.setCoreAt c { k with ghosts := ghost :: k.ghosts })

/-- The record of a service notice (Table 19.2). -/
def notice (info : Nat) : TrapRec :=
  { pc := 0, addr := 0, code := Trap.syscall.code, slot := 0, src := 4, frame := false, pass := 0, posn := 0, info := BitVec.ofNat 32 info,
    word := 0, cause := 0 }

/-- A group ends with its last process: its units are freed and the runtime is told (R31, R252, R378). -/
def State.groupEnds (s : State) (c : Nat) (g : Group) : State :=
  ((s.setGroup { g with phase := .ended }).freeUnits g.gid).raise c (notice 1)

/-- PROCESS_END (R252, R253): its requests are aborted as by CPABORT (R292, R297). DESIGN CHOICE: packets that it still holds, the landing in
progress among them, and deliveries that it has not acknowledged go with it, unacknowledged (log entry 74). -/
def execProcessEnd (gid lid : Nat) (s : State) : Out :=
  match s.coreOf gid lid with
  | none => .next s
  | some c =>
    let s := s.focus c
    let p := s.proc
    if !p.ctlEnded || s.helperLives || !p.rq.isEmpty then .next s
    else
      let s1 := match p.unit.bind (fun k => s.aunitOf k.1 k.2) with | some u => s.setAunit (u.dropIndex p.didx) | none => s
      let s2 := ((s1.abortAll.renameReqs.setPlace c gid lid p.mc true true c).dropWaiters c gid lid).dropWindow gid lid
      let s3 : State := { s2 with core := ({ s2.core with occupied := false, proc := {}, broke := [] } : Core).clearSlots }
      let s4 := s3.closeAll c s2.proc
      .next (match s4.groupOf gid with
        | some g =>
          let g1 := { g with ends := g.ends ++ [lid] }
          if g1.ends.length = g1.n then s4.groupEnds c g1 else s4.setGroup g1
        | none => s4)

end Sys2Proof.Machine
end

