-- ==== Sys2Proof/Machine/Bank.lean ====
section
/-! DEFINITION. Bank modes and translation maintenance (R160, R161, R158, R394, R395): BANKCFG, BANK_MODE_SWITCH, TLBINV. -/

namespace Sys2Proof.Machine

/-- The mode of a code (R394). -/
def modeOf : Nat → Option BankMode
  | 0 => some .cache
  | 1 => some .scratchpad
  | 2 => some .fifo
  | _ => none

/-- The units of a bank that are away (R161). -/
def State.bankUnits (s : State) (cl b : Nat) : List RUnit := s.units.filter (fun u => bankOf u.unit == some (cl, b))

/-- The steps that have come before a mode change begins and count as accesses in progress (R161). -/
def State.bankPassing (s : State) (cl b : Nat) : List (Nat × Instr) :=
  ((s.bankUnits cl b).map (fun u => u.waiting ++ u.queue.map (fun r => .atomicRequestAtHome r.1 r.2))).flatten.map (fun e => (b, e))

/-- BANKCFG (R161, R394): the change begins, after those of the same bank that came before; a bank in the mode asked for is
left as it is. -/
def execBankcfg (q : BitVec 3) (d a : BitVec 5) (s : State) : Out :=
  superv q s (fun s =>
    let v := s.rx a
    let b := v.toNat % 8
    let cl := clusterOf s.here
    let k := s.clusterAt cl
    match modeOf (v.toNat / 16 % 4) with
    | none => (s.wx d 2).retire
    | some m =>
      if v &&& 0xFFFFFFFFFFFFFFC8#64 ≠ 0 then (s.wx d 2).retire
      else if !s.bankChanging cl b && s.bankMode cl b == m then (s.wx d 0).retire
      else
        let first := !s.bankChanging cl b
        let k1 := { k with change := k.change ++ [(b, m, s.here)], passing := k.passing ++ (if first then s.bankPassing cl b else []) }
        let s1 := (s.setCluster cl k1).park (.bankcfg d b)
        .next (if first then s1.after 4 (.bankModeSwitch cl b) else s1))

/-- The contents of a bank are discarded: zero, every granule full, no entry (R160, R161). -/
def State.clearBank (s : State) (cl b : Nat) : State :=
  let k := s.clusterAt cl
  { s.setCluster cl { k with fifos := k.fifos.setIfInBounds b [] } with
    mem := s.mem.filter (fun e => !inBank cl b e.1),
    emptyPhys := s.emptyPhys.filter (fun g => !inBank cl b (16 * g)),
    bad := s.bad.filter (fun p => match p with | .phys a => !inBank cl b a | _ => true) }

/-- Accesses parked at a FIFO bank complete with PROTECT, and so do those that wait for a granule of the bank (R161, R171). -/
def State.endParked (s : State) (cl b : Nat) : State :=
  let k := s.clusterAt cl
  let home := clusterCore cl (b % 4)
  let s1 := (k.fifoWait.filter (fun w => w.1 == b)).foldl (fun (acc : State) w =>
    acc.after (clusterTransit home w.2.1) (.nonlocalReply w.2.1 w.2.2 0 Trap.protect.code {})) s
  let s2 := s1.setCluster cl { k with fifoWait := k.fifoWait.filter (fun w => w.1 != b) }
  let here (w : GWaiter) : Bool := bankOf w.granule == some (cl, b)
  let s3 := (s2.waiters.filter here).foldl (fun (acc : State) w => match w.req with
    | some r => acc.linkReply home r 0 Trap.protect.code {}
    | none => acc.after (clusterTransit home w.core) (.nonlocalReply w.core w.slot 0 Trap.protect.code {})) s2
  { s3 with waiters := s3.waiters.filter (fun w => !here w) }

/-- The watch entries of a bank that leaves scratchpad mode are dropped, and fire (R196). -/
def State.dropWatches (s : State) (cl b : Nat) : State :=
  let mine (w : Watch) : Bool := bankOf w.line == some (cl, b)
  let s1 := (s.watches.filter mine).foldl (fun (acc : State) w => acc.sendWake (acc.homeOf w.line) w) s
  { s1 with watches := s1.watches.filter (fun w => !mine w) }

/-- The core that asked for a change of a bank goes on (R394). -/
def State.bankDone (s : State) (core b : Nat) : State :=
  let t := s.thrAt core 11
  match t.wait with
  | some (.bankcfg d n) => if n = b then s.setThrAt core 11 (t.wx d 0).resumed else s
  | _ => s

/-- The change at the head of a bank's list is over: its requester goes on, the steps that waited follow, and the next change
begins after them. -/
def State.endChange (s : State) (cl b core : Nat) : State :=
  let k := s.clusterAt cl
  let rest := (k.change.filter (fun c => c.1 == b)).tail
  let others := k.change.filter (fun c => c.1 != b)
  let evs := k.bankWait.filter (fun e => e.1 == b)
  let k1 := { k with change := others ++ rest, bankWait := k.bankWait.filter (fun e => e.1 != b),
                     passing := k.passing.filter (fun e => e.1 != b) ++ (if rest.isEmpty then [] else evs) }
  let s1 := (s.setCluster cl k1).bankDone core b
  let s2 := evs.foldl (fun (acc : State) e => acc.after 0 e.2) s1
  if rest.isEmpty then s2 else s2.after 4 (.bankModeSwitch cl b)

/-- BANK_MODE_SWITCH (R161): it waits for the bank's units that are away; on leaving cache mode the cluster's lines are written
back and dropped, on leaving another mode the contents are discarded. -/
def execBankModeSwitch (cluster bank : Nat) (s : State) : Out :=
  match (s.clusterAt cluster).change.find? (fun c => c.1 == bank) with
  | none => .next s
  | some (_, m, core) =>
    if !(s.bankUnits cluster bank).isEmpty then .next s
    else
      let old := s.bankMode cluster bank
      if old = m then .next (s.endChange cluster bank core)
      else
        match (if old = .cache then (s.focus (clusterCore cluster 0)).writeBackAll cluster (fun _ => true) true else .done s false) with
        | .blocked u => .next (s.waitUnit u (.bankModeSwitch cluster bank))
        | .done s1 _ =>
          let s2 := ((s1.endParked cluster bank).dropWatches cluster bank).clearBank cluster bank
          let k := s2.clusterAt cluster
          .next ((s2.setCluster cluster { k with modes := k.modes.setIfInBounds bank m }).endChange cluster bank core)

/-! ### TLBINV (R158, R395) -/

/-- Whether TLBINV removes an entry. -/
def TlbEnt.goes (e : TlbEnt) (gid : Nat) (all : Bool) (va : Nat) : Bool := e.gid == gid && (all || e.hits gid va)

/-- Remove the translations of a group from every TLB of the module. -/
def State.invalidate (s : State) (gid : Nat) (all : Bool) (va : Nat) : State :=
  let core (k : Core) : Core := { k with tlb := k.tlb.filter (fun e => !e.goes gid all va) }
  { s with core := core s.core, others := s.others.map (fun e => (e.1, core e.2)),
           clusters := s.clusters.map (fun e => (e.1, { e.2 with tlb2 := e.2.tlb2.filter (fun t => !t.goes gid all va) })) }

/-- TLBINV (R395): the thread waits until every TLB has acknowledged, a time that is not bounded (log entry 1). -/
def execTlbinv (q : BitVec 3) (d a b : BitVec 5) (s : State) : Out :=
  superv q s (fun s =>
    let v := s.rx a
    if v.extractLsb' 17 47 ≠ 0 then (s.wx d 2).retire
    else if 0 < s.thr.ready then ((s.invalidate (v.toNat % 2 ^ 16) (v.getLsbD 16) (s.rx b).toNat).wx d 0).retire
    else
      let s1 := s.parkRetry .tlb
      .next ((s1.setThr { s1.thr with ready := 1 }).after 500 (.threadResume s.here s.slot.val)))

end Sys2Proof.Machine
end

