-- ==== Sys2Proof/Machine/Integer.lean ====
section
/-! DEFINITION. Integer and address instructions (spec 03): majors 0x01-0x0B. -/

namespace Sys2Proof.Machine

/-- An instruction that computes one x register from the registers of its thread: all sources are read before the
destination is written (R72); under a false guard it has no effect (R73). -/
def toX (q : BitVec 3) (d : BitVec 5) (f : Thread → Word) (s : State) : Out :=
  guarded q s (fun s => (s.wx d (f s.thr)).retire)

/-- An instruction that computes one predicate from the registers of its thread. -/
def toP (q : BitVec 3) (d : BitVec 3) (f : Thread → Bool) (s : State) : Out :=
  guarded q s (fun s => (s.wp d (f s.thr)).retire)

/-! ### ALU (R75, R76, Table 3.2) -/

/-- ADD (R75, Table 3.2). -/
def execAdd (q : BitVec 3) (d a b : BitVec 5) (s : State) : Out :=
  toX q d (fun t => t.rx a + t.rx b) s
/-- SUB (R75, Table 3.2). -/
def execSub (q : BitVec 3) (d a b : BitVec 5) (s : State) : Out :=
  toX q d (fun t => t.rx a - t.rx b) s
/-- AND (R75, Table 3.2). -/
def execAnd (q : BitVec 3) (d a b : BitVec 5) (s : State) : Out :=
  toX q d (fun t => t.rx a &&& t.rx b) s
/-- OR (R75, Table 3.2). -/
def execOr (q : BitVec 3) (d a b : BitVec 5) (s : State) : Out :=
  toX q d (fun t => t.rx a ||| t.rx b) s
/-- XOR (R75, Table 3.2). -/
def execXor (q : BitVec 3) (d a b : BitVec 5) (s : State) : Out :=
  toX q d (fun t => t.rx a ^^^ t.rx b) s
/-- ANDN (R75, Table 3.2). -/
def execAndn (q : BitVec 3) (d a b : BitVec 5) (s : State) : Out :=
  toX q d (fun t => t.rx a &&& ~~~ (t.rx b)) s
/-- SLL (R75, Table 3.2). -/
def execSll (q : BitVec 3) (d a b : BitVec 5) (s : State) : Out :=
  toX q d (fun t => t.rx a <<< amt6 (t.rx b)) s
/-- SRL (R75, Table 3.2). -/
def execSrl (q : BitVec 3) (d a b : BitVec 5) (s : State) : Out :=
  toX q d (fun t => t.rx a >>> amt6 (t.rx b)) s
/-- SRA (R75, Table 3.2). -/
def execSra (q : BitVec 3) (d a b : BitVec 5) (s : State) : Out :=
  toX q d (fun t => (t.rx a).sshiftRight (amt6 (t.rx b))) s
/-- ROTR (R75, Table 3.2). -/
def execRotr (q : BitVec 3) (d a b : BitVec 5) (s : State) : Out :=
  toX q d (fun t => (t.rx a).rotateRight (amt6 (t.rx b))) s
/-- ADDW (R75, Table 3.2). -/
def execAddw (q : BitVec 3) (d a b : BitVec 5) (s : State) : Out :=
  toX q d (fun t => wRes (lo32 (t.rx a) + lo32 (t.rx b))) s
/-- SUBW (R75, Table 3.2). -/
def execSubw (q : BitVec 3) (d a b : BitVec 5) (s : State) : Out :=
  toX q d (fun t => wRes (lo32 (t.rx a) - lo32 (t.rx b))) s
/-- SLLW (R75, Table 3.2). -/
def execSllw (q : BitVec 3) (d a b : BitVec 5) (s : State) : Out :=
  toX q d (fun t => wRes (lo32 (t.rx a) <<< amt5 (t.rx b))) s
/-- SRLW (R75, Table 3.2). -/
def execSrlw (q : BitVec 3) (d a b : BitVec 5) (s : State) : Out :=
  toX q d (fun t => wRes (lo32 (t.rx a) >>> amt5 (t.rx b))) s
/-- SRAW (R75, Table 3.2). -/
def execSraw (q : BitVec 3) (d a b : BitVec 5) (s : State) : Out :=
  toX q d (fun t => wRes ((lo32 (t.rx a)).sshiftRight (amt5 (t.rx b)))) s
/-- MIN (R75, Table 3.2). -/
def execMin (q : BitVec 3) (d a b : BitVec 5) (s : State) : Out :=
  toX q d (fun t => if (t.rx a).slt (t.rx b) then t.rx a else t.rx b) s
/-- MAX (R75, Table 3.2). -/
def execMax (q : BitVec 3) (d a b : BitVec 5) (s : State) : Out :=
  toX q d (fun t => if (t.rx a).slt (t.rx b) then t.rx b else t.rx a) s
/-- MINU (R75, Table 3.2). -/
def execMinu (q : BitVec 3) (d a b : BitVec 5) (s : State) : Out :=
  toX q d (fun t => if t.rx a < t.rx b then t.rx a else t.rx b) s
/-- MAXU (R75, Table 3.2). -/
def execMaxu (q : BitVec 3) (d a b : BitVec 5) (s : State) : Out :=
  toX q d (fun t => if t.rx a < t.rx b then t.rx b else t.rx a) s
/-- LEA1 (R75, Table 3.2). -/
def execLea1 (q : BitVec 3) (d a b : BitVec 5) (s : State) : Out :=
  toX q d (fun t => t.rx a + (t.rx b <<< 1)) s
/-- LEA2 (R75, Table 3.2). -/
def execLea2 (q : BitVec 3) (d a b : BitVec 5) (s : State) : Out :=
  toX q d (fun t => t.rx a + (t.rx b <<< 2)) s
/-- LEA3 (R75, Table 3.2). -/
def execLea3 (q : BitVec 3) (d a b : BitVec 5) (s : State) : Out :=
  toX q d (fun t => t.rx a + (t.rx b <<< 3)) s

/-! ### MULDIV (R77, R78, Table 3.4) -/

/-- MUL (R77, R78, Table 3.4). -/
def execMul (q : BitVec 3) (d a b : BitVec 5) (s : State) : Out :=
  toX q d (fun t => t.rx a * t.rx b) s
/-- MULH (R77, R78, Table 3.4). -/
def execMulh (q : BitVec 3) (d a b : BitVec 5) (s : State) : Out :=
  toX q d (fun t => ((((t.rx a).signExtend 128) * ((t.rx b).signExtend 128)) >>> 64).setWidth 64) s
/-- MULHU (R77, R78, Table 3.4). -/
def execMulhu (q : BitVec 3) (d a b : BitVec 5) (s : State) : Out :=
  toX q d (fun t => ((((t.rx a).setWidth 128) * ((t.rx b).setWidth 128)) >>> 64).setWidth 64) s
/-- MULW (R77, R78, Table 3.4). -/
def execMulw (q : BitVec 3) (d a b : BitVec 5) (s : State) : Out :=
  toX q d (fun t => wRes (lo32 (t.rx a) * lo32 (t.rx b))) s
/-- DIV (R77, R78, Table 3.4). -/
def execDiv (q : BitVec 3) (d a b : BitVec 5) (s : State) : Out :=
  toX q d (fun t => divS (t.rx a) (t.rx b)) s
/-- DIVU (R77, R78, Table 3.4). -/
def execDivu (q : BitVec 3) (d a b : BitVec 5) (s : State) : Out :=
  toX q d (fun t => divU (t.rx a) (t.rx b)) s
/-- REM (R77, R78, Table 3.4). -/
def execRem (q : BitVec 3) (d a b : BitVec 5) (s : State) : Out :=
  toX q d (fun t => remS (t.rx a) (t.rx b)) s
/-- REMU (R77, R78, Table 3.4). -/
def execRemu (q : BitVec 3) (d a b : BitVec 5) (s : State) : Out :=
  toX q d (fun t => remU (t.rx a) (t.rx b)) s
/-- DIVW (R77, R78, Table 3.4). -/
def execDivw (q : BitVec 3) (d a b : BitVec 5) (s : State) : Out :=
  toX q d (fun t => wRes (divS (lo32 (t.rx a)) (lo32 (t.rx b)))) s
/-- DIVUW (R77, R78, Table 3.4). -/
def execDivuw (q : BitVec 3) (d a b : BitVec 5) (s : State) : Out :=
  toX q d (fun t => wRes (divU (lo32 (t.rx a)) (lo32 (t.rx b)))) s
/-- REMW (R77, R78, Table 3.4). -/
def execRemw (q : BitVec 3) (d a b : BitVec 5) (s : State) : Out :=
  toX q d (fun t => wRes (remS (lo32 (t.rx a)) (lo32 (t.rx b)))) s
/-- REMUW (R77, R78, Table 3.4). -/
def execRemuw (q : BitVec 3) (d a b : BitVec 5) (s : State) : Out :=
  toX q d (fun t => wRes (remU (lo32 (t.rx a)) (lo32 (t.rx b)))) s

/-! ### BITS (R79-R81, Table 3.6) -/

/-- CLZ (R79, Table 3.6). -/
def execClz (q : BitVec 3) (d a : BitVec 5) (s : State) : Out :=
  toX q d (fun t => BitVec.ofNat 64 (clz64 (t.rx a))) s
/-- CTZ (R79, Table 3.6). -/
def execCtz (q : BitVec 3) (d a : BitVec 5) (s : State) : Out :=
  toX q d (fun t => BitVec.ofNat 64 (ctzN 64 (t.rx a).toNat)) s
/-- POPC (R79, Table 3.6). -/
def execPopc (q : BitVec 3) (d a : BitVec 5) (s : State) : Out :=
  toX q d (fun t => BitVec.ofNat 64 (popN 64 (t.rx a).toNat)) s
/-- BREV (R79, Table 3.6). -/
def execBrev (q : BitVec 3) (d a : BitVec 5) (s : State) : Out :=
  toX q d (fun t => BitVec.ofNat 64 (revN 2 64 (t.rx a).toNat 0)) s
/-- BSWAP (R79, Table 3.6). -/
def execBswap (q : BitVec 3) (d a : BitVec 5) (s : State) : Out :=
  toX q d (fun t => BitVec.ofNat 64 (revN 256 8 (t.rx a).toNat 0)) s
/-- SEXTB (R79, Table 3.6). -/
def execSextb (q : BitVec 3) (d a : BitVec 5) (s : State) : Out :=
  toX q d (fun t => sext (t.rx a) 8) s
/-- SEXTH (R79, Table 3.6). -/
def execSexth (q : BitVec 3) (d a : BitVec 5) (s : State) : Out :=
  toX q d (fun t => sext (t.rx a) 16) s
/-- SEXTW (R79, Table 3.6). -/
def execSextw (q : BitVec 3) (d a : BitVec 5) (s : State) : Out :=
  toX q d (fun t => sext (t.rx a) 32) s
/-- ZEXTB (R79, Table 3.6). -/
def execZextb (q : BitVec 3) (d a : BitVec 5) (s : State) : Out :=
  toX q d (fun t => zext (t.rx a) 8) s
/-- ZEXTH (R79, Table 3.6). -/
def execZexth (q : BitVec 3) (d a : BitVec 5) (s : State) : Out :=
  toX q d (fun t => zext (t.rx a) 16) s
/-- ZEXTW (R79, Table 3.6). -/
def execZextw (q : BitVec 3) (d a : BitVec 5) (s : State) : Out :=
  toX q d (fun t => zext (t.rx a) 32) s
/-- EXTS (R80, R81). -/
def execExts (q : BitVec 3) (d a b : BitVec 5) (s : State) : Out :=
  toX q d (fun t => sext ((t.rx a).sshiftRight (fieldPos (t.rx b))) (fieldLen (t.rx b))) s
/-- EXTU (R80, R81). -/
def execExtu (q : BitVec 3) (d a b : BitVec 5) (s : State) : Out :=
  toX q d (fun t => zext ((t.rx a) >>> fieldPos (t.rx b)) (fieldLen (t.rx b))) s
/-- INSB (R80, R81). -/
def execInsb (q : BitVec 3) (d a b : BitVec 5) (s : State) : Out :=
  toX q d (fun t => (t.rx d &&& ~~~ (insbMask (t.rx b))) ||| ((t.rx a <<< fieldPos (t.rx b)) &&& insbMask (t.rx b))) s

/-! ### PRED (R82, Table 3.8) -/

/-- SEL: exempt from its guard, which selects (R60, R82). -/
def execSel (q : BitVec 3) (d a b : BitVec 5) (s : State) : Out :=
  (s.wx d (if s.rp q then s.rx a else s.rx b)).retire
/-- PAND (R82, Table 3.8). -/
def execPand (q : BitVec 3) (d a b : BitVec 3) (s : State) : Out :=
  toP q d (fun t => t.rp a && t.rp b) s
/-- POR (R82, Table 3.8). -/
def execPor (q : BitVec 3) (d a b : BitVec 3) (s : State) : Out :=
  toP q d (fun t => t.rp a || t.rp b) s
/-- PXOR (R82, Table 3.8). -/
def execPxor (q : BitVec 3) (d a b : BitVec 3) (s : State) : Out :=
  toP q d (fun t => t.rp a ^^ t.rp b) s
/-- PANDN (R82, Table 3.8). -/
def execPandn (q : BitVec 3) (d a b : BitVec 3) (s : State) : Out :=
  toP q d (fun t => t.rp a && !t.rp b) s
/-- The eight predicates as bits 7:0 (R82): bit 0 is p0 and reads 1. -/
def predBits (t : Thread) : Nat :=
  (List.range 8).foldl (fun acc i => acc + (if t.rp (BitVec.ofNat 3 i) then 2 ^ i else 0)) 0
/-- PMOVX (R82). -/
def execPmovx (q : BitVec 3) (d : BitVec 5) (s : State) : Out := toX q d (fun t => BitVec.ofNat 64 (predBits t)) s
/-- The predicates p1-p7 from bits 7:1 of a register (R82). -/
def setPreds (t : Thread) (v : Word) : Thread :=
  (List.range 7).foldl (fun t i => t.wp (BitVec.ofNat 3 (i + 1)) (v.getLsbD (i + 1))) t
/-- XMOVP (R82). -/
def execXmovp (q : BitVec 3) (a : BitVec 5) (s : State) : Out :=
  guarded q s (fun s => (s.setThr (setPreds s.thr (s.rx a))).retire)

/-! ### Immediates (R83-R85) -/

/-- ADDI (R83). -/
def execAddi (q : BitVec 3) (d a : BitVec 5) (imm : BitVec 13) (s : State) : Out :=
  toX q d (fun t => t.rx a + imm13Val imm) s
/-- ANDI (R83). -/
def execAndi (q : BitVec 3) (d a : BitVec 5) (imm : BitVec 13) (s : State) : Out :=
  toX q d (fun t => t.rx a &&& imm13Val imm) s
/-- ORI (R83). -/
def execOri (q : BitVec 3) (d a : BitVec 5) (imm : BitVec 13) (s : State) : Out :=
  toX q d (fun t => t.rx a ||| imm13Val imm) s
/-- XORI (R83). -/
def execXori (q : BitVec 3) (d a : BitVec 5) (imm : BitVec 13) (s : State) : Out :=
  toX q d (fun t => t.rx a ^^^ imm13Val imm) s
/-- SLLI (R84). -/
def execSlli (q : BitVec 3) (d a : BitVec 5) (sh : BitVec 6) (s : State) : Out :=
  toX q d (fun t => t.rx a <<< sh.toNat) s
/-- SRLI (R84). -/
def execSrli (q : BitVec 3) (d a : BitVec 5) (sh : BitVec 6) (s : State) : Out :=
  toX q d (fun t => t.rx a >>> sh.toNat) s
/-- SRAI (R84). -/
def execSrai (q : BitVec 3) (d a : BitVec 5) (sh : BitVec 6) (s : State) : Out :=
  toX q d (fun t => (t.rx a).sshiftRight sh.toNat) s
/-- ROTRI (R84). -/
def execRotri (q : BitVec 3) (d a : BitVec 5) (sh : BitVec 6) (s : State) : Out :=
  toX q d (fun t => (t.rx a).rotateRight sh.toNat) s
/-- SLLIW (R84). -/
def execSlliw (q : BitVec 3) (d a : BitVec 5) (sh : BitVec 5) (s : State) : Out :=
  toX q d (fun t => wRes (lo32 (t.rx a) <<< sh.toNat)) s
/-- SRLIW (R84). -/
def execSrliw (q : BitVec 3) (d a : BitVec 5) (sh : BitVec 5) (s : State) : Out :=
  toX q d (fun t => wRes (lo32 (t.rx a) >>> sh.toNat)) s
/-- SRAIW (R84). -/
def execSraiw (q : BitVec 3) (d a : BitVec 5) (sh : BitVec 5) (s : State) : Out :=
  toX q d (fun t => wRes ((lo32 (t.rx a)).sshiftRight sh.toNat)) s
/-- MOVI (R85). -/
def execMovi (q : BitVec 3) (d : BitVec 5) (imm : BitVec 18) (s : State) : Out := toX q d (fun _ => imm18Val imm) s
/-- MOVK: replaces one halfword (R85). -/
def execMovk (q : BitVec 3) (d : BitVec 5) (hw : BitVec 2) (imm : BitVec 16) (s : State) : Out :=
  toX q d (fun t => (t.rx d &&& ~~~ ((0xFFFF#64) <<< (16 * hw.toNat))) ||| ((imm.setWidth 64) <<< (16 * hw.toNat))) s

end Sys2Proof.Machine
end

