-- ==== Sys2Proof/Machine/Context.lean ====
section
/-! DEFINITION. Pre-emption, parking and resumption (R389-R392), and DUMP (R393). -/

namespace Sys2Proof.Config

open Sys2Proof.Machine

/-- The implementation-defined bytes of a slot's block: a function of the thread that they save, which no proof can look into (R7, Table
19.7; log entry 9). -/
opaque slotByte : Thread → Nat → Byte

/-- The implementation-defined bytes of a process's block, as those of a slot's (R7; log entry 9). -/
opaque procByte : Proc → Nat → Byte

end Sys2Proof.Config

namespace Sys2Proof.Machine

/-! ### The blocks of a save area (Tables 19.7, 19.8) -/

/-- Bytes cut or filled with zeros to a length. -/
def padTo (n : Nat) (l : List Byte) : List Byte := l.take n ++ List.replicate (n - l.length) 0

/-- The block of a slot: 1,280 bytes. -/
def Thread.block (t : Thread) : List Byte :=
  ((List.range 32).map (fun i => leBytes 8 (t.rx (BitVec.ofNat 5 i)).toNat)).flatten ++
  ((List.range 32).map (fun i => leBytes 8 (t.rf (BitVec.ofNat 5 i)).toNat)).flatten ++
  ((List.range 16).map (fun i => leBytes 32 (t.rv (BitVec.ofNat 4 i)).toNat)).flatten ++
  ((List.range 8).map (fun i => leBytes 4 (t.rk (BitVec.ofNat 3 i)).toNat)).flatten ++
  ([t.pc.toNat, t.fpctl.toNat, predBits t, t.instret.toNat, t.hintdrop.toNat, t.sciss.toNat, t.scmem.toNat, t.scmsg.toNat, t.scvac.toNat,
    bit t.live, t.exitv.toNat].map (leBytes 8)).flatten ++
  (List.range 136).map (Config.slotByte t)

/-- The 32 bytes of a receive record (Table 9.4) as a number. -/
def RecvRec.encode (r : RecvRec) : Nat :=
  r.src + r.srcMask * 2 ^ 16 + r.tag * 2 ^ 32 + r.tagMask * 2 ^ 48 + r.dest.toNat * 2 ^ 64 +
  (r.maxlen + r.rowlen * 2 ^ 20 + r.stride * 2 ^ 36) * 2 ^ 128 +
  (r.mode + r.ch * 8 + bit r.chany * 64 + bit r.inc * 128 + r.ctr * 256 + bit r.noctr * 2 ^ 14 + r.stat * 2 ^ 16 + r.cookie * 2 ^ 32) * 2 ^ 192

/-- The 32 bytes of a task-table entry, as the record of TTSET (R240). -/
def TtEnt.encode (e : TtEnt) : Nat :=
  e.pc.toNat + e.arg.toNat * 2 ^ 64 + e.thr.toNat * 2 ^ 128 + e.ctr * 2 ^ 160 + e.prio * 2 ^ 168

/-- The block of a process: 10,240 bytes. -/
def Proc.block (p : Proc) : List Byte :=
  (p.fm.toList.map (fun w => leBytes 8 w.toNat)).flatten ++
  (p.ctr.toList.map (fun c => leBytes 4 c.toNat)).flatten ++
  (p.acc.toList.map (fun a => leBytes 1024 a.toNat)).flatten ++
  padTo 1024 ((p.latch.map (fun e => padTo 512 e.bytes)).flatten) ++
  (p.posted.toList.map (fun r => leBytes 32 (match r with | some r => r.rcd.encode | none => 0))).flatten ++
  (p.tt.toList.map (fun e => leBytes 32 (match e with | some e => e.encode | none => 0))).flatten ++
  (List.range 2240).map (Config.procByte p)

/-- Eight full/empty bits from granule `g` on. -/
def Proc.bitByte (p : Proc) (g : Nat) : Byte :=
  BitVec.ofNat 8 (((List.range 8).map (fun j => if p.empty.contains (g + j) then 0 else 2 ^ j)).sum)

/-- The full/empty bits of a window: granule g at bit g mod 8 of byte g / 8. -/
def Proc.bitBytes (p : Proc) : List Byte := (List.range (p.winsize / 128)).map (fun i => p.bitByte (8 * i))

/-- The blocks of slots 0 to 10. -/
def Core.slotBlocks (k : Core) : List Byte := ((List.range 11).map (fun i => (k.thr i).block)).flatten

/-- The save area of the process in focus (Table 19.7). -/
def State.saveBytes (s : State) : List Byte :=
  let p := s.proc
  let total := 24576 + p.winsize + p.winsize / 128
  padTo 256 (leBytes 4 1 ++ leBytes 4 p.lid ++ leBytes 2 p.gid ++ leBytes 2 p.mc ++ leBytes 4 p.winsize ++ leBytes 8 total ++
    leBytes 8 s.cycleReg.toNat) ++
  s.core.slotBlocks ++ p.block ++ Memory.bytes p.win 0 p.winsize ++ p.bitBytes

/-- The outcome of reading or writing an area: done; a fault at an offset; a wait. -/
inductive AreaRes where
  | ok (s : State) (bytes : List Byte)
  | fault (s : State) (off : Nat)
  | wait (w : EWait)

/-- The step as which slot 11 makes the accesses of an area: answers of other modules are kept for it (R40). -/
def State.areaStep (s : State) : Instr := .threadResume s.here s.slot.val

/-- The state in which the accesses of an area are made. -/
def State.asStep (s : State) : State := { s with event := some s.areaStep }

/-- The accesses of an area are over. -/
def State.areaDone (s : State) : State := { s.farSpent s.areaStep with event := none }

/-- Slot 11 waits for what an access of an area waits for, and executes its instruction again. -/
def State.areaWait (s : State) (w : EWait) : State := { (s.waitOn w s.areaStep).parkRetry .area with event := none }

/-- Write bytes from an offset of an area on, 16 at a time, for slot 11. `fuel` bounds the number of pieces. -/
def writeArea (base : Word) : Nat → Nat → List Byte → State → AreaRes
  | 0, _, _, s => .ok s []
  | f + 1, off, l, s =>
    if l.isEmpty then .ok s []
    else
      match s.engWrite true (base + BitVec.ofNat 64 off) (min 16 l.length) (leNat (l.take 16)) 0 false true with
      | .ok s1 _ _ => writeArea base f (off + 16) (l.drop 16) s1
      | .fault s1 _ _ => .fault s1 off
      | .wait w => .wait w

/-- Read `n` pieces of 16 bytes from an offset of an area on, for slot 11. -/
def readArea (base : Word) : Nat → Nat → State → AreaRes
  | 0, _, s => .ok s []
  | n + 1, off, s =>
    match s.engRead true (base + BitVec.ofNat 64 off) 16 0 with
    | .ok s1 v _ =>
      (match readArea base n (off + 16) s1 with
       | .ok s2 l => .ok s2 (leBytes 16 v ++ l)
       | r => r)
    | .fault s1 _ _ => .fault s1 off
    | .wait w => .wait w

/-- A status with the offset of a fault (R391-R393). -/
def faultStatus (off : Nat) : Word := BitVec.ofNat 64 (2 + off * 256)

/-! ### CTXSAVE (R391) -/

/-- The phase of a group. -/
def State.phaseOf (s : State) (gid : Nat) : GroupPhase := match s.groupOf gid with | some g => g.phase | none => .ended

/-- A thread as it is parked: its monitors are triggered (R200), and a deadline and the start of a task are kept as what remains until
then (R259). -/
def Thread.rest (t : Thread) (now : Nat) : Thread :=
  { t with notBefore := t.notBefore - now, rstack := [], lost := 0, mons := vmap (fun m => { m with trig := m.trig || m.armed }) t.mons,
           wait := match t.wait with | some (.waitm d (some c)) => some (.waitm d (some (c - now))) | w => w }

/-- A parked thread as it comes back. The time to the start of a task is still at rest (R259). -/
def Thread.back (t : Thread) (now : Nat) : Thread :=
  { t with wait := match t.wait with | some (.waitm d (some c)) => some (.waitm d (some (now + c))) | w => w }

/-- The process of a core goes on after a pre-emption: what remains of the time to the start of a task runs again (R259). -/
def Core.wake (k : Core) (now : Nat) : Core :=
  { k with slots := vmapIdx (fun i t => if i = 11 then t else { t with notBefore := now + max 1 t.notBefore }) k.slots }

/-- The records of a core that go with its process (R380). -/
def State.movingRecords (s : State) : List TrapRec :=
  (s.core.trapQ ++ s.core.trapWait).filter (·.moves) ++ s.agenda.filterMap (fun e => match e.2 with
    | .trapRecordEnqueue c r => if c == s.here && r.moves then some r else none
    | _ => none)

/-- A process as it is parked. -/
def State.restProc (s : State) : Proc :=
  let p := s.proc
  { p with unit := none, savedRecs := s.movingRecords,
           savedWaiters := (s.waiters.filter (fun w => w.core == s.here && w.slot != 11 && w.req.isNone)).map (fun w => (w.granule, w.slot, w.take)),
           mq := { p.mq with cold := true, burst := p.mq.burst - s.cycle, busyUntil := 0, lastOp := 0 } }

/-- The process in focus leaves its core for a save area (R391): its monitors' watch entries go, and RES := 0. -/
def State.leaveCore (s : State) : State :=
  let p := s.proc
  let ths := vmap (fun t => t.rest s.cycle) s.core.slots
  let k : Core := ({ s.core with occupied := false, proc := {}, broke := [], trapQ := s.core.trapQ.filter (fun r => !r.moves),
                                 trapWait := s.core.trapWait.filter (fun r => !r.moves) } : Core).refill.clearSlots
  let s0 := s.setPlace s.here p.gid p.lid p.mc false false s.here
  let s1 : State := { s0 with core := k,
                              waiters := s.waiters.filter (fun w => !(w.core == s.here && w.slot != 11 && w.req.isNone)),
                              watches := s.watches.filter (fun w => !(w.gid == p.gid && w.lid == p.lid)),
                              agenda := s.agenda.filter (fun e => match e.2 with
                                | .trapRecordEnqueue c r => !(c == s.here && r.moves)
                                | _ => true) }
  match s1.groupOf p.gid with
  | some g => s1.setGroup { g with store := g.store ++ [(p.lid, s.restProc, ths)] }
  | none => s1

/-- CTXSAVE (R168, R372, R391): the W lines are written back, those of other modules' vaults with their acknowledgements, the packets in the reorder buffer go to the spill area, and the save area
is written. -/
def execCtxsave (q : BitVec 3) (d a : BitVec 5) (s : State) : Out :=
  superv q s (fun s =>
    let ea := s.rx a
    if ea.toNat % 256 ≠ 0 then s.takeTrap .misalign ea
    else if !(s.core.occupied && s.proc.hold == some .preempt && s.phaseOf s.proc.gid == .parking) then (s.wx d 1).retire
    else if s.thr.storeQ ≠ [] then .next (s.parkRetry .storeEmpty)
    else
      match s.writeBackAll (clusterOf s.here) s.proc.inW false with
      | .blocked u => .next (s.parkRetry (.unitHome u))
      | .done s0 _ =>
        if 0 < s0.proc.remoteStores then .next (s0.parkRetry .remoteAcks)
        else
        let s1 := (s0.proc.held.foldl State.spill s0).asStep
        let l := s1.saveBytes
        match writeArea ea l.length 0 l s1 with
        | .wait w => .next (s.areaWait w)
        | .fault s2 off => ((s2.areaDone.setProc s.proc).wx d (faultStatus off)).retire
        | .ok s2 _ => (s2.areaDone.leaveCore.wx d 0).retire)

/-! ### CTXLOAD (R392) -/

/-- A number among bytes. -/
def numAt (l : List Byte) (off n : Nat) : Nat := leNat ((l.drop off).take n)

/-- A dword among bytes. -/
def dwordAt (l : List Byte) (off : Nat) : Word := BitVec.ofNat 64 (numAt l off 8)

/-- A thread with what the block of its slot gives (Table 19.7). -/
def Thread.load (t : Thread) (l : List Byte) : Thread :=
  let t1 := { t with
    x := Vector.ofFn (fun i => dwordAt l (8 * i.val)), f := Vector.ofFn (fun i => dwordAt l (256 + 8 * i.val)),
    v := Vector.ofFn (fun i => BitVec.ofNat 256 (numAt l (512 + 32 * i.val) 32)),
    k := Vector.ofFn (fun i => BitVec.ofNat 32 (numAt l (1024 + 4 * i.val) 4)),
    pc := dwordAt l 1056, fpctl := fpctlStored (dwordAt l 1064), instret := dwordAt l 1080, hintdrop := dwordAt l 1088,
    sciss := dwordAt l 1096, scmem := dwordAt l 1104, scmsg := dwordAt l 1112, scvac := dwordAt l 1120,
    live := numAt l 1128 1 % 2 == 1, exitv := dwordAt l 1136 }
  setPreds t1 (dwordAt l 1072)

/-- A posted record with the fields of its 32 bytes. -/
def loadPosted (l : List Byte) (i : Nat) (r : Option Posted) : Option Posted :=
  r.map (fun x => { x with rcd := readRecv (numAt l (5440 + 32 * i) 32) })

/-- A task-table entry with the fields of its 32 bytes. -/
def loadTt (l : List Byte) (i : Nat) (e : Option TtEnt) : Option TtEnt :=
  let r := numAt l (7488 + 32 * i) 32
  e.map (fun x => { x with pc := BitVec.ofNat 64 (recField r 0 8), arg := BitVec.ofNat 64 (recField r 8 8),
                           thr := BitVec.ofNat 32 (recField r 16 4), ctr := recField r 20 1 % 64, prio := recField r 21 1 % 4 })

/-- A process with what its block, its window and its bits give (Table 19.7): `l` starts at offset 0x3800. -/
def Proc.load (p : Proc) (l : List Byte) : Proc :=
  let w := p.winsize
  let bits := (l.drop (10240 + w)).take (w / 128)
  { p with
    fm := Vector.ofFn (fun i => fmStored (dwordAt l (8 * i.val))),
    ctr := Vector.ofFn (fun i => BitVec.ofNat 32 (numAt l (64 + 4 * i.val) 4)),
    acc := Vector.ofFn (fun i => BitVec.ofNat 8192 (numAt l (320 + 1024 * i.val) 1024)),
    latch := p.latch.mapIdx (fun i e => { e with bytes := (l.drop (4416 + 512 * i)).take e.bytes.length }),
    posted := vmapIdx (loadPosted l) p.posted, tt := vmapIdx (loadTt l) p.tt,
    win := Memory.writeBytes [] 0 ((l.drop 10240).take w),
    empty := (List.range (w / 16)).filter (fun g => !(((bits[g / 8]?).getD 0).getLsbD (g % 8))) }

/-- The process comes to the core in focus, still held (R392): MC + 1, CORE, its records, its waiters, an empty first-level TLB; the core keeps
at most 64 signature slots (R166). -/
def State.arriveParked (s : State) (g : Group) (lid : Nat) (p : Proc) (ths : Vector Thread 12) (l : List Byte) : State :=
  let now := s.cycle
  let saved := numAt l 24 8
  let p1 := (p.load (l.drop 0x3800))
  let p2 := { p1 with mc := (p.mc + 1) % 2 ^ 16, hold := some .loaded, holdAt := now, armed := true, savedRecs := [], savedWaiters := [],
                      cycSkew := (now + 2 ^ 64 - saved) % 2 ^ 64, mq := { p1.mq with burst := now + p1.mq.burst } }
  let old := s.core.slots
  let k : Core := { s.core with
    occupied := true, proc := p2, tlb := [], trapWait := s.core.trapWait ++ p.savedRecs,
    slots := Vector.ofFn (fun i => if i.val = 11 then old[i] else ((ths[i]).load ((l.drop (256 + 1280 * i.val)).take 1280)).back now) }
  let s1 : State := { s with core := k.refill,
                             waiters := s.waiters ++ p.savedWaiters.map (fun w => { granule := w.1, core := s.here, slot := w.2.1, take := w.2.2 }) }
  let s2 := s1.setPlace s.here g.gid lid p2.mc false false s.here
  (s2.setGroup { g with store := g.store.filter (fun e => e.1 != lid) }).trimSlots s.here

/-- CTXLOAD (R168, R372, R392). A group that is not parked, or a lid that is not, is treated as a core outside the region. -/
def execCtxload (q : BitVec 3) (d a : BitVec 5) (s : State) : Out :=
  superv q s (fun s =>
    let ea := s.rx a
    if ea.toNat % 256 ≠ 0 then s.takeTrap .misalign ea
    else if s.core.occupied || s.core.reserved then (s.wx d 1).retire
    else if s.thr.storeQ ≠ [] then .next (s.parkRetry .storeEmpty)
    else
      match readArea ea 16 0 s.asStep with
      | .wait w => .next (s.areaWait w)
      | .fault s1 off => (s1.areaDone.wx d (faultStatus off)).retire
      | .ok s1 h =>
        if numAt h 0 4 ≠ 1 then (s1.areaDone.wx d 3).retire
        else
          match (s1.groupOf (numAt h 8 2)).filter (fun g => g.phase == .parked && g.cores.contains s.here) with
          | none => (s1.areaDone.wx d 1).retire
          | some g =>
            match g.store.find? (fun e => e.1 == numAt h 4 4) with
            | none => (s1.areaDone.wx d 1).retire
            | some (lid, p, ths) =>
              match readArea ea ((24576 + p.winsize + p.winsize / 128) / 16) 0 s1 with
              | .wait w => .next (s.areaWait w)
              | .fault s2 off => (s2.areaDone.wx d (faultStatus off)).retire
              | .ok s2 l =>
                match s2.areaDone.flushDest p s.here with
                | .error u => .next (s.parkRetry (.unitHome u))
                | .ok (s3, _) =>
                  if 0 < s3.proc.remoteStores then .next (s3.parkRetry .remoteAcks)
                  else ((s3.arriveParked g lid p ths l).wx d 0).retire)

/-! ### Service requests (R389, Table 19.6) -/

/-- SVSEND (R389): the request goes to the die's service core, whose time is not bounded (log entry 1). -/
def execSvsend (q : BitVec 3) (d a : BitVec 5) (s : State) : Out :=
  superv q s (fun s => readBlocks 64 (s.rx a) s (fun s raw =>
    let kind := recField raw 0 2
    let gid := recField raw 2 2
    let a0 := recField raw 8 8
    let zeros := recField raw 4 4 == 0 && recField raw 32 32 == 0
    if !zeros || kind = 0 || 3 < kind then (s.wx d (-1)).retire
    else
      let s1 := s.setThr { s.thr.parked (.svsend d) with got := [kind, gid, a0] }
      .next (s1.after 250 (match kind with
        | 1 => .preempt gid a0 (recField raw 16 8) (recField raw 24 8) s.here
        | 2 => .saved gid a0
        | _ => .loaded gid a0))))

/-- The reply to the SVSEND of a core. -/
def State.svAnswer (s : State) (c : Nat) (v : Nat) : State :=
  let t := s.thrAt c 11
  match t.wait with
  | some (.svsend d) => s.setThrAt c 11 { (t.wx d (BitVec.ofNat 64 v)).resumed with got := [] }
  | _ => s

/-- The reply to every SVSEND that has asked the same. -/
def State.svReply (s : State) (kind gid arg v : Nat) : State :=
  let asks (k : Core) : Bool := (match (k.thr 11).wait with | some (.svsend _) => true | _ => false) && (k.thr 11).got == [kind, gid, arg]
  (s.allCores.filter (fun e => asks e.2)).foldl (fun (acc : State) e => acc.svAnswer e.1 v) s

/-- The cores that hold processes of a group. -/
def State.groupCores (s : State) (gid : Nat) : List Nat :=
  (s.allCores.filter (fun e => e.2.occupied && e.2.proc.gid == gid)).map Prod.fst

/-- PREEMPT (R349, R390): step 1. From here on no unit makes a proposal for the group; a fold in progress is abandoned, that of a unit with a
proposal in flight when it is resolved. -/
def execPreempt (gid inbox entries timeout core : Nat) (s : State) : Out :=
  match s.groupOf gid with
  | none => .next (s.svAnswer core 1)
  | some g =>
    if g.phase ≠ .running then .next (s.svAnswer core 1)
    else
      let s1 := s.setGroup { g with phase := .holding, inbox := inbox / 64 * 64, inboxCap := entries, inboxQ := [], svCore := core,
                                    held := [], savedL := [timeout], loadedL := [] }
      .next ((s1.aunits.filter (fun u => u.gid == gid && !u.inFlight)).foldl State.dropFold s1)

/-- Let everything of a group that is held go on: its processes, its timers, its channels. -/
def State.releaseCore (s : State) (c : Nat) : State :=
  let s1 := (s.focus c).endHold
  if !s1.core.occupied then s1
  else
    let p := s1.proc
    let s2 := p.inb.foldl (fun (acc : State) i => if 0 < i.sinceAck then acc.after 256 (.ackTimer p.gid p.lid i.src i.ch) else acc)
      (s1.setProc { p with inb := p.inb.map (fun i => { i with lastDeliver := s1.cycle }) })
    let s3 := (s2.module.gate.filter (fun g => g.gid == p.gid && g.lid == p.lid)).foldl (fun (acc : State) g =>
      acc.after 256 (.ackTimer g.gid hostLid g.lid g.ch)) s2
    s3.armTimeouts c

/-- PREEMPT_HOLD_TIMEOUT (R390): a process has not reached its swap point; every hold ends, step 1 is undone, and the messages of
the inbox are delivered ahead of later ones. -/
def execPreemptHoldTimeout (gid : Nat) (s : State) : Out :=
  match s.groupOf gid with
  | none => .next s
  | some g =>
    if g.phase ≠ .holding ∨ g.held.isEmpty ∨ (s.groupCores gid).all s.atSwapPoint then .next s
    else
      let s1 := s.setGroup { g with phase := .running, inboxQ := [], inboxCap := 0, held := [], savedL := [] }
      let s2 : State := { s1 with module := { s1.module with edgeQ := s1.module.edgeQ ++ g.inboxQ } }
      let s3 := ((s2.groupCores gid).foldl State.releaseCore s2).after 0 .edgeQueueSend
      let s4 := (s3.aunits.filter (fun u => u.gid == gid)).foldl (fun (acc : State) u => acc.dueNow u) s3
      .next ((s4.svAnswer g.svCore 2).after 0 .mailboxTake)

/-- Whether a step of the agenda belongs to the traffic or the engines of a group, so that the group is not drained while it is
to come (R390). -/
def Instr.ofGroup (gid : Nat) : Instr → Bool
  | .channelPacketArrival _ p => p.gid == gid
  | .ackArrival _ a => a.gid == gid
  | .locationLookupReply _ g _ | .packetInject g _ _ | .copyRequestStart g _ | .engineAccessReply g _ _ | .engineAccessAck g _ _ _
  | .putCounterAdd g _ _ _ | .matrixOpStart g _ | .matrixOpComplete g _ | .latchEntryAppend g _ _ | .messageLanded g _ _
  | .readyQueueEnter g _ | .deferredArrival g _ _ | .processEnd g _ => g == gid
  | .movedNoticeArrival _ e => e.gid == gid
  | _ => false

/-- Whether nothing that a core asks for a group is under way: placement entries, and accesses over the links (R333, R390). -/
def Core.quiet (k : Core) (gid : Nat) : Bool :=
  k.lookup.all (fun p => p.gid != gid) && k.seeking.all (fun r => r.1 != gid) && (k.proc.gid != gid || k.proc.remoteStores == 0)

/-- Whether no packet, acknowledgement or engine access of a group is under way (R390). -/
def State.drained (s : State) (gid : Nat) : Bool :=
  let mine (e : Instr) : Bool := Instr.ofGroup gid e
  !(s.agenda.any (fun e => mine e.2)) && !(s.units.any (fun u => u.waiting.any mine)) &&
  !(s.clusters.any (fun k => k.2.bankWait.any (fun e => mine e.2))) && s.allCores.all (fun e => e.2.quiet gid) &&
  !(s.far.any (fun f => f.val.isNone && ((f.step.map mine).getD false)))

/-- Look at a group that is being held (R349, R390): the holds begin once no move of its cores is in flight; once every process
is at its swap point and nothing is under way, the group is drained. -/
def State.advanceGroup (s : State) (g : Group) : State :=
  if g.phase ≠ .holding then s
  else
    let cs := s.groupCores g.gid
    if g.held.isEmpty then
      let moving := s.moves.any (fun m => cs.contains m.a || cs.contains m.b) || s.aunits.any (fun u => u.gid == g.gid && u.inFlight)
      if moving || cs.any (fun c => (s.coreAt c).proc.hold.isSome) then s
      else
        let s1 := cs.foldl (fun (acc : State) c => let k := acc.coreAt c; acc.setCoreAt c { k with proc := k.proc.setHold (some .preempt) s.cycle }) s
        (s1.setGroup { g with held := [1], savedL := [] }).after (g.savedL.headD 0) (.preemptHoldTimeout g.gid)
    else if cs.all s.atSwapPoint && s.drained g.gid then s.afterOnce 0 (.preemptDrained g.gid)
    else s

/-- Look at every group, once a cycle. -/
def State.advanceGroups (s : State) : State := s.groups.foldl State.advanceGroup s

/-- PREEMPT_DRAINED (R390): every hold has succeeded, and its timeout is over; the reply, and a record with INFO 0 at each core of the group. -/
def execPreemptDrained (gid : Nat) (s : State) : Out :=
  match s.groupOf gid with
  | none => .next s
  | some g =>
    if g.phase ≠ .holding then .next s
    else
      let s0 : State := { s with agenda := s.agenda.filter (fun e => e.2 != .preemptHoldTimeout gid) }
      let s1 := (s0.setGroup { g with phase := .parking, savedL := [] }).svAnswer g.svCore 0
      .next ((s1.groupCores gid).foldl (fun (acc : State) c => acc.raise c (notice 0)) s1)

/-- The lids of a group whose processes have not ended. -/
def Group.alive (g : Group) : Nat := g.n - g.ends.length

/-- SAVED (R391): the group is parked when every lid is saved, and its annealer units are freed. -/
def execSaved (gid lid : Nat) (s : State) : Out :=
  match s.groupOf gid with
  | none => .next (s.svReply 2 gid lid 1)
  | some g =>
    if g.phase ≠ .parking ∨ !(g.store.any (fun e => e.1 == lid)) ∨ g.savedL.contains lid then .next (s.svReply 2 gid lid 1)
    else
      let g1 := { g with savedL := g.savedL ++ [lid] }
      let s1 := (if g1.savedL.length = g1.alive then (s.setGroup { g1 with phase := .parked, loadedL := [] }).freeUnits gid else s.setGroup g1)
      .next (s1.svReply 2 gid lid 0)

/-- LOADED (R392): with every lid loaded, the service cores resume the group. -/
def execLoaded (gid lid : Nat) (s : State) : Out :=
  match s.groupOf gid with
  | none => .next (s.svReply 3 gid lid 1)
  | some g =>
    let here := match s.coreOf gid lid with | some c => (s.coreAt c).proc.hold == some .loaded | none => false
    if g.phase ≠ .parked ∨ !here ∨ g.loadedL.contains lid then .next (s.svReply 3 gid lid 1)
    else
      let g1 := { g with loadedL := g.loadedL ++ [lid] }
      let s1 := (s.setGroup g1).svReply 3 gid lid 0
      .next (if g1.loadedL.length = g1.alive then s1.after 250 (.groupResume gid) else s1)

/-- GROUP_RESUME (R392): RES := 1 in every entry, units are assigned again, the messages of the inbox go ahead of every later one,
and every hold ends. -/
def execGroupResume (gid : Nat) (s : State) : Out :=
  match s.groupOf gid with
  | none => .next s
  | some g =>
    if g.phase ≠ .parked ∨ g.loadedL.length ≠ g.alive then .next s
    else
      let s1 := s.setGroup { g with phase := .running, inboxQ := [], inboxCap := 0, held := [], savedL := [], loadedL := [], store := [] }
      let s2 := (s1.groupCores gid).foldl (fun (acc : State) c =>
        let p := (acc.coreAt c).proc
        acc.setPlace c gid p.lid p.mc true false c) s1
      let s3 := s2.assignUnits g
      let s4 : State := { s3 with module := { s3.module with edgeQ := s3.module.edgeQ ++ g.inboxQ } }
      let s5 := (s4.groupCores gid).foldl (fun (acc : State) c => acc.setCoreAt c ((acc.coreAt c).wake s.cycle)) s4
      .next ((((s5.groupCores gid).foldl State.releaseCore s5).after 0 .edgeQueueSend).after 0 .mailboxTake)

/-! ### DUMP (R393) -/

/-- A location entry in a dump: four words. -/
def LocEnt.bytes (e : LocEnt) : List Byte := leBytes 4 e.gid ++ leBytes 4 e.lid ++ leBytes 4 e.core ++ leBytes 4 e.mc

/-- The 32 bytes of a record (Table 19.2). -/
def TrapRec.bytes (r : TrapRec) : List Byte := (r.dwords.map (fun w => leBytes 8 w.toNat)).flatten

/-- The six sections of a dump of the core in focus (Table 19.8). -/
def State.dumpSections (s : State) : List (List Byte) :=
  let k := s.core
  let p := k.proc
  let res (l : List Byte) : List Byte := if k.occupied then l else []
  [padTo 256 ((k.trapQ.map TrapRec.bytes).flatten), res k.slotBlocks, res p.block,
   padTo 1024 ((k.loc.map LocEnt.bytes).flatten) ++ padTo 128 ((k.departed.map LocEnt.bytes).flatten),
   res (Memory.bytes p.win 0 p.winsize), res p.bitBytes]

/-- The sections, from the first on, that end within `size` bytes, and their number. -/
def fitSections (size : Nat) : Nat → List (List Byte) → List (List Byte)
  | _, [] => []
  | off, l :: t => if off + l.length ≤ size then l :: fitSections size (off + l.length) t else []

/-- The header of a dump (Table 19.8). -/
def State.dumpHeader (s : State) (n required : Nat) (lens : List Nat) : List Byte :=
  let k := s.core
  padTo 64 (leBytes 4 1 ++ leBytes 4 n ++ leBytes 8 required ++ leBytes 2 s.here ++ leBytes 2 (if k.occupied then k.proc.lid else 0) ++
    leBytes 2 (if k.occupied then k.proc.gid else 0) ++ leBytes 2 0 ++ leBytes 8 (if k.occupied then s.cycleReg.toNat else 0) ++
    (lens.map (leBytes 4)).flatten)

/-- Whether the process in focus is held for a dump: each live thread at a boundary with its stores acknowledged, or trapped. -/
def State.atDumpPoint (s : State) : Bool :=
  !s.core.occupied || (!s.inTransfer s.here && (List.range 11).all (fun i =>
    let t := s.core.thr i
    !t.live || t.trap.isSome || (s.heldAt s.here i && t.storeQ.isEmpty)))

/-- The hold of a dump ends. -/
def State.endDump (s : State) : State :=
  if s.core.occupied && s.proc.hold == some .dump then { s.endHold with slot := s.slot } else s

/-- DUMP (R393): the process is held; then the sections and last the header are written, and the hold ends. A buffer that is not a
multiple of 64 faults at offset 0: DUMP never traps on its buffer. -/
def execDump (q : BitVec 3) (d a b : BitVec 5) (s : State) : Out :=
  superv q s (fun s =>
    let ea := s.rx a
    let size := (s.rx b).toNat
    let ends (s : State) (v : Word) : Out := (s.areaDone.endDump.wx d v).retire
    let s0 := if s.core.occupied && s.proc.hold.isNone then s.setProc (s.proc.setHold (some .dump) s.cycle) else s
    if ea.toNat % 64 ≠ 0 then ends s0 (faultStatus 0)
    else if !s0.atDumpPoint then .next (s0.parkRetry .hold)
    else if s0.thr.storeQ ≠ [] then .next (s0.parkRetry .storeEmpty)
    else if size < 64 then ends s0.asStep 1
    else
      let secs := s0.dumpSections
      let fit := fitSections size 64 secs
      let required := 64 + (secs.map List.length).sum
      let body := fit.flatten
      match writeArea ea body.length 64 body s0.asStep with
      | .wait w => .next (s0.areaWait w)
      | .fault s1 off => ends s1 (faultStatus off)
      | .ok s1 _ =>
        match writeArea ea 4 0 (s0.dumpHeader fit.length required (secs.map List.length)) s1 with
        | .wait w => .next (s0.areaWait w)
        | .fault s2 off => ends s2 (faultStatus off)
        | .ok s2 _ => ends s2 (if fit.length = 6 then 0 else 1))

end Sys2Proof.Machine
end

