-- ==== Sys2Proof/Machine/Module.lean ====
section
/-! DEFINITION. The module and its surroundings (spec 21; R245-R247, R399-R412): mailboxes, the edge queue, the host ring, links,
bring-up, droop holds, debug halts. -/

namespace Sys2Proof.Machine

/-! ### Mailboxes and the edge queue (R245, R390, R404, R412) -/

/-- Entries of the edge queue (R245). -/
def edgeSize : Nat := 8192

/-- The group that a mailbox is bound to; 0 for none (R400). -/
def State.boundTo (s : State) (m : Nat) : Nat := Memory.read s.module.mbind (2 * m) 2

/-- Count a dropped message (R245). -/
def State.dropMail (s : State) : State := { s with module := { s.module with mbdrop := s.module.mbdrop + 1 } }

/-- The message of a mailbox for a group; none where it has to be dropped (R245). -/
def State.mailOf (s : State) (m gid : Nat) : Option HostMsg :=
  let h := Memory.read s.module.mbox (64 * m) 8
  let lid := h % 2 ^ 16
  let len := h / 2 ^ 32 % 64
  match s.groupOf gid with
  | none => none
  | some g =>
    if gid = 0 ∨ h / 2 ^ 38 ≠ 0 ∨ 56 < len ∨ g.n ≤ lid then none
    else some { gid := gid, lid := lid, tag := h / 2 ^ 16 % 2 ^ 16, len := len, payload := Memory.bytes s.module.mbox (64 * m + 8) len }

/-- Whether a group is marked for parking: its messages go to its inbox (R390). -/
def State.marked (s : State) (gid : Nat) : Bool :=
  match s.groupOf gid with | some g => g.phase == .holding || g.phase == .parking || g.phase == .parked | none => false

/-- The edge takes the message of a mailbox, where it can (R245, R390, R404): into the inbox of a group that is being parked, else
into its queue. -/
def State.takeMail (s : State) (m : Nat) (msg : HostMsg) : Option State :=
  match s.groupOf msg.gid with
  | none => none
  | some g =>
    if s.marked msg.gid then
      if g.inboxQ.length < g.inboxCap then
        let at_ := g.inbox + 64 * g.inboxQ.length
        some ((List.range 4).foldl (fun (acc : State) i => acc.hardWrite (at_ + 16 * i) 16 (Memory.read s.module.mbox (64 * m + 16 * i) 16))
          (s.setGroup { g with inboxQ := g.inboxQ ++ [msg] }))
      else none
    else if s.module.edgeQ.length < edgeSize then
      some (({ s with module := { s.module with edgeQ := s.module.edgeQ ++ [msg] } } : State).after 32 .edgeQueueSend)
    else none

/-- Whether a message held in a mailbox waits for the same as one of a group. -/
def State.sameWait (s : State) (a b : Nat) : Bool := if s.marked a || s.marked b then a == b else true

/-- A header write reaches the edge (R245, R400, R404). -/
def State.mailHeader (s : State) (m : Nat) : State :=
  let gid := s.boundTo m
  match s.mailOf m gid with
  | none => s.dropMail
  | some msg =>
    let hold : State := { s with module := { s.module with mbBusy := s.module.mbBusy ++ [(m, gid)] } }
    if s.module.mbBusy.any (fun e => s.sameWait e.2 gid) then hold else (s.takeMail m msg).getD hold

/-- The part of a host write that falls into one mailbox. -/
def mailPart (off : Nat) (bytes : List Byte) (s : State) (m : Nat) : State :=
  if s.module.phase = 0 ∨ s.module.mbBusy.any (fun e => e.1 == m) then s.dropMail
  else
    let lo := max off (64 * m)
    let part := (bytes.drop (lo - off)).take (64 * m + 64 - lo)
    let s1 : State := { s with module := { s.module with mbox := Memory.writeBytes s.module.mbox lo part } }
    if lo = 64 * m ∧ 8 ≤ part.length then s1.mailHeader m else s1

/-- MAILBOX_WRITE (R245, R399, R403, R404): a host write to BAR0. -/
def execMailboxWrite (off : Nat) (bytes : List Byte) (s : State) : Out :=
  let n := bytes.length
  let first := off / 64
  let count := if n = 0 then 0 else (off + n - 1) / 64 + 1 - first
  .next ((List.range count).foldl (fun (acc : State) i => if first + i < 4096 then mailPart off bytes acc (first + i) else acc) s)

/-- The edge looks at one mailbox that holds a message. -/
def takeHeld (s : State) (e : Nat × Nat) : State :=
  match s.mailOf e.1 e.2 with
  | none => s
  | some msg =>
    match s.takeMail e.1 msg with
    | some s1 => { s1 with module := { s1.module with mbBusy := s1.module.mbBusy.filter (· != e) } }
    | none => s

/-- MAILBOX_TAKE (R404): messages held in their mailboxes are taken in the order of their header writes. -/
def execMailboxTake (s : State) : Out := .next (s.module.mbBusy.foldl takeHeld s)

/-- The HOST channel to a lid. -/
def State.hostChan (s : State) (gid lid : Nat) : HostCh :=
  (s.module.hostCh.find? (fun k => k.gid == gid && k.lid == lid)).getD { gid := gid, lid := lid }

/-- Replace it. -/
def State.setHostChan (s : State) (k : HostCh) : State :=
  { s with module := { s.module with hostCh := k :: s.module.hostCh.filter (fun x => !(x.gid == k.gid && x.lid == k.lid)) } }

/-- Whether a message may leave the edge queue (R245, R390): its window has room, and its group is neither being launched nor
drained or parked. -/
def State.canSend (s : State) (m : HostMsg) : Bool :=
  decide ((s.hostChan m.gid m.lid).unack < 32) &&
  (match s.groupOf m.gid with | some g => !(g.phase == .launching || g.phase == .parking || g.phase == .parked) | none => false)

/-- The packet of a mailbox message. DESIGN CHOICE: the HOST channel has number 0 (log entry 61). -/
def HostCh.packet (k : HostCh) (m : HostMsg) : Packet :=
  { gid := m.gid, src := hostLid, dst := m.lid, ch := 0, seq := k.seq, first := true, last := true, release := false,
    ackreq := k.unack + 1 == 16, close := false, abort := false, tag := m.tag, len := m.len, payload := m.payload, sig := {},
    origin := gateCore }

/-- Remove the first message that can leave from a queue. -/
def pickMail (s : State) : List HostMsg → Option (HostMsg × List HostMsg)
  | [] => none
  | m :: t => if s.canSend m then some (m, t) else (pickMail s t).map (fun r => (r.1, m :: r.2))

/-- EDGE_QUEUE_SEND (R245, R412): a message whose HOST channel has room leaves; one to a lid whose window is full holds back only
its own lid's. -/
def execEdgeQueueSend (s : State) : Out :=
  match pickMail s s.module.edgeQ with
  | none => .next s
  | some (m, rest) =>
    let k := s.hostChan m.gid m.lid
    let c := (s.coreOf m.gid m.lid).getD (s.placeLoc 0 m.gid m.lid).core
    let s1 := ({ s with module := { s.module with edgeQ := rest } } : State).setHostChan { k with seq := (k.seq + 1) % 4096, unack := k.unack + 1 }
    let s2 := s1.after (transit 0 c + 9) (.channelPacketArrival c (k.packet m))
    let s3 := if rest.isEmpty then s2 else s2.afterOnce 1 .edgeQueueSend
    .next (if s3.module.mbBusy.isEmpty then s3 else s3.afterOnce 0 .mailboxTake)

/-! ### Channels to HOST and the host ring (R246, R401) -/

/-- A packet of a channel to HOST in sequence: the gateway assembles its message (R246). -/
def GateCh.take (g : GateCh) (pkt : Packet) (now : Nat) : GateCh :=
  let g1 := { g with expect := (pkt.seq + 1) % 4096, sinceAck := g.sinceAck + 1, last := now }
  if pkt.close then g1
  else
    let g2 := if pkt.first then { g1 with tag := pkt.tag, len := pkt.len, buf := pkt.payload } else { g1 with buf := g1.buf ++ pkt.payload }
    if pkt.last then { g2 with full := g2.full ++ [(g2.tag, g2.len, g2.buf, pkt.abort)], buf := [] } else g2

/-- Take in the packets that follow in sequence (R212, R246). One that asks for an acknowledgement gets it at once where no message stood
before it: its own message may be held after it. Behind a message the acknowledgement is owed. -/
def gateTake : Nat → GateCh → State → State
  | 0, g, s => s.setGate g
  | f + 1, g, s =>
    match g.early.find? (fun p => p.seq == g.expect) with
    | none => s.setGate g
    | some p =>
      let g1 := { g.take p s.cycle with early := g.early.filter (· != p) }
      let now := p.ackreq || p.close || decide (8 ≤ g1.sinceAck)
      if now && g.full.isEmpty && !s.isParked g.gid then gateTake f { g1 with sinceAck := 0, due := false } (s.sendGateAck g1)
      else gateTake f { g1 with due := g1.due || now } s

/-- A packet reaches the gateway (R246, R212). -/
def State.gateReceive (s : State) (pkt : Packet) : State :=
  match s.module.gate.find? (fun g => g.gid == pkt.gid && g.lid == pkt.src && g.ch == pkt.ch) with
  | none => s.report (.badPacket gateCore pkt)
  | some g =>
    if 32 ≤ (pkt.seq + 4096 - g.expect) % 4096 then s.report (.badPacket gateCore pkt)
    else
      let s1 := gateTake (g.early.length + 1) { g with early := g.early ++ [pkt] } s
      match s1.module.gate.find? (fun g => g.gid == pkt.gid && g.lid == pkt.src && g.ch == pkt.ch) with
      | none => s1
      | some g1 =>
        let s2 := if 0 < g1.sinceAck then s1.after 256 (.ackTimer g.gid hostLid g.lid g.ch) else s1
        if g1.full.isEmpty then s2 else s2.afterOnce 0 (.hostRingWrite g.gid g.lid g.ch)

/-- CHANNEL_PACKET_ARRIVAL (R213-R215, R246). -/
def execChannelPacketArrival (core : Nat) (pkt : Packet) (s : State) : Out :=
  .next (if core = gateCore then s.gateReceive pkt else packetAtCore core pkt s)

/-- Signal the MSI-X vector (R401). -/
def State.signal (s : State) : State :=
  if s.module.masked then { s with module := { s.module with msiPending := true } }
  else { s with module := { s.module with msiSent := s.module.msiSent + 1 } }

/-- The notify latch after HRTAIL has advanced, or after HRHEAD has been written (R401). -/
def State.notifyHost (s : State) : State :=
  if s.module.notify then s else ({ s with module := { s.module with notify := true } } : State).signal

/-- The header of a ring entry (R401). -/
def ringHeader (lid gid tag flags len size : Nat) : List Byte :=
  leBytes 2 lid ++ leBytes 2 gid ++ leBytes 2 tag ++ leBytes 1 flags ++ leBytes 1 0 ++ leBytes 4 len ++ leBytes 4 size

/-- Write bytes of host memory. -/
def State.hostWrite (s : State) (a : Nat) (l : List Byte) : State := { s with mem := Memory.writeBytes s.mem (hostKey a) l }

/-- HOST_RING_WRITE (R246, R401): the message at the head of a channel is written when it fits, a PAD entry before it where it
would run past the end; then HRTAIL advances and, once nothing of the channel is held, an acknowledgement that is owed is sent. -/
def execHostRingWrite (gid lid ch : Nat) (s : State) : Out :=
  match s.module.gate.find? (fun g => g.gid == gid && g.lid == lid && g.ch == ch) with
  | none => .next s
  | some g =>
    match g.full with
    | [] => .next s
    | (tag, len, bytes, ab) :: rest =>
      let m := s.module
      let size := (16 + bytes.length + 63) / 64 * 64
      let pad := if m.hrsize < m.hrtail + size then m.hrsize - m.hrtail else 0
      if m.hrsize = 0 ∨ m.hrsize ≤ (m.hrtail + m.hrsize - m.hrhead) % m.hrsize + pad + size then .next s
      else
        let base := m.hrbase.toNat
        let s1 := if pad = 0 then s else s.hostWrite (base + m.hrtail) (ringHeader 0 0 0 2 0 pad)
        let at_ := if pad = 0 then m.hrtail else 0
        let s2 := s1.hostWrite (base + at_) (padTo size (ringHeader lid gid tag (if ab then 1 else 0) len size ++ bytes))
        let s3 := (({ s2 with module := { s2.module with hrtail := (at_ + size) % m.hrsize } } : State)).notifyHost
        let g1 := { g with full := rest }
        let s4 := if g.due then s3.gateAck g1 else s3.setGate g1
        .next (if rest.isEmpty then s4 else s4.afterOnce 1 (.hostRingWrite gid lid ch))

/-- Let every held message be tried again. -/
def State.retryRing (s : State) : State :=
  (s.module.gate.filter (fun g => !g.full.isEmpty)).foldl (fun (acc : State) g => acc.afterOnce 0 (.hostRingWrite g.gid g.lid g.ch)) s

/-- HRHEAD_WRITE (R401): taken when it is a multiple of 64 between HRHEAD and HRTAIL in ring order. -/
def execHrheadWrite (val : Word) (s : State) : Out :=
  let m := s.module
  let v := val.toNat
  let dist (x : Nat) : Nat := (x + m.hrsize - m.hrhead) % m.hrsize
  let ok := v % 64 = 0 ∧ (v = m.hrhead ∨ (v < m.hrsize ∧ dist v ≤ dist m.hrtail))
  if ok then
    let s1 : State := { s with module := { m with hrhead := v, notify := false } }
    .next ((if m.hrtail ≠ v then s1.notifyHost else s1).retryRing)
  else .next s

/-- HRBASE_WRITE (R399). -/
def execHrbaseWrite (val : Word) (s : State) : Out :=
  let m := s.module
  if m.hrtail ≠ m.hrhead ∨ val.toNat % 4096 ≠ 0 then .next s
  else .next ({ s with module := { m with hrbase := val, hrtail := 0, hrhead := 0 } } : State).retryRing

/-- Whether a value may be the size of the ring: 0, or a power of two from 4,096 to 2^30 (R399). -/
def ringSizeOk (n : Nat) : Bool := n == 0 || (List.range 19).any (fun i => n == 2 ^ (12 + i))

/-- HRSIZE_WRITE (R399). -/
def execHrsizeWrite (val : Word) (s : State) : Out :=
  let m := s.module
  if m.hrtail ≠ m.hrhead ∨ !ringSizeOk val.toNat then .next s
  else .next ({ s with module := { m with hrsize := val.toNat, hrtail := 0, hrhead := 0 } } : State).retryRing

/-- MSI_X_VECTOR_UNMASK (R401). -/
def execMsiXVectorUnmask (s : State) : Out :=
  let m := s.module
  .next { s with module := { m with masked := false, msiPending := false, msiSent := if m.msiPending then m.msiSent + 1 else m.msiSent } }

/-- SLOTCAP_WRITE (R399, R407): a higher cap returns slots at once. -/
def execSlotcapWrite (val : Word) (s : State) : Out :=
  let s1 : State := { s with module := { s.module with slotcap := min 10 (val.toNat % 16) } }
  .next (s1.allCores.foldl (fun (acc : State) e =>
    if e.2.occupied then acc.askDispatch 1 e.2.proc.gid e.2.proc.lid else acc) s1)

/-! ### What the host reads (R399, Table 21.1) -/

/-- Bit `i` of MBBUSY (R404). -/
def Module.busyBit (m : Module) (i : Nat) : Bool := m.mbBusy.any (fun e => e.1 == i)

/-- What a host read of a register of BAR2 delivers (R399, Table 21.1): offsets that are not listed read as zero. -/
def Module.readBar2 (m : Module) (off : Nat) : Word :=
  let w (n : Nat) : Word := BitVec.ofNat 64 n
  match off with
  | 0x0000 => w m.modid
  | 0x0008 => w (m.phase + 256 * m.failCode)
  | 0x0010 => m.hrbase
  | 0x0018 => w m.hrsize
  | 0x0020 => w m.hrtail
  | 0x0028 => w m.hrhead
  | 0x0030 => m.mbdrop
  | 0x0040 => w m.droophold
  | 0x0048 => w m.slotcap
  | 0x0050 => m.attaddr
  | 0x0058 => w (bit m.attctl)
  | 0x0060 => m.attnonce[0]
  | 0x0068 => m.attnonce[1]
  | 0x0070 => m.attnonce[2]
  | 0x0078 => m.attnonce[3]
  | _ =>
    if 0x1000 ≤ off ∧ off < 0x1200 ∧ off % 8 = 0 then
      w (((List.range 64).map (fun i => if m.busyBit (8 * (off - 0x1000) + i) then 2 ^ i else 0)).sum)
    else 0

/-- What a host read of BAR0 delivers (R399): the mailboxes cannot be read. -/
def Module.readBar0 (_ : Module) (_ : Nat) : Word := 0

/-! ### Attestation (R405) -/

/-- ATTCTL_WRITE (R405): a request that arrives while one is served is ignored. -/
def execAttctlWrite (val : Word) (s : State) : Out :=
  if val.getLsbD 0 && !s.module.attctl then
    .next (({ s with module := { s.module with attctl := true } } : State).after 250 .attestationReport)
  else .next s

/-- ATTESTATION_REPORT (R405): 2,048 bytes: the nonce, MODID, and digests and a signature whose values are free. -/
def execAttestationReport (s : State) : Out :=
  let m := s.module
  let l := (m.attnonce.toList.map (fun w => leBytes 8 w.toNat)).flatten ++ leBytes 8 m.modid ++
    (List.range 2008).map (fun i => Config.attestByte (s.free + i))
  .next (({ s with module := { m with attctl := false } } : State).hostWrite m.attaddr.toNat l)

/-! ### Links (R402, Table 21.6) -/

/-- A port of the module. -/
def State.port (s : State) (n : Nat) : LinkPort := (s.module.ports[n]?).getD {}

/-- Replace it. -/
def State.setPort (s : State) (n : Nat) (p : LinkPort) : State := { s with module := { s.module with ports := s.module.ports.setIfInBounds n p } }

/-- A flit has failed: 64 in a row stop the port, which is reported (R402). -/
def State.flitFailed (s : State) (n : Nat) : State :=
  let p := s.port n
  let k := p.failed + 1
  if 64 ≤ k ∧ !p.stopped then (s.setPort n { p with failed := k, stopped := true }).report (.link n)
  else s.setPort n { p with failed := k }

/-- The place that a request names in this module (R157). -/
def LinkReq.at_ (r : LinkReq) (s : State) : Place := match r.place with | .phys a => placeOf s a | p => p

/-- A request as an access at its place. -/
def LinkReq.acc (r : LinkReq) (s : State) : Acc :=
  { kind := r.kind, place := r.at_ s, size := r.size, val := r.val, mask := r.mask, sig := r.sig }

/-- An atomic of another module at its word (R185, R189-R192): the old value, and the signature found there. -/
def State.amoFor (s : State) (p : Place) (r : LinkReq) : Perf :=
  if s.isBad p r.size then .fault (s.noteError (s.homeOf p) p) .machine
  else
    let q : AmoReq := { op := r.op, n := r.size, ord := r.ord, d := 0, place := p, va := 0, v := r.val, cmp := r.cmp, sig := r.sig, stamp := 0 }
    let old := s.peek p r.size
    let s1 := s.homeWrite p r.size (q.compute old).1 (2 ^ r.size - 1)
    let w := sigWord p
    let g := (s1.foundSig w).getD { all := true, lines := [] }
    .done (if ordRel r.ord then s1.releaseSlot w r.sig else if ordAcq r.ord then s1.touchSlot w else s1) old g true

/-- An addition of the engine of another module to a counter word (R286). -/
def State.addFor (s : State) (p : Place) (r : LinkReq) : Perf :=
  if s.isBad p 8 then .fault (s.noteError (s.homeOf p) p) .machine else .done (s.addAtHome p r.val) 0 {} true

/-- The opening of a channel that another module asks for (R218, R247): 0, or the status that says why not. -/
def State.openFor (s : State) (c : Option Nat) (r : LinkReq) : Perf :=
  match c with
  | none => .done s (2 ^ 64 - 6) {} true
  | some c =>
    match s.openInbound c r.lid (r.val % 8) (r.val / 2 ^ 19 % 2 == 1) with
    | .ok s1 => .done s1 0 {} true
    | .error v => .done s v {} true

/-- Perform a request of another module, which has come in by a port, at its place (R40, R247). -/
def State.performLink (s : State) (n : Nat) (r : LinkReq) : Perf :=
  let a := r.acc s
  match r.kind with
  | .chopen => s.openFor (match a.place with | .win g l _ => s.coreOf g l | _ => none) r
  | .amo | .put =>
    match s.obstacle a with
    | .fault t => .fault s t
    | .wait w => .wait (s.waitOn w ((Asker.module n r).step r.kind))
    | .none =>
      if r.kind = .amo then (if 15 ≤ r.tag.who then s.addFor a.place r else s.amoFor a.place r)
      else .done (s.landAt a.place r.size r.val (r.mask == 1)) 0 {} true
  | _ => s.performFor a (.module n r)

/-- A request of another module is where its place is: it is answered, waits there, is held for a process that is being moved (R346), or
goes on to the module to which its process has gone (R215, R247). -/
def State.serveLink (s : State) (n : Nat) (r : LinkReq) : State :=
  let p := r.at_ s
  let a := attachCore n
  let (moving, gone) : Bool × Bool := match p with
    | .win g l _ => (match s.coreOf g l with | some c => (s.inTransfer c, false) | none => (false, s.elsewhere a g l))
    | _ => (false, false)
  if gone then s.linkSend a 0 0 (.request r)
  else if moving then s.after 1 ((Asker.module n r).step r.kind)
  else
    match s.performLink n r with
    | .done s1 v g _ => s1.linkReply (s.homeOf p) r v 0 g
    | .fault s1 t => s1.linkReply (s.homeOf p) r 0 t.code {}
    | .wait s1 => s1
    | .ask _ => s

/-- The reply of another module reaches the party that asked (R40, R247): a thread, a write-back whose acknowledgement releases await, a
hint, or a step of an engine. -/
def State.takeLink (s : State) (r : LinkReq) (v fault : Nat) (g : Sig) : State :=
  let c := r.tag.core
  let w := r.tag.who
  if w < 12 then
    let t := s.thrAt c w
    match t.wait with
    | some (.chopen _) => (s.setThrAt c w { t with got := t.got.take 1 ++ [v] }).after 0 (.chopenRequest c w)
    | _ => s.after 0 (.nonlocalReply c w v fault g)
  else if w = 12 then
    let k := s.coreAt c
    s.setCoreAt c { k with proc := { k.proc with remoteStores := k.proc.remoteStores - 1 } }
  else if w = 13 then s.onProc r.gid r.lid (fun p => { p with remoteStores := p.remoteStores - 1 })
  else if w = 14 then
    match r.place with
    | .phys pa => if fault = 0 then s.fillFar (clusterOf c) pa r.mask v else s
    | _ => s
  else
    let mine (f : FarAcc) : Bool := f.id + 16 == w
    let s1 : State := { s with far := s.far.map (fun f => if mine f then { f with val := some (v, fault) } else f) }
    match (s.far.find? mine).bind (·.step) with
    | some e => s1.after 0 e
    | none => s1

/-- What a flit carries enters the mesh at the port's attach core (R247, R412). Requests and replies are performed by a further step when
they have reached their place. -/
def State.fromLink (s : State) (n : Nat) (item : LinkItem) : State :=
  let a := attachCore n
  let inner (c : Nat) : State := s.after (transit a c + 4) (.linkFlitReceive n innerSeq true item)
  match item with
  | .packet p => let c := (s.placeLoc a p.gid p.dst).core; s.after (transit a c + 9) (.channelPacketArrival c { p with origin := gateCore })
  | .ack k => let c := (s.placeLoc a k.gid k.src).core; s.after (transit a c + 4) (.ackArrival c { k with origin := gateCore })
  | .request r => inner (s.homeOf (r.at_ s))
  | .reply r _ _ _ => inner r.tag.core
  | .wake g l slot mon gen =>
    let c := (s.placeLoc a g l).core
    s.wakeTo gateCore c (transit a c + 4) (.monitorWake g l slot mon gen)
  | .accepted _ => s

/-- LINK_FLIT_RECEIVE (R402): a good flit that is next in sequence is accepted, one accepted before is discarded, and both are
acknowledged, but by a port that has stopped; an acknowledgement frees the flits that it covers. A request or a reply that has crossed the
mesh is performed (R40). -/
def execLinkFlitReceive (port seq : Nat) (crcOk : Bool) (item : LinkItem) (s : State) : Out :=
  if innerSeq ≤ seq then
    match item with
    | .request r => .next ((s.focus (attachCore port)).serveLink port r)
    | .reply r v f g => .next (s.takeLink r v f g)
    | _ => .next s
  else if !crcOk then .next (s.flitFailed port)
  else
    let p := { s.port port with failed := 0 }
    let acks (k : Nat) : Option Nat := if p.stopped then p.ackOut else some k
    match item with
    | .accepted k =>
      .next (s.setPort port { p with unacked := p.unacked.filter (fun e => decide (2048 ≤ (k + 4096 - e.1) % 4096)) })
    | _ =>
      if seq = p.rxSeq then .next ((s.setPort port { p with rxSeq := (seq + 1) % 4096, ackOut := acks seq }).fromLink port item)
      else .next (s.setPort port { p with ackOut := acks ((p.rxSeq + 4095) % 4096) })

/-- LINK_RESEND_TIMEOUT (R402): a flit not acknowledged within 8,192 cycles has failed and is sent again with every flit after
it. -/
def execLinkResendTimeout (port : Nat) (s : State) : Out :=
  let p := s.port port
  match p.unacked with
  | [] => .next s
  | (_, t, _) :: _ =>
    if p.stopped ∨ s.cycle < t + 8192 then .next s
    else
      let s1 := s.flitFailed port
      let p1 := s1.port port
      if p1.stopped then .next s1
      else
        .next ((s1.setPort port { p1 with unacked := p1.unacked.map (fun e => (e.1, s.cycle, e.2.2)) }).after 8192 (.linkResendTimeout port))

/-! ### Bring-up (R403, Table 21.2) -/

/-- RESET (R403): phase 0, as after power-on; host memory and other modules' memory are not the module's. -/
def execReset (s : State) : Out :=
  .next { State.reset with free := s.free, mem := s.mem.filter (fun e => decide (4 * 2 ^ 56 ≤ e.1)) }

/-- A core as it leaves reset: slot 11 starts at the runtime's entry (R387, log entry 5). -/
def Core.started (k : Core) (now : Nat) : Core := { k with slots := k.slots.set 11 ((k.slots[11]).restarted now) }

/-- FIRMWARE_VERIFIED (R403): phase 1; the cores of the grid leave reset and their slots 11 start. A failed check is a
write of the failure code (execRegisterWrite). -/
def execFirmwareVerified (s : State) : Out :=
  if s.module.phase ≠ 0 then .next s
  else
    let cores := (List.range 3072).map (fun c => (c, (s.coreAt c).started s.cycle))
    .next { s with module := { s.module with phase := 1, failCode := 0 },
                   core := s.core.started s.cycle, others := cores.filter (fun e => e.1 != s.here) }

/-- VAULT_TRAINED (R403): phase 2. A vault that fails is a write of the failure code (execRegisterWrite). -/
def execVaultTrained (s : State) : Out :=
  if s.module.phase ≠ 1 then .next s
  else .next { s with module := { s.module with phase := 2, failCode := 0 } }

/-! ### Droop (R406) -/

/-- DROOP_DETECT (R406): a hold of DROOPHOLD cycles begins with the next cycle, or its count starts again. -/
def execDroopDetect (cluster : Nat) (s : State) : Out :=
  let h := s.module.droophold
  if h = 0 then .next s
  else
    let k := s.clusterAt cluster
    let k1 := { k with droopFrom := if s.cycle < k.droopUntil then k.droopFrom else s.cycle + 1, droopUntil := s.cycle + h + 1 }
    .next ((s.setCluster cluster k1).after (h + 1) (.droopHoldEnd cluster))

/-- DROOP_HOLD_END (R406). -/
def execDroopHoldEnd (cluster : Nat) (s : State) : Out :=
  let k := s.clusterAt cluster
  if k.droopUntil ≤ s.cycle then .next (s.setCluster cluster { k with droopFrom := 0, droopUntil := 0 }) else .next s

/-! ### Debug (R409, R410) -/

/-- The four cores of a cluster. -/
def clusterCores (cl : Nat) : List Nat := (List.range 4).map (clusterCore cl)

/-- Whether a timeout of the agenda belongs to a cluster, and stands still while it is halted (R409). -/
def State.pausesIn (s : State) (cl : Nat) : Instr → Bool
  | .waitmTimeout g l _ => (match s.coreOfKey g l with | some c => clusterOf c == cl | none => false)
  | .trgetTimeout c => clusterOf c == cl
  | .swapTimeout _ c => clusterOf c == cl
  | _ => false

/-- DEBUG_HALT (R409): issue stops in the cluster; not during a transfer of one of its cores. -/
def execDebugHalt (cluster : Nat) (s : State) : Out :=
  let k := s.clusterAt cluster
  if k.dbgHalted then .next s
  else if (clusterCores cluster).any s.inTransfer then .next (s.after 1 (.debugHalt cluster))
  else
    let mine := s.agenda.filter (fun e => s.pausesIn cluster e.2)
    let k1 := { k with dbgHalted := true, dbgSince := s.cycle, paused := mine.map (fun e => (e.1 - s.cycle, e.2)) }
    .next { (s.setCluster cluster k1) with agenda := s.agenda.filter (fun e => !s.pausesIn cluster e.2) }

/-- A thread's timeouts after `n` cycles in which they stood still. -/
def Thread.shift (t : Thread) (n : Nat) : Thread :=
  match t.wait with
  | some (.waitm d (some c)) => { t with wait := some (.waitm d (some (c + n))) }
  | some (.trget _) => { t with got := t.got.map (· + n) }
  | _ => t

/-- One core of a halted cluster goes on (R409). -/
def resumeCore (n : Nat) (s : State) (c : Nat) : State :=
  let s1 := s.focus c
  let s2 : State := { s1 with core := { s1.core with slots := vmap (fun t => t.shift n) s1.core.slots } }
  if s2.core.occupied then
    let s3 := s2.setProc { s2.proc with cycSkew := s2.proc.cycSkew + n }
    ((s3.askDispatch 1 s3.proc.gid s3.proc.lid).kickCopy).retryBlocked
  else s2

/-- DEBUG_RESUME (R409): the four cores restart in one cycle, and timeouts go on from where they stood. -/
def execDebugResume (cluster : Nat) (s : State) : Out :=
  let k := s.clusterAt cluster
  if !k.dbgHalted then .next s
  else
    let n := s.cycle - k.dbgSince
    let s1 := s.setCluster cluster { k with dbgHalted := false, dbgSince := 0, paused := [] }
    let s2 := k.paused.foldl (fun (acc : State) e => acc.after e.1 e.2) s1
    .next ((clusterCores cluster).foldl (resumeCore n) s2)

end Sys2Proof.Machine
end

