-- ==== Sys2Proof/Machine/Dispatch.lean ====
section
/-! DEFINITION. One arm for each constructor of Instr, each a direct call of its meaning. -/

namespace Sys2Proof.Machine

def exec (i : Instr) (s : State) : Host.Outcome State Fault Refusal :=
  match i with
  | .add q d a b => Sys2Proof.Machine.execAdd q d a b s
  | .sub q d a b => Sys2Proof.Machine.execSub q d a b s
  | .and q d a b => Sys2Proof.Machine.execAnd q d a b s
  | .or q d a b => Sys2Proof.Machine.execOr q d a b s
  | .xor q d a b => Sys2Proof.Machine.execXor q d a b s
  | .andn q d a b => Sys2Proof.Machine.execAndn q d a b s
  | .sll q d a b => Sys2Proof.Machine.execSll q d a b s
  | .srl q d a b => Sys2Proof.Machine.execSrl q d a b s
  | .sra q d a b => Sys2Proof.Machine.execSra q d a b s
  | .rotr q d a b => Sys2Proof.Machine.execRotr q d a b s
  | .addw q d a b => Sys2Proof.Machine.execAddw q d a b s
  | .subw q d a b => Sys2Proof.Machine.execSubw q d a b s
  | .sllw q d a b => Sys2Proof.Machine.execSllw q d a b s
  | .srlw q d a b => Sys2Proof.Machine.execSrlw q d a b s
  | .sraw q d a b => Sys2Proof.Machine.execSraw q d a b s
  | .min q d a b => Sys2Proof.Machine.execMin q d a b s
  | .max q d a b => Sys2Proof.Machine.execMax q d a b s
  | .minu q d a b => Sys2Proof.Machine.execMinu q d a b s
  | .maxu q d a b => Sys2Proof.Machine.execMaxu q d a b s
  | .lea1 q d a b => Sys2Proof.Machine.execLea1 q d a b s
  | .lea2 q d a b => Sys2Proof.Machine.execLea2 q d a b s
  | .lea3 q d a b => Sys2Proof.Machine.execLea3 q d a b s
  | .mul q d a b => Sys2Proof.Machine.execMul q d a b s
  | .mulh q d a b => Sys2Proof.Machine.execMulh q d a b s
  | .mulhu q d a b => Sys2Proof.Machine.execMulhu q d a b s
  | .mulw q d a b => Sys2Proof.Machine.execMulw q d a b s
  | .div q d a b => Sys2Proof.Machine.execDiv q d a b s
  | .divu q d a b => Sys2Proof.Machine.execDivu q d a b s
  | .rem q d a b => Sys2Proof.Machine.execRem q d a b s
  | .remu q d a b => Sys2Proof.Machine.execRemu q d a b s
  | .divw q d a b => Sys2Proof.Machine.execDivw q d a b s
  | .divuw q d a b => Sys2Proof.Machine.execDivuw q d a b s
  | .remw q d a b => Sys2Proof.Machine.execRemw q d a b s
  | .remuw q d a b => Sys2Proof.Machine.execRemuw q d a b s
  | .clz q d a => Sys2Proof.Machine.execClz q d a s
  | .ctz q d a => Sys2Proof.Machine.execCtz q d a s
  | .popc q d a => Sys2Proof.Machine.execPopc q d a s
  | .brev q d a => Sys2Proof.Machine.execBrev q d a s
  | .bswap q d a => Sys2Proof.Machine.execBswap q d a s
  | .sextb q d a => Sys2Proof.Machine.execSextb q d a s
  | .sexth q d a => Sys2Proof.Machine.execSexth q d a s
  | .sextw q d a => Sys2Proof.Machine.execSextw q d a s
  | .zextb q d a => Sys2Proof.Machine.execZextb q d a s
  | .zexth q d a => Sys2Proof.Machine.execZexth q d a s
  | .zextw q d a => Sys2Proof.Machine.execZextw q d a s
  | .exts q d a b => Sys2Proof.Machine.execExts q d a b s
  | .extu q d a b => Sys2Proof.Machine.execExtu q d a b s
  | .insb q d a b => Sys2Proof.Machine.execInsb q d a b s
  | .sel q d a b => Sys2Proof.Machine.execSel q d a b s
  | .pand q d a b => Sys2Proof.Machine.execPand q d a b s
  | .por q d a b => Sys2Proof.Machine.execPor q d a b s
  | .pxor q d a b => Sys2Proof.Machine.execPxor q d a b s
  | .pandn q d a b => Sys2Proof.Machine.execPandn q d a b s
  | .pmovx q d => Sys2Proof.Machine.execPmovx q d s
  | .xmovp q a => Sys2Proof.Machine.execXmovp q a s
  | .addi q d a imm => Sys2Proof.Machine.execAddi q d a imm s
  | .andi q d a imm => Sys2Proof.Machine.execAndi q d a imm s
  | .ori q d a imm => Sys2Proof.Machine.execOri q d a imm s
  | .xori q d a imm => Sys2Proof.Machine.execXori q d a imm s
  | .slli q d a sh => Sys2Proof.Machine.execSlli q d a sh s
  | .srli q d a sh => Sys2Proof.Machine.execSrli q d a sh s
  | .srai q d a sh => Sys2Proof.Machine.execSrai q d a sh s
  | .rotri q d a sh => Sys2Proof.Machine.execRotri q d a sh s
  | .slliw q d a sh => Sys2Proof.Machine.execSlliw q d a sh s
  | .srliw q d a sh => Sys2Proof.Machine.execSrliw q d a sh s
  | .sraiw q d a sh => Sys2Proof.Machine.execSraiw q d a sh s
  | .movi q d imm => Sys2Proof.Machine.execMovi q d imm s
  | .movk q d hw imm => Sys2Proof.Machine.execMovk q d hw imm s
  | .fadd q fmt d a b => Sys2Proof.Machine.execFadd q fmt d a b s
  | .fsub q fmt d a b => Sys2Proof.Machine.execFsub q fmt d a b s
  | .fmul q fmt d a b => Sys2Proof.Machine.execFmul q fmt d a b s
  | .fdiv q fmt d a b => Sys2Proof.Machine.execFdiv q fmt d a b s
  | .fsqrt q fmt d a => Sys2Proof.Machine.execFsqrt q fmt d a s
  | .fmin q fmt d a b => Sys2Proof.Machine.execFmin q fmt d a b s
  | .fmax q fmt d a b => Sys2Proof.Machine.execFmax q fmt d a b s
  | .fminn q fmt d a b => Sys2Proof.Machine.execFminn q fmt d a b s
  | .fmaxn q fmt d a b => Sys2Proof.Machine.execFmaxn q fmt d a b s
  | .fabs q fmt d a => Sys2Proof.Machine.execFabs q fmt d a s
  | .fneg q fmt d a => Sys2Proof.Machine.execFneg q fmt d a s
  | .fcpys q fmt d a b => Sys2Proof.Machine.execFcpys q fmt d a b s
  | .fclass q fmt d a => Sys2Proof.Machine.execFclass q fmt d a s
  | .fmvxf q fmt d a => Sys2Proof.Machine.execFmvxf q fmt d a s
  | .fmvfx q fmt d a => Sys2Proof.Machine.execFmvfx q fmt d a s
  | .fma q fmt rnd d a b => Sys2Proof.Machine.execFma q fmt rnd d a b s
  | .fms q fmt rnd d a b => Sys2Proof.Machine.execFms q fmt rnd d a b s
  | .fnma q fmt rnd d a b => Sys2Proof.Machine.execFnma q fmt rnd d a b s
  | .fnms q fmt rnd d a b => Sys2Proof.Machine.execFnms q fmt rnd d a b s
  | .fcmpd q pd1 pd2 ty cnd a b => Sys2Proof.Machine.execFcmpd q pd1 pd2 ty cnd a b s
  | .fcmps q pd1 pd2 ty cnd a b => Sys2Proof.Machine.execFcmps q pd1 pd2 ty cnd a b s
  | .fcvt q dst src rnd d a => Sys2Proof.Machine.execFcvt q dst src rnd d a s
  | .fexp2 q c d a => Sys2Proof.Machine.execFexp2 q c d a s
  | .flog2 q c d a => Sys2Proof.Machine.execFlog2 q c d a s
  | .fsinp q c d a => Sys2Proof.Machine.execFsinp q c d a s
  | .fcosp q c d a => Sys2Proof.Machine.execFcosp q c d a s
  | .frsq q c d a => Sys2Proof.Machine.execFrsq q c d a s
  | .frcp q c d a => Sys2Proof.Machine.execFrcp q c d a s
  | .ftanh q c d a => Sys2Proof.Machine.execFtanh q c d a s
  | .xclr q d => Sys2Proof.Machine.execXclr q d s
  | .xaddv q d a b => Sys2Proof.Machine.execXaddv q d a b s
  | .xadds q d a b => Sys2Proof.Machine.execXadds q d a b s
  | .xaddx q d a => Sys2Proof.Machine.execXaddx q d a s
  | .xrnd q d a b => Sys2Proof.Machine.execXrnd q d a b s
  | .xneg q d a => Sys2Proof.Machine.execXneg q d a s
  | .vadd q t d a b k => Sys2Proof.Machine.execVadd q t d a b k s
  | .vsub q t d a b k => Sys2Proof.Machine.execVsub q t d a b k s
  | .vmul q t d a b k => Sys2Proof.Machine.execVmul q t d a b k s
  | .vfma q t d a b k => Sys2Proof.Machine.execVfma q t d a b k s
  | .vdiv q t d a b k => Sys2Proof.Machine.execVdiv q t d a b k s
  | .vsqrt q t d a k => Sys2Proof.Machine.execVsqrt q t d a k s
  | .vmin q t d a b k => Sys2Proof.Machine.execVmin q t d a b k s
  | .vmax q t d a b k => Sys2Proof.Machine.execVmax q t d a b k s
  | .vminu q t d a b k => Sys2Proof.Machine.execVminu q t d a b k s
  | .vmaxu q t d a b k => Sys2Proof.Machine.execVmaxu q t d a b k s
  | .vabs q t d a k => Sys2Proof.Machine.execVabs q t d a k s
  | .vneg q t d a k => Sys2Proof.Machine.execVneg q t d a k s
  | .vand q t d a b k => Sys2Proof.Machine.execVand q t d a b k s
  | .vor q t d a b k => Sys2Proof.Machine.execVor q t d a b k s
  | .vxor q t d a b k => Sys2Proof.Machine.execVxor q t d a b k s
  | .vshl q t d a b k => Sys2Proof.Machine.execVshl q t d a b k s
  | .vshra q t d a b k => Sys2Proof.Machine.execVshra q t d a b k s
  | .vshrl q t d a b k => Sys2Proof.Machine.execVshrl q t d a b k s
  | .vsel q t d a b k => Sys2Proof.Machine.execVsel q t d a b k s
  | .vmov q t d a k => Sys2Proof.Machine.execVmov q t d a k s
  | .vbcast q t d a k => Sys2Proof.Machine.execVbcast q t d a k s
  | .vext q t zx d a b => Sys2Proof.Machine.execVext q t zx d a b s
  | .vins q t d a b => Sys2Proof.Machine.execVins q t d a b s
  | .vperm q t d a b => Sys2Proof.Machine.execVperm q t d a b s
  | .vreds q t d a k => Sys2Proof.Machine.execVreds q t d a k s
  | .vredn q t var d a k => Sys2Proof.Machine.execVredn q t var d a k s
  | .vredx q t d a k => Sys2Proof.Machine.execVredx q t d a k s
  | .vcvt q dst part src d a => Sys2Proof.Machine.execVcvt q dst part src d a s
  | .vcmp q kd a b t cnd kg => Sys2Proof.Machine.execVcmp q kd a b t cnd kg s
  | .kand q d a b => Sys2Proof.Machine.execKand q d a b s
  | .kor q d a b => Sys2Proof.Machine.execKor q d a b s
  | .kxor q d a b => Sys2Proof.Machine.execKxor q d a b s
  | .knot q d a => Sys2Proof.Machine.execKnot q d a s
  | .kset q d a => Sys2Proof.Machine.execKset q d a s
  | .kget q d a => Sys2Proof.Machine.execKget q d a s
  | .kpop q d a => Sys2Proof.Machine.execKpop q d a s
  | .ktest q d a b => Sys2Proof.Machine.execKtest q d a b s
  | .vqnt q d g fm b => Sys2Proof.Machine.execVqnt q d g fm b s
  | .vdqnt q g fm a b => Sys2Proof.Machine.execVdqnt q g fm a b s
  | .mma q acc a m fA fB sp => Sys2Proof.Machine.execMma q acc a m fA fB sp s
  | .mmaz q acc a m fA fB sp => Sys2Proof.Machine.execMmaz q acc a m fA fB sp s
  | .cmp q pd1 pd2 ty cnd a b => Sys2Proof.Machine.execCmp q pd1 pd2 ty cnd a b s
  | .cmpi q pd1 pd2 ty cnd a imm => Sys2Proof.Machine.execCmpi q pd1 pd2 ty cnd a imm s
  | .gets q d num => Sys2Proof.Machine.execGets q d num s
  | .puts q num a => Sys2Proof.Machine.execPuts q num a s
  | .br q h disp => Sys2Proof.Machine.execBr q h disp s
  | .brl q h disp => Sys2Proof.Machine.execBrl q h disp s
  | .jr q h a => Sys2Proof.Machine.execJr q h a s
  | .jrl q h d a => Sys2Proof.Machine.execJrl q h d a s
  | .bdec q d imm => Sys2Proof.Machine.execBdec q d imm s
  | .rpt q n len stag mask => Sys2Proof.Machine.execRpt q n len stag mask s
  | .hstart q d a b => Sys2Proof.Machine.execHstart q d a b s
  | .hend q a => Sys2Proof.Machine.execHend q a s
  | .hjoin q d a => Sys2Proof.Machine.execHjoin q d a s
  | .hstat q d a => Sys2Proof.Machine.execHstat q d a s
  | .hkill q d a => Sys2Proof.Machine.execHkill q d a s
  | .iflush q => Sys2Proof.Machine.execIflush q s
  | .ldb q d a imm => Sys2Proof.Machine.execLdb q d a imm s
  | .ldh q d a imm => Sys2Proof.Machine.execLdh q d a imm s
  | .ldw q d a imm => Sys2Proof.Machine.execLdw q d a imm s
  | .ldd q d a imm => Sys2Proof.Machine.execLdd q d a imm s
  | .ldbu q d a imm => Sys2Proof.Machine.execLdbu q d a imm s
  | .ldhu q d a imm => Sys2Proof.Machine.execLdhu q d a imm s
  | .ldwu q d a imm => Sys2Proof.Machine.execLdwu q d a imm s
  | .stb q d a imm => Sys2Proof.Machine.execStb q d a imm s
  | .sth q d a imm => Sys2Proof.Machine.execSth q d a imm s
  | .stw q d a imm => Sys2Proof.Machine.execStw q d a imm s
  | .std q d a imm => Sys2Proof.Machine.execStd q d a imm s
  | .fldh q d a imm => Sys2Proof.Machine.execFldh q d a imm s
  | .fldw q d a imm => Sys2Proof.Machine.execFldw q d a imm s
  | .fldd q d a imm => Sys2Proof.Machine.execFldd q d a imm s
  | .fsth q d a imm => Sys2Proof.Machine.execFsth q d a imm s
  | .fstw q d a imm => Sys2Proof.Machine.execFstw q d a imm s
  | .fstd q d a imm => Sys2Proof.Machine.execFstd q d a imm s
  | .vld q d a k imm => Sys2Proof.Machine.execVld q d a k imm s
  | .vst q d a k imm => Sys2Proof.Machine.execVst q d a k imm s
  | .ldf q d a imm => Sys2Proof.Machine.execLdf q d a imm s
  | .ldfc q d a imm => Sys2Proof.Machine.execLdfc q d a imm s
  | .stf q d a imm => Sys2Proof.Machine.execStf q d a imm s
  | .fesete q a imm => Sys2Proof.Machine.execFesete q a imm s
  | .fesetf q a imm => Sys2Proof.Machine.execFesetf q a imm s
  | .feget q d a imm => Sys2Proof.Machine.execFeget q d a imm s
  | .lda q d a imm => Sys2Proof.Machine.execLda q d a imm s
  | .stl q d a imm => Sys2Proof.Machine.execStl q d a imm s
  | .fence q => Sys2Proof.Machine.execFence q s
  | .pref q d a imm => Sys2Proof.Machine.execPref q d a imm s
  | .cwb q a imm => Sys2Proof.Machine.execCwb q a imm s
  | .cinv q a imm => Sys2Proof.Machine.execCinv q a imm s
  | .vlds q d a b sz k => Sys2Proof.Machine.execVlds q d a b sz k s
  | .vsts q d a b sz k => Sys2Proof.Machine.execVsts q d a b sz k s
  | .aadd q sz ord d a b => Sys2Proof.Machine.execAadd q sz ord d a b s
  | .aand q sz ord d a b => Sys2Proof.Machine.execAand q sz ord d a b s
  | .aor q sz ord d a b => Sys2Proof.Machine.execAor q sz ord d a b s
  | .axor q sz ord d a b => Sys2Proof.Machine.execAxor q sz ord d a b s
  | .amin q sz ord d a b => Sys2Proof.Machine.execAmin q sz ord d a b s
  | .amax q sz ord d a b => Sys2Proof.Machine.execAmax q sz ord d a b s
  | .aminu q sz ord d a b => Sys2Proof.Machine.execAminu q sz ord d a b s
  | .amaxu q sz ord d a b => Sys2Proof.Machine.execAmaxu q sz ord d a b s
  | .aswp q sz ord d a b => Sys2Proof.Machine.execAswp q sz ord d a b s
  | .afadd q sz ord d a b => Sys2Proof.Machine.execAfadd q sz ord d a b s
  | .acas q sz ord d a b => Sys2Proof.Machine.execAcas q sz ord d a b s
  | .acas2 q ord d a b => Sys2Proof.Machine.execAcas2 q ord d a b s
  | .monarm q d a idx => Sys2Proof.Machine.execMonarm q d a idx s
  | .mondis q idx => Sys2Proof.Machine.execMondis q idx s
  | .waitm q d a => Sys2Proof.Machine.execWaitm q d a s
  | .monst q d => Sys2Proof.Machine.execMonst q d s
  | .bararr q a b => Sys2Proof.Machine.execBararr q a b s
  | .barwait q b => Sys2Proof.Machine.execBarwait q b s
  | .barsync q a b => Sys2Proof.Machine.execBarsync q a b s
  | .bardef q a b => Sys2Proof.Machine.execBardef q a b s
  | .barst q d b => Sys2Proof.Machine.execBarst q d b s
  | .chopen q d a => Sys2Proof.Machine.execChopen q d a s
  | .chclose q a => Sys2Proof.Machine.execChclose q a s
  | .chinfo q d a => Sys2Proof.Machine.execChinfo q d a s
  | .send q d a b => Sys2Proof.Machine.execSend q d a b s
  | .sendr q d a b => Sys2Proof.Machine.execSendr q d a b s
  | .sendv q d b => Sys2Proof.Machine.execSendv q d b s
  | .sendvr q d b => Sys2Proof.Machine.execSendvr q d b s
  | .sendw q d b => Sys2Proof.Machine.execSendw q d b s
  | .sendwr q d b => Sys2Proof.Machine.execSendwr q d b s
  | .precv q d a => Sys2Proof.Machine.execPrecv q d a s
  | .pcancel q d a => Sys2Proof.Machine.execPcancel q d a s
  | .probe q d a => Sys2Proof.Machine.execProbe q d a s
  | .uqtake q d a => Sys2Proof.Machine.execUqtake q d a s
  | .ctrget q d a => Sys2Proof.Machine.execCtrget q d a s
  | .ctrset q a b => Sys2Proof.Machine.execCtrset q a b s
  | .ctradd q d a b => Sys2Proof.Machine.execCtradd q d a b s
  | .ctrwait q d a b => Sys2Proof.Machine.execCtrwait q d a b s
  | .ttset q d a => Sys2Proof.Machine.execTtset q d a s
  | .ttclr q d a => Sys2Proof.Machine.execTtclr q d a s
  | .spawn q d a b => Sys2Proof.Machine.execSpawn q d a b s
  | .spawnw q d a b => Sys2Proof.Machine.execSpawnw q d a b s
  | .take q d => Sys2Proof.Machine.execTake q d s
  | .steal q d a => Sys2Proof.Machine.execSteal q d a s
  | .trun q d a => Sys2Proof.Machine.execTrun q d a s
  | .tprio q d a b => Sys2Proof.Machine.execTprio q d a b s
  | .mldb q a => Sys2Proof.Machine.execMldb q a s
  | .mpass q a => Sys2Proof.Machine.execMpass q a s
  | .mpop q d => Sys2Proof.Machine.execMpop q d s
  | .mlda q d a => Sys2Proof.Machine.execMlda q d a s
  | .msta q fm acc a b => Sys2Proof.Machine.execMsta q fm acc a b s
  | .mclr q d => Sys2Proof.Machine.execMclr q d s
  | .mburst q a => Sys2Proof.Machine.execMburst q a s
  | .mstat q d => Sys2Proof.Machine.execMstat q d s
  | .cppush q d a => Sys2Proof.Machine.execCppush q d a s
  | .cppushb q d a => Sys2Proof.Machine.execCppushb q d a s
  | .cpwait q d a => Sys2Proof.Machine.execCpwait q d a s
  | .cpstat q d a => Sys2Proof.Machine.execCpstat q d a s
  | .cpabort q d a => Sys2Proof.Machine.execCpabort q d a s
  | .posget q d => Sys2Proof.Machine.execPosget q d s
  | .lidget q d a => Sys2Proof.Machine.execLidget q d a s
  | .whereLid q d a => Sys2Proof.Machine.execWhereLid q d a s
  | .anchor q d => Sys2Proof.Machine.execAnchor q d s
  | .unanchor q d => Sys2Proof.Machine.execUnanchor q d s
  | .migreq q d a => Sys2Proof.Machine.execMigreq q d a s
  | .chtraf q d a => Sys2Proof.Machine.execChtraf q d a s
  | .annget q d a => Sys2Proof.Machine.execAnnget q d a s
  | .annset q d a b => Sys2Proof.Machine.execAnnset q d a b s
  | .sysc q a => Sys2Proof.Machine.execSysc q a s
  | .brk q b => Sys2Proof.Machine.execBrk q b s
  | .tret q d a b => Sys2Proof.Machine.execTret q d a b s
  | .trget q d a => Sys2Proof.Machine.execTrget q d a s
  | .ctxsave q d a => Sys2Proof.Machine.execCtxsave q d a s
  | .ctxload q d a => Sys2Proof.Machine.execCtxload q d a s
  | .glaunch q d a => Sys2Proof.Machine.execGlaunch q d a s
  | .bankcfg q d a => Sys2Proof.Machine.execBankcfg q d a s
  | .tlbinv q d a b => Sys2Proof.Machine.execTlbinv q d a b s
  | .dump q d a b => Sys2Proof.Machine.execDump q d a b s
  | .halt q => Sys2Proof.Machine.execHalt q s
  | .svsend q d a => Sys2Proof.Machine.execSvsend q d a s
  | .threadResume core slot => Sys2Proof.Machine.execThreadResume core slot s
  | .nonlocalReply core slot val fault sig => Sys2Proof.Machine.execNonlocalReply core slot val fault sig s
  | .storeQueueSend core slot => Sys2Proof.Machine.execStoreQueueSend core slot s
  | .remoteAccessAtHome core slot => Sys2Proof.Machine.execRemoteAccessAtHome core slot s
  | .releaseAtHome core slot => Sys2Proof.Machine.execReleaseAtHome core slot s
  | .pageWalk core slot => Sys2Proof.Machine.execPageWalk core slot s
  | .capacityEviction cluster line => Sys2Proof.Machine.execCapacityEviction cluster line s
  | .eccSoftError core at_ corrected => Sys2Proof.Machine.execEccSoftError core at_ corrected s
  | .fifoPortServe cluster bank => Sys2Proof.Machine.execFifoPortServe cluster bank s
  | .bankModeSwitch cluster bank => Sys2Proof.Machine.execBankModeSwitch cluster bank s
  | .atomicRequestAtHome core slot => Sys2Proof.Machine.execAtomicRequestAtHome core slot s
  | .atomicUnitArrival core slot => Sys2Proof.Machine.execAtomicUnitArrival core slot s
  | .forwardNotice unit holderCore holderSlot core slot => Sys2Proof.Machine.execForwardNotice unit holderCore holderSlot core slot s
  | .atomicUnitReturn unit => Sys2Proof.Machine.execAtomicUnitReturn unit s
  | .monitorArmAtHome core slot => Sys2Proof.Machine.execMonitorArmAtHome core slot s
  | .monitorCancelAtHome gid lid slot mon gen => Sys2Proof.Machine.execMonitorCancelAtHome gid lid slot mon gen s
  | .monitorWake gid lid slot mon gen => Sys2Proof.Machine.execMonitorWake gid lid slot mon gen s
  | .waitmTimeout gid lid slot => Sys2Proof.Machine.execWaitmTimeout gid lid slot s
  | .barrierArrival core slot => Sys2Proof.Machine.execBarrierArrival core slot s
  | .deferredArrival gid lid slot => Sys2Proof.Machine.execDeferredArrival gid lid slot s
  | .chopenRequest core slot => Sys2Proof.Machine.execChopenRequest core slot s
  | .packetInject gid lid handle => Sys2Proof.Machine.execPacketInject gid lid handle s
  | .channelPacketArrival core pkt => Sys2Proof.Machine.execChannelPacketArrival core pkt s
  | .messageLanded gid lid record => Sys2Proof.Machine.execMessageLanded gid lid record s
  | .ackTimer gid lid src ch => Sys2Proof.Machine.execAckTimer gid lid src ch s
  | .ackArrival core ack => Sys2Proof.Machine.execAckArrival core ack s
  | .movedNoticeArrival core ent => Sys2Proof.Machine.execMovedNoticeArrival core ent s
  | .locationLookupReply core gid lid => Sys2Proof.Machine.execLocationLookupReply core gid lid s
  | .multicastReplicate gid lid => Sys2Proof.Machine.execMulticastReplicate gid lid s
  | .copyRequestStart gid lid => Sys2Proof.Machine.execCopyRequestStart gid lid s
  | .engineAccessReply gid lid id => Sys2Proof.Machine.execEngineAccessReply gid lid id s
  | .engineAccessAck gid lid id bytes => Sys2Proof.Machine.execEngineAccessAck gid lid id bytes s
  | .putCounterAdd gid lid id bytes => Sys2Proof.Machine.execPutCounterAdd gid lid id bytes s
  | .matrixOpStart gid lid => Sys2Proof.Machine.execMatrixOpStart gid lid s
  | .matrixOpComplete gid lid => Sys2Proof.Machine.execMatrixOpComplete gid lid s
  | .latchEntryAppend gid lid entry => Sys2Proof.Machine.execLatchEntryAppend gid lid entry s
  | .engineCold gid lid => Sys2Proof.Machine.execEngineCold gid lid s
  | .readyQueueEnter gid lid => Sys2Proof.Machine.execReadyQueueEnter gid lid s
  | .taskDispatch gid lid => Sys2Proof.Machine.execTaskDispatch gid lid s
  | .processEnd gid lid => Sys2Proof.Machine.execProcessEnd gid lid s
  | .proposalTimer die unit => Sys2Proof.Machine.execProposalTimer die unit s
  | .proposal die unit => Sys2Proof.Machine.execProposal die unit s
  | .foldEnd die unit => Sys2Proof.Machine.execFoldEnd die unit s
  | .swapProposalArrival move core => Sys2Proof.Machine.execSwapProposalArrival move core s
  | .swapTransfer move => Sys2Proof.Machine.execSwapTransfer move s
  | .swapResume move => Sys2Proof.Machine.execSwapResume move s
  | .swapTimeout move core => Sys2Proof.Machine.execSwapTimeout move core s
  | .sensorUpdate core temp => Sys2Proof.Machine.execSensorUpdate core temp s
  | .slotWithholdStep core => Sys2Proof.Machine.execSlotWithholdStep core s
  | .thermalRetryTimer gid lid => Sys2Proof.Machine.execThermalRetryTimer gid lid s
  | .migrationRequestService core slot => Sys2Proof.Machine.execMigrationRequestService core slot s
  | .trapRecordEnqueue core rcd => Sys2Proof.Machine.execTrapRecordEnqueue core rcd s
  | .trgetTimeout core => Sys2Proof.Machine.execTrgetTimeout core s
  | .coreRepair core target restart => Sys2Proof.Machine.execCoreRepair core target restart s
  | .preempt gid inbox entries timeout core => Sys2Proof.Machine.execPreempt gid inbox entries timeout core s
  | .preemptHoldTimeout gid => Sys2Proof.Machine.execPreemptHoldTimeout gid s
  | .preemptDrained gid => Sys2Proof.Machine.execPreemptDrained gid s
  | .saved gid lid => Sys2Proof.Machine.execSaved gid lid s
  | .loaded gid lid => Sys2Proof.Machine.execLoaded gid lid s
  | .groupResume gid => Sys2Proof.Machine.execGroupResume gid s
  | .tripWrite core val => Sys2Proof.Machine.execTripWrite core val s
  | .uqcfgWrite core val => Sys2Proof.Machine.execUqcfgWrite core val s
  | .intpostWrite core val => Sys2Proof.Machine.execIntpostWrite core val s
  | .txvalWrite core val => Sys2Proof.Machine.execTxvalWrite core val s
  | .rhselClr core => Sys2Proof.Machine.execRhselClr core s
  | .propose die unit => Sys2Proof.Machine.execPropose die unit s
  | .fold die unit => Sys2Proof.Machine.execFold die unit s
  | .tposWrite die unit val => Sys2Proof.Machine.execTposWrite die unit val s
  | .weightWrite die unit row col val => Sys2Proof.Machine.execWeightWrite die unit row col val s
  | .registerWrite reg val => Sys2Proof.Machine.execRegisterWrite reg val s
  | .mailboxWrite off bytes => Sys2Proof.Machine.execMailboxWrite off bytes s
  | .mailboxTake => Sys2Proof.Machine.execMailboxTake s
  | .edgeQueueSend => Sys2Proof.Machine.execEdgeQueueSend s
  | .hostRingWrite gid lid ch => Sys2Proof.Machine.execHostRingWrite gid lid ch s
  | .hrheadWrite val => Sys2Proof.Machine.execHrheadWrite val s
  | .hrbaseWrite val => Sys2Proof.Machine.execHrbaseWrite val s
  | .hrsizeWrite val => Sys2Proof.Machine.execHrsizeWrite val s
  | .slotcapWrite val => Sys2Proof.Machine.execSlotcapWrite val s
  | .attctlWrite val => Sys2Proof.Machine.execAttctlWrite val s
  | .attestationReport => Sys2Proof.Machine.execAttestationReport s
  | .linkFlitReceive port seq crcOk item => Sys2Proof.Machine.execLinkFlitReceive port seq crcOk item s
  | .linkResendTimeout port => Sys2Proof.Machine.execLinkResendTimeout port s
  | .reset => Sys2Proof.Machine.execReset s
  | .firmwareVerified => Sys2Proof.Machine.execFirmwareVerified s
  | .vaultTrained => Sys2Proof.Machine.execVaultTrained s
  | .droopDetect cluster => Sys2Proof.Machine.execDroopDetect cluster s
  | .droopHoldEnd cluster => Sys2Proof.Machine.execDroopHoldEnd cluster s
  | .debugHalt cluster => Sys2Proof.Machine.execDebugHalt cluster s
  | .debugResume cluster => Sys2Proof.Machine.execDebugResume cluster s
  | .undefinedWord word => Sys2Proof.Machine.execUndefinedWord word s
  | .instructionFetchFault code addr => Sys2Proof.Machine.execInstructionFetchFault code addr s
  | .msiXVectorUnmask => Sys2Proof.Machine.execMsiXVectorUnmask s

end Sys2Proof.Machine
end

