-- ==== Sys2Proof/Machine/Issue.lean ====
section
/-! DEFINITION. What a step does around an instruction: the turn of a slot (R20, R22, R411), the fetch, the cursor of a frame, the
tick of the clock, and the placing of a word where the next step fetches it. -/

namespace Sys2Proof.Machine

/-! ### Turns that issue nothing (R20, R249, R345, R386, R406, R408, R409, R411) -/

/-- A turn of the thread in focus that issues nothing; a turn lost to a wrong steer passes with it (R100). -/
def State.idle (s : State) (c : TurnClass) : State := s.setThr { (s.thr.bubble c) with lost := s.thr.lost - 1 }

/-- The class of a turn of a thread parked in a SEND (R411): its window is full, its payload is being read, or a packet is being
injected. -/
def State.sendClass (s : State) (h : Nat) : TurnClass :=
  match s.proc.handle h with
  | none => .vac
  | some o =>
    match o.cur with
    | none => .vac
    | some c =>
      if c.inj.isSome then (if s.cycle < c.readUntil then .mem else .vac)
      else if 32 ≤ o.unack then .msg else .mem

/-- The class of a turn that the thread in focus spends parked, or held without a wait. -/
def State.idleClass (s : State) : TurnClass :=
  match s.thr.wait with
  | some (.send h) => s.sendClass h
  | some w => w.turnClass
  | none => .vac

/-- Whether the thread in focus may execute its parked instruction again. One of slot 11 whose place in a queue of the engine has gone with the
process (R329) asks again. A walk, a fetch, a translation's invalidation and the
access of a context area end by steps of their own. -/
def State.mayRetry (s : State) : RetryOn → Bool
  | .wbAck c => decide (c ≤ s.cycle)
  | .storeRoom => decide (s.thr.storeQ.length < 4)
  | .storeEmpty => s.thr.storeQ.isEmpty
  | .walk | .fetch | .tlb | .area | .more => false
  | .bank cl b => !s.bankChanging cl b
  | .sendBusy h => ((s.proc.handle h).bind (·.cur)).isNone
  | .latchEmpty => false
  | .appended => true
  | .opQueue => s.proc.mq.granted.contains s.slot.val || !s.proc.mq.waiting.contains s.slot.val
  | .latchFull => s.proc.mq.latchGrant.contains s.slot.val || !s.proc.mq.latchWait.contains s.slot.val
  | .defRoom => decide ((s.proc.defs.filter (fun d => d.slot == s.slot.val && d.alive)).length < 4)
  | .deque | .hold => true
  | .unitHome u => (s.unitAway u).isNone
  | .remoteAcks =>
    match s.thr.rel with
    | some (g, _) => !s.waitsRemote g
    | none => s.proc.remoteStores == 0

/-- Whether the process in focus is held and the thread in focus with it: at a boundary (R345), and wherever it stands once the transfer of
the process has begun or while its group is parked or has been loaded (R346, R390, R392). -/
def State.heldTurn (s : State) : Bool :=
  s.core.occupied && s.proc.hold.isSome && s.slot.val != 11 &&
  (s.atBoundary s.here s.slot.val || s.proc.hold == some .loaded || s.inTransfer s.here || s.isParked s.proc.gid)

/-- Whether a word is of the majors 0x20-0x24, whose issue a droop hold and a hot core stop (R406, R408). -/
def vectorMajor (w : IWord) : Bool := decide (0x20 ≤ (fld w 23 6).toNat) && decide ((fld w 23 6).toNat ≤ 0x24)

/-- Whether vector issue is held on the core in focus. -/
def State.vectorHeld (s : State) : Bool :=
  let k := s.clusterAt (clusterOf s.here)
  s.core.hot || (decide (k.droopFrom ≤ s.cycle) && decide (s.cycle < k.droopUntil))

/-- What a slot does in its turn. -/
inductive Turn where
  | none | idle (c : TurnClass) | issue
  deriving DecidableEq, Repr

/-- Whether the thread in focus is suspended in a withheld slot (R20, R249). -/
def State.suspended (s : State) : Bool := s.withheld s.here s.slot.val

/-- What the slot in focus does in its turn (R20). The turns of a held and of a suspended thread are vacant (R249, R345). -/
def State.turnOf (s : State) : Turn :=
  let t := s.thr
  if !t.live then .none
  else if s.cycle < t.notBefore then .idle .vac
  else if s.suspended || s.heldTurn then .idle .vac
  else if s.core.halted || s.dbgHalted s.here then .idle s.idleClass
  else
    match t.wait with
    | some (.retry on) => if s.mayRetry on then .issue else .idle s.idleClass
    | some _ => .idle s.idleClass
    | none => if 0 < t.lost then .idle .vac else .issue

/-- The deferred barrier whose arrival was discarded and which stops the thread in focus now, at an instruction boundary (R206). -/
def State.stopNow (s : State) : Option Nat := if s.paused s.here s.slot.val then s.thr.defStop.head? else none

/-! ### What a turn issues -/

/-- What the thread in focus is to perform: an instruction of a word, a word that is not defined, a fault of the fetch, or nothing
yet, for a walk of a page or a bank whose mode is being changed. -/
inductive Issue where
  | word (w : IWord) (pa : Option Nat)
  | trap (t : Trap) (addr : Word)
  | fetchFault (t : Trap) (addr : Word)
  | miss (addr : Word)
  | busy (cl b : Nat)
  deriving DecidableEq, Repr

/-- The cursor's word of an open frame (R104); after a trap the captured words are fetched and tested again (R106). An instruction
that is executed again after its first part keeps its word. -/
def State.issue (s : State) : Issue :=
  let t := s.thr
  match t.frame with
  | some f =>
    if f.retest then
      match s.capture f.base f.len with
      | .ok ws => .word { f with words := ws }.word none
      | .trap k a => .trap k a
      | .miss a => .miss a
      | .busy cl b => .busy cl b
    else .word f.word none
  | none =>
    if t.ready ≠ 0 then .word t.ir none
    else
      match s.fetch (s.slot.val == 11) t.pc 0 with
      | .word w pa => .word w (some pa)
      | .fault k => .fetchFault k t.pc
      | .miss => .miss t.pc
      | .busy cl b => .busy cl b

/-- The state in which the instruction of a word is executed: the wait is over, the word is at hand and held in the instruction
cache, and a tested frame keeps its words. -/
def State.withWord (s : State) (w : IWord) (pa : Option Nat) : State :=
  let s1 := match pa with | some a => s.fillICache a w | none => s
  let t := s1.thr
  let fr := match t.frame with
    | some f => if f.retest then (match s.capture f.base f.len with | .ok ws => some { f with words := ws, retest := false } | _ => some f) else some f
    | none => none
  s1.setThr { t with wait := none, ir := w, frame := fr }

/-- Whether the thread in focus passes over a word that is not defined: a word of a frame is tested at its capture and issues from the
guard on, so that a step of its fields that makes it illegal traps under a true guard only (R104, R133; log entry 62). -/
def State.passesOver (s : State) (w : IWord) : Bool := s.thr.frame.isSome && !s.rp (fld w 29 3)

/-- The state with the wait of the thread in focus over. -/
def State.unwait (s : State) : State := s.setThr { s.thr with wait := none }

/-- Whether the parked instruction of the thread in focus can go on now (R158, R183). -/
def State.canGoOn (s : State) : Bool :=
  let t := s.thr
  t.live &&
  (match t.wait with
   | some (.retry .walk) | some (.retry .more) => true
   | some (.retry (.unitHome u)) => (s.unitAway u).isNone
   | _ => false)

/-- Whether the instruction of the thread in focus does not go on although its wait has ended: its core is stopped, or it is a SPAWNW, which
may act at an issue only, in a slot that is held or withheld (R249, R265, R345, R386, R409). -/
def State.mayNotGoOn (s : State) : Bool :=
  s.core.halted || s.dbgHalted s.here || (s.thr.inSpawnw && (s.suspended || s.heldTurn))

/-- The word of the parked instruction of the thread in focus: its frame's, else the one it has fetched. -/
def State.parkedWord (s : State) : IWord :=
  match s.thr.frame with
  | some f => f.word
  | none => s.thr.ir

/-- A thread whose parked instruction does not go on in this cycle executes it at a turn of its own; a SPAWNW stays parked until then. The
turn in which it began has been one of its wait (R411). -/
def State.stayParked (s : State) : State :=
  s.setThr ({ s.thr with wait := if s.thr.inSpawnw then some (.retry .deque) else none }.bubble .mem)

/-! ### The tick -/

/-- The number of slots of a core that hold a live, unparked thread (R411). -/
def Core.readyCount (k : Core) : Nat := (k.slots.toList.filter (fun t => t.live && t.wait.isNone)).length

/-- Count a cycle in the ready-count histogram: a bucket saturates (R411). -/
def Core.counted (k : Core) : Core :=
  let n := k.readyCount
  let v := (k.hist.toList[n]?).getD 0
  { k with hist := k.hist.setIfInBounds n (if v = BitVec.allOnes 64 then v else v + 1) }

/-- The cores that have turns in a cycle, by rising id. -/
def State.coreList (s : State) : List Nat := (kvPut s.others s.here s.core).map Prod.fst

/-- The clock advances (R20): every core's cycle is counted, and moves and groups are looked at. -/
def State.tick (s : State) : State :=
  let s1 : State := { s with cycle := s.cycle + 1, core := s.core.counted, others := s.others.map (fun e => (e.1, e.2.counted)) }
  let s2 := s1.advanceMoves.advanceGroups
  { s2 with todo := s2.coreList }

/-! ### Placing a word (withFetchWord) -/

/-- Whether a word needs slot 11: minors 0x02 to 0x0B of SYS, and GETS or PUTS of a number from 0x800 on (R54, R381). -/
def needsSupervisor (w : IWord) : Bool :=
  let major := (fld w 23 6).toNat
  let fn := (fld w 0 8).toNat
  (major == 0x3E && decide (2 ≤ fn) && decide (fn ≤ 0x0B)) || (major == 0x0E && w.getLsbD 11)

/-- The thread that is to fetch at address 0. -/
def Thread.atZero (t : Thread) : Thread :=
  { t with live := true, pc := 0, notBefore := 0, wait := none, frame := none, lost := 0, ready := 0, got := [], walked := [],
           trap := none, defStop := [], kpend := false, storeQ := [], rel := none, desc := none, fms := none, sentTo := none, amo := none, pend := [] }

/-- The page tables that map page 0 to the vault page at 0x40000 with every permission, and the word at its start (R155-R157). -/
def codeImage (m : Memory) (w : IWord) : Memory :=
  Memory.write (Memory.write (Memory.write (Memory.write m 0x10000 8 0x20001) 0x20000 8 0x30001) 0x30000 8 0x4000F) 0x40000 4 w.toNat

/-- The translation of page 0. -/
def codeTlb (here : Nat) (sv : Bool) (gid : Nat) : TlbEnt := { gid := if sv then 65536 + here else gid, base := 0, large := false, pte := 0x4000F#64 }

/-- A state in which the next step fetches and runs a word. -/
def State.placeWord (s : State) (w : IWord) : State :=
  let sv := needsSupervisor w
  let slot : Fin 12 := if sv then 11 else 0
  let k := s.core
  let cl := s.clusterAt (clusterOf s.here)
  let p := k.proc
  { s with
    cycle := (s.cycle / 12 + 1) * 12 + slot.val, todo := [s.here], redo := [], agenda := [], slot := slot,
    mem := codeImage s.mem w, bad := [], units := [],
    module := { s.module with phase := 2 },
    clusters := kvPut s.clusters (clusterOf s.here) { cl with dbgHalted := false, droopFrom := 0, droopUntil := 0 },
    core := { k with occupied := true, halted := false, hot := false, svroot := 0x10000, icache := [], tlb := [codeTlb s.here sv p.gid],
                     proc := { p with ptroot := 0x10000, hold := none },
                     slots := k.slots.set slot k.slots[slot].atZero } }

end Sys2Proof.Machine
end

