-- ==== Sys2Proof/Machine/Step.lean ====
section
/-! DEFINITION. One step of the machine: an event that is due, or the turn of one core's slot, or the tick of the clock. -/

namespace Sys2Proof.Machine

/-- What comes after a step: free values that it used are spent (log entry 2). -/
def State.spent (s : State) : State := s.bump 4096

/-- A thread that a turn or an event has brought to an instruction boundary is ended by a pending HKILL (R256); one that no longer asks the
matrix engine gives back what it has been granted (R302). -/
def State.settled (s : State) : State := (if s.thr.kpend then s.killNow s.slot.val else s).dropGrant

/-- Perform an event of the agenda. The state names it while it is performed: what its accesses of other cores' memory bring back is
kept under that name until it has used it (R370). -/
def stepEvent (e : Instr) (rest : List (Nat × Instr)) (s : State) : Out :=
  andThen (exec e { s with agenda := rest, event := some e }) (fun s' => .next ({ s' with event := none }.farSpent e).settled.spent)

/-- Execute a word in the thread in focus; a word that is not defined traps (R66), in a frame under a true guard (R104). -/
noncomputable def runWord (w : IWord) (s : State) : Out :=
  match decodeWord w with
  | some i => andThen (exec i s) (fun s' => .next s'.settled.spent)
  | none => andThen (if s.passesOver w then s.retire else exec (.undefinedWord w) s) (fun s' => .next s'.settled.spent)

/-- Issue for the thread in focus (R20, R66, R101, R206, R406). -/
noncomputable def stepIssue (s : State) : Out :=
  match s.issue with
  | .miss a => andThen (s.unwait.startWalkFor .fetch a) (fun s' => .next s'.spent)
  | .busy cl b => .next (s.unwait.parkRetry (.bank cl b)).spent
  | .trap t a => andThen (s.unwait.takeTrap t a) (fun s' => .next s'.settled.spent)
  | .fetchFault t a =>
    match s.stopNow with
    | some b => .next (((s.setThr { s.thr with ir := Config.unfetchedWord s.free }).idle .vac).stopDeferred b).settled.spent
    | none => andThen (exec (.instructionFetchFault t.code a) s.unwait) (fun s' => .next s'.settled.spent)
  | .word w pa =>
    let s1 := s.withWord w pa
    match s.stopNow with
    | some b => .next ((s1.idle .vac).stopDeferred b).settled.spent
    | none =>
      if vectorMajor w && s1.vectorHeld then .next (s1.idle .vac).spent
      else runWord w s1

/-- The parked instruction of a thread goes on in the cycle in which its wait has ended (R158, R183). -/
noncomputable def stepGoOn (c slot : Nat) (s : State) : Out :=
  let s1 := s.focusSlot c slot
  if !s1.canGoOn then .next s1
  else if s1.mayNotGoOn then .next s1.stayParked
  else runWord s1.parkedWord s1.unwait

/-- The turn of a core (R20). A thread that is ended where it stands at a boundary need not issue for it (R256). -/
noncomputable def stepTurn (c : Nat) (s : State) : Out :=
  let s1 := s.focusSlot c (s.cycle % 12)
  match s1.turnOf with
  | .none => .next s1
  | .idle k => .next (s1.idle k).settled
  | .issue => stepIssue s1

/-- The part of a step when no event is due. -/
noncomputable def stepClock (s : State) : Out :=
  match s.todo with
  | c :: rest => stepTurn c { s with todo := rest }
  | [] => .next s.tick

/-- One step. -/
noncomputable def step (s : State) : Host.Outcome State Fault Refusal :=
  match s.redo with
  | (c, i) :: rest => stepGoOn c i { s with redo := rest }
  | [] =>
    match s.agenda with
    | (k, e) :: rest => if k ≤ s.cycle then stepEvent e rest s else stepClock s
    | [] => stepClock s

/-- `s` with the instruction of these bits stored where the next step fetches. -/
def State.withFetchWord (s : State) (nbits w : Nat) : State := s.placeWord (BitVec.ofNat 32 (w % 2 ^ nbits))

end Sys2Proof.Machine
end

