-- ==== Sys2Proof/Safety.lean ====
section
/-! DEFINITION. The terms in which claims about the machine are stated: what an instruction leaves alone, the conditions under which
it completes, and the invariant of the machine's data. -/

namespace Sys2Proof.Machine

/-! ### Completing -/

/-- The state after an instruction that issues and completes in its turn: its thread is changed by `f` where its guard holds,
and retires either way (R60, R91). Nothing but the thread in focus changes. -/
def State.ran (s : State) (q : BitVec 3) (f : Thread → Thread) : State := s.setThr (if s.rp q then f s.thr else s.thr).retired

/-- An outcome is a next state of which `P` holds. -/
def Yields (o : Out) (P : State → Prop) : Prop := ∃ t, o = .next t ∧ P t

/-- Two states differ at most in the thread in focus. -/
def SameButThread (s t : State) : Prop := ∃ x : Thread, t = s.setThr x

/-! ### The bytes that a reader sees -/

/-- Every byte at every place reads the same in two states. -/
def SameBytes (s t : State) : Prop := ∀ p : Place, t.peek p 1 = s.peek p 1

/-! ### Data in the own window (R24, R151) -/

/-- The place of an own-window address of the process in focus. -/
def State.ownPlace (s : State) (va : Word) : Place := .win s.proc.gid s.proc.lid (va.toNat % 2 ^ 48)

/-- A naturally aligned access of `n` bytes at `va` lies in the own window of the process in focus, and nothing delays it: the
thread's store queue is empty, no reservation unit of the bytes is away, and they hold no uncorrectable error (R24, R152, R163,
R183). -/
structure OwnData (s : State) (va : Word) (n : Nat) : Prop where
  occupied : s.core.occupied = true
  alive : s.proc.ended = false
  window : va.toNat / 2 ^ 48 = 0xFFFF
  inside : va.toNat % 2 ^ 48 + n ≤ s.proc.winsize
  bytes : 0 < n
  aligned : va.toNat % n = 0
  noStores : s.thr.storeQ = []
  home : s.awayIn (s.ownPlace va) n = none
  sound : s.isBad (s.ownPlace va) n = false

/-- No write-watch entry stands and no error is marked anywhere: a write does nothing but write. -/
structure PlainWrites (s : State) : Prop where
  noWatch : s.watches = []
  noError : s.bad = []

/-- The own window is in its canonical form, and the core in focus is listed nowhere else: so a byte that is written reads as written, and
the write is seen in no other window. State.Inv says it of every state that a run reaches. -/
structure Canonical (s : State) : Prop where
  win : s.proc.win.wf = true
  apart : ∀ e ∈ s.others, e.1 ≠ s.here

/-- The window of the process in focus with the low `n` bytes of `v` written at `va`. -/
def State.ownWrite (s : State) (va : Word) (n v : Nat) : State :=
  s.setProc { s.proc with win := Memory.write s.proc.win (va.toNat % 2 ^ 48) n v }

/-- The byte that a write of the low `n` bytes of `v` at an own-window address leaves at a place, where it writes there. -/
def State.ownBytes (s : State) (va : Word) (n v : Nat) : Place → Option Nat
  | .win g l o =>
    let off := va.toNat % 2 ^ 48
    if g = s.proc.gid ∧ l = s.proc.lid ∧ off ≤ o ∧ o < off + n then some (v / 256 ^ (o - off) % 256) else none
  | _ => none

/-! ### Words that compute in registers -/

/-- Whether a word is of the majors that compute in registers and predicates or move the PC (Table 2.11): integer, predicates and
compares from 0x01 to 0x0D, branches from 0x10 to 0x13, floating point, the exact accumulator, vectors and the quantizers from 0x18 to 0x24. -/
def registerMajor (w : IWord) : Bool :=
  let m := (fld w 23 6).toNat
  (decide (1 ≤ m) && decide (m ≤ 0x0D)) || (decide (0x10 ≤ m) && decide (m ≤ 0x13)) || (decide (0x18 ≤ m) && decide (m ≤ 0x24))

/-! ### The invariant -/

/-- Every memory of a core is canonical. -/
def Core.memOk (k : Core) : Bool := k.proc.win.wf

/-- The reserved bits of FPCTL are zero and its rounding mode is one of the five (R56, Table 2.7). -/
def fpctlOk (v : Word) : Bool := v &&& ~~~ 0x1F1F#64 == 0 && decide ((v.extractLsb' 0 3).toNat ≤ 4)

/-- What holds of a thread: its PC is a multiple of 4 (R58, R99), FPCTL is legal (R56). -/
def Thread.ok (t : Thread) : Bool := decide (t.pc.toNat % 4 = 0) && fpctlOk t.fpctl

/-- The invariant of the machine's data: memory is canonical everywhere, every core is listed once, by rising id and beside the one in focus,
and every thread's PC and FPCTL are legal. -/
structure State.Inv (s : State) : Prop where
  mem : s.mem.wf = true
  mbox : s.module.mbox.wf = true
  mbind : s.module.mbind.wf = true
  here : s.core.memOk = true
  others : ∀ e ∈ s.others, e.2.memOk = true
  rising : (s.others.map Prod.fst).Pairwise (· < ·)
  apart : ∀ e ∈ s.others, e.1 ≠ s.here
  threads : ∀ i : Fin 12, s.core.slots[i].ok = true
  otherThreads : ∀ e ∈ s.others, ∀ i : Fin 12, e.2.slots[i].ok = true

end Sys2Proof.Machine
end

