-- ==== Sys2Proof/Certificates/Slice0/Obligations.lean ====
section
/-! DEFINITION. The statements for the provers: what the instructions and the steps of the machine do, as the rules of the spec give
it. A statement about an instruction says the whole next state, or names what of it changes; the guard `q` is read by `State.ran`. -/

open Sys2Proof Sys2Proof.Machine

/-- O1. Decoding the word of a well-formed instruction gives the instruction, every operand at every value its field admits (R61-R66, Tables
2.10-2.14). -/
def Obligations.DecodeOfEncode : Prop :=
  ∀ i : Instr, i.isWord = true → i.wf = true → decodeWord (encode i) = some i

/-- O2. The decoder reads no more than it should: a word that it accepts is the word of the instruction that it gives, which is well formed
and no step of the machine. So no two words mean one instruction, and a word with a field that must be zero set is not accepted (R66). -/
def Obligations.EncodeOfDecode : Prop :=
  ∀ (w : IWord) (i : Instr), decodeWord w = some i → encode i = w ∧ i.isWord = true ∧ i.wf = true

/-- O3. A few words written out from the encodings of the spec decode to what the spec says they are: SYSC X10, GETS x5 POS, PUTS FPCTL x9,
LDD x8 [x2+16] are the spec's own examples; ADD x5 x6 x7 follows Table 2.10 and Table 3.1. The word of zeros is not defined (R66). -/
def Obligations.DecodeWords : Prop :=
  decodeWord 0x1F014000#32 = some (.sysc 0#3 10#5) ∧ decodeWord 0x07140005#32 = some (.gets 0#3 5#5 0x005#12) ∧
  decodeWord 0x07013000#32 = some (.puts 0#3 0x000#12 9#5) ∧ decodeWord 0x14204C10#32 = some (.ldd 0#3 8#5 2#5 16#10) ∧
  decodeWord 0x0094C700#32 = some (.add 0#3 5#5 6#5 7#5) ∧ decodeWord 0#32 = none

/-- O4. A step issues the decoded instruction. In a cycle in which no event is due and no parked instruction goes on, the next core of the
cycle has its turn in the slot of the cycle (R20); where the thread there issues, fetches a word at its PC, is not stopped by a deferred
arrival, is not held back by a droop or heat, and the word decodes to `i`, the step is `exec` of `i` in the state with that word at hand,
and what comes after a step: a pending HKILL of a thread that the instruction has brought to a boundary is carried out (R256), and the
free-value counter moves on (log entry 2). -/
def Obligations.StepRunsDecoded : Prop :=
  ∀ (s : State) (c : Nat) (rest : List Nat) (w : IWord) (pa : Option Nat) (i : Instr),
    s.redo = [] → (∀ e ∈ s.agenda.head?, s.cycle < e.1) → s.todo = c :: rest →
    let s0 := ({ s with todo := rest } : State).focusSlot c (s.cycle % 12)
    let s1 := s0.withWord w pa
    s0.turnOf = .issue → s0.issue = .word w pa → s0.stopNow = none → (vectorMajor w && s1.vectorHeld) = false →
    decodeWord w = some i →
    step s = andThen (exec i s1) (fun t => .next t.settled.spent)

/-- O5. The ALU words (R75, R76, Table 3.2): X[d] takes the result, computed from the registers before the write; nothing else of the thread
changes but that it retires, and nothing else of the machine changes at all. Shifts and rotates take the low 6 bits of the amount, the W
forms work on the low 32 bits and sign-extend. The multiply and divide words (R77, R78, Table 3.4): the high halves are those of the exact
product of the integers; a division by zero gives all ones and leaves the dividend as remainder, and the signed quotient rounds toward
zero, wrapping for the most negative dividend and -1. -/
def Obligations.IntegerArithmetic : Prop :=
  (∀ (q : BitVec 3) (d a b : BitVec 5) (s : State),
     let wr (v : Word) : Out := .next (s.ran q (fun t => t.wx d v))
     let x := s.rx a
     let y := s.rx b
     let n := y.toNat % 64
     let m := y.toNat % 32
     let x32 : BitVec 32 := x.setWidth 32
     let y32 : BitVec 32 := y.setWidth 32
     exec (.add q d a b) s = wr (x + y) ∧ exec (.sub q d a b) s = wr (x - y) ∧ exec (.and q d a b) s = wr (x &&& y) ∧
     exec (.or q d a b) s = wr (x ||| y) ∧ exec (.xor q d a b) s = wr (x ^^^ y) ∧ exec (.andn q d a b) s = wr (x &&& ~~~ y) ∧
     exec (.sll q d a b) s = wr (x <<< n) ∧ exec (.srl q d a b) s = wr (x >>> n) ∧ exec (.sra q d a b) s = wr (x.sshiftRight n) ∧
     exec (.rotr q d a b) s = wr (x.rotateRight n) ∧
     exec (.addw q d a b) s = wr ((x32 + y32).signExtend 64) ∧ exec (.subw q d a b) s = wr ((x32 - y32).signExtend 64) ∧
     exec (.sllw q d a b) s = wr ((x32 <<< m).signExtend 64) ∧ exec (.srlw q d a b) s = wr ((x32 >>> m).signExtend 64) ∧
     exec (.sraw q d a b) s = wr ((x32.sshiftRight m).signExtend 64) ∧
     exec (.min q d a b) s = wr (if x.toInt < y.toInt then x else y) ∧ exec (.max q d a b) s = wr (if x.toInt < y.toInt then y else x) ∧
     exec (.minu q d a b) s = wr (if x.toNat < y.toNat then x else y) ∧ exec (.maxu q d a b) s = wr (if x.toNat < y.toNat then y else x) ∧
     exec (.lea1 q d a b) s = wr (x + 2#64 * y) ∧ exec (.lea2 q d a b) s = wr (x + 4#64 * y) ∧ exec (.lea3 q d a b) s = wr (x + 8#64 * y)) ∧
  (∀ (q : BitVec 3) (d a b : BitVec 5) (s : State),
     let wr (v : Word) : Out := .next (s.ran q (fun t => t.wx d v))
     let x := s.rx a
     let y := s.rx b
     let x32 : BitVec 32 := x.setWidth 32
     let y32 : BitVec 32 := y.setWidth 32
     exec (.mul q d a b) s = wr (x * y) ∧
     exec (.mulh q d a b) s = wr (BitVec.ofInt 64 (x.toInt * y.toInt / 2 ^ 64)) ∧
     exec (.mulhu q d a b) s = wr (BitVec.ofNat 64 (x.toNat * y.toNat / 2 ^ 64)) ∧
     exec (.mulw q d a b) s = wr ((x32 * y32).signExtend 64) ∧
     exec (.div q d a b) s = wr (if y = 0 then BitVec.allOnes 64 else BitVec.ofInt 64 (x.toInt.tdiv y.toInt)) ∧
     exec (.divu q d a b) s = wr (if y = 0 then BitVec.allOnes 64 else BitVec.ofNat 64 (x.toNat / y.toNat)) ∧
     exec (.rem q d a b) s = wr (if y = 0 then x else BitVec.ofInt 64 (x.toInt.tmod y.toInt)) ∧
     exec (.remu q d a b) s = wr (if y = 0 then x else BitVec.ofNat 64 (x.toNat % y.toNat)) ∧
     exec (.divw q d a b) s = wr (if y32 = 0 then BitVec.allOnes 64 else (BitVec.ofInt 32 (x32.toInt.tdiv y32.toInt)).signExtend 64) ∧
     exec (.divuw q d a b) s = wr (if y32 = 0 then BitVec.allOnes 64 else (BitVec.ofNat 32 (x32.toNat / y32.toNat)).signExtend 64) ∧
     exec (.remw q d a b) s = wr (if y32 = 0 then x32.signExtend 64 else (BitVec.ofInt 32 (x32.toInt.tmod y32.toInt)).signExtend 64) ∧
     exec (.remuw q d a b) s = wr (if y32 = 0 then x32.signExtend 64 else (BitVec.ofNat 32 (x32.toNat % y32.toNat)).signExtend 64))

/-- O6. The bit words (R79-R81, Table 3.6): counts, reversals, extensions and bit fields, told by the bits of the result. `pos` and `len` are
the fields of X[b], a length of 0 meaning 64. -/
def Obligations.IntegerBits : Prop :=
  ∀ (q : BitVec 3) (d a b : BitVec 5) (s : State),
    let wr (v : Word) : Out := .next (s.ran q (fun t => t.wx d v))
    let x := s.rx a
    let pos := (s.rx b).toNat % 64
    let len := if (s.rx b).toNat / 256 % 64 = 0 then 64 else (s.rx b).toNat / 256 % 64
    (∃ n : Nat, n ≤ 64 ∧ exec (.clz q d a) s = wr (BitVec.ofNat 64 n) ∧ (∀ i, 64 - n ≤ i → x.getLsbD i = false) ∧
      (n < 64 → x.getLsbD (63 - n) = true)) ∧
    (∃ n : Nat, n ≤ 64 ∧ exec (.ctz q d a) s = wr (BitVec.ofNat 64 n) ∧ (∀ i, i < n → x.getLsbD i = false) ∧
      (n < 64 → x.getLsbD n = true)) ∧
    exec (.popc q d a) s = wr (BitVec.ofNat 64 ((List.range 64).filter (fun i => x.getLsbD i)).length) ∧
    (∃ v : Word, exec (.brev q d a) s = wr v ∧ ∀ i, i < 64 → v.getLsbD i = x.getLsbD (63 - i)) ∧
    (∃ v : Word, exec (.bswap q d a) s = wr v ∧ ∀ i j, i < 8 → j < 8 → v.getLsbD (8 * i + j) = x.getLsbD (8 * (7 - i) + j)) ∧
    exec (.sextb q d a) s = wr ((x.setWidth 8).signExtend 64) ∧ exec (.sexth q d a) s = wr ((x.setWidth 16).signExtend 64) ∧
    exec (.sextw q d a) s = wr ((x.setWidth 32).signExtend 64) ∧ exec (.zextb q d a) s = wr ((x.setWidth 8).setWidth 64) ∧
    exec (.zexth q d a) s = wr ((x.setWidth 16).setWidth 64) ∧ exec (.zextw q d a) s = wr ((x.setWidth 32).setWidth 64) ∧
    (∃ v : Word, exec (.exts q d a b) s = wr v ∧ ∀ i, i < 64 → v.getLsbD i = x.getLsbD (min 63 (pos + min i (len - 1)))) ∧
    (∃ v : Word, exec (.extu q d a b) s = wr v ∧ ∀ i, i < 64 → v.getLsbD i = (decide (i < len) && x.getLsbD (pos + i))) ∧
    (∃ v : Word, exec (.insb q d a b) s = wr v ∧
      ∀ i, i < 64 → v.getLsbD i = if pos ≤ i ∧ i < pos + len then x.getLsbD (i - pos) else (s.rx d).getLsbD i)

/-- O7. The immediate words (R83-R85, Tables 3.9-3.11): immediates are sign-extended, shift amounts are literal, MOVK replaces one halfword.
The predicate words (R82, Table 3.8): SEL chooses by its predicate and is never guarded; PMOVX packs the predicates, of which p0 reads 1,
and XMOVP writes p1 to p7. -/
def Obligations.ImmediatesAndPredicates : Prop :=
  (∀ (q : BitVec 3) (d a : BitVec 5) (imm : BitVec 13) (sh : BitVec 6) (sw : BitVec 5) (i18 : BitVec 18) (hw : BitVec 2)
     (i16 : BitVec 16) (s : State),
     let wr (v : Word) : Out := .next (s.ran q (fun t => t.wx d v))
     let x := s.rx a
     let x32 : BitVec 32 := x.setWidth 32
     let i : Word := imm.signExtend 64
     exec (.addi q d a imm) s = wr (x + i) ∧ exec (.andi q d a imm) s = wr (x &&& i) ∧ exec (.ori q d a imm) s = wr (x ||| i) ∧
     exec (.xori q d a imm) s = wr (x ^^^ i) ∧ exec (.slli q d a sh) s = wr (x <<< sh.toNat) ∧
     exec (.srli q d a sh) s = wr (x >>> sh.toNat) ∧ exec (.srai q d a sh) s = wr (x.sshiftRight sh.toNat) ∧
     exec (.rotri q d a sh) s = wr (x.rotateRight sh.toNat) ∧ exec (.slliw q d a sw) s = wr ((x32 <<< sw.toNat).signExtend 64) ∧
     exec (.srliw q d a sw) s = wr ((x32 >>> sw.toNat).signExtend 64) ∧
     exec (.sraiw q d a sw) s = wr ((x32.sshiftRight sw.toNat).signExtend 64) ∧
     exec (.movi q d i18) s = wr (i18.signExtend 64) ∧
     (∃ v : Word, exec (.movk q d hw i16) s = wr v ∧
       ∀ j, j < 64 → v.getLsbD j = if j / 16 = hw.toNat then i16.getLsbD (j % 16) else (s.rx d).getLsbD j)) ∧
  (∀ (q : BitVec 3) (d a b : BitVec 5) (pd pa pb : BitVec 3) (s : State),
     let wr (v : Bool) : Out := .next (s.ran q (fun t => t.wp pd v))
     exec (.sel q d a b) s = .next (s.setThr (s.thr.wx d (if s.rp q then s.rx a else s.rx b)).retired) ∧
     exec (.pand q pd pa pb) s = wr (s.rp pa && s.rp pb) ∧ exec (.por q pd pa pb) s = wr (s.rp pa || s.rp pb) ∧
     exec (.pxor q pd pa pb) s = wr (s.rp pa != s.rp pb) ∧ exec (.pandn q pd pa pb) s = wr (s.rp pa && !s.rp pb) ∧
     (∃ v : Word, exec (.pmovx q d) s = .next (s.ran q (fun t => t.wx d v)) ∧
       ∀ i, i < 64 → v.getLsbD i = (decide (i < 8) && s.rp (BitVec.ofNat 3 i))) ∧
     (∃ u : Thread, exec (.xmovp q a) s = .next (s.ran q (fun _ => u)) ∧ (∃ p, u = { s.thr with p := p }) ∧
       ∀ r : BitVec 3, r ≠ 0#3 → u.rp r = (s.rx a).getLsbD r.toNat))

/-- O8. CMP and CMPI (R93, R94, Tables 2.12 and 4.2): the thread retires with its predicates changed and nothing else. Both old values and the
guard are read before either write; where pd1 and pd2 are one predicate, the value for pd2 stands; p0 keeps reading 1. -/
def Obligations.IntegerCompares : Prop :=
  ∀ (q pd1 pd2 ty cnd : BitVec 3) (a b : BitVec 5) (imm : BitVec 6) (s : State),
    let c (x y : Word) : Bool :=
      match cnd.toNat with
      | 0 => decide (x = y) | 1 => decide (x ≠ y) | 2 => decide (x.toInt < y.toInt) | 3 => decide (y.toInt ≤ x.toInt)
      | 4 => decide (x.toNat < y.toNat) | 5 => decide (y.toNat ≤ x.toNat) | 6 => decide (x &&& y ≠ 0) | _ => decide (x &&& y = 0)
    let g := s.rp q
    let o1 := s.rp pd1
    let o2 := s.rp pd2
    let n1 (c : Bool) : Bool :=
      match ty.toNat with
      | 0 => if g then c else o1 | 1 => g && c | 2 => o1 && (!g || c) | 3 => o1 || (g && c) | 4 => o1 && !(g && c)
      | 5 => o1 || (g && !c) | 6 => if g then o1 && c else o1 | _ => if g then o1 || c else o1
    let n2 (c : Bool) : Bool :=
      match ty.toNat with
      | 0 => if g then !c else o2 | 1 => g && !c | 2 => o2 && (!g || c) | 3 => o2 || (g && c) | 4 => o2 && !(g && c)
      | 5 => o2 || (g && !c) | 6 => if g then o2 || c else o2 | _ => if g then o2 != c else o2
    let done (c : Bool) (o : Out) : Prop :=
      ∃ p : Vector Bool 8, o = .next (s.setThr ({ s.thr with p := p } : Thread).retired) ∧
        ∀ r : BitVec 3, ({ s.thr with p := p } : Thread).rp r =
          if r = 0#3 then true else if r = pd2 then n2 c else if r = pd1 then n1 c else s.rp r
    done (c (s.rx a) (s.rx b)) (exec (.cmp q pd1 pd2 ty cnd a b) s) ∧
    done (c (s.rx a) (imm.signExtend 64)) (exec (.cmpi q pd1 pd2 ty cnd a imm) s)

/-- O9. BR, BRL and BDEC (R91, R97, R99, R100): where the PC goes, what is linked and counted, and the turn lost to a wrong hint. With a false
guard the PC is PC + 4, nothing is linked and nothing counted. A BDEC on x0 always branches. JR and JRL (R61, R91, R98, R100): with a true
guard the target is X[a], read before the link is written; where its low two bits are not zero, the instruction traps MISALIGN and writes
nothing. A hinted form pops the return stack, and JRL pushes PC + 4. With a false guard and fn[7] = 1 a turn is lost unless the top of the
stack is PC + 4 (Table 4.3); that fn[7] = 0 loses none is the model's reading of that table (log entry 16). -/
def Obligations.BranchesAndJumps : Prop :=
  (∀ (q : BitVec 3) (h : BitVec 1) (disp : BitVec 22) (d : BitVec 5) (imm : BitVec 13) (s : State),
     let t := s.thr
     let g := s.rp q
     let pc4 := t.pc + 4
     let tgt := t.pc + 4 * disp.signExtend 64
     let tgtD := t.pc + 4 * imm.signExtend 64
     let v := s.rx d - 1
     let lostB := if (g = true ↔ h = 1#1) ∨ tgt = pc4 then 0 else 1
     let takenD := g = true ∧ v ≠ 0
     let lostD := if (takenD ↔ imm.toInt ≤ 0) ∨ tgtD = pc4 then 0 else 1
     exec (.br q h disp) s = .next (s.setThr { t.issued with pc := if g then tgt else pc4, lost := lostB }) ∧
     exec (.brl q h disp) s = .next (s.setThr
       (if g then { (t.wx 1#5 pc4).issued with pc := tgt, lost := lostB, rstack := (pc4 :: t.rstack).take 4 }
        else { t.issued with pc := pc4, lost := lostB })) ∧
     exec (.bdec q d imm) s = .next (s.setThr
       (if g then { (t.wx d v).issued with pc := if v = 0 then pc4 else tgtD, lost := lostD }
        else { t.issued with pc := pc4, lost := lostD }))) ∧
  (∀ (q : BitVec 3) (h : BitVec 1) (d a : BitVec 5) (s : State),
     let t := s.thr
     let tgt := s.rx a
     let pc4 := t.pc + 4
     let top := t.rstack.head?
     let popped := if h = 1#1 then t.rstack.tail else t.rstack
     let lost := if h = 1#1 ∧ top = some tgt then 0 else 1
     let lostF := if h = 1#1 ∧ top ≠ some pc4 then 1 else 0
     if s.rp q = false then
       exec (.jr q h a) s = .next (s.setThr { t.issued with pc := pc4, lost := lostF }) ∧
       exec (.jrl q h d a) s = .next (s.setThr { t.issued with pc := pc4, lost := lostF })
     else if tgt.toNat % 4 = 0 then
       exec (.jr q h a) s = .next (s.setThr { t.issued with pc := tgt, lost := lost, rstack := popped }) ∧
       exec (.jrl q h d a) s = .next (s.setThr
         { (t.wx d pc4).issued with pc := tgt, lost := lost, rstack := (pc4 :: popped).take 4 })
     else
       exec (.jr q h a) s = s.takeTrap .misalign tgt ∧ exec (.jrl q h d a) s = s.takeTrap .misalign tgt)

/-- O10. RPT (R102-R105): with a false guard it only retires. With a true one it captures the words from PC + 4 on; where all can be fetched
and are words that a frame takes, the frame opens with its cursor at pass 0 and position 0 and the PC stays at the RPT; where word `j` is
the first that fails a test, the RPT traps ILLEGAL with no other effect, and where its fetch faults, it takes that fault with the word's
address. -/
def Obligations.RepeatFrames : Prop :=
  ∀ (q : BitVec 3) (n : BitVec 6) (len : BitVec 4) (stag mask : BitVec 3) (s : State),
    let sv := decide (s.slot.val = 11)
    let at_ (j : Nat) := s.fetch sv (s.thr.pc + 4 + BitVec.ofNat 64 (4 * j)) (1 + j)
    (s.rp q = false → exec (.rpt q n len stag mask) s = .next (s.setThr s.thr.retired)) ∧
    (s.rp q = true → ∀ ws : List IWord, ws.length = len.toNat + 1 →
      (∀ j w, ws[j]? = some w → (decodeFrameWord w).isSome = true ∧ ∃ pa, at_ j = .word w pa) →
      exec (.rpt q n len stag mask) s = .next (s.setThr { s.thr.issued with
        frame := some { base := s.thr.pc, pass := 0, posn := 0, n := n.toNat, len := len.toNat, stag := stag.toNat,
                        mask := mask, words := ws, retest := false } })) ∧
    (s.rp q = true → ∀ (j : Nat), j ≤ len.toNat →
      (∀ i, i < j → ∃ w pa, at_ i = .word w pa ∧ (decodeFrameWord w).isSome = true) →
      (∀ w pa, at_ j = .word w pa → decodeFrameWord w = none → exec (.rpt q n len stag mask) s = s.takeTrap .illegal 0) ∧
      (∀ k, at_ j = .fault k →
        exec (.rpt q n len stag mask) s = s.takeTrap k (s.thr.pc + 4 + BitVec.ofNat 64 (4 * j))))

/-- O11. The cursor of a frame (R58, R104): after an execution it goes to the next word, after the last word to the next pass, and after the
last pass the frame is over and the PC stands after the captured words. Outside a frame an instruction adds 4 to the PC. The staggered
fields (R104, Table 4.5): the register fields that the mask selects (bit 2 the d field, bit 1 the a field, bit 0 the b field) are stepped
by `k` modulo the number of registers that they name: 32 for x, 16 for v, 8 for k, 4 for an accumulator. The predicate fields of FCMPD are
never stepped, and a mask bit of a field that the word lacks is ignored. No other bit of the word changes. -/
def Obligations.FrameCursor : Prop :=
  (∀ t : Thread,
     (t.frame = none → t.retired.pc = t.pc + 4 ∧ t.retired.frame = none) ∧
     (∀ f, t.frame = some f →
       (f.posn < f.len → t.retired.pc = t.pc ∧ t.retired.frame = some { f with posn := f.posn + 1, retest := false }) ∧
       (f.len ≤ f.posn → f.pass < f.n →
         t.retired.pc = t.pc ∧ t.retired.frame = some { f with pass := f.pass + 1, posn := 0, retest := false }) ∧
       (f.len ≤ f.posn → f.n ≤ f.pass →
         t.retired.frame = none ∧ t.retired.pc = t.pc + BitVec.ofNat 64 (4 * (f.len + 2))))) ∧
  (∀ (q pd1 pd2 ty cnd t kq kd ka kb fA fB sf : BitVec 3) (d a b : BitVec 5) (vd va vb : BitVec 4) (acc : BitVec 2) (i18 : BitVec 18)
     (mask : BitVec 3) (k : Nat),
     let st (n i : Nat) (r : BitVec n) : BitVec n := if mask.getLsbD i then BitVec.ofNat n (r.toNat + k) else r
     stepWord (encode (.add q d a b)) mask k = encode (.add q (st 5 2 d) (st 5 1 a) (st 5 0 b)) ∧
     stepWord (encode (.vadd q t vd va vb kq)) mask k = encode (.vadd q t (st 4 2 vd) (st 4 1 va) (st 4 0 vb) kq) ∧
     stepWord (encode (.kand q kd ka kb)) mask k = encode (.kand q (st 3 2 kd) (st 3 1 ka) (st 3 0 kb)) ∧
     stepWord (encode (.mma q acc a b fA fB sf)) mask k = encode (.mma q (st 2 2 acc) (st 5 1 a) (st 5 0 b) fA fB sf) ∧
     stepWord (encode (.fcmpd q pd1 pd2 ty cnd a b)) mask k = encode (.fcmpd q pd1 pd2 ty cnd (st 5 1 a) (st 5 0 b)) ∧
     stepWord (encode (.movi q d i18)) mask k = encode (.movi q (st 5 2 d) i18))

/-- O12. GETS (R54, R57, R86, R87, Tables 2.6, 2.8 and 19.4): X[d] takes the register, and nothing but the thread in focus changes. The
thread's own counters are read before this turn is counted. Numbers below 0x800 are read in every slot, the others in slot 11. The
registers of process scope are those of the process on the core. -/
def Obligations.StatusReads : Prop :=
  ∀ (q : BitVec 3) (d : BitVec 5) (i : Fin 8) (s : State), s.core.occupied = true →
    let rd (num : BitVec 12) (v : Word) : Prop := exec (.gets q d num) s = .next (s.ran q (fun t => t.wx d v))
    let nat (n : Nat) : Word := BitVec.ofNat 64 n
    let p := s.proc
    let pos := dieOf s.here * 2 ^ 32 + coreY s.here * 2 ^ 24 + coreX s.here * 2 ^ 16 + (coreY s.here - p.ry) * 2 ^ 8 + (coreX s.here - p.rx)
    rd 0x000 s.thr.fpctl ∧ rd 0x002 (nat s.slot.val) ∧ rd 0x003 (nat p.lid) ∧ rd 0x004 (nat p.gsize) ∧
    (p.rx ≤ coreX s.here → p.ry ≤ coreY s.here → coreY s.here < 256 → rd 0x005 (nat pos)) ∧
    rd 0x007 s.thr.instret ∧ rd 0x008 (nat p.winsize) ∧ rd 0x00A s.thr.hintdrop ∧ rd 0x00B s.core.temp ∧ rd 0x00C p.trip ∧
    rd 0x00D (nat s.module.phase) ∧ rd (BitVec.ofNat 12 (0x010 + i.val)) p.fm[i] ∧ rd 0x020 (if p.anch then 1 else 0) ∧
    rd 0x030 p.dqbase ∧ rd 0x040 s.thr.sciss ∧ rd 0x041 s.thr.scmem ∧ rd 0x042 s.thr.scmsg ∧ rd 0x043 s.thr.scvac ∧
    rd 0x044 (nat s.core.rhsel) ∧ rd 0x006 (nat s.cycle - nat p.cycSkew) ∧
    (∃ v : Word, rd 0x009 v ∧ ∀ j, j < 64 → v.getLsbD j = (decide (1 ≤ j ∧ j ≤ 10) && (s.core.thr j).live)) ∧
    (∀ b : Fin 13, s.core.rhsel = b.val → rd 0x045 s.core.hist[b]) ∧ (13 ≤ s.core.rhsel → rd 0x045 0) ∧
    (p.uqbase < 2 ^ 18 → p.uqsize < 2 ^ 18 → p.uq.length < 2 ^ 12 → ∃ v : Word, rd 0x031 v ∧ v.toNat % 2 ^ 31 = p.uqbase ∧
      v.toNat / 2 ^ 31 % 2 = (if p.blocked then 1 else 0) ∧ v.toNat / 2 ^ 32 % 2 ^ 20 = p.uqsize ∧
      v.toNat / 2 ^ 52 = (p.uq.filter (fun e => !e.pad)).length) ∧
    (s.slot.val = 11 →
      let sel := s.core.txsel
      let u := s.core.thr (sel.toNat % 16)
      let r : BitVec 5 := BitVec.ofNat 5 (sel.toNat / 2 ^ 16)
      rd 0x800 (nat (s.core.trapQ.length + if s.core.trapWait = [] then 0 else 16)) ∧ rd 0x801 0 ∧ rd 0x802 sel ∧
      (sel.toNat % 16 < 12 → u.trap.isSome = true → rd 0x803 (if sel.getLsbD 8 then u.rf r else u.rx r)) ∧
      (12 ≤ sel.toNat % 16 ∨ u.trap = none → rd 0x803 0) ∧
      (∃ v : Word, rd 0x830 v ∧ v.toNat < 2 ^ 16 ∧ ∀ b : Fin 8, v.toNat / 4 ^ b.val % 4 =
        match (s.clusterAt (clusterOf s.here)).modes[b] with | .cache => 0 | .scratchpad => 1 | .fifo => 2) ∧
      rd 0x804 s.core.svroot ∧ rd 0x810 p.ptroot ∧ rd 0x811 p.plbase ∧ rd 0x812 p.spill ∧ rd 0x813 (nat p.gid) ∧
      rd 0x820 s.core.ecccnt ∧ rd 0x821 s.core.meaddr)

/-- O13. PUTS of the registers that hold what is written (R55, R56, R86, R88, Tables 2.6, 2.7 and 19.4): the guard holds, the instruction
completes, and the register takes X[a] field by field; only the registers named change, beside the retiring of the thread. FPCTL keeps its
reserved bits zero and stores a reserved rounding code as 0; a counter holds exactly what was written. A PUTS to a register that is
read-only has no effect but that it retires, and does not trap (R6, R54, R88). -/
def Obligations.StatusWrites : Prop :=
  (∀ (q : BitVec 3) (a : BitVec 5) (i : Fin 8) (s : State), s.core.occupied = true → s.rp q = true →
     let v := s.rx a
     let u := s.thr.retired
     let wr (num : BitVec 12) (t : State) : Prop := exec (.puts q num a) s = .next t
     let s1 := s.setThr u
     (∃ f : Word, wr 0x000 (s.setThr { u with fpctl := f }) ∧
       ∀ j, j < 64 → f.getLsbD j = (((3 ≤ j ∧ j ≤ 4) ∨ (8 ≤ j ∧ j ≤ 12) ∨ (j ≤ 2 ∧ v.toNat % 8 ≤ 4)) && v.getLsbD j)) ∧
     wr 0x00A (s.setThr { u with hintdrop := v }) ∧ wr 0x040 (s.setThr { u with sciss := v }) ∧
     wr 0x041 (s.setThr { u with scmem := v }) ∧ wr 0x042 (s.setThr { u with scmsg := v }) ∧ wr 0x043 (s.setThr { u with scvac := v }) ∧
     wr 0x030 (s1.setProc { s.proc with dqbase := v }) ∧
     (∃ f : Word, wr (BitVec.ofNat 12 (0x010 + i.val)) (s1.setProc { s.proc with fm := s.proc.fm.set i f }) ∧
       ∀ j, j < 64 → f.getLsbD j = ((j ≤ 10 ∨ (16 ≤ j ∧ j ≤ 24)) && v.getLsbD j)) ∧
     (s.slot.val = 11 → wr 0x810 (s1.setProc { s.proc with ptroot := v }) ∧ wr 0x811 (s1.setProc { s.proc with plbase := v }) ∧
       wr 0x812 (s1.setProc { s.proc with spill := v }) ∧ wr 0x820 { s1 with core := { s1.core with ecccnt := v } })) ∧
  (∀ (q : BitVec 3) (a : BitVec 5) (s : State) (num : BitVec 12),
     num.toNat ∈ [0x002, 0x003, 0x004, 0x005, 0x006, 0x007, 0x008, 0x009, 0x00B, 0x00D, 0x020, 0x045] ∨
       (s.slot.val = 11 ∧ num.toNat ∈ [0x800, 0x813, 0x821, 0x830]) →
     exec (.puts q num a) s = .next (s.setThr s.thr.retired))

/-- O14. The numbers that are no register (R54, R67, R86, R381): a GETS or PUTS of an undefined number below 0x800 traps ILLEGAL in every
slot, one of a number from 0x800 on traps PRIV in slots 0 to 10, defined or not, and ILLEGAL in slot 11 where Table 19.4 does not list it:
all before the guard is read. The supervisor instructions trap PRIV outside slot 11, before their guard is read (R60, R67, R381): SYS
minors 0x02 to 0x0B. The THRD instructions trap ILLEGAL where they may not stand (R250): HSTART, HJOIN and HKILL outside slot 0, HEND and
HSTAT in slot 11, and an operand that names no slot from 1 to 10. Barriers that trap ILLEGAL (R19, R203): a task thread's, a count outside
1 to 11, and for BARARR and BARSYNC a count other than that of an open phase; the barrier is not touched. -/
def Obligations.WhereWordsTrap : Prop :=
  (∀ (q : BitVec 3) (r : BitVec 5) (num : BitVec 12) (s : State),
     let n := num.toNat
     let both (k : Trap) : Prop := exec (.gets q r num) s = s.takeTrap k 0 ∧ exec (.puts q num r) s = s.takeTrap k 0
     (n < 0x800 → ¬ (n = 0 ∨ (2 ≤ n ∧ n ≤ 0x00D) ∨ (0x010 ≤ n ∧ n ≤ 0x017) ∨ n = 0x020 ∨ n = 0x030 ∨ n = 0x031 ∨ (0x040 ≤ n ∧ n ≤ 0x045)) →
       both .illegal) ∧
     (0x800 ≤ n → s.slot.val ≠ 11 → both .priv) ∧
     (0x800 ≤ n → s.slot.val = 11 →
       n ∉ [0x800, 0x801, 0x802, 0x803, 0x804, 0x810, 0x811, 0x812, 0x813, 0x820, 0x821, 0x830] → both .illegal)) ∧
  (∀ (q : BitVec 3) (d a b : BitVec 5) (s : State), s.slot.val ≠ 11 →
     let priv (i : Instr) : Prop := exec i s = s.takeTrap .priv 0
     priv (.trget q d a) ∧ priv (.tret q d a b) ∧ priv (.ctxsave q d a) ∧ priv (.ctxload q d a) ∧ priv (.glaunch q d a) ∧
     priv (.bankcfg q d a) ∧ priv (.tlbinv q d a b) ∧ priv (.dump q d a b) ∧ priv (.halt q) ∧ priv (.svsend q d a)) ∧
  (∀ (q : BitVec 3) (d a : BitVec 5) (s : State), s.rp q = true →
     let ill (i : Instr) : Prop := exec i s = s.takeTrap .illegal 0
     let bad := (s.rx a).toNat = 0 ∨ 10 < (s.rx a).toNat
     (s.slot.val ≠ 0 ∨ bad → ill (.hjoin q d a) ∧ ill (.hkill q d a)) ∧
     (s.slot.val = 11 → ill (.hend q a)) ∧ (s.slot.val = 11 ∨ bad → ill (.hstat q d a))) ∧
  (∀ (q : BitVec 3) (a b : BitVec 5) (s : State), s.rp q = true →
     let ill (i : Instr) : Prop := exec i s = s.takeTrap .illegal 0
     let c := (s.rx a).toNat
     let tgt := (s.proc.bar b.toNat).tgt
     (s.thr.task = true ∨ c = 0 ∨ 11 < c ∨ (tgt ≠ 0 ∧ tgt ≠ c) → ill (.bararr q a b) ∧ ill (.barsync q a b)) ∧
     (s.thr.task = true ∨ c = 0 ∨ 11 < c → ill (.bardef q a b)) ∧ (s.thr.task = true → ill (.barwait q b)))

/-- O15. Taking a trap in slots 0 to 10 (R59, R378, R379, R411): the record holds the PC, the address, the code, the slot and the cursor of an
open frame; the thread parks with its PC and its registers as they were, its return stack is emptied, its turn counts as vacant, and the
record is due 4 cycles later. In slot 11 the core halts instead and the module is told (R386). -/
def Obligations.TakingATrap : Prop :=
  ∀ (k : Trap) (addr : Word) (s : State), ∃ (r : TrapRec) (t : Thread),
    r.pc = s.thr.pc ∧ r.addr = addr ∧ r.code = k.code ∧ r.slot = s.slot.val ∧ r.src = 0 ∧ r.word = s.thr.ir ∧ r.info = 0 ∧
    (s.thr.frame = none → r.frame = false) ∧
    (∀ f, s.thr.frame = some f → r.frame = true ∧ r.pass = f.pass ∧ r.posn = f.posn) ∧
    t.trap = some r ∧ t.wait = some .trap ∧ t.pc = s.thr.pc ∧ t.x = s.thr.x ∧ t.f = s.thr.f ∧ t.v = s.thr.v ∧ t.k = s.thr.k ∧
    t.p = s.thr.p ∧ t.fpctl = s.thr.fpctl ∧ t.instret = s.thr.instret ∧ t.frame = s.thr.frame ∧ t.rstack = [] ∧
    t.scvac = s.thr.scvac + 1 ∧ t.sciss = s.thr.sciss ∧
    s.takeTrap k addr = .next
      (if s.slot.val = 11 then
        let s1 := s.setThr t
        { s1 with core := { s1.core with halted := true }, module := { s.module with reports := s.module.reports ++ [.halt s.here (some r)] } }
       else { (s.setThr t) with agenda := recordPut s.agenda (s.cycle + 4) s.here r })

/-- O16. SYSC and BRK (R382): with a true guard they trap, SYSC with X[a] as the address, BRK with its literal in INFO; with a false guard
they retire. A word that decodes to nothing traps ILLEGAL with the word in the record: the thread parks with its PC unchanged (R66, R379).
HALT in slot 11 (R386, R396): it retires and the core stops, the module being told. -/
def Obligations.SystemCalls : Prop :=
  (∀ (q : BitVec 3) (a b : BitVec 5) (s : State),
     (s.rp q = false → exec (.sysc q a) s = .next (s.setThr s.thr.retired) ∧ exec (.brk q b) s = .next (s.setThr s.thr.retired)) ∧
     (s.rp q = true → exec (.sysc q a) s = s.takeTrap .syscall (s.rx a) ∧
       exec (.brk q b) s =
         let s1 := s.setThr { s.thr with scvac := s.thr.scvac + 1 }
         let r := s1.thr.record s.slot.val 0x09 0 (b.setWidth 32)
         .next (if s.slot.val = 11 then (s1.setThr (s1.thr.trapped r)).haltCore (some r) else (s1.setThr (s1.thr.trapped r)).raise s.here r))) ∧
  (∀ (s : State) (w : IWord), s.slot.val ≠ 11 →
     exec (.undefinedWord w) s =
       let t := { s.thr with ir := w, scvac := s.thr.scvac + 1 }
       let r : TrapRec := t.record s.slot.val 0x01 0 0
       .next ((s.setThr (t.trapped r)).raise s.here r)) ∧
  (∀ (q : BitVec 3) (s : State), s.slot.val = 11 → s.rp q = true →
     let s1 := s.setThr s.thr.retired
     exec (.halt q) s = .next { s1 with core := { s1.core with halted := true },
                                        module := { s.module with reports := s.module.reports ++ [.halt s.here none] } })

/-- O17. TRGET in slot 11 (R383): with a record in the queue its four dwords stand in X[d] to X[d+3] and it leaves the queue, into which a
record that waits moves up; with none, a timeout of 0 or a pending interrupt gives zeros at once, and otherwise the thread parks, with an
event for its timeout unless X[a] is all ones. The layout of a record as TRGET delivers it (Table 19.2): dword 0 the PC, dword 1 the
address, dword 2 CODE in bits 7:0, SLOT in 11:8, SRC in 14:12, FRAME in bit 15, PASS in 21:16, POSN in 27:24 and INFO in 63:32, dword 3
the word in 31:0 and CAUSE in 39:32; every other bit is zero. It stands in X[d] to X[d+3], for d from 1 to 28, and no other register
changes. -/
def Obligations.TrapRecords : Prop :=
  (∀ (q : BitVec 3) (d a : BitVec 5) (s : State), s.slot.val = 11 → s.rp q = true →
     let lim := s.rx a
     (∀ r rest, s.core.trapQ = r :: rest →
       let free := 8 - rest.length
       let k : Core := { s.core with trapQ := rest ++ s.core.trapWait.take free, trapWait := s.core.trapWait.drop free }
       let s1 : State := { s with core := k }
       exec (.trget q d a) s = .next (s1.setThr (s.thr.takeRecord d r).retired)) ∧
     (s.core.trapQ = [] → lim = 0 ∨ s.thr.intr = true →
       exec (.trget q d a) s = .next (s.setThr
         ({ ((((s.thr.wx d 0).wx (d + 1) 0).wx (d + 2) 0).wx (d + 3) 0) with intr := false } : Thread).retired)) ∧
     (s.core.trapQ = [] → lim = BitVec.allOnes 64 → s.thr.intr = false →
       exec (.trget q d a) s = .next (s.setThr (s.thr.parked (.trget d)))) ∧
     (s.core.trapQ = [] → lim ≠ 0 → lim ≠ BitVec.allOnes 64 → s.thr.intr = false →
       exec (.trget q d a) s = .next
         ((s.setThr { (s.thr.parked (.trget d)) with got := [s.cycle + lim.toNat] }).after lim.toNat (.trgetTimeout s.here)))) ∧
  (∀ (r : TrapRec) (t : Thread) (d : BitVec 5), 1 ≤ d.toNat → d.toNat ≤ 28 →
     r.code < 256 → r.slot < 16 → r.src < 8 → r.pass < 64 → r.posn < 16 → r.cause < 256 →
     let u := t.takeRecord d r
     let w2 := (u.rx (d + 2)).toNat
     u.rx d = r.pc ∧ u.rx (d + 1) = r.addr ∧ w2 % 256 = r.code ∧ w2 / 2 ^ 8 % 16 = r.slot ∧ w2 / 2 ^ 12 % 8 = r.src ∧
     (w2 / 2 ^ 15 % 2 = if r.frame then 1 else 0) ∧ w2 / 2 ^ 16 % 64 = r.pass ∧ w2 / 2 ^ 22 % 4 = 0 ∧
     w2 / 2 ^ 24 % 16 = r.posn ∧ w2 / 2 ^ 28 % 16 = 0 ∧ w2 / 2 ^ 32 = r.info.toNat ∧ (u.rx (d + 3)).toNat % 2 ^ 32 = r.word.toNat ∧
     (u.rx (d + 3)).toNat / 2 ^ 32 % 256 = r.cause ∧ (u.rx (d + 3)).toNat / 2 ^ 40 = 0 ∧
     u = { t with x := u.x } ∧ ∀ e : BitVec 5, e.toNat < d.toNat ∨ d.toNat + 3 < e.toNat → u.rx e = t.rx e)

/-- O18. TRET of a thread in slot 11 (R106, R256, R384, Table 19.4a): the record of the thread is answered and the thread goes on as asked: at
the same instruction (action 0), after it or after the frame (action 1), or at X[b] outside any frame (action 3); X[d] is 0. A thread
without a record gives 1 and nothing else happens; an argument with a bad field gives 2. -/
def Obligations.TrapsAreAnswered : Prop :=
  ∀ (q : BitVec 3) (d a b : BitVec 5) (s : State) (i : Nat), s.slot.val = 11 → s.rp q = true →
    let v := (s.rx a).toNat
    let done (r : Nat) (s' : State) : Out := .next (s'.setThr (s'.thr.wx d (BitVec.ofNat 64 r)).retired)
    let t := s.core.thr i
    let back (r : TrapRec) (u : Thread) : Out := done 0 ((s.dropRecord r).setThrAt s.here i u)
    (i < 11 → v = i → t.trap = none → exec (.tret q d a b) s = done 1 s) ∧
    (i < 11 → v = i → ∀ r, t.trap = some r → t.kpend = false →
      exec (.tret q d a b) s = back r { t with trap := none, wait := none, frame := t.frame.map (fun f => { f with retest := true }) }) ∧
    (i < 11 → v = 64 + i → ∀ r, t.trap = some r → t.kpend = false →
      exec (.tret q d a b) s = back r { t with
        trap := none, wait := none, frame := none, pc := t.pc + BitVec.ofNat 64 (match t.frame with | some f => 4 * (f.len + 2) | none => 4) }) ∧
    (i < 11 → v = 192 + i → (s.rx b).toNat % 4 = 0 → ∀ r, t.trap = some r → t.kpend = false →
      exec (.tret q d a b) s = back r { t with trap := none, wait := none, frame := none, pc := s.rx b }) ∧
    (10 < v % 16 ∨ v / 16 % 4 = 3 ∨ v / 2 ^ 8 % 2 ^ 24 ≠ 0 → exec (.tret q d a b) s = done 2 s)

/-- O19. HSTART in slot 0 (R248, R249, R251): with a target that is a multiple of 4, the lowest free helper slot gets a thread whose PC is
X[a], whose x10 is X[b], whose other registers are zero and which issues from 12 cycles on, and X[d] is the slot; with no free slot X[d]
is -1 and nothing else happens. Elsewhere than in slot 0 it traps ILLEGAL, and with another target MISALIGN. -/
def Obligations.HelpersStart : Prop :=
  ∀ (q : BitVec 3) (d a b : BitVec 5) (s : State), s.rp q = true →
    (s.slot.val = 0 → (s.rx a).toNat % 4 = 0 → ∀ i : Nat, 1 ≤ i → i ≤ 10 → s.slotFree s.cycle i = true →
      (∀ j, 1 ≤ j → j < i → s.slotFree s.cycle j = false) →
      ∃ u : Thread, u.live = true ∧ u.task = false ∧ u.pc = s.rx a ∧ u.notBefore = s.cycle + 12 ∧ u.wait = none ∧ u.frame = none ∧
        u.fpctl = 0 ∧ (∀ r, u.rx r = if r = 10#5 then s.rx b else 0) ∧ (∀ r, u.rf r = 0) ∧ (∀ r, u.rv r = 0) ∧
        (∀ r, u.rk r = if r = 0#3 then BitVec.allOnes 32 else 0) ∧ (∀ r, u.rp r = decide (r = 0#3)) ∧
        exec (.hstart q d a b) s = .next ((s.setThrAt s.here i u).setThr (s.thr.wx d (BitVec.ofNat 64 i)).retired)) ∧
    (s.slot.val = 0 → (s.rx a).toNat % 4 = 0 → (∀ j, 1 ≤ j → j ≤ 10 → s.slotFree s.cycle j = false) →
      exec (.hstart q d a b) s = .next (s.setThr (s.thr.wx d (BitVec.allOnes 64)).retired)) ∧
    (s.slot.val = 0 → (s.rx a).toNat % 4 ≠ 0 → exec (.hstart q d a b) s = s.takeTrap .misalign (s.rx a)) ∧
    (s.slot.val ≠ 0 → exec (.hstart q d a b) s = s.takeTrap .illegal 0)

/-- O20. HEND outside slot 11 (R252, R254): with no store outstanding the thread ends with X[a] as its exit value, and a control thread that
is parked in HJOIN for its slot goes on with that value at its first own turn after it, unless its process is held; with stores
outstanding it parks until they are acknowledged. HJOIN, HSTAT and HKILL of a slot from 1 to 10 (R250, R254-R256, Table 10.2): HJOIN in
slot 0 waits for a live thread, and else gives the exit value of the last one; HSTAT outside slot 11 gives the state of the slot; HKILL in
slot 0 gives 1 for a slot without a thread, and else 0: a thread that issues or is parked at an instruction boundary ends in the next
cycle, any other is marked to end when its operation completes. -/
def Obligations.ThreadsEnd : Prop :=
  (∀ (q : BitVec 3) (a : BitVec 5) (s : State), s.rp q = true → s.slot.val ≠ 11 →
     (s.thr.storeQ = [] → s.thr.wait = none →
       Yields (exec (.hend q a) s) (fun t => t.here = s.here ∧ t.slot = s.slot ∧ t.mem = s.mem ∧ t.core.proc.win = s.core.proc.win ∧
         t.thr.live = false ∧ t.thr.exitv = s.rx a ∧ t.thr.killed = false ∧
         (∀ d : BitVec 5, s.slot.val ≠ 0 → (s.core.thr 0).wait = some (.hjoin d s.slot.val) →
           t.core.thr 0 = if s.proc.hold = none then ((s.core.thr 0).wx d (s.rx a)).resumedAfter s.cycle else s.core.thr 0) ∧
         (∀ j : Fin 12, j ≠ s.slot → (∀ d k, s.core.slots[j].wait ≠ some (.hjoin d k)) → t.core.slots[j] = s.core.slots[j]))) ∧
     (s.thr.storeQ ≠ [] → exec (.hend q a) s = .next (s.setThr (s.thr.parked (.hend (s.rx a)))))) ∧
  (∀ (q : BitVec 3) (d a : BitVec 5) (s : State) (i : Nat), s.rp q = true → s.rx a = BitVec.ofNat 64 i → 1 ≤ i → i ≤ 10 →
     let t := s.core.thr i
     let wr (v : Word) : Out := .next (s.setThr (s.thr.wx d v).retired)
     (s.slot.val = 0 → t.live = true → exec (.hjoin q d a) s = .next (s.setThr (s.thr.parked (.hjoin d i)))) ∧
     (s.slot.val = 0 → t.live = false → exec (.hjoin q d a) s = wr t.exitv) ∧
     (s.slot.val ≠ 11 → (∀ r, t.trap = some r → r.code < 256) → ∃ v : Word, exec (.hstat q d a) s = wr v ∧
       (∀ j, j < 8 → v.getLsbD j =
         match j with
         | 0 => t.live | 2 => t.live && t.task | 3 => t.live && t.wait.isSome | 4 => t.live && t.trap.isSome
         | 5 => s.withheld s.here i | 6 => t.live && t.kpend | 7 => t.killed | _ => false) ∧
       v.toNat / 256 % 2 ^ 24 = (if t.live then (t.trap.map (·.code)).getD 0 else 0) ∧
       v.toNat / 2 ^ 32 = t.exitv.toNat % 2 ^ 32) ∧
     (s.slot.val = 0 → t.live = false → exec (.hkill q d a) s = wr 1) ∧
     (s.slot.val = 0 → t.live = true → (∀ e, t.wait ≠ some (.hend e)) →
       exec (.hkill q d a) s =
         let s0 := s.setThrAt s.here i { t with kpend := true }
         let s1 := if s.paused s.here i then s0.afterOnce 1 (.threadResume s.here i) else s0
         .next (s1.setThr (s.thr.wx d 0).retired)))

/-- O21. BARARR and BARSYNC of a thread that is no task, with a count from 1 to 11 that no open phase contradicts (R203-R205): with stores
outstanding the thread parks; else the arrival is performed at once. One that does not complete the phase leaves it open with one arrival
more; one that completes it closes it, and every thread that had arrived has passed. After BARARR the thread goes on; after BARSYNC it
goes on when the phase is complete, and else it waits. BARWAIT, BARST and BARDEF (R205-R207, Table 8.8): BARWAIT of a thread that is no
task goes on unless its arrival stands, and then waits; BARST gives the barrier's target and count, the thread's state and its deferred
arrivals; BARDEF with a store of the thread outstanding records a deferred arrival that waits for it. -/
def Obligations.Barriers : Prop :=
  (∀ (q : BitVec 3) (a b : BitVec 5) (s : State),
     let c := (s.rx a).toNat
     let n := b.toNat
     let r := s.proc.bar n
     s.rp q = true → s.thr.task = false → 1 ≤ c → c ≤ 11 → (r.tgt = 0 ∨ r.tgt = c) →
     (s.thr.storeQ ≠ [] →
       exec (.bararr q a b) s = .next (s.setThr (s.thr.parked (.barArr n c false))) ∧
       exec (.barsync q a b) s = .next (s.setThr (s.thr.parked (.barArr n c true)))) ∧
     (s.thr.storeQ = [] → r.arr + 1 ≠ c →
       let s1 := s.setProc { s.proc with bars := s.proc.bars.setIfInBounds n { tgt := c, arr := r.arr + 1 } }
       exec (.bararr q a b) s = .next (s1.setThr (s.thr.issued.setBar n .arrived).resumed) ∧
       exec (.barsync q a b) s = .next (s1.setThr { (s.thr.issued.setBar n .arrived) with wait := some (.barwait n) })) ∧
     (s.thr.storeQ = [] → r.arr + 1 = c → s.proc.hold = none → s.thr.wait = none →
       (Yields (exec (.bararr q a b) s) (fun t => t.proc.bar n = {} ∧ t.thr.bar n = .passed ∧ t.thr.wait = none ∧
         ∀ j : Fin 12, j ≠ s.slot → t.core.slots[j] = s.core.slots[j].phaseEnds n false s.cycle)) ∧
       (Yields (exec (.barsync q a b) s) (fun t => t.proc.bar n = {} ∧ t.thr.bar n = .none ∧ t.thr.wait = none ∧
         ∀ j : Fin 12, j ≠ s.slot → t.core.slots[j] = s.core.slots[j].phaseEnds n false s.cycle)))) ∧
  (∀ (q : BitVec 3) (d a b : BitVec 5) (s : State),
     let n := b.toNat
     let st := s.thr.bar n
     let c := (s.rx a).toNat
     s.rp q = true →
     (s.thr.task = false →
       (st = .none → exec (.barwait q b) s = .next (s.setThr s.thr.retired)) ∧
       (st = .passed → exec (.barwait q b) s = .next (s.setThr (s.thr.setBar n .none).retired)) ∧
       (st = .arrived ∨ st = .deferred → exec (.barwait q b) s = .next (s.setThr (s.thr.parked (.barwait n))))) ∧
     (∃ v : Word, exec (.barst q d b) s = .next (s.setThr (s.thr.wx d v).retired) ∧
       ((s.proc.bar n).tgt < 16 → (s.proc.bar n).arr < 16 →
         v.toNat % 16 = (s.proc.bar n).tgt ∧ v.toNat / 16 % 16 = (s.proc.bar n).arr ∧
         v.toNat / 256 % 4 = match st with | .none => 0 | .arrived => 1 | .passed => 2 | .deferred => 3)) ∧
     (s.thr.task = false → 1 ≤ c → c ≤ 11 → s.thr.storeQ ≠ [] →
       (s.proc.defs.filter (fun e => e.slot == s.slot.val && e.alive)).length < 4 →
       let df : Deferred := { slot := s.slot.val, alive := true, bar := n, count := c, stores := s.thr.storeQ.length,
                              copies := s.proc.unlanded s.slot.val }
       exec (.bardef q a b) s =
         .next ((s.setThr (s.thr.retired.setBar n .deferred)).setProc { s.proc with defs := s.proc.defs ++ [df] })))

/-- O22. The counters (R238, R239, Table 9.8): CTRGET reads, CTRSET and CTRADD write, CTRADD delivering the old value, modulo 2^32 of the
counter that X[a][5:0] names. A thread of the core that waits for the counter goes on with its new value once it has reached what the
thread waits for. No other counter and no byte of memory changes. CTRWAIT (R239): a counter has reached a value when it is less than 2^31
ahead of it, modulo 2^32. Then the instruction completes at once with the counter; else the thread parks. -/
def Obligations.Counters : Prop :=
  (∀ (q : BitVec 3) (d a b : BitVec 5) (s : State),
     let n := (s.rx a).toNat % 64
     let low : BitVec 32 := (s.rx b).setWidth 32
     let set_ (t : State) (v : BitVec 32) : Prop :=
       t.mem = s.mem ∧ t.proc.win = s.proc.win ∧ (∀ m, m < 64 → t.ctr m = if m = n then v else s.ctr m) ∧
       (s.proc.hold = none → ∀ j : Fin 12, j ≠ s.slot → ∀ (e : BitVec 5) (w : BitVec 32), s.core.slots[j].wait = some (.ctrwait e n w) →
         t.core.slots[j] = if (v - w).toNat < 2 ^ 31 then (s.core.slots[j].wx e (v.setWidth 64)).resumedAfter s.cycle else s.core.slots[j])
     s.rp q = true → s.thr.wait = none →
     exec (.ctrget q d a) s = .next (s.setThr (s.thr.wx d ((s.ctr n).setWidth 64)).retired) ∧
     Yields (exec (.ctrset q a b) s) (fun t => t.thr = s.thr.retired ∧ set_ t low) ∧
     Yields (exec (.ctradd q d a b) s) (fun t => t.thr = (s.thr.wx d ((s.ctr n).setWidth 64)).retired ∧ set_ t (s.ctr n + low))) ∧
  (∀ (q : BitVec 3) (d a b : BitVec 5) (s : State), s.rp q = true →
     let n := (s.rx a).toNat % 64
     let c := s.ctr n
     let v : BitVec 32 := (s.rx b).setWidth 32
     (∀ k : Nat, k < 2 ^ 31 → c = v + BitVec.ofNat 32 k →
       exec (.ctrwait q d a b) s = .next (s.setThr (s.thr.wx d (c.setWidth 64)).retired)) ∧
     (∀ k : Nat, 2 ^ 31 ≤ k → k < 2 ^ 32 → c = v + BitVec.ofNat 32 k →
       exec (.ctrwait q d a b) s = .next (s.setThr (s.thr.parked (.ctrwait d n v)))))

/-- O23. TTSET, TTCLR, TPRIO and TRUN (R240, R258, R269, R270): a record in the own window with legal fields is entered into the first free
entry of the task table, with its trigger where its counter has reached the threshold, or into the ready queue; a full table gives -1, a
full queue 2; TTCLR removes an entry, TPRIO sets the priority of what stands under an entry's number. -/
def Obligations.TaskTable : Prop :=
  ∀ (q : BitVec 3) (d a b : BitVec 5) (s : State), s.rp q = true → s.thr.ready = 0 → s.thr.got = [] →
    let ea := s.rx a
    let off := ea.toNat % 2 ^ 48
    let f (k n : Nat) : Nat := Memory.read s.proc.win (off + k) n
    let wr (s1 : State) (v : Word) : Out := .next (s1.setThr ((({ s.thr with gotSig := {} } : Thread).wx d v).retired))
    let legal := f 0 8 % 4 = 0 ∧ f 21 1 ≤ 3 ∧ f 22 10 = 0
    (OwnData s ea 32 → legal → f 20 1 ≤ 63 →
      (∀ i : Nat, i < 16 → s.proc.ttEnt i = none → (∀ j, j < i → s.proc.ttEnt j ≠ none) →
        let thr := BitVec.ofNat 32 (f 16 4)
        let hit := reached (s.ctr (f 20 1)) thr
        let e : TtEnt := { pc := BitVec.ofNat 64 (f 0 8), arg := BitVec.ofNat 64 (f 8 8), thr := thr, ctr := f 20 1, prio := f 21 1,
                           trig := if hit then some s.cycle else none }
        let s1 := s.setProc { s.proc with tt := s.proc.tt.setIfInBounds i (some e) }
        exec (.ttset q d a) s = wr (if hit then s1.afterOnce 1 (.readyQueueEnter s.proc.gid s.proc.lid) else s1) (BitVec.ofNat 64 i)) ∧
      ((∀ j, j < 16 → s.proc.ttEnt j ≠ none) → exec (.ttset q d a) s = wr s (BitVec.allOnes 64))) ∧
    (OwnData s ea 32 → legal →
      (s.proc.rq.length + s.proc.rqRes < 16 →
        exec (.trun q d a) s = wr (s.appendTask (BitVec.ofNat 64 (f 0 8)) (BitVec.ofNat 64 (f 8 8)) (f 21 1) 16) 0) ∧
      (16 ≤ s.proc.rq.length + s.proc.rqRes → exec (.trun q d a) s = wr s 2)) ∧
    (ea.toNat ≤ 15 →
      (s.proc.ttEnt ea.toNat ≠ none → exec (.ttclr q d a) s =
        .next ((s.setProc { s.proc with tt := s.proc.tt.setIfInBounds ea.toNat none }).setThr (s.thr.wx d 0).retired)) ∧
      (s.proc.ttEnt ea.toNat = none → exec (.ttclr q d a) s = .next (s.setThr (s.thr.wx d 1).retired)) ∧
      ((s.rx b).toNat ≤ 3 → Yields (exec (.tprio q d a b) s) (fun t =>
        t.thr = (s.thr.wx d (BitVec.ofNat 64 ((if s.proc.ttEnt ea.toNat = none then 0 else 1) +
          (s.proc.rq.filter (fun e => e.src == ea.toNat)).length))).retired ∧
        (∀ e, t.proc.ttEnt ea.toNat = some e → e.prio = (s.rx b).toNat) ∧
        (∀ j, j ≠ ea.toNat → t.proc.ttEnt j = s.proc.ttEnt j) ∧
        (∀ e, e ∈ t.proc.rq → e.src = ea.toNat → e.prio = (s.rx b).toNat) ∧
        t.proc.rq.map (fun e => (e.pc, e.arg, e.src, e.stamp)) = s.proc.rq.map (fun e => (e.pc, e.arg, e.src, e.stamp)))))

/-- O24. SPAWN, SPAWNW and TAKE on the own deque (R261-R266), with the descriptor and the record at home and no store outstanding: SPAWN
writes the record at BOTTOM, adds 1 to BOTTOM and gives 0; on a full deque it gives 2, and SPAWNW waits with its descriptor kept. TAKE of
two records or more takes the one below BOTTOM, which it lowers, into the ready queue and gives 0. For the last record it stays parked
after its read of TOP and goes on a cycle later with its ACAS (the model's choice of the time between the two, log entry 82): where TOP is
as it was read, the task enters the ready queue, BOTTOM and TOP stand at the old BOTTOM, and X[d] is 0; where another party has changed
it, BOTTOM is one above the TOP that was read, and X[d] is 3. On an empty deque it gives 1 and every byte of the window is as it was. With
a full ready queue it gives 2. STEAL (R263, R267, Table 10.4): from another process of the group, with room in the ready queue and no
store outstanding, it reserves an entry and asks for the victim's descriptor, at the core that its location cache names or after the read
of the victim's placement entry; with a full queue it gives 2. Once descriptor, record and the old TOP are there, the task enters the
ready queue and X[d] is 0 where TOP was as read, and else 3; an invalid descriptor gives 4 and an empty deque 1. A lid of its own or
outside the group traps DEQUE. -/
def Obligations.Deques : Prop :=
  (∀ (q : BitVec 3) (d a b : BitVec 5) (s : State) (k : Deque), s.rp q = true → s.thr.ready = 0 → s.thr.got = [] → s.thr.desc = none →
     s.thr.storeQ = [] → s.units = [] → s.bad = [] → s.watches = [] → s.core.occupied = true → k.dq = s.proc.dqbase.toNat →
     s.ownDeque k.dq = some k →
     let put (s1 : State) (off n v : Nat) : State := s1.setProc { s1.proc with win := Memory.write s1.proc.win off n v }
     let wr (s1 : State) (v : Word) : Out := .next (s1.setThr (s1.thr.wx d v).retired)
     let used := (k.bottom + 2 ^ 64 - k.top) % 2 ^ 64
     let last := (k.bottom + 2 ^ 64 - 1) % 2 ^ 64
     let at_ (i : Nat) : Nat := k.base + 16 * (i % k.cap)
     ((s.rx a).toNat % 4 = 0 → used < k.cap →
       let s1 := put (put s (at_ k.bottom) 16 ((s.rx a).toNat + 2 ^ 64 * (s.rx b).toNat)) (k.dq + 16) 8 (k.bottom + 1)
       exec (.spawn q d a b) s = wr s1 0 ∧ exec (.spawnw q d a b) s = wr s1 0) ∧
     ((s.rx a).toNat % 4 = 0 → used = k.cap →
       exec (.spawn q d a b) s = wr s 2 ∧
       exec (.spawnw q d a b) s = .next (s.setThr { s.thr with wait := some (.retry .deque), desc := some s.proc.dqbase, scvac := s.thr.scvac + 1 })) ∧
     (s.proc.rq.length + s.proc.rqRes < 16 → k.top < 2 ^ 62 → k.bottom < 2 ^ 62 → 2 ≤ used → used < 2 ^ 62 →
       let w := Memory.read s.proc.win (at_ last) 16
       at_ last + 16 ≤ k.dq ∨ k.dq + 32 ≤ at_ last →
       exec (.take q d) s =
         wr ((put s (k.dq + 16) 8 last).appendTask (BitVec.ofNat 64 w) (BitVec.ofNat 64 (w / 2 ^ 64)) k.prio 17) 0) ∧
     (s.proc.rq.length + s.proc.rqRes < 16 → k.top < 2 ^ 62 → k.bottom < 2 ^ 62 → used = 1 →
       let s1 := put (s.setProc { s.proc with rqRes := s.proc.rqRes + 1 }) (k.dq + 16) 8 last
       exec (.take q d) s = .next ((s1.setThr { s.thr with
         ready := 3, got := [k.dq, last, k.base, k.cap, k.prio, k.top], desc := some s.proc.dqbase, wait := some (.retry .more) }).after 1
           (.threadResume s.here s.slot.val))) ∧
     (∀ (e : Deque) (t : Nat), t < 2 ^ 62 → e.bottom = t → (∀ u, s.requestedAt u = false) → (∀ x ∈ s.proc.tt.toList, (x.bind (·.trig)) = none) →
       let s0 := s.setThr { s.thr with ready := 3, got := [e.dq, e.bottom, e.base, e.cap, e.prio, t] }
       let r := e.base + 16 * (t % e.cap)
       let w := Memory.read s.proc.win r 16
       let less := s.setProc { s.proc with rqRes := s.proc.rqRes - 1 }
       r + 16 ≤ e.dq ∨ e.dq + 32 ≤ r →
       (Memory.read s.proc.win e.dq 8 = t → exec (.take q d) s0 =
         wr (put ((put less e.dq 8 (t + 1)).appendTask (BitVec.ofNat 64 w) (BitVec.ofNat 64 (w / 2 ^ 64)) e.prio 17) (e.dq + 16) 8 (t + 1)) 0) ∧
       (Memory.read s.proc.win e.dq 8 ≠ t → exec (.take q d) s0 =
         wr (put (put less e.dq 8 (Memory.read s.proc.win e.dq 8)) (e.dq + 16) 8 (t + 1)) 3)) ∧
     (s.proc.rq.length + s.proc.rqRes < 16 → k.top < 2 ^ 62 → used = 0 → (∀ x ∈ s.proc.tt.toList, (x.bind (·.trig)) = none) →
       let s1 := put (put s (k.dq + 16) 8 last) (k.dq + 16) 8 k.bottom
       exec (.take q d) s = wr s1 1 ∧ (s.proc.win.wf = true → ∀ o : Nat, Memory.read s1.proc.win o 1 = Memory.read s.proc.win o 1)) ∧
     (∀ (t old : Nat) (e : Deque), old < 2 ^ 64 → old ≠ t → (∀ x ∈ s.proc.tt.toList, (x.bind (·.trig)) = none) →
       let s0 := s.setThr { s.thr with ready := 4, got := [e.dq, e.bottom, e.base, e.cap, e.prio, t, old] }
       let less := s.setProc { s.proc with rqRes := s.proc.rqRes - 1 }
       exec (.take q d) s0 = wr (put less (e.dq + 16) 8 ((t + 1) % 2 ^ 64)) 3) ∧
     (16 ≤ s.proc.rq.length + s.proc.rqRes → exec (.take q d) s = wr s 2)) ∧
  (∀ (q : BitVec 3) (d a : BitVec 5) (s : State), s.rp q = true →
     let lid := (s.rx a).toNat
     let wr (s1 : State) (v : Word) : Out := .next (s1.setThr (s1.thr.wx d v).retired)
     let less : State := s.setProc { s.proc with rqRes := s.proc.rqRes - 1 }
     (s.thr.ready = 0 → s.proc.gsize ≤ lid ∨ lid = s.proc.lid → exec (.steal q d a) s = s.takeTrap .deque 0) ∧
     (s.thr.ready = 0 → lid < s.proc.gsize → lid ≠ s.proc.lid → s.thr.storeQ = [] →
       (16 ≤ s.proc.rq.length + s.proc.rqRes → exec (.steal q d a) s = wr s 2) ∧
       (s.proc.rq.length + s.proc.rqRes < 16 → Yields (exec (.steal q d a) s) (fun t =>
         t.proc.rqRes = s.proc.rqRes + 1 ∧ t.thr.wait = some .access ∧ t.thr.pc = s.thr.pc ∧ t.thr.x = s.thr.x ∧
         (∃ p, t.thr.pend = [p] ∧ p.kind = .deque ∧ p.place = .win s.proc.gid lid 0) ∧
         ((∃ e ∈ t.agenda, e.2 = .remoteAccessAtHome s.here s.slot.val) ∨
          ((s.proc.gid, lid, s.slot.val, Instr.remoteAccessAtHome s.here s.slot.val) ∈ t.core.seeking ∧
            ∃ e ∈ t.agenda, e.2 = .locationLookupReply s.here s.proc.gid lid))))) ∧
     (s.thr.ready = 1 → (∀ x ∈ s.proc.tt.toList, (x.bind (·.trig)) = none) →
       ∀ (v w old : Nat) (k : Deque), readDeque s.proc.winsize (v % 2 ^ 64) (v / 2 ^ 64) = some k →
       faultIn (v :: w :: [old]) 0 = none → s.thr.got = [v, w, old] →
       (old = k.top → exec (.steal q d a) s = wr (less.appendTask (BitVec.ofNat 64 w) (BitVec.ofNat 64 (w / 2 ^ 64))
         (((s.ownDeque s.proc.dqbase.toNat).map (·.prio)).getD 0) 18) 0) ∧
       (old ≠ k.top → exec (.steal q d a) s = wr less 3)) ∧
     (s.thr.ready = 1 → (∀ x ∈ s.proc.tt.toList, (x.bind (·.trig)) = none) → ∀ v : Nat, faultIn [v] 0 = none → s.thr.got = [v] →
       (readDeque s.proc.winsize (v % 2 ^ 64) (v / 2 ^ 64) = none → exec (.steal q d a) s = wr less 4) ∧
       (∀ k, readDeque s.proc.winsize (v % 2 ^ 64) (v / 2 ^ 64) = some k → k.top = k.bottom → exec (.steal q d a) s = wr less 1)))

/-- O25. Loads from the own window (R24, R59, R151, R172, Table 7.5): the bytes are read little-endian at X[a] plus the signed offset, sign-
or zero-extended, and X[d] or F[d] takes them in the turn of the load. Nothing else changes but that the thread retires (and the record of
the signature that its last acquire received, which is the model's own). Stores to the own window (R24, R59, R151, R172): the low bytes of
X[d] or F[d] are written in the turn of the store, and nothing else changes but that the thread retires. -/
def Obligations.WindowData : Prop :=
  (∀ (q : BitVec 3) (d a : BitVec 5) (imm : BitVec 10) (s : State), s.rp q = true →
     let ea := s.rx a + imm.signExtend 64
     let v (n : Nat) : Nat := Memory.read s.proc.win (ea.toNat % 2 ^ 48) n
     let t : Thread := { s.thr with gotSig := {} }
     let x (w : Word) : Out := .next (s.setThr (t.wx d w).retired)
     let f (w : Word) : Out := .next (s.setThr (t.wf d w).retired)
     (OwnData s ea 1 → exec (.ldb q d a imm) s = x ((BitVec.ofNat 8 (v 1)).signExtend 64) ∧
       exec (.ldbu q d a imm) s = x (BitVec.ofNat 64 (v 1))) ∧
     (OwnData s ea 2 → exec (.ldh q d a imm) s = x ((BitVec.ofNat 16 (v 2)).signExtend 64) ∧
       exec (.ldhu q d a imm) s = x (BitVec.ofNat 64 (v 2)) ∧ exec (.fldh q d a imm) s = f (BitVec.ofNat 64 (v 2))) ∧
     (OwnData s ea 4 → exec (.ldw q d a imm) s = x ((BitVec.ofNat 32 (v 4)).signExtend 64) ∧
       exec (.ldwu q d a imm) s = x (BitVec.ofNat 64 (v 4)) ∧ exec (.fldw q d a imm) s = f (BitVec.ofNat 64 (v 4))) ∧
     (OwnData s ea 8 → exec (.ldd q d a imm) s = x (BitVec.ofNat 64 (v 8)) ∧ exec (.fldd q d a imm) s = f (BitVec.ofNat 64 (v 8)))) ∧
  (∀ (q : BitVec 3) (d a : BitVec 5) (imm : BitVec 10) (s : State), s.rp q = true → PlainWrites s →
     let ea := s.rx a + imm.signExtend 64
     let t : Thread := { s.thr with gotSig := {} }
     let st (n : Nat) (v : Word) : Out := .next ((s.ownWrite ea n v.toNat).setThr t.retired)
     (OwnData s ea 1 → exec (.stb q d a imm) s = st 1 (s.rx d)) ∧
     (OwnData s ea 2 → exec (.sth q d a imm) s = st 2 (s.rx d) ∧ exec (.fsth q d a imm) s = st 2 (s.rf d)) ∧
     (OwnData s ea 4 → exec (.stw q d a imm) s = st 4 (s.rx d) ∧ exec (.fstw q d a imm) s = st 4 (s.rf d)) ∧
     (OwnData s ea 8 → exec (.std q d a imm) s = st 8 (s.rx d) ∧ exec (.fstd q d a imm) s = st 8 (s.rf d)))

/-- O26. What a store to the own window does to memory, as any reader sees it: its bytes hold the value, low byte first, and every other byte
of the window, of every other window and of the vaults, host memory and MBIND reads as before. -/
def Obligations.StoresTouchTheirBytes : Prop :=
  ∀ (s : State) (ea : Word) (n v : Nat), OwnData s ea n → Canonical s →
    ∀ p : Place, (s.ownWrite ea n v).peek p 1 = (s.ownBytes ea n v p).getD (s.peek p 1)

/-- O27. Loads and stores whose address is not a multiple of their size trap MISALIGN; aligned ones in the window space past the end of the
own window trap WINDOW, and ones in no space of Table 1.2 trap PAGE (R24, R68, R172): with no effect on memory. -/
def Obligations.AddressTraps : Prop :=
  ∀ (q : BitVec 3) (d a : BitVec 5) (imm : BitVec 10) (s : State) (i : Instr) (n : Nat), s.rp q = true →
    (i, n) ∈ [(.ldb q d a imm, 1), (.ldh q d a imm, 2), (.ldw q d a imm, 4), (.ldd q d a imm, 8), (.ldbu q d a imm, 1),
      (.ldhu q d a imm, 2), (.ldwu q d a imm, 4), (.stb q d a imm, 1), (.sth q d a imm, 2), (.stw q d a imm, 4), (.std q d a imm, 8),
      (.fldh q d a imm, 2), (.fldw q d a imm, 4), (.fldd q d a imm, 8), (.fsth q d a imm, 2), (.fstw q d a imm, 4),
      (.fstd q d a imm, 8)] →
    let ea := s.rx a + imm.signExtend 64
    (ea.toNat % n ≠ 0 → exec i s = s.takeTrap .misalign ea) ∧
    (ea.toNat % n = 0 → ea.toNat / 2 ^ 48 = 0xFFFF → s.proc.winsize ≤ ea.toNat % 2 ^ 48 → exec i s = s.takeTrap .window ea) ∧
    (ea.toNat % n = 0 → ea.toNat / 2 ^ 48 ≠ 0 → ea.toNat / 2 ^ 48 ≠ 0xFFFE → ea.toNat / 2 ^ 48 ≠ 0xFFFF →
      exec i s = s.takeTrap .page ea)

/-- O28. Stores to a vault (R152): with room among the four places of the thread's store queue the store enters it and the thread goes on; the
store is sent at once where the queue was empty. With the queue full the thread waits and will execute the store again. A load of a place
that is not local waits for the queue and then parks for its reply; where it is in another process's window it goes to the core that the
location cache names, and on a miss waits for the read of the placement entry (R333); where it is in another module's vault and not
cached, a request for it leaves over a link (R40, R247). -/
def Obligations.NonLocalAccesses : Prop :=
  ∀ (q : BitVec 3) (d a : BitVec 5) (imm : BitVec 10) (s : State) (p : Place) (ca : Bool) (sc ty : Nat), s.rp q = true →
    let ea := s.rx a + imm.signExtend 64
    ea.toNat % 8 = 0 →
    (s.resolve .w 8 ea false 0 = .ok p ca sc 0 →
      let st : Acc := { kind := .store, place := p, va := ea, size := 8, val := (s.rx d).toNat, cached := ca, scope := sc, queued := true }
      (s.thr.storeQ.length < 4 →
        exec (.std q d a imm) s =
          let s1 := s.setThr { s.thr.retired with storeQ := s.thr.storeQ ++ [st] }
          .next (if s.thr.storeQ = [] then s1.after 0 (.storeQueueSend s.here s.slot.val) else s1)) ∧
      (4 ≤ s.thr.storeQ.length →
        exec (.std q d a imm) s = .next (s.setThr { s.thr with wait := some (.retry .storeRoom), scmem := s.thr.scmem + 1 }))) ∧
    (s.resolve .r 8 ea false 0 = .ok p ca sc ty → s.isLocal p = false →
      let ld : Acc := { kind := .load, place := p, va := ea, size := 8, cached := ca, scope := sc }
      let asked : State := s.setThr { s.thr.issued with wait := some .access, pend := [ld], got := [], cont := .xreg d 8 false }
      let step_ : Instr := .remoteAccessAtHome s.here s.slot.val
      (s.thr.storeQ = [] → (∀ g l o, p ≠ .win g l o) → farPlace p = false ∨ ca = true →
        exec (.ldd q d a imm) s = .next (asked.after (s.reqTime ld) step_)) ∧
      (∀ g l o, s.thr.storeQ = [] → p = .win g l o → s.coreOf g l ≠ some s.here →
        (∀ e, findLoc s.core.loc g l = some e → exec (.ldd q d a imm) s =
          .next (((asked.useLoc s.here e).setThr { asked.thr with sentTo := some e.core }).after (transit s.here e.core) step_)) ∧
        (findLoc s.core.loc g l = none → exec (.ldd q d a imm) s =
          let looks := asked.lookUp s.here g l
          .next { looks with core := { looks.core with seeking := looks.core.seeking ++ [(g, l, s.slot.val, step_)] } })) ∧
      (s.thr.storeQ = [] → farPlace p = true → ca = false → s.here < 3072 → Yields (exec (.ldd q d a imm) s) (fun t =>
        t.thr.wait = some .access ∧ t.thr.pend = [{ ld with asked := true }] ∧ t.thr.x = s.thr.x ∧ t.thr.pc = s.thr.pc ∧ t.mem = s.mem ∧
        ∃ k ∈ t.module.ports.toList, ∃ x ∈ k.unacked, ∃ r, x.2.2 = .request r ∧ r.place = p ∧ r.kind = .load ∧ r.size = 8 ∧
          r.tag = { modid := s.module.modid, core := s.here, who := s.slot.val })) ∧
      (s.thr.storeQ ≠ [] →
        exec (.ldd q d a imm) s = .next (s.setThr { s.thr with wait := some (.retry .storeEmpty), scmem := s.thr.scmem + 1 })))

/-- O29. VLD and VST on the own window (R173): the bytes that the mask selects are read or written, byte `i` of the register at the address
plus `i`; the other bytes of the register and of memory stay. With an empty mask there is no access. VLDS and VSTS on the own window
(R174): element `i` of the register stands at X[a] + i * X[b], for the elements that the mask selects by its low bits, from the lowest on;
a later element's store covers an earlier one's. The elements that are not selected stay. -/
def Obligations.VectorAccesses : Prop :=
  (∀ (q : BitVec 3) (d : BitVec 4) (a : BitVec 5) (k : BitVec 3) (imm : BitVec 10) (s : State), s.rp q = true →
     let ea := s.rx a + imm.signExtend 64 * 32
     let m := s.rk k
     let off := ea.toNat % 2 ^ 48
     let t : Thread := { s.thr with gotSig := {} }
     (m = 0 → exec (.vld q d a k imm) s = .next (s.setThr s.thr.retired) ∧ exec (.vst q d a k imm) s = .next (s.setThr s.thr.retired)) ∧
     (m ≠ 0 → OwnData s ea 32 →
       (∃ v : BitVec 256, exec (.vld q d a k imm) s = .next (s.setThr (t.wv d v).retired) ∧
         ∀ i, i < 32 → (v.extractLsb' (8 * i) 8).toNat =
           if m.getLsbD i then Memory.read s.proc.win (off + i) 1 else ((s.rv d).extractLsb' (8 * i) 8).toNat) ∧
       (PlainWrites s → Canonical s → Yields (exec (.vst q d a k imm) s) (fun u => u.thr = t.retired ∧
         ∀ p : Place, u.peek p 1 = match s.ownBytes ea 32 (s.rv d).toNat p, p with
           | some b, .win _ _ o => if m.getLsbD (o - off) then b else s.peek p 1
           | _, _ => s.peek p 1)))) ∧
  (∀ (q : BitVec 3) (d : BitVec 4) (a b : BitVec 5) (sz : BitVec 2) (k : BitVec 3) (s : State), s.rp q = true →
     let n := 2 ^ sz.toNat
     let ea (i : Nat) : Word := s.rx a + BitVec.ofNat 64 i * s.rx b
     let act := (List.range (32 / n)).filter (fun i => (s.rk k).getLsbD i)
     let elem (v : BitVec 256) (i : Nat) : Nat := v.toNat / 256 ^ (n * i) % 256 ^ n
     let t : Thread := if act = [] then s.thr else { s.thr with gotSig := {} }
     (∀ i ∈ act, OwnData s (ea i) n) →
     (∃ v : BitVec 256, exec (.vlds q d a b sz k) s = .next (s.setThr (t.wv d v).retired) ∧
       ∀ i, i < 32 / n → elem v i = if i ∈ act then Memory.read s.proc.win ((ea i).toNat % 2 ^ 48) n else elem (s.rv d) i) ∧
     (PlainWrites s →
       exec (.vsts q d a b sz k) s =
         .next ((act.foldl (fun (u : State) i => u.ownWrite (ea i) n (elem (s.rv d) i)) s).setThr t.retired)))

/-- O30. Full/empty accesses to the own window (R169, R170, R175, Table 7.6): LDF and LDFC of a full granule read at once, LDFC emptying it;
of an empty one they park in the granule's queue. STF writes and fills, FESETE empties, FESETF fills, FEGET reads the bit. With nobody
waiting nothing else happens. -/
def Obligations.FullEmpty : Prop :=
  ∀ (q : BitVec 3) (d a : BitVec 5) (imm : BitVec 10) (s : State), s.rp q = true → PlainWrites s → s.waiters = [] →
    let ea := s.rx a + imm.signExtend 64
    let off := ea.toNat % 2 ^ 48
    let g := off / 16
    let full := !s.proc.empty.contains g
    let t : Thread := { s.thr with gotSig := {} }
    let rest := s.proc.empty.filter (· != g)
    let bits (s1 : State) (l : List Nat) : State := s1.setProc { s1.proc with empty := l }
    let v : Word := BitVec.ofNat 64 (Memory.read s.proc.win off 8)
    let parks (take : Bool) (kd : AccKind) : Out :=
      .next { (s.setThr { s.thr.issued with wait := some .access, cont := .xreg d 8 false, pend := [{ kind := kd, place := s.ownPlace ea, va := ea, size := 8 }] }) with
        waiters := [{ granule := .win s.proc.gid s.proc.lid (off - off % 16), core := s.here, slot := s.slot.val, take := take }] }
    OwnData s ea 8 →
    (full = true → exec (.ldf q d a imm) s = .next (s.setThr (t.wx d v).retired) ∧
      exec (.ldfc q d a imm) s = .next ((bits s (g :: rest)).setThr (t.wx d v).retired)) ∧
    (full = false → exec (.ldf q d a imm) s = parks false .ldf ∧ exec (.ldfc q d a imm) s = parks true .ldfc) ∧
    exec (.stf q d a imm) s = .next ((bits (s.ownWrite ea 8 (s.rx d).toNat) rest).setThr t.retired) ∧
    exec (.fesete q a imm) s = .next ((bits s (g :: rest)).setThr t.retired) ∧
    exec (.fesetf q a imm) s = .next ((bits s rest).setThr t.retired) ∧
    exec (.feget q d a imm) s = .next (s.setThr (t.wx d (if full then 1 else 0)).retired)

/-- O31. LDA, STL, FENCE and IFLUSH with no store outstanding and no line in the cluster's cache (R108, R165-R167, R177, R178): LDA reads the
dword, clears R and takes the lines of the word's signature slot, or all lines where the word has no slot, into W, in which what stood
stays (that the word of a slot is the aligned dword is the model's reading, log entry 18); STL writes the dword, leaving its snapshot at
the word and nothing in W that the snapshot held; FENCE retires; IFLUSH empties the instruction cache. With stores outstanding FENCE and
IFLUSH park. PREF, CWB and CINV (R179, R180): PREF of a window address does nothing, and one that would fault is dropped and counted in
HINTDROP; it never parks and never traps. CWB and CINV of the own window with no store outstanding do nothing. -/
def Obligations.Synchronization : Prop :=
  (∀ (q : BitVec 3) (d a : BitVec 5) (imm : BitVec 10) (s : State), s.rp q = true →
     let ea := s.rx a + imm.signExtend 64
     (s.thr.storeQ = [] →
       exec (.fence q) s = .next (s.setThr s.thr.retired) ∧
       exec (.iflush q) s = .next (({ s with core := { s.core with icache := [] } } : State).setThr s.thr.retired)) ∧
     (s.thr.storeQ ≠ [] →
       exec (.fence q) s = .next (s.setThr (s.thr.parked .fence)) ∧ exec (.iflush q) s = .next (s.setThr (s.thr.parked .iflush))) ∧
     (OwnData s ea 8 → s.thr.ready = 0 → (s.clusterAt (clusterOf s.here)).lines = [] → s.proc.remoteStores = 0 →
       let slot := s.sigSlots.find? (fun e => e.word == (s.ownPlace ea).align 8)
       (Yields (exec (.lda q d a imm) s) (fun t => t.thr.pc = s.thr.retired.pc ∧
         (∀ r, t.rx r = (s.thr.wx d (BitVec.ofNat 64 (Memory.read s.proc.win (ea.toNat % 2 ^ 48) 8))).rx r) ∧ SameBytes s t ∧
         t.proc.sigR = {} ∧ (∀ k ∈ s.proc.sigW, k.1 ∈ t.proc.sigW.map Prod.fst) ∧ (slot = none → t.proc.sigWAll.isSome = true) ∧
         (∀ e, slot = some e → (∀ l ∈ e.sig.lines, l ∈ t.proc.sigW.map Prod.fst) ∧ (e.sig.all = true → t.proc.sigWAll.isSome = true)))) ∧
       (PlainWrites s → Canonical s → s.thr.rel = none → Yields (exec (.stl q d a imm) s) (fun t => t.thr.pc = s.thr.retired.pc ∧ t.thr.x = s.thr.x ∧
         (∀ p : Place, t.peek p 1 = (s.ownBytes ea 8 (s.rx d).toNat p).getD (s.peek p 1)) ∧
         (∀ e ∈ t.proc.sigW, ∀ k ∈ s.proc.sigW, e.1 = k.1 → s.proc.wStamp < e.2) ∧
         ∃ e ∈ t.sigSlots, e.word = (s.ownPlace ea).align 8 ∧ ∀ k ∈ s.proc.sigW, k.1 ∈ e.sig.lines ∨ e.sig.all = true)))) ∧
  (∀ (q : BitVec 3) (h : BitVec 2) (a : BitVec 5) (imm : BitVec 10) (s : State), s.rp q = true →
     let ea := s.rx a + imm.signExtend 64
     let top := ea.toNat / 2 ^ 48
     (top = 0xFFFF ∨ top = 0xFFFE → exec (.pref q h a imm) s = .next (s.setThr s.thr.retired)) ∧
     (top ≠ 0 → top ≠ 0xFFFF → top ≠ 0xFFFE →
       exec (.pref q h a imm) s = .next (s.setThr { s.thr with hintdrop := s.thr.hintdrop + 1 }.retired)) ∧
     (Yields (exec (.pref q h a imm) s) (fun t => t.thr.pc = s.thr.retired.pc ∧ t.thr.x = s.thr.x ∧ t.thr.wait = s.thr.wait)) ∧
     (OwnData s ea 1 → exec (.cwb q a imm) s = .next (s.setThr s.thr.retired) ∧ exec (.cinv q a imm) s = .next (s.setThr s.thr.retired)))

/-- O32. Atomics on the own window with the unit at home and no line in the cluster's cache (R188-R192, Table 8.2): X[d] takes the old value
of the word, a 4-byte one sign-extended, the word takes the new value, and no other byte changes; every order may be asked for. AFADD and
ACAS2 on the own window (R190-R192): AFADD adds as FADD rounds to nearest, without flushing, its flags being merged into FPCTL; X[d] takes
the old bits. ACAS2 compares 16 bytes with X[2d] and X[2d+1] and delivers the old ones there. -/
def Obligations.Atomics : Prop :=
  (∀ (q : BitVec 3) (sz : BitVec 1) (ord : BitVec 2) (d a b : BitVec 5) (s : State), s.rp q = true → s.thr.ready = 0 →
     let n := if sz = 1#1 then 8 else 4
     let ea := s.rx a
     let old := Memory.read s.proc.win (ea.toNat % 2 ^ 48) n
     let v := (s.rx b).toNat % 256 ^ n
     let half := 2 ^ (8 * n - 1)
     let sg (u : Nat) : Int := if u < half then u else (u : Int) - 2 * half
     let ext : Word := if sz = 1#1 then BitVec.ofNat 64 old else (BitVec.ofNat 32 old).signExtend 64
     let becomes (i : Instr) (new : Nat) : Prop :=
       Yields (exec i s) (fun t => t.thr.pc = s.thr.retired.pc ∧ (∀ r, t.rx r = (s.thr.wx d ext).rx r) ∧ t.thr.f = s.thr.f ∧
         t.thr.fpctl = s.thr.fpctl ∧ ∀ p : Place, t.peek p 1 = (s.ownBytes ea n new p).getD (s.peek p 1))
     OwnData s ea n → PlainWrites s → Canonical s → (s.clusterAt (clusterOf s.here)).lines = [] → s.proc.remoteStores = 0 →
     becomes (.aadd q sz ord d a b) (old + v) ∧ becomes (.aand q sz ord d a b) (old &&& v) ∧ becomes (.aor q sz ord d a b) (old ||| v) ∧
     becomes (.axor q sz ord d a b) (old ^^^ v) ∧ becomes (.amin q sz ord d a b) (if sg old ≤ sg v then old else v) ∧
     becomes (.amax q sz ord d a b) (if sg old ≤ sg v then v else old) ∧ becomes (.aminu q sz ord d a b) (min old v) ∧
     becomes (.amaxu q sz ord d a b) (max old v) ∧ becomes (.aswp q sz ord d a b) v ∧
     becomes (.acas q sz ord d a b) (if old = (s.rx d).toNat % 256 ^ n then v else old)) ∧
  (∀ (q : BitVec 3) (sz : BitVec 1) (ord : BitVec 2) (d a b : BitVec 5) (dp bp : BitVec 4) (s : State), s.rp q = true → s.thr.ready = 0 →
     let n := if sz = 1#1 then 8 else 4
     let ea := s.rx a
     let old (n : Nat) := Memory.read s.proc.win (ea.toNat % 2 ^ 48) n
     let sum := (if sz = 1#1 then fp64 else fp32).add 0 false false (old n) ((s.rx b).toNat % 256 ^ n)
     let lo (r : BitVec 4) : BitVec 5 := r ++ 0#1
     let hi (r : BitVec 4) : BitVec 5 := r ++ 1#1
     let pair (r : BitVec 4) : Nat := (s.rx (lo r)).toNat + 2 ^ 64 * (s.rx (hi r)).toNat
     PlainWrites s → Canonical s → (s.clusterAt (clusterOf s.here)).lines = [] → s.proc.remoteStores = 0 →
     (OwnData s ea n → Yields (exec (.afadd q sz ord d a b) s) (fun t =>
       (∀ r, t.rx r = (s.thr.wx d (BitVec.ofNat 64 (old n))).rx r) ∧ t.thr.fpctl = (s.thr.flag (BitVec.ofNat 5 sum.2.toNat)).fpctl ∧
       ∀ p : Place, t.peek p 1 = (s.ownBytes ea n sum.1 p).getD (s.peek p 1))) ∧
     (OwnData s ea 16 → Yields (exec (.acas2 q ord dp a bp) s) (fun t =>
       (∀ r, t.rx r = ((s.thr.wx (lo dp) (BitVec.ofNat 64 (old 16))).wx (hi dp) (BitVec.ofNat 64 (old 16 / 2 ^ 64))).rx r) ∧
       ∀ p : Place, t.peek p 1 = (s.ownBytes ea 16 (if old 16 = pair dp then pair bp else old 16) p).getD (s.peek p 1))))

/-- O33. Monitors (R195, R197-R199, Table 8.5): MONARM on the own window reads the dword and arms the monitor on its 256-byte line in one
action; MONDIS disarms one monitor or all four, clearing their triggered bits; MONST reads both kinds of bits; WAITM gives at once what
holds, and else parks, with an event for a finite limit. -/
def Obligations.Monitors : Prop :=
  ∀ (q : BitVec 3) (d a : BitVec 5) (idx : BitVec 2) (s : State), s.rp q = true →
    let ea := s.rx a
    let lim := s.rx a
    let t := s.thr
    let armed (i : Nat) : Bool := (t.mon i).armed
    let trig (i : Nat) : Bool := (t.mon i).trig
    let line : Place := (s.ownPlace ea).align 256
    (OwnData s ea 8 → armed idx.toNat = false →
      Yields (exec (.monarm q d a idx) s) (fun u => SameBytes s u ∧
        (∀ r, u.rx r = (t.wx d (BitVec.ofNat 64 (Memory.read s.proc.win (ea.toNat % 2 ^ 48) 8))).rx r) ∧
        (u.thr.mon idx.toNat).armed = true ∧ (u.thr.mon idx.toNat).trig = false ∧ (u.thr.mon idx.toNat).line = line ∧
        ∃ w ∈ u.watches, w.line = line ∧ w.slot = s.slot.val ∧ w.mon = idx.toNat ∧ w.gen = (u.thr.mon idx.toNat).gen)) ∧
    Yields (exec (.mondis q (idx.setWidth 3)) s) (fun u => u.thr.x = t.x ∧ (u.thr.mon idx.toNat).armed = false ∧
      (u.thr.mon idx.toNat).trig = false ∧ ∀ j, j < 4 → j ≠ idx.toNat → u.thr.mon j = t.mon j) ∧
    Yields (exec (.mondis q 4#3) s) (fun u => u.thr.x = t.x ∧ ∀ j, j < 4 → (u.thr.mon j).armed = false ∧ (u.thr.mon j).trig = false) ∧
    (∃ v : Word, exec (.monst q d) s = .next (s.setThr (t.wx d v).retired) ∧
      ∀ j, j < 64 → v.getLsbD j = if j < 4 then armed j else if j < 8 then trig (j - 4) else false) ∧
    (let hit (j : Nat) : Bool := armed j && trig j
     let none_ := (!armed 0 && !armed 1 && !armed 2 && !armed 3) && lim == BitVec.allOnes 64
     (hit 0 || hit 1 || hit 2 || hit 3 || lim == 0 || t.intr || none_) = true →
      Yields (exec (.waitm q d a) s) (fun u => u.thr.intr = false ∧ u.thr.wait = t.wait ∧ (∀ r, r ≠ d → u.rx r = s.rx r) ∧
        (d ≠ 0#5 → ∀ j, j < 64 → (u.rx d).getLsbD j =
          if j < 4 then hit j else if j = 4 then lim == 0 else if j = 5 then t.intr else if j = 6 then none_ else false) ∧
        ∀ j, j < 4 → hit j = true → (u.thr.mon j).trig = false)) ∧
    ((∀ j, j < 4 → (armed j && trig j) = false) → lim ≠ 0 → t.intr = false → armed 0 = true →
      exec (.waitm q d a) s =
        if lim = BitVec.allOnes 64 then .next (s.setThr (t.parked (.waitm d none)))
        else .next ((s.setThr (t.parked (.waitm d (some (s.cycle + lim.toNat))))).after lim.toNat
          (let k := s.keyOf s.here s.slot.val; .waitmTimeout k.1 k.2 s.slot.val)))

/-- O34. Scalar arithmetic (R119-R123, R111): the operands are read under DAZ, the exact result is rounded once under the thread's mode, or
the instruction's for FMA, the bits above the format are zero, and the flags are ORed into FPCTL. Nothing else changes. The bit moves of
floating point (R112, R122, Table 5.6): FABS clears the sign, FNEG inverts it, FCPYS takes it from F[b], FMVXF and FMVFX move bits, all
without flags; FCLASS sets exactly one of ten bits of X[d]. -/
def Obligations.ScalarFloat : Prop :=
  (∀ (q : BitVec 3) (fm : BitVec 2) (rnd : BitVec 3) (d a b : BitVec 5) (s : State),
     let f := fmtOf fm.toNat
     let t := s.thr
     let x := (s.rf a).toNat % 2 ^ f.width
     let y := (s.rf b).toNat % 2 ^ f.width
     let vx := f.input t.daz x
     let vy := f.input t.daz y
     let vz := f.input t.daz ((s.rf d).toNat % 2 ^ f.width)
     let wr (r : Nat × FFlags) : Out := .next (s.ran q (fun t => (t.wf d (BitVec.ofNat 64 r.1)).flag r.2))
     let once (r : FV × FFlags) : Out := wr (f.finish t.rm t.ftz r)
     let rm := if rnd = 7#3 then t.rm else rnd.toNat
     exec (.fadd q fm d a b) s = once (fvAdd t.rm vx vy) ∧ exec (.fsub q fm d a b) s = once (fvAdd t.rm vx vy.neg) ∧
     exec (.fmul q fm d a b) s = once (fvMul vx vy) ∧ exec (.fdiv q fm d a b) s = once (fvDiv vx vy) ∧
     exec (.fsqrt q fm d a) s = once (fvSqrt vx) ∧
     exec (.fmin q fm d a b) s = wr (f.minMax t.daz false false x y) ∧ exec (.fmax q fm d a b) s = wr (f.minMax t.daz true false x y) ∧
     exec (.fminn q fm d a b) s = wr (f.minMax t.daz false true x y) ∧ exec (.fmaxn q fm d a b) s = wr (f.minMax t.daz true true x y) ∧
     exec (.fma q fm rnd d a b) s = wr (f.finish rm t.ftz (fvFma rm false false vx vy vz)) ∧
     exec (.fms q fm rnd d a b) s = wr (f.finish rm t.ftz (fvFma rm false true vx vy vz)) ∧
     exec (.fnma q fm rnd d a b) s = wr (f.finish rm t.ftz (fvFma rm true false vx vy vz)) ∧
     exec (.fnms q fm rnd d a b) s = wr (f.finish rm t.ftz (fvFma rm true true vx vy vz))) ∧
  (∀ (q : BitVec 3) (fm : BitVec 2) (d a b : BitVec 5) (s : State),
     let w := match fm.toNat with | 0 => 64 | 1 => 32 | _ => 16
     let wr (g : Nat → Bool) (i : Instr) : Prop := ∃ v : Word, exec i s = .next (s.ran q (fun t => t.wf d v)) ∧ ∀ j, j < 64 → v.getLsbD j = g j
     let x (j : Nat) : Bool := (s.rf a).getLsbD j
     wr (fun j => decide (j < w - 1) && x j) (.fabs q fm d a) ∧
     wr (fun j => if j = w - 1 then !x j else decide (j < w) && x j) (.fneg q fm d a) ∧
     wr (fun j => if j = w - 1 then (s.rf b).getLsbD j else decide (j < w) && x j) (.fcpys q fm d a b) ∧
     wr (fun j => decide (j < w) && (s.rx a).getLsbD j) (.fmvxf q fm d a) ∧
     (∃ v : Word, exec (.fmvfx q fm d a) s = .next (s.ran q (fun t => t.wx d v)) ∧ ∀ j, j < 64 → v.getLsbD j = (decide (j < w) && x j)) ∧
     (∃ k : Nat, k < 10 ∧ exec (.fclass q fm d a) s = .next (s.ran q (fun t => t.wx d (BitVec.ofNat 64 (2 ^ k))))))

/-- O35. Compares, conversions and transcendentals (R121, R124-R130, Tables 5.8 and 5.11): FCMPD and FCMPS write their predicates as CMP does
and their flags under a true guard; FCVT rounds the source once, an integer destination saturating; the approximate form of a
transcendental completes at once, the correctly rounded form parks the thread for 30 cycles. -/
def Obligations.FloatConversions : Prop :=
  ∀ (q pd1 pd2 ty cnd dst src rnd : BitVec 3) (c : BitVec 1) (d a b : BitVec 5) (s : State),
    let t := s.thr
    let cmp (f : Fmt) : Out :=
      let r := f.cond t.daz cnd.toNat ((s.rf a).toNat % 2 ^ f.width) ((s.rf b).toNat % 2 ^ f.width)
      let t1 := t.combined q pd1 pd2 ty r.1
      .next (s.setThr (if s.rp q then t1.flag r.2 else t1).retired)
    let x := s.rx a
    let fs := fmtOf src.toNat
    let v : FV := match src.toNat with
      | 4 => fvInt (x.setWidth 32 : BitVec 32).toInt | 5 => fvInt (x.setWidth 32 : BitVec 32).toNat | 6 => fvInt x.toInt | 7 => fvInt x.toNat
      | _ => fs.input t.daz ((s.rf a).toNat % 2 ^ fs.width)
    let rm := if rnd = 7#3 then t.rm else rnd.toNat
    let int (lo hi : Int) : Out :=
      let r := toRange rm lo hi v
      .next (s.ran q (fun t => (t.wx d (BitVec.ofInt 64 r.1)).flag r.2))
    let ftr (fn : Nat) (i : Instr) : Prop :=
      s.rp q = true → exec i s =
        if c = 1#1 then
          let r := ftrCorrect fn t.rm t.daz t.ftz ((s.rf a).toNat % 2 ^ 32)
          .next ((s.setThr (t.parked (.ftr d r.1 r.2.toNat))).after 30 (.threadResume s.here s.slot.val))
        else
          let r := ftrApproximate fn t.daz t.ftz ((s.rf a).toNat % 2 ^ 32)
          .next (s.setThr ((t.wf d (BitVec.ofNat 64 r.1)).flag r.2).retired)
    exec (.fcmpd q pd1 pd2 ty cnd a b) s = cmp fp64 ∧ exec (.fcmps q pd1 pd2 ty cnd a b) s = cmp fp32 ∧
    (dst.toNat < 4 → exec (.fcvt q dst src rnd d a) s =
      let r := (fmtOf dst.toNat).finish rm t.ftz (v, snanFlag [v])
      .next (s.ran q (fun t => (t.wf d (BitVec.ofNat 64 r.1)).flag r.2))) ∧
    (dst = 4#3 → exec (.fcvt q dst src rnd d a) s = int (-(2 ^ 31)) (2 ^ 31 - 1)) ∧
    (dst = 5#3 → exec (.fcvt q dst src rnd d a) s = int 0 (2 ^ 32 - 1)) ∧
    (dst = 6#3 → exec (.fcvt q dst src rnd d a) s = int (-(2 ^ 63)) (2 ^ 63 - 1)) ∧
    (dst = 7#3 → exec (.fcvt q dst src rnd d a) s = int 0 (2 ^ 64 - 1)) ∧
    ftr 0 (.fexp2 q c d a) ∧ ftr 1 (.flog2 q c d a) ∧ ftr 2 (.fsinp q c d a) ∧ ftr 3 (.fcosp q c d a) ∧ ftr 4 (.frsq q c d a) ∧
    ftr 5 (.frcp q c d a) ∧ ftr 6 (.ftanh q c d a)

/-- O36. Rounding loses nothing that a format can hold (R59, R110): the exact value of every code of an IEEE format that is no NaN rounds to
that code in every mode, without a flag. -/
def Obligations.RoundingIsExact : Prop :=
  ∀ (c rm : Nat) (code : Nat),
    let f := fmtOf c
    code < 2 ^ f.width → (f.val code).isNan = false → f.round rm false (f.val code) = (code, 0)

/-- O37. Lane-wise instructions (R135-R139, R143, Tables 6.1 and 6.3): an active lane takes its result, an inactive one keeps its bits; the
lanes are those of the registers before the write. Integer lanes wrap and raise no flag; floating-point lanes compute as the scalar
instructions of their format do, and the flags of the active lanes are ORed into FPCTL. -/
def Obligations.VectorLanes : Prop :=
  ∀ (q t : BitVec 3) (d a b : BitVec 4) (k : BitVec 3) (s : State),
    let w := laneWidth t
    let th := s.thr
    let f := laneFmt t
    let la := lane (s.rv a) w
    let lb := lane (s.rv b) w
    let ld := lane (s.rv d) w
    let on (j : Nat) : Bool := (s.rk k).getLsbD j
    let sg := laneInt w
    let int (i : Instr) (g : Nat → Nat → Nat → Nat) : Prop :=
      laneFp t = false → ∃ v, exec i s = .next (s.ran q (fun t => t.wv d v)) ∧
        ∀ j, j < 256 / w → lane v w j = if on j then g (la j) (lb j) (ld j) else ld j
    let fp (i : Instr) (g : Nat → Nat → Nat → Nat × FFlags) : Prop :=
      laneFp t = true → ∃ v fl, exec i s = .next (s.ran q (fun t => (t.wv d v).flag fl)) ∧
        (∀ j, j < 256 / w → lane v w j = if on j then (g (la j) (lb j) (ld j)).1 % 2 ^ w else ld j) ∧
        ∀ e, fl.getLsbD e = (List.range (256 / w)).any (fun j => on j && (g (la j) (lb j) (ld j)).2.getLsbD e)
    let bits (i : Instr) (g : Nat → Nat → Nat) : Prop := int i (fun x y _ => g x y) ∧ fp i (fun x y _ => (g x y, 0))
    int (.vadd q t d a b k) (fun x y _ => (x + y) % 2 ^ w) ∧ int (.vsub q t d a b k) (fun x y _ => if y ≤ x then x - y else 2 ^ w + x - y) ∧
    int (.vmul q t d a b k) (fun x y _ => x * y % 2 ^ w) ∧ int (.vfma q t d a b k) (fun x y z => (x * y + z) % 2 ^ w) ∧
    int (.vdiv q t d a b k) (fun x y _ => if y = 0 then 2 ^ w - 1 else (((sg x).tdiv (sg y)) % 2 ^ w).toNat) ∧
    int (.vmin q t d a b k) (fun x y _ => if sg x < sg y then x else y) ∧ int (.vmax q t d a b k) (fun x y _ => if sg x < sg y then y else x) ∧
    int (.vminu q t d a b k) (fun x y _ => min x y) ∧ int (.vmaxu q t d a b k) (fun x y _ => max x y) ∧
    int (.vabs q t d a k) (fun x _ _ => (sg x).natAbs % 2 ^ w) ∧ int (.vneg q t d a k) (fun x _ _ => (2 ^ w - x) % 2 ^ w) ∧
    int (.vshl q t d a b k) (fun x y _ => x * 2 ^ (y % w) % 2 ^ w) ∧ int (.vshrl q t d a b k) (fun x y _ => x / 2 ^ (y % w)) ∧
    int (.vshra q t d a b k) (fun x y _ => ((sg x / 2 ^ (y % w)) % 2 ^ w).toNat) ∧
    bits (.vand q t d a b k) (fun x y => x &&& y) ∧ bits (.vor q t d a b k) (fun x y => x ||| y) ∧ bits (.vxor q t d a b k) (fun x y => x ^^^ y) ∧
    bits (.vmov q t d a k) (fun x _ => x) ∧
    fp (.vadd q t d a b k) (fun x y _ => f.add th.rm th.daz th.ftz x y) ∧ fp (.vsub q t d a b k) (fun x y _ => f.sub th.rm th.daz th.ftz x y) ∧
    fp (.vmul q t d a b k) (fun x y _ => f.mul th.rm th.daz th.ftz x y) ∧ fp (.vdiv q t d a b k) (fun x y _ => f.div th.rm th.daz th.ftz x y) ∧
    fp (.vfma q t d a b k) (fun x y z => f.fma th.rm th.daz th.ftz false false x y z) ∧
    fp (.vsqrt q t d a k) (fun x _ _ => f.sqrt th.rm th.daz th.ftz x) ∧
    fp (.vmin q t d a b k) (fun x y _ => f.minMax th.daz false false x y) ∧ fp (.vmax q t d a b k) (fun x y _ => f.minMax th.daz true false x y) ∧
    fp (.vabs q t d a k) (fun x _ _ => (f.abs x, 0)) ∧ fp (.vneg q t d a k) (fun x _ _ => (f.negate x, 0)) ∧
    (∃ v, exec (.vsel q t d a b k) s = .next (s.ran q (fun t => t.wv d v)) ∧ ∀ j, j < 256 / w → lane v w j = if on j then la j else lb j) ∧
    (∃ v, exec (.vperm q t d a b) s = .next (s.ran q (fun t => t.wv d v)) ∧
      ∀ j, j < 256 / w → lane v w j = if lb j < 256 / w then la (lb j) else 0)

/-- O38. Moves between scalars and lanes, compares and masks (R140-R143, Table 6.4): VBCAST, VINS and VEXT use an x register for integer lanes
and an f register for floating-point lanes, the lane number modulo the lane count; VCMP sets the bit of an active lane whose condition
holds and clears all others. Reductions and lane conversions (R144-R146): VREDS adds the active lanes, modulo the lane width and
sign-extended for integers, in the pairwise tree of R144 for floating point; VREDN picks the least or greatest active lane, an empty mask
giving the value that no lane undercuts; VCVT converts each lane by one rounding. -/
def Obligations.LanesMasksReductions : Prop :=
  (∀ (q t : BitVec 3) (vd va vb : BitVec 4) (d a b : BitVec 5) (k kd ka kb cnd pd pb : BitVec 3) (zx : BitVec 1) (s : State),
     let w := laneWidth t
     let n := 256 / w
     let x := (if laneFp t then s.rf a else s.rx a).toNat % 2 ^ w
     let j0 := (s.rx b).toNat % n
     let on (j : Nat) : Bool := (s.rk k).getLsbD j
     let at_ := lane (s.rv va) w j0
     let c (j : Nat) : Bool × FFlags := laneCond t cnd s.thr.daz (lane (s.rv va) w j) (lane (s.rv vb) w j)
     let mask (i : Instr) (v : BitVec 32) : Prop := exec i s = .next (s.ran q (fun t => t.wk kd v))
     (∃ v, exec (.vbcast q t vd a k) s = .next (s.ran q (fun t => t.wv vd v)) ∧
       ∀ j, j < n → lane v w j = if on j then x else lane (s.rv vd) w j) ∧
     (∃ v, exec (.vins q t vd a b) s = .next (s.ran q (fun t => t.wv vd v)) ∧
       ∀ j, j < n → lane v w j = if j = j0 then x else lane (s.rv vd) w j) ∧
     exec (.vext q t zx d va b) s = .next (s.ran q (fun u =>
       if laneFp t then u.wf d (BitVec.ofNat 64 at_)
       else u.wx d (if zx = 1#1 then BitVec.ofNat 64 at_ else BitVec.ofInt 64 (laneInt w at_)))) ∧
     (∃ (v : BitVec 32) (fl : FFlags), exec (.vcmp q kd va vb t cnd k) s = .next (s.ran q (fun u => (u.wk kd v).flag fl)) ∧
       (∀ j, v.getLsbD j = (decide (j < n) && on j && (c j).1)) ∧
       ∀ e, fl.getLsbD e = (List.range n).any (fun j => on j && (c j).2.getLsbD e)) ∧
     mask (.kand q kd ka kb) (s.rk ka &&& s.rk kb) ∧ mask (.kor q kd ka kb) (s.rk ka ||| s.rk kb) ∧
     mask (.kxor q kd ka kb) (s.rk ka ^^^ s.rk kb) ∧ mask (.knot q kd ka) (~~~ s.rk ka) ∧ mask (.kset q kd a) ((s.rx a).setWidth 32) ∧
     exec (.kget q d ka) s = .next (s.ran q (fun u => u.wx d ((s.rk ka).setWidth 64))) ∧
     exec (.kpop q d ka) s = .next (s.ran q (fun u => u.wx d (BitVec.ofNat 64 ((List.range 32).filter (fun j => (s.rk ka).getLsbD j)).length))) ∧
     exec (.ktest q pd ka pb) s = .next (s.ran q (fun u => (u.wp pd (decide (s.rk ka ≠ 0))).wp pb (decide (s.rk ka = 0))))) ∧
  (∀ (q t src : BitVec 3) (vd va : BitVec 4) (var part : BitVec 2) (d : BitVec 5) (k : BitVec 3) (s : State),
     let w := laneWidth t
     let n := 256 / w
     let th := s.thr
     let la := lane (s.rv va) w
     let act := (List.range n).filter (fun j => (s.rk k).getLsbD j)
     let xr (i : Instr) (v : Word) : Prop := exec i s = .next (s.ran q (fun u => u.wx d v))
     let best (g : Nat → Int) (v : Nat) (hi : Bool) : Prop :=
       if act = [] then v = emptyMin t var.toNat
       else v ∈ act.map la ∧ ∀ j ∈ act, if hi then g (la j) ≤ g v else g v ≤ g (la j)
     (laneFp t = false →
       xr (.vreds q t d va k) (BitVec.ofInt 64 (laneInt w ((act.map la).sum % 2 ^ w))) ∧
       ∃ v : Nat, xr (.vredn q t var d va k) (if var.toNat < 2 then BitVec.ofInt 64 (laneInt w v) else BitVec.ofNat 64 v) ∧
         match var.toNat with
         | 0 => best (laneInt w) v false | 1 => best (laneInt w) v true | 2 => best (fun x => x) v false | _ => best (fun x => x) v true) ∧
     (laneFp t = true →
       let f := laneFmt t
       let ls := activeLanes (s.rv va) t (s.rk k)
       let fr (i : Instr) (r : Option Nat × FFlags) (e : Nat) : Prop :=
         exec i s = .next (s.ran q (fun u => (u.wf d (BitVec.ofNat 64 (match r.1 with | some x => fpRoot f x | none => e))).flag (r.2 ||| laneSnan f ls)))
       fr (.vreds q t d va k) (tree (f.add th.rm th.daz th.ftz) (f.dazCode th.daz) 4 ls) 0 ∧
       fr (.vredn q t var d va k) (tree (f.minMax th.daz (var == 1) false) (f.dazCode th.daz) 4 ls) (emptyMin t var.toNat)) ∧
     (∃ v fl, exec (.vcvt q t part src vd va) s = .next (s.ran q (fun u => (u.wv vd v).flag fl)) ∧
       let ws := laneWidth src
       let p := part.toNat
       let m := 256 / ws
       ∀ j, j < n → lane v w j =
         if ws ≤ w then (cvtLane th t src (lane (s.rv va) ws (p * n + j))).1 % 2 ^ w
         else if p * m ≤ j ∧ j < p * m + m then (cvtLane th t src (lane (s.rv va) ws (j - p * m))).1 % 2 ^ w
         else lane (s.rv vd) w j))

/-- O39. The exact accumulator and the quantizers (R118, R131-R133, R145, R147-R149): an XACC is an integer of 512 bits in units of 2^-149 in
a pair of v registers. XCLR clears it, XADDX and XNEG add and negate modulo 2^512, the poison pattern staying poison; XADDV, XADDS and
VREDX add every element exactly; XRND rounds once. An illegal descriptor, or one of the wrong kind, traps FORMAT. -/
def Obligations.ExactAccumulator : Prop :=
  ∀ (q d3 a3 b3 t k : BitVec 3) (va vd : BitVec 4) (d a b : BitVec 5) (g : BitVec 2) (s : State) (f : FDesc),
    let th := s.thr
    let acc (r : Nat × FFlags) : Out := .next (s.ran q (fun u => (u.setXacc d3 r.1).flag r.2))
    let put (v : Nat) : Out := .next (s.ran q (fun u => u.setXacc d3 v))
    let x := th.xacc d3
    let y := th.xacc a3
    let fmt (i : Instr) : Prop := s.rp q = true → exec i s = s.takeTrap .format 0
    exec (.xclr q d3) s = put 0 ∧
    (x ≠ poison → y ≠ poison → exec (.xaddx q d3 a3) s = put ((x + y) % 2 ^ 512)) ∧
    (x = poison ∨ y = poison → exec (.xaddx q d3 a3) s = put poison) ∧
    (y = 0 → exec (.xneg q d3 a3) s = put 0) ∧ (0 < y → exec (.xneg q d3 a3) s = put (2 ^ 512 - y)) ∧
    exec (.vredx q t d3 va k) s = acc (((activeLanes (s.rv va) t (s.rk k)).filterMap id).foldl (fun (r : Nat × FFlags) e =>
      xAdd r (if laneFp t then (laneFmt t).val e else fvInt (laneInt (laneWidth t) e))) (x, 0)) ∧
    (fmDesc (s.fmReg b3) = some f →
      (1 ≤ f.kind → f.bs = false →
        exec (.xaddv q d3 va b3) s = acc ((List.range (256 / f.container)).foldl (fun r i => xAdd r (f.fmt.val (f.elem (s.rv va).toNat i))) (x, 0)) ∧
        exec (.xadds q d3 a b3) s = acc (xAdd (x, 0) (f.fmt.val ((s.rf a).toNat % 2 ^ f.fmt.width)))) ∧
      (f.kind < 4 → exec (.xrnd q d a3 b3) s =
        let r := if y = poison then (f.fmt.qnan, 0) else f.fmt.finish th.rm th.ftz (xaccVal y, 0)
        .next (s.ran q (fun u => (u.wf d (BitVec.ofNat 64 r.1)).flag r.2))) ∧
      (f.kind = 4 →
        (exec (.vqnt q vd g b3 b) s =
          let r := quantize f th.rm ((th.groupElems g).map fp32.val)
          .next (s.ran q (fun u => ((u.wv vd (BitVec.ofNat 256 (packCodes f.container r.1))).flag r.2.2).wx b (BitVec.ofNat 64 r.2.1)))) ∧
        Yields (exec (.vdqnt q g b3 va b) s) (fun u => s.rp q = true → u.thr.pc = th.retired.pc ∧ u.thr.x = th.x ∧
          ∀ i, i < 32 → lane (u.rv (groupReg g i)) 32 (i % 8) = (dequantize f th.rm (s.rv va).toNat ((s.rx b).toNat % 256) i).1 % 2 ^ 32)) ∧
      (f.kind = 0 ∨ f.bs = true → fmt (.xaddv q d3 va b3) ∧ fmt (.xadds q d3 a b3)) ∧
      (f.kind = 4 → fmt (.xrnd q d a3 b3)) ∧ (f.kind ≠ 4 → fmt (.vqnt q vd g b3 b) ∧ fmt (.vdqnt q g b3 va b))) ∧
    (fmDesc (s.fmReg b3) = none →
      fmt (.xaddv q d3 va b3) ∧ fmt (.xadds q d3 a b3) ∧ fmt (.xrnd q d a3 b3) ∧ fmt (.vqnt q vd g b3 b) ∧ fmt (.vdqnt q g b3 va b))

/-- O40. CHOPEN, CHCLOSE, CHINFO and CHTRAF (R217-R220, R336, Tables 9.1 and 9.2): CHOPEN gives -5, -2, -1 or -3 for what it can refuse by
itself, and else waits for its stores and then parks with its request on the way, or waiting for the placement entry; CHCLOSE marks the
handle as closing, sends CLOSE where nothing is in progress, and parks; CHINFO describes a handle and CHTRAF gives the bytes sent over it.
A handle that is not open traps CHANNEL in CHCLOSE, and a number above 31 everywhere. That CHOPEN finds its destination through the
location cache (log entry 49), and that its wait for its stores counts in SCMEM (log entry 51), are the model's readings. -/
def Obligations.ChannelCalls : Prop :=
  ∀ (q : BitVec 3) (d a : BitVec 5) (s : State), s.rp q = true →
    let v := (s.rx a).toNat
    let wr (w : Word) : Out := .next (s.setThr (s.thr.wx d w).retired)
    let trap (i : Instr) : Prop := exec i s = s.takeTrap .channel 0
    let lid := v / 8 % 2 ^ 16
    let latch := v / 2 ^ 19 % 2 = 1
    let open_ : Prop := ∃ h o, s.proc.handle h = some o ∧ o.lid = lid ∧ o.ch = v % 8
    let room : Prop := ∃ h, h < 32 ∧ s.proc.handle h = none
    (2 ^ 20 ≤ v ∨ (latch ∧ lid = 0xFFFE) → exec (.chopen q d a) s = wr (-5)) ∧
    (v < 2 ^ 20 → ¬ (latch ∧ lid = 0xFFFE) →
      (lid ≠ 0xFFFE → s.proc.gsize ≤ lid → exec (.chopen q d a) s = wr (-2)) ∧
      (lid = 0xFFFE ∨ lid < s.proc.gsize →
        (¬ room → exec (.chopen q d a) s = wr (-1)) ∧
        (room → open_ → exec (.chopen q d a) s = wr (-3)) ∧
        (room → ¬ open_ → s.thr.storeQ ≠ [] → exec (.chopen q d a) s =
          .next (s.setThr { s.thr with wait := some (.retry .storeEmpty), scmem := s.thr.scmem + 1 })) ∧
        (room → ¬ open_ → s.thr.storeQ = [] → s.core.occupied = true → Yields (exec (.chopen q d a) s) (fun t =>
          t.here = s.here ∧ t.slot = s.slot ∧ t.mem = s.mem ∧ t.proc = s.proc ∧ t.thr.wait = some (.chopen d) ∧ t.thr.got = [v] ∧
          t.thr.x = s.thr.x ∧ t.thr.pc = s.thr.pc ∧ t.thr.sciss = s.thr.sciss + 1 ∧
          ((∃ e ∈ t.agenda, s.cycle ≤ e.1 ∧ e.2 = .chopenRequest s.here s.slot.val) ∨
           ((s.proc.gid, lid, s.slot.val, Instr.chopenRequest s.here s.slot.val) ∈ t.core.seeking ∧
             ∃ e ∈ t.agenda, e.2 = .locationLookupReply s.here s.proc.gid lid)))))) ∧
    (s.proc.handle v = none → trap (.chclose q a)) ∧
    (∀ o, s.proc.handle v = some o →
      (o.closing = true → trap (.chclose q a)) ∧
      (o.closing = false → s.core.occupied = true →
        let parks (o1 : OutCh) : Prop := Yields (exec (.chclose q a) s) (fun t =>
          t.here = s.here ∧ t.slot = s.slot ∧ t.thr = s.thr.parked (.chclose v) ∧ t.mem = s.mem ∧ t.proc.win = s.proc.win ∧
          t.proc.handle v = some o1 ∧ ∀ h, h ≠ v → t.proc.handle h = s.proc.handle h)
        ((32 ≤ o.unack ∨ ∃ c p, o.cur = some c ∧ c.inj = some p) → parks { o with closing := true }) ∧
        (o.unack < 32 → o.cur = none → o.closeSent = false → (∀ i : Fin 12, s.core.slots[i].sendsOn v = false) →
          s.proc.hold = none →
          parks { o with closing := true, closeSent := true, seq := (o.seq + 1) % 4096, unack := o.unack + 1 })) ∧
      exec (.chtraf q d a) s = wr (BitVec.ofNat 64 o.total) ∧
      (o.ch < 8 → o.lid < 2 ^ 16 → o.unack < 64 → o.seq < 4096 → ∃ w : Word, exec (.chinfo q d a) s = wr w ∧
        w.toNat % 8 = o.ch ∧ w.toNat / 2 ^ 3 % 2 ^ 16 = o.lid ∧ w.toNat / 2 ^ 32 % 64 = o.unack ∧ w.toNat / 2 ^ 38 % 4096 = o.seq ∧
        w.getLsbD 60 = o.closing ∧ w.getLsbD 61 = o.cur.isSome ∧ w.getLsbD 62 = o.latch ∧ w.getLsbD 63 = true)) ∧
    (v < 32 → s.proc.handle v = none → exec (.chinfo q d a) s = wr 0 ∧ exec (.chtraf q d a) s = wr (-1)) ∧
    (32 ≤ v → trap (.chinfo q d a) ∧ trap (.chtraf q d a))

/-- O41. The SEND instructions (R211, R221-R225, Table 9.3), from registers or the own window: with a bad control word, handle or length they
trap CHANNEL; they wait for the thread's stores and for the send in progress on the handle; with room in the window the first packet
leaves with its number, tag, length and payload, its injection running. SENDV and SENDW forms retire, SEND and SENDR park until the last
packet is injected. The R forms carry the process's snapshot. That the wait for the thread's stores counts in SCMEM is the model's reading
(log entry 51). -/
def Obligations.Sends : Prop :=
  ∀ (q : BitVec 3) (d a b : BitVec 5) (vb : BitVec 4) (s : State), s.rp q = true → s.core.occupied = true → s.proc.ended = false →
    s.proc.winsize ≤ 2 ^ 18 → s.thr.got = [] → s.thr.rel = none →
    let ctl := (s.rx d).toNat
    let h := ctl % 32
    let ea := (s.rx a).toNat
    let off := ea % 2 ^ 48
    let len := (s.rx b).toNat
    let forms (p : Instr → Nat → List Byte → Bool → Bool → Prop) : Prop :=
      (ea / 2 ^ 48 = 0xFFFF → off + len ≤ s.proc.winsize →
        let l := leBytes (min 256 len) (Memory.read s.proc.win off (min 256 len))
        p (.send q d a b) len l false true ∧ p (.sendr q d a b) len l true true) ∧
      p (.sendv q d vb) 32 (leBytes 32 (s.rv vb).toNat) false false ∧ p (.sendvr q d vb) 32 (leBytes 32 (s.rv vb).toNat) true false ∧
      p (.sendw q d b) 8 (leBytes 8 (s.rx b).toNat) false false ∧ p (.sendwr q d b) 8 (leBytes 8 (s.rx b).toNat) true false
    (ctl / 32 % 2 ^ 11 ≠ 0 ∨ 2 ^ 32 ≤ ctl ∨ s.proc.handle h = none ∨ (∃ o, s.proc.handle h = some o ∧ o.closing = true) →
      forms (fun i _ _ _ _ => exec i s = s.takeTrap .channel 0)) ∧
    (∀ o, s.proc.handle h = some o →
      forms (fun i n _ _ _ => o.latch = true → n ≠ 512 → exec i s = s.takeTrap .channel 0) ∧
      (ctl / 32 % 2 ^ 11 = 0 → ctl < 2 ^ 32 → o.closing = false →
        (s.thr.storeQ ≠ [] → forms (fun i n _ _ _ => (o.latch = true → n = 512) → exec i s =
          .next (s.setThr { s.thr with wait := some (.retry .storeEmpty), got := [sendMark h], scmem := s.thr.scmem + 1 }))) ∧
        (s.thr.storeQ = [] → o.cur ≠ none → forms (fun i n _ _ _ => (o.latch = true → n = 512) → exec i s =
          .next (s.setThr { s.thr with wait := some (.retry (.sendBusy h)), got := [sendMark h], scvac := s.thr.scvac + 1 }))) ∧
        (s.thr.storeQ = [] → o.cur = none → o.unack < 32 → s.proc.remoteStores = 0 → s.units = [] → s.bad = [] → (∀ x ∈ s.far, x.step ≠ s.event) →
          (s.clusterAt (clusterOf s.here)).lines = [] →
          forms (fun i n bytes release parks => (o.latch = true → n = 512) → Yields (exec i s) (fun t =>
            t.here = s.here ∧ t.slot = s.slot ∧ t.mem = s.mem ∧ t.proc.win = s.proc.win ∧
            t.thr = (if parks then s.thr.parked (.send h) else s.thr.retired) ∧
            ∃ (c : SendCur) (p : Packet), t.proc.handle h = some { o with seq := (o.seq + 1) % 4096, unack := o.unack + 1, cur := some c } ∧
              c.inj = some p ∧ c.slot = s.slot.val ∧ c.len = n ∧ c.off = 0 ∧
              p = { gid := s.proc.gid, src := s.proc.lid, dst := o.lid, ch := o.ch, seq := o.seq, first := true, last := decide (n ≤ 256),
                    release := release, ackreq := decide (o.unack + 1 = 16), close := false, abort := false, tag := ctl / 2 ^ 16 % 2 ^ 16,
                    len := n, payload := bytes, sig := if release then s.proc.snapshot.1 else {} })))))

/-- O42. PRECV, PCANCEL, PROBE and UQTAKE (R226, R227, R232, R235-R237, Tables 9.4 and 9.5): PRECV of a legal record in the own window takes
the lowest free slot when the unexpected queue is empty, gives -1 with none free, and searches for as many cycles as there are entries to
examine; PCANCEL frees a posted slot, gives 1 for one that is landing and 2 for a free one; PROBE gives the first queued message that
matches, and UQTAKE takes one. -/
def Obligations.Receives : Prop :=
  ∀ (q : BitVec 3) (d a : BitVec 5) (s : State), s.rp q = true →
    let v := (s.rx a).toNat
    let wr (s1 : State) (w : Word) : Out := .next (s1.setThr (s.thr.wx d w).retired)
    let slot (i : Nat) : Option Posted := (s.proc.posted.toList[i]?).getD none
    let f (k n : Nat) : Nat := Memory.read s.proc.win (v % 2 ^ 48 + k) n
    let w2 := f 16 8
    let w3 := f 24 8
    let dest := f 8 8
    let mode := w3 % 8
    let own := dest / 2 ^ 48 = 0xFFFF
    let fits := dest % 2 ^ 48 + w2 % 2 ^ 17 ≤ s.proc.winsize
    let end_ := (w2 % 2 ^ 17 - 1) / (w2 / 2 ^ 20 % 2 ^ 16) * (w2 / 2 ^ 36) + (w2 % 2 ^ 17 - 1) % (w2 / 2 ^ 20 % 2 ^ 16)
    let fits1 := w2 % 2 ^ 17 = 0 ∨ dest % 2 ^ 48 + end_ < s.proc.winsize
    let r : RecvRec :=
      { src := f 0 2, srcMask := f 2 2, tag := f 4 2, tagMask := f 6 2, dest := BitVec.ofNat 64 dest, maxlen := w2 % 2 ^ 17,
        rowlen := w2 / 2 ^ 20 % 2 ^ 16, stride := w2 / 2 ^ 36, mode := mode, ch := w3 / 8 % 8, chany := decide (w3 / 64 % 2 = 1),
        inc := decide (w3 / 128 % 2 = 1), ctr := w3 / 256 % 64, noctr := decide (w3 / 2 ^ 14 % 2 = 1), stat := w3 / 2 ^ 16 % 2 ^ 16,
        cookie := w3 / 2 ^ 32 }
    let hits (src sm tag tm : Nat) (e : UqEnt) : Prop :=
      e.pad = false ∧ e.taken = false ∧ (e.src ^^^ src) &&& (0xFFFF - sm) = 0 ∧ (e.tag ^^^ tag) &&& (0xFFFF - tm) = 0
    let probes (e : UqEnt) : Prop := hits (v % 2 ^ 16) (v / 2 ^ 16 % 2 ^ 16) (v / 2 ^ 32 % 2 ^ 16) (v / 2 ^ 48) e
    (OwnData s (s.rx a) 32 → s.thr.ready = 0 → s.thr.got = [] → s.thr.trap = none →
      let t : Thread := { s.thr with gotSig := {} }
      (4 ≤ mode ∨ 65536 < w2 % 2 ^ 17 ∨ w2 / 2 ^ 17 % 8 ≠ 0 ∨ w3 / 2 ^ 15 % 2 ≠ 0 ∨ dest / 2 ^ 48 = 0xFFFE ∨ s.proc.winsize ≤ 16 * r.stat ∨
        (mode = 0 ∧ own ∧ ¬ fits) ∨ (mode = 1 ∧ (r.rowlen = 0 ∨ (own ∧ ¬ fits1))) ∨ (mode = 2 ∧ (¬ own ∨ dest % 64 ≠ 0 ∨ ¬ fits)) →
        exec (.precv q d a) s = andThen ((s.setThr t).takeTrap .channel 0)
          (fun u => .next (if u.thr.trap.isSome && u.core.occupied then u.retryLater else u))) ∧
      (w2 % 2 ^ 17 ≤ 65536 → w2 / 2 ^ 17 % 8 = 0 → w3 / 2 ^ 15 % 2 = 0 → dest / 2 ^ 48 ≠ 0xFFFE → 16 * r.stat < s.proc.winsize →
        (mode = 0 ∧ (¬ own ∨ fits)) ∨ (mode = 1 ∧ r.rowlen ≠ 0 ∧ (¬ own ∨ fits1)) ∨ (mode = 2 ∧ own ∧ dest % 64 = 0 ∧ fits) ∨ mode = 3 →
        (s.proc.uq = [] → s.proc.blocked = false → s.proc.held = [] → s.proc.spilled = [] →
          (∀ i, i < 64 → slot i = none → (∀ j, j < i → slot j ≠ none) → exec (.precv q d a) s =
            .next ((s.setProc { s.proc with posted := s.proc.posted.setIfInBounds i (some { rcd := r, order := s.proc.nextOrder }),
                                            nextOrder := s.proc.nextOrder + 1 }).setThr (t.wx d (BitVec.ofNat 64 i)).retired)) ∧
          ((∀ j, j < 64 → slot j ≠ none) → exec (.precv q d a) s = .next (s.setThr (t.wx d (BitVec.allOnes 64)).retired))) ∧
        (s.proc.uq ≠ [] → (∀ e ∈ s.proc.uq, e.pad = false ∧ e.taken = true) →
          let n := s.proc.uq.length
          exec (.precv q d a) s = .next ((s.setThr { (t.parked (.precv d (s.rx a) (s.cycle + n))) with
            got := [Memory.read s.proc.win (v % 2 ^ 48) 32] }).after n (.threadResume s.here s.slot.val))))) ∧
    (63 < v → exec (.pcancel q d a) s = s.takeTrap .channel 0) ∧
    (v ≤ 63 → (slot v = none → exec (.pcancel q d a) s = wr s 2) ∧
      (∀ x, slot v = some x → x.landing = true → exec (.pcancel q d a) s = wr s 1) ∧
      (∀ x, slot v = some x → x.landing = false → exec (.pcancel q d a) s =
        wr (s.setProc { s.proc with posted := s.proc.posted.setIfInBounds v none }) 0)) ∧
    ((∀ e ∈ s.proc.uq, ¬ probes e) → exec (.probe q d a) s = wr s (-1)) ∧
    (∀ pre e post, s.proc.uq = pre ++ e :: post → (∀ x ∈ pre, ¬ probes x) → probes e → exec (.probe q d a) s = wr s (BitVec.ofNat 64 e.off)) ∧
    ((∀ e ∈ s.proc.uq, e.pad = true ∨ e.taken = true ∨ e.off ≠ v) → exec (.uqtake q d a) s = wr s (-1)) ∧
    ((∃ e ∈ s.proc.uq, e.pad = false ∧ e.taken = false ∧ e.off = v) → PlainWrites s → s.waiters = [] → s.core.occupied = true →
      Yields (exec (.uqtake q d a) s) (fun t => t.thr = (s.thr.wx d 0).retired ∧
        ∀ x ∈ t.proc.uq, x.pad = false → x.off = v → x.taken = true))

/-- O43. The matrix operations at their issue (R299-R303, R313-R316, R322-R324): checked, with an entry of the op queue free, the op enters
the queue with what it captures and its thread parks; with both entries taken, or while the process's state moves, the thread waits. MMA
and MMAZ need two formats of one container, a tile of 512 aligned bytes in the own window and the front entry of the B latch, which they
bind; MSTA needs a format that is no narrow one. A bad format traps FORMAT and a bad alignment MISALIGN. The MTX instructions (R312,
R316-R321, R325, R326, Table 13.8): MLDB of 512 aligned bytes of the own window reserves a latch slot, reads them and parks until the
entry is appended; MPASS sends the front entry's 512 bytes over a channel opened for a latch; while the process's state moves both wait;
MPOP removes the front entry and gives 0, or 1 where there is none; MBURST sets the burst counter, saturated at 65,535; MSTAT describes
the engine. -/
def Obligations.MatrixIssue : Prop :=
  (∀ (q fA fB sp fm : BitVec 3) (acc : BitVec 2) (a b : BitVec 5) (s : State), s.rp q = true → s.core.occupied = true →
     s.proc.winsize ≤ 2 ^ 18 →
     let m := s.proc.mq
     let va := s.rx a
     let off := va.toNat % 2 ^ 48
     let own (n : Nat) : Prop := va.toNat / 2 ^ 48 = 0xFFFF ∧ va.toNat % 32 = 0 ∧ off + n ≤ s.proc.winsize
     let granted := s.slot.val ∈ m.granted
     let free := s.slot.val ∉ m.granted ∧ s.slot.val ∉ m.latchGrant
     let room := granted ∨ (m.waiting = [] ∧ m.queue.length + m.granted.length < 2)
     let th := s.thr
     let moving := s.inTransfer s.here
     let enters (i : Instr) (mk : Nat → MOp) (lat : List LatchEnt) : Prop :=
       (moving = true → free → exec i s = .next (s.setThr { th with wait := some (.retry .hold), scvac := th.scvac + 1 })) ∧
       (moving = false → room → Yields (exec i s) (fun t => t.mem = s.mem ∧ t.proc.win = s.proc.win ∧ t.proc.acc = s.proc.acc ∧
         t.thr = th.parked .op ∧
         t.proc.mq.queue = m.queue ++ [mk m.nextId] ∧ t.proc.mq.running = m.running ∧ t.proc.latch = lat ∧
         (m.queue = [] → ∃ e ∈ t.agenda, e.2 = .matrixOpStart s.proc.gid s.proc.lid ∧ s.cycle < e.1 ∧ m.busyUntil ≤ e.1))) ∧
       (moving = false → ¬ room → Yields (exec i s) (fun t => t.thr = { th with wait := some (.retry .opQueue), scmem := th.scmem + 1 } ∧
         t.proc.mq.queue = m.queue ∧ s.slot.val ∈ t.proc.mq.waiting))
     enters (.mclr q acc) (fun id => { id := id, slot := s.slot.val, kind := .mclr, acc := acc.toNat, addr := 0, ctl := 0 }) s.proc.latch ∧
     (own 1024 → enters (.mlda q acc a)
       (fun id => { id := id, slot := s.slot.val, kind := .mlda, acc := acc.toNat, addr := va, ctl := 0 }) s.proc.latch) ∧
     (free → va.toNat % 32 ≠ 0 → exec (.mlda q acc a) s = s.takeTrap .misalign va) ∧
     (free → fmDesc (s.fmReg fA) = none ∨ fmDesc (s.fmReg fB) = none → exec (.mma q acc a b fA fB sp) s = s.takeTrap .format 0 ∧
       exec (.mmaz q acc a b fA fB sp) s = s.takeTrap .format 0) ∧
     (∀ f g, fmDesc (s.fmReg fA) = some f → fmDesc (s.fmReg fB) = some g →
       (free → f.container ≠ g.container ∨ (f.kind = 0 ∧ acc.toNat % 2 = 1) →
         exec (.mma q acc a b fA fB sp) s = s.takeTrap .format 0 ∧ exec (.mmaz q acc a b fA fB sp) s = s.takeTrap .format 0) ∧
       (f.container = g.container → ¬ (f.kind = 0 ∧ acc.toNat % 2 = 1) →
         (free → va.toNat % 32 ≠ 0 → exec (.mma q acc a b fA fB sp) s = s.takeTrap .misalign va) ∧
         (own 512 →
           (∀ pre e post, s.proc.latch = pre ++ e :: post → (∀ x ∈ pre, x.popped = true) → e.popped = false → e.ready = true →
             let lat := s.proc.latch.map (fun x => if x.id = e.id then { x with bound := x.bound + 1 } else x)
             let op (z : Bool) (id : Nat) : MOp :=
               { id := id, slot := s.slot.val, kind := .mma z, acc := acc.toNat, addr := va, ctl := s.rx b, fa := s.fmReg fA, fb := s.fmReg fB,
                 rm := th.rm, ftz := th.ftz, va := th.rv (sp ++ 0#1), vb := th.rv (sp ++ 1#1), latch := e.id }
             enters (.mma q acc a b fA fB sp) (op false) lat ∧ enters (.mmaz q acc a b fA fB sp) (op true) lat) ∧
           (free → (∀ x ∈ s.proc.latch, x.popped = true) →
             exec (.mma q acc a b fA fB sp) s = .next (s.setThr { th with wait := some (.retry .latchEmpty), scvac := th.scvac + 1 }))))) ∧
     (free → fmDesc (s.fmReg fm) = none → exec (.msta q fm acc a b) s = s.takeTrap .format 0) ∧
     (∀ f, fmDesc (s.fmReg fm) = some f →
       (free → f.kind = 4 ∨ (f.kind = 0 ∧ acc.toNat % 2 = 1) → exec (.msta q fm acc a b) s = s.takeTrap .format 0) ∧
       (f.kind < 4 → ¬ (f.kind = 0 ∧ acc.toNat % 2 = 1) →
         let e := f.container / 8
         let stride := (s.rx b).toNat / 2 ^ 32 % 2 ^ 16
         (free → va.toNat % e ≠ 0 ∨ stride % e ≠ 0 → exec (.msta q fm acc a b) s = s.takeTrap .misalign va) ∧
         (va.toNat / 2 ^ 48 = 0xFFFF → va.toNat % e = 0 → stride % e = 0 →
           (∀ i j, i < 16 → j < 16 → (s.rx b).getLsbD i = true → (s.rx b).getLsbD (16 + j) = true →
             off + i * stride + j * e + e ≤ s.proc.winsize) →
           enters (.msta q fm acc a b) (fun id =>
             { id := id, slot := s.slot.val, kind := .msta, acc := acc.toNat, addr := va, ctl := s.rx b, fa := s.fmReg fm,
               rm := th.rm, ftz := th.ftz, daz := th.daz }) s.proc.latch)))) ∧
  (∀ (q : BitVec 3) (d a : BitVec 5) (s : State), s.rp q = true → s.core.occupied = true → s.proc.ended = false → s.proc.winsize ≤ 2 ^ 18 →
     s.thr.got = [] → s.thr.storeQ = [] → s.units = [] → s.bad = [] → (∀ x ∈ s.far, x.step ≠ s.event) →
     let p := s.proc
     let m := p.mq
     let v := (s.rx a).toNat
     let off := v % 2 ^ 48
     let wr (w : Word) : Out := .next (s.setThr (s.thr.wx d w).retired)
     let front (e : LatchEnt) : Prop := ∃ pre post, p.latch = pre ++ e :: post ∧ (∀ x ∈ pre, x.popped = true) ∧ e.popped = false ∧ e.ready = true
     let none_ : Prop := ∀ x ∈ p.latch, x.popped = true
     let moving := s.inTransfer s.here
     let held (i : Instr) : Prop := exec i s = .next (s.setThr { s.thr with wait := some (.retry .hold), scvac := s.thr.scvac + 1 })
     let free := s.slot.val ∉ m.granted ∧ s.slot.val ∉ m.latchGrant
     (free → v % 32 ≠ 0 → exec (.mldb q a) s = s.takeTrap .misalign (s.rx a)) ∧
     (v % 32 = 0 → v / 2 ^ 48 = 0xFFFF → off + 512 ≤ p.winsize →
       (moving = true → free → held (.mldb q a)) ∧
       (moving = false → s.slot.val ∈ m.latchGrant ∨ (m.latchWait = [] ∧ p.latch.length + m.latchGrant.length < 2) →
         (∀ x ∈ p.latch, x.id ≤ p.nextLatch) →
         Yields (exec (.mldb q a) s) (fun t => t.mem = s.mem ∧ t.proc.win = p.win ∧ t.thr.wait = some (.mldb false) ∧ t.thr.pc = s.thr.pc ∧
           t.thr.x = s.thr.x ∧ t.proc.latch = p.latch ++ [{ id := p.nextLatch + 1, bytes := leBytes 512 (Memory.read p.win off 512) }] ∧
           (s.cycle + 16, .latchEntryAppend p.gid p.lid (p.nextLatch + 1)) ∈ t.agenda)) ∧
       (moving = false → s.slot.val ∉ m.latchGrant → m.latchWait ≠ [] ∨ 2 ≤ p.latch.length + m.latchGrant.length →
         Yields (exec (.mldb q a) s) (fun t => t.thr = { s.thr with wait := some (.retry .latchFull), scvac := s.thr.scvac + 1 } ∧
           t.proc.latch = p.latch ∧ s.slot.val ∈ t.proc.mq.latchWait))) ∧
     (v / 32 % 2 ^ 11 ≠ 0 ∨ 2 ^ 32 ≤ v ∨ p.handle (v % 32) = none ∨ (∃ o, p.handle (v % 32) = some o ∧ (o.closing = true ∨ o.latch = false)) →
       exec (.mpass q a) s = s.takeTrap .channel 0) ∧
     (v / 32 % 2 ^ 11 = 0 → v < 2 ^ 32 → ∀ o, p.handle (v % 32) = some o → o.closing = false → o.latch = true →
       (moving = true → held (.mpass q a)) ∧
       (moving = false → none_ → exec (.mpass q a) s = .next (s.setThr { s.thr with wait := some (.retry .latchEmpty), scvac := s.thr.scvac + 1 })) ∧
       (∀ e, moving = false → front e → (∀ x ∈ p.latch, ∀ y ∈ p.latch, x.id = y.id → x = y) → o.cur = none → o.unack < 32 →
         Yields (exec (.mpass q a) s) (fun t => t.thr = s.thr.parked (.send (v % 32)) ∧ t.mem = s.mem ∧ t.proc.win = p.win ∧
           (∃ x ∈ t.proc.latch, x.id = e.id ∧ x.popped = true) ∧
           ∃ (c : SendCur) (k : Packet), t.proc.handle (v % 32) = some { o with seq := (o.seq + 1) % 4096, unack := o.unack + 1, cur := some c } ∧
             c.inj = some k ∧ c.latch = some e.id ∧ c.len = 512 ∧ k.payload = e.bytes.take 256 ∧ k.dst = o.lid ∧ k.ch = o.ch ∧ k.seq = o.seq ∧
             k.first = true ∧ k.last = false))) ∧
     (none_ → exec (.mpop q d) s = wr 1) ∧
     (∀ e, front e → Yields (exec (.mpop q d) s) (fun t => t.thr = (s.thr.wx d 0).retired ∧ t.mem = s.mem ∧ t.proc.win = p.win ∧
       ∀ x ∈ t.proc.latch, x.id = e.id → x.popped = true)) ∧
     Yields (exec (.mburst q a) s) (fun t => t.thr = s.thr.retired ∧ t.proc = { p with mq := { m with burst := s.cycle + min v 65535 } }) ∧
     (∃ w : Word, exec (.mstat q d) s = wr w ∧ (m.queue.length ≤ 3 → p.latch.length ≤ 3 → m.burst - s.cycle < 2 ^ 16 →
       w.toNat % 16 = (if m.running = [] then 0 else 1) ∧ w.toNat / 2 ^ 4 % 16 = m.queue.length ∧
       w.toNat / 2 ^ 8 % 4 = ((p.latch.filter (fun x => !x.popped)).takeWhile (·.ready)).length ∧
       w.toNat / 2 ^ 10 % 4 = (p.latch.filter (·.popped)).length ∧ w.toNat / 2 ^ 48 = m.burst - s.cycle)))

/-- O44. What a matrix op computes (R305-R310, Table 13.4): the elements whose row and column bits are set take a new value, computed from the
row of the tile, the column of the latch entry and the old element; all others keep theirs. For narrow and 16-bit operands the value is
one rounding of the exact sum of the products and the old element; where the exact sum is representable, it is that value. -/
def Obligations.MatrixProducts : Prop :=
  (∀ (m : MmaIn) (w rows cols old i j : Nat), i < 16 → j < 16 → 0 < w →
    digit (m.result w rows cols old).1 w (16 * i + j) =
      if rows.testBit i ∧ cols.testBit j then (m.element i j (digit old w (16 * i + j))).1 % 2 ^ w else digit old w (16 * i + j)) ∧
  (∀ (rm : Nat) (ftz : Bool) (ts : List Term), ts ≠ [] → (∀ t ∈ ts, t.bad = false ∧ ∃ n k e, t.val = .fin n k e ∧ -1000 ≤ e) →
    let units (t : Term) : Int := match t.val with | .fin n k e => toSigned n (k * 2 ^ (e + 1000).toNat) | _ => 0
    let total := (ts.map units).sum
    (total ≠ 0 → sum1 rm ftz ts = fp32.round rm ftz (.fin (decide (total < 0)) total.natAbs (-1000))) ∧
    (total = 0 → (sum1 rm ftz ts).1 % 2 ^ 31 = 0 ∧ (sum1 rm ftz ts).2 = 0)) ∧
  (∀ (rm : Nat) (ftz : Bool) (ts : List Term), (∃ t ∈ ts, t.bad = true) → sum1 rm ftz ts = (fp32.qnan, fNV))

/-- O45. The copy engine's instructions (R275, R276, R290, R293-R297, Tables 12.1 and 12.7): CPPUSH and CPPUSHB of a legal request with no
store outstanding enter it with the next id, which X[d] takes; with eight requests in the FIFO CPPUSHB gives 0 and CPPUSH parks behind
those that wait already, its request kept as it is; with stores outstanding both wait for them and keep the format registers of their
issue (R55), and that this wait counts in SCMEM is the model's reading (log entry 51); an illegal request traps ENGINE. CPWAIT of a
retired id gives 0, of an id never issued -1, and else parks; CPSTAT gives the state of a request and CPABORT marks one as aborted, or
gives 1. -/
def Obligations.CopyWords : Prop :=
  ∀ (q : BitVec 3) (d a : BitVec 5) (s : State), s.rp q = true → s.thr.fms = none →
    let p := s.proc
    let w := s.rx a
    let w3 := s.rx (a + 3)
    let n := w.toNat
    let kind := n % 8
    let len := n / 2 ^ 40
    let aux := n / 2 ^ 8 % 2 ^ 16
    let own (k : Nat) : Prop := w3.toNat / 2 ^ 48 = 0xFFFF ∧ w3.toNat % k = 0 ∧ w3.toNat % 2 ^ 48 + k ≤ p.winsize
    let legal : Prop :=
      kind ≠ 7 ∧ n / 2 ^ 32 % 256 = 0 ∧ n / 2 ^ 6 % 4 = 0 ∧ n / 2 ^ 4 % 2 = 0 ∧ (n / 2 ^ 5 % 2 = 1 → kind = 5) ∧
      (aux ≠ 0 → kind = 1 ∨ kind = 2 ∨ kind = 3) ∧ (kind = 5 → len = 0) ∧ (n / 2 ^ 24 % 2 = 1 → n / 2 ^ 25 % 2 ^ 7 = 0) ∧
      (kind = 0 ∨ kind = 4 → w3 = 0) ∧ (kind = 2 ∨ kind = 3 → own 32) ∧ (kind = 5 → own 64) ∧
      (kind = 6 → w3.toNat / 2 ^ 48 = 0 ∧ w3.toNat % 8 = 0)
    let r : CopyReq := { id := p.nextId, w0 := w, w1 := s.rx (a + 1), w2 := s.rx (a + 2), w3 := w3, slot := s.slot.val, fms := p.fm }
    let wr (v : Word) : Out := .next (s.setThr (s.thr.wx d v).retired)
    let pushed (i : Instr) : Prop := Yields (exec i s) (fun t => t.thr = (s.thr.wx d (BitVec.ofNat 64 p.nextId)).retired ∧ t.mem = s.mem ∧
      t.proc = { p with fifo := p.fifo ++ [r], lastId := p.nextId, nextId := if p.nextId = 2 ^ 32 - 1 then 1 else p.nextId + 1 } ∧
      (p.fifo = [] → (s.cycle + 4, .copyRequestStart p.gid p.lid) ∈ t.agenda))
    let both (f : Instr → Prop) : Prop := f (.cppush q d a) ∧ f (.cppushb q d a)
    let id := n % 2 ^ 32
    let behind := if id ≤ p.lastId then p.lastId - id else p.lastId + (2 ^ 32 - 1) - id
    (¬ legal → both (fun i => exec i s = s.takeTrap .engine 0)) ∧
    (legal → s.thr.storeQ ≠ [] → both (fun i => exec i s =
      .next (s.setThr { s.thr with wait := some (.retry .storeEmpty), fms := some p.fm, scmem := s.thr.scmem + 1 }))) ∧
    (legal → s.thr.storeQ = [] →
      (p.fifo.length < 8 → both pushed) ∧
      (8 ≤ p.fifo.length → exec (.cppushb q d a) s = wr 0) ∧
      (8 ≤ p.fifo.length → exec (.cppush q d a) s =
        .next ((s.setProc { p with pushQ := p.pushQ ++ [{ r with id := 0 }] }).setThr (s.thr.parked (.push d))))) ∧
    (p.idIssued id = false → exec (.cpwait q d a) s = wr (-1) ∧ exec (.cpstat q d a) s = wr 5) ∧
    (p.idIssued id = true →
      (p.idRetired id = true → exec (.cpwait q d a) s = wr 0) ∧
      (p.idRetired id = false → exec (.cpwait q d a) s = .next (s.setThr (s.thr.parked (.cpwait d id)))) ∧
      (∀ r, (p.fifo ++ p.done).find? (fun r => r.id == id) = some r → behind < 16 ∨ r.state ≠ 0 → r.oor < 2 ^ 24 → r.cause < 2 ^ 8 → r.state < 16 →
        ∃ v : Word, exec (.cpstat q d a) s = wr v ∧ v.toNat % 2 ^ 4 = r.state ∧ v.getLsbD 4 = r.aborted ∧ v.toNat / 2 ^ 5 % 8 = r.kind ∧
          v.toNat / 2 ^ 8 % 2 ^ 8 = (if r.state = 3 then r.cause else 0) ∧ v.toNat / 2 ^ 16 % 2 ^ 24 = r.oor ∧
          v.toNat / 2 ^ 40 = r.cursor % 2 ^ 24)) ∧
    ((∀ r ∈ p.fifo, r.id = id → r.state = 4) → exec (.cpabort q d a) s = wr 1) ∧
    (∀ r, p.fifo.find? (fun r => r.id == id) = some r → r.aborted = false → r.state ≠ 4 → r.lastIssued = false → r.issued ≠ r.acked →
      p.defs = [] → Yields (exec (.cpabort q d a) s) (fun t => t.thr = (s.thr.wx d 0).retired ∧ t.proc.win = p.win ∧ t.mem = s.mem ∧
        ∃ x ∈ t.proc.fifo, x.id = id ∧ x.aborted = true ∧ x.cause = 0))

/-- O46. The PLC instructions (R356-R363, Tables 2.8, 15.4 and 15.5): POSGET describes the process's place; LIDGET of a core of the region
asks that core, and gives -1 for another position; WHERE reads the placement entry of a lid, which in phase 1 takes PROTECT in a vault
(R403), and gives -1 for a lid outside the group; ANCHOR and UNANCHOR give the old flag and set or clear it; MIGREQ waits for the thread's
stores and then parks for the service core's status; ANNGET and ANNSET ask the unit that serves the process. The 250 cycles until a MIGREQ
is served are the model's choice, the spec giving no bound (log entry 1); that the issue turn of WHERE counts in SCMEM (log entry 27), and
a wait for the thread's stores too (log entry 51), is its reading. -/
def Obligations.PlacementWords : Prop :=
  ∀ (q : BitVec 3) (d a b : BitVec 5) (s : State), s.rp q = true →
    let p := s.proc
    let v := (s.rx a).toNat
    let th := s.thr
    let wr (s1 : State) (w : Word) : Out := .next (s1.setThr (s1.thr.wx d w).retired)
    let asks (i : Instr) (x : Acc) : Prop :=
      (th.storeQ = [] → exec i s = .next ((s.setThr { th.issued with wait := some .access, pend := [x], got := [], cont := .xreg d 8 false }).after
        (s.reqTime x) (.remoteAccessAtHome s.here s.slot.val))) ∧
      (th.storeQ ≠ [] → exec i s = .next (s.setThr { th with wait := some (.retry .storeEmpty), scmem := th.scmem + 1 }))
    let was : Word := if p.anch then 1 else 0
    let unit : Nat := match p.unit.bind (fun k => s.aunitOf k.1 k.2) with | some u => coreId u.gx u.gy | none => s.here
    (s.core.occupied = true → s.here < 3072 → p.mc < 2 ^ 16 → p.rx ≤ coreX s.here → p.ry ≤ coreY s.here →
      ∃ w : Word, exec (.posget q d) s = wr s w ∧ w.toNat % 2 ^ 8 = coreX s.here - p.rx ∧ w.toNat / 2 ^ 8 % 2 ^ 8 = coreY s.here - p.ry ∧
        w.toNat / 2 ^ 16 % 2 ^ 8 = coreX s.here ∧ w.toNat / 2 ^ 24 % 2 ^ 8 = coreY s.here ∧ w.toNat / 2 ^ 32 % 2 ^ 6 = dieOf s.here ∧
        w.getLsbD 38 = p.anch ∧ w.getLsbD 39 = p.migp ∧ w.toNat / 2 ^ 40 % 2 ^ 8 = p.didx % 2 ^ 8 ∧ w.toNat / 2 ^ 48 = p.mc) ∧
    (p.rw ≤ v % 256 ∨ p.rh ≤ v / 256 → exec (.lidget q d a) s = wr s (-1)) ∧
    (v % 256 < p.rw → v / 256 < p.rh →
      asks (.lidget q d a) { kind := .lidget, place := .mmio (coreId (p.rx + v % 256) (p.ry + v / 256)) 0, size := 8 }) ∧
    (p.gsize ≤ v → exec (.whereLid q d a) s = wr s (-1)) ∧
    (v < p.gsize → s.module.phase = 1 → paType (p.plbase.toNat + 8 * v) = 0 ∨ paType (p.plbase.toNat + 8 * v) = 4 ∨ paType (p.plbase.toNat + 8 * v) = 5 →
      exec (.whereLid q d a) s = s.takeTrap .protect 0) ∧
    (v < p.gsize → s.module.phase ≠ 1 ∨ paType (p.plbase.toNat + 8 * v) = 1 →
      let x : Acc := { kind := .load, place := .phys (p.plbase.toNat + 8 * v), size := 8 }
      (th.ready = 0 → th.storeQ = [] → exec (.whereLid q d a) s =
        .next ((s.setThr { th with wait := some .access, pend := [x], cont := .again, scmem := th.scmem + 1 }).after (s.reqTime x)
          (.remoteAccessAtHome s.here s.slot.val))) ∧
      (th.ready = 1 → ∀ e : Nat, th.got = [e] → e < 2 ^ 64 → p.rx ≤ coreX (e % 2 ^ 12) → p.ry ≤ coreY (e % 2 ^ 12) →
        ∃ w : Word, exec (.whereLid q d a) s = wr s w ∧ w.toNat / 2 ^ 48 = e / 2 ^ 48 ∧ w.getLsbD 45 = decide (e / 2 ^ 30 % 2 = 1) ∧
          w.getLsbD 46 = decide (e / 2 ^ 31 % 2 = 0) ∧ w.getLsbD 47 = decide (entModule e ≠ s.module.modid) ∧
          w.toNat / 2 ^ 16 % 2 ^ 8 = coreX (e % 2 ^ 12) ∧ w.toNat / 2 ^ 24 % 2 ^ 8 = coreY (e % 2 ^ 12) ∧
            w.toNat / 2 ^ 32 % 2 ^ 6 = dieOf (e % 2 ^ 12) ∧
          w.toNat % 2 ^ 8 = coreX (e % 2 ^ 12) - p.rx ∧ w.toNat / 2 ^ 8 % 2 ^ 8 = coreY (e % 2 ^ 12) - p.ry)) ∧
    ((∀ m ∈ s.moves, m.kind = .requested → m.a = s.here → m.transfer = true) →
      exec (.anchor q d) s = wr (s.setProc { p with anch := true }) was) ∧
    Yields (exec (.anchor q d) s) (fun t => d ≠ 0#5 → t.rx d = was) ∧
    exec (.unanchor q d) s = wr (s.setProc { p with anch := false }) was ∧
    (th.storeQ = [] → exec (.migreq q d a) s =
      .next ((s.setThr (th.parked (.migreq d (s.rx a)))).after 250 (.migrationRequestService s.here s.slot.val))) ∧
    (th.storeQ ≠ [] → exec (.migreq q d a) s = .next (s.setThr { th with wait := some (.retry .storeEmpty), scmem := th.scmem + 1 })) ∧
    asks (.annget q d a) { kind := .annget, place := .mmio unit 0, va := s.rx a, size := 8 } ∧
    asks (.annset q d a b) { kind := .annset, place := .mmio unit 0, va := s.rx a, size := 8, val := (s.rx b).toNat }

/-- O47. The instructions of the runtime in slot 11 that act on contexts, groups, banks and translations (R161, R388-R395, Tables 19.5 to
19.8): what they refuse by a status, and what they do; what GLAUNCH reads in a vault in phase 1 takes PROTECT (R403). GLAUNCH and SVSEND
are told once their descriptor or request has been read; TLBINV once every TLB has acknowledged. The time of that, and the 250 cycles
until an SVSEND is served, the spec does not bound (log entry 1). Status 1 of CTXLOAD where no group has the number, the statuses 1 and 2
of DUMP for its buffer, and the waits for the thread's stores are the model's readings (log entry 41), and so is the repeated execution of
an instruction that reads its operand (log entry 27). -/
def Obligations.RuntimeWords : Prop :=
  ∀ (q : BitVec 3) (d a b : BitVec 5) (s : State), s.rp q = true → s.slot.val = 11 →
    let ea := s.rx a
    let v := ea.toNat
    let th := s.thr
    let wr (s1 : State) (w : Word) : Out := .next (s1.setThr (s1.thr.wx d w).retired)
    let gives (i : Instr) (w : Word) : Prop := exec i s = wr s w
    let cl := clusterOf s.here
    let k := s.clusterAt cl
    (v % 256 ≠ 0 → exec (.ctxsave q d a) s = s.takeTrap .misalign ea ∧ exec (.ctxload q d a) s = s.takeTrap .misalign ea) ∧
    (v % 256 = 0 → s.core.occupied = false ∨ s.proc.hold ≠ some .preempt ∨ s.phaseOf s.proc.gid ≠ .parking → gives (.ctxsave q d a) 1) ∧
    (v % 256 = 0 → s.core.occupied = true → s.proc.hold = some .preempt → s.phaseOf s.proc.gid = .parking → th.storeQ = [] → k.lines = [] →
      let s0 := (s.proc.held.foldl State.spill s).asStep
      ∀ s1 l, writeArea ea s0.saveBytes.length 0 s0.saveBytes s0 = .ok s1 l →
        Yields (exec (.ctxsave q d a) s) (fun t => t.core.occupied = false ∧ (d ≠ 0#5 → t.rx d = 0))) ∧
    (v % 256 = 0 → s.core.occupied = true ∨ s.core.reserved = true → gives (.ctxload q d a) 1) ∧
    (v % 256 = 0 → s.core.occupied = false → s.core.reserved = false → th.storeQ = [] → ∀ s1 h, readArea ea 16 0 s.asStep = .ok s1 h →
      (numAt h 0 4 ≠ 1 → exec (.ctxload q d a) s = wr s1.areaDone 3) ∧
      (numAt h 0 4 = 1 → s1.groupOf (numAt h 8 2) = none → exec (.ctxload q d a) s = wr s1.areaDone 1) ∧
      (numAt h 0 4 = 1 → ∀ g e s2 l, s1.groupOf (numAt h 8 2) = some g → g.phase = .parked → s.here ∈ g.cores →
        g.store.find? (fun e => e.1 == numAt h 4 4) = some e →
        readArea ea ((24576 + e.2.1.winsize + e.2.1.winsize / 128) / 16) 0 s1 = .ok s2 l → (s2.areaDone.clusterAt cl).lines = [] →
        Yields (exec (.ctxload q d a) s) (fun t => t.core.occupied = true ∧ t.proc.lid = e.2.1.lid ∧ t.proc.hold = some .loaded ∧
          t.proc.mc = (e.2.1.mc + 1) % 2 ^ 16 ∧ (d ≠ 0#5 → t.rx d = 0)))) ∧
    (th.ready = 1 → ∀ lo hi : Nat, th.got = [lo, hi] → lo < 2 ^ 512 → hi < 2 ^ 512 →
      let raw := lo + 2 ^ 512 * hi
      let g := readDescriptor raw
      let reads : List (Nat × Nat) := [(g.plbase, 8 * g.n), (g.wimg, g.wlen), (g.tsr, if g.tsr = 0 then 0 else 64)]
      let banks (pa n : Nat) (P : Nat → Nat → Prop) : Prop := n ≠ 0 → ∀ x, x = pa ∨ x = pa + (n - 1) → paType x = 1 →
        P (clusterOf (paCore x)) (paBank x)
      let region := (List.range (g.rw * g.rh)).map (fun i => coreId (g.rx + i % g.rw) (g.ry + i / g.rw))
      (descriptorOk s.module.phase raw = false → gives (.glaunch q d a) 2) ∧
      (descriptorOk s.module.phase raw = true → s.groupOf g.gid = none →
        ((∃ c ∈ region, (s.coreAt c).occupied = true ∨ (s.coreAt c).reserved = true ∨ (s.coreAt c).oos = true) → gives (.glaunch q d a) 1) ∧
        ((∀ c ∈ region, (s.coreAt c).occupied = false ∧ (s.coreAt c).reserved = false ∧ (s.coreAt c).oos = false) → s.bad = [] → s.units = [] →
          (∀ e ∈ reads, banks e.1 e.2 (fun cl b => s.bankChanging cl b = false)) →
          (s.module.phase = 1 → (∃ e ∈ reads, e.2 ≠ 0 ∧ paType e.1 ≠ 1) → (∀ e ∈ reads, e.2 ≠ 0 →
            paType e.1 ≠ 1 ∨ banks e.1 e.2 (fun cl b => s.bankMode cl b = .scratchpad)) →
            ∃ e ∈ reads, e.2 ≠ 0 ∧ paType e.1 ≠ 1 ∧ exec (.glaunch q d a) s = s.takeTrap .protect (BitVec.ofNat 64 e.1)) ∧
          ((∀ e ∈ reads, banks e.1 e.2 (fun cl b => s.bankMode cl b = .scratchpad)) → (s.module.phase = 1 → ∀ e ∈ reads, e.2 = 0 ∨ paType e.1 = 1) →
          Yields (exec (.glaunch q d a) s) (fun t => t.thr.wait = some (.glaunch d g.gid) ∧ t.thr.x = th.x ∧
            (∃ x, t.groupOf g.gid = some x ∧ x.phase = .launching ∧ x.n = g.n ∧ x.landed = 0) ∧
            ∀ l, l < g.n → ∃ e ∈ t.agenda, e.2 = .multicastReplicate g.gid l))))) ∧
    (th.ready = 1 → ∀ raw : Nat, th.got = [raw] → raw < 2 ^ 512 →
      let f (off n : Nat) : Nat := raw / 256 ^ off % 256 ^ n
      (f 0 2 = 0 ∨ 3 < f 0 2 ∨ f 4 4 ≠ 0 ∨ f 32 32 ≠ 0 → gives (.svsend q d a) (-1)) ∧
      (1 ≤ f 0 2 → f 0 2 ≤ 3 → f 4 4 = 0 → f 32 32 = 0 → exec (.svsend q d a) s =
        .next ((s.setThr { th.parked (.svsend d) with got := [f 0 2, f 2 2, f 8 8] }).after 250
          (if f 0 2 = 1 then .preempt (f 2 2) (f 8 8) (f 16 8) (f 24 8) s.here
           else if f 0 2 = 2 then .saved (f 2 2) (f 8 8) else .loaded (f 2 2) (f 8 8))))) ∧
    (let bank := v % 8
     let code := v / 16 % 4
     let legal := v / 8 % 2 = 0 ∧ v / 64 = 0 ∧ code < 3
     (¬ legal → gives (.bankcfg q d a) 2) ∧
     (legal → ∀ m, modeOf code = some m →
       (s.bankChanging cl bank = false → s.bankMode cl bank = m → gives (.bankcfg q d a) 0) ∧
       (s.bankChanging cl bank = false → s.bankMode cl bank ≠ m → Yields (exec (.bankcfg q d a) s) (fun t =>
         t.thr = th.parked (.bankcfg d bank) ∧ (t.clusterAt cl).change = k.change ++ [(bank, m, s.here)] ∧ t.mem = s.mem ∧
         (s.cycle + 4, .bankModeSwitch cl bank) ∈ t.agenda)) ∧
       (s.bankChanging cl bank = true → Yields (exec (.bankcfg q d a) s) (fun t =>
         t.thr = th.parked (.bankcfg d bank) ∧ (t.clusterAt cl).change = k.change ++ [(bank, m, s.here)] ∧ t.agenda = s.agenda)))) ∧
    (2 ^ 17 ≤ v → gives (.tlbinv q d a b) 2) ∧
    (v < 2 ^ 17 → th.ready = 0 → exec (.tlbinv q d a b) s =
      .next ((s.setThr { th with wait := some (.retry .tlb), ready := 1, scvac := th.scvac + 1 }).after 500 (.threadResume s.here s.slot.val))) ∧
    (v < 2 ^ 17 → 0 < th.ready → Yields (exec (.tlbinv q d a b) s) (fun t => t.thr = (th.wx d 0).retired ∧
      t.core.tlb = s.core.tlb.filter (fun e => !(e.gid == v % 2 ^ 16 && (decide (2 ^ 16 ≤ v) || e.hits (v % 2 ^ 16) (s.rx b).toNat))) ∧
      t.mem = s.mem ∧ t.proc = s.proc)) ∧
    (s.core.occupied = false → v % 64 ≠ 0 → exec (.dump q d a b) s = wr s.areaDone.endDump 2) ∧
    (s.core.occupied = false → v % 64 = 0 → th.storeQ = [] → (s.rx b).toNat < 64 → exec (.dump q d a b) s = wr s.asStep.areaDone.endDump 1) ∧
    (s.core.occupied = false → v % 64 = 0 → th.storeQ = [] → 64 ≤ (s.rx b).toNat → ∀ s1 s2 l m,
      let fit := fitSections (s.rx b).toNat 64 s.dumpSections
      writeArea ea fit.flatten.length 64 fit.flatten s.asStep = .ok s1 l →
      writeArea ea 4 0 (s.dumpHeader fit.length (64 + (s.dumpSections.map List.length).sum) (s.dumpSections.map List.length)) s1 = .ok s2 m →
      exec (.dump q d a b) s = wr s2.areaDone.endDump (if fit.length = 6 then 0 else 1)) ∧
    (s.core.occupied = true → s.proc.hold = none → v % 64 = 0 → let s0 := s.setProc { s.proc with hold := some .dump, holdAt := s.cycle }
      s0.atDumpPoint = false → exec (.dump q d a b) s = .next (s0.parkRetry .hold)) ∧
    (v % 256 = 0 → s.core.occupied = false → s.core.reserved = false → th.storeQ ≠ [] →
      exec (.ctxload q d a) s = .next (s.parkRetry .storeEmpty))

/-- O48. The steps of an access away from its thread (R152-R156, R163, R165, R177, R195, R253, R370, R371; Tables 7.1 and 18.1), for a request
of uncached vault memory that nothing delays: it is performed at home, and its reply is on the way back for 70 cycles and the transit of
R154. A load reads and a store writes, a release leaves its signature at its word, the arming of a monitor installs its watch entry; a
query of a core gives the lid it holds. MBIND reads and is written as memory (R400), a register of a type-3 page that the spec does not
describe gives a free value and takes a write that shows nowhere (Table 7.3; log entries 14 and 50), and a window that is gone answers
WINDOW. The 250 cycles of the replies of MBIND and of other type-3 registers are the model's choice, the spec giving no bound (log entry
1). The store queue, replies and walks (R152-R158, R163, R253; Tables 7.1 and 19.4): the store at the head of the queue is sent; its
acknowledgement sends the next, and a thread that waits in a FENCE goes on with the last; the reply to a load writes the register, a fault
is taken in the thread, and the answer to a CHOPEN is its result; a walk gives its entry to the TLB and lets the instruction go on in the
same cycle, with or without a translation; a line that a cluster evicts is no longer in its cache; a soft error that is corrected is
counted, and another marks its unit, its latch entry or its word of an accumulator. A halted core keeps its replies (R386). -/
def Obligations.HomeSteps : Prop :=
  (∀ (core slot : Nat) (s : State), slot < 12 →
     let f := s.focusSlot core slot
     let th := f.thr
     (∀ (a : Acc) (pa : Nat), th.inFlight = some a → a.place = .phys pa → paType pa = 0 → a.cached = false → a.waited = false →
       f.awayIn a.place a.size = none → f.isBad a.place a.size = false →
       let back := 70 + clusterTransit core (paCore pa)
       let wrote : State := { f with mem := Memory.write s.mem pa a.size a.val }
       (a.kind = .load → exec (.remoteAccessAtHome core slot) s =
         .next (f.after back (.nonlocalReply core slot (Memory.read s.mem pa a.size) 0 {}))) ∧
       (a.kind = .store → a.mask = 0 → s.watches = [] → s.bad = [] → exec (.remoteAccessAtHome core slot) s =
         .next (wrote.after back (.nonlocalReply core slot 0 0 {}))) ∧
       (a.kind = .stl → s.watches = [] → s.bad = [] → exec (.releaseAtHome core slot) s =
         .next ((wrote.releaseSlot (.phys (pa - pa % 8)) a.sig).after back (.nonlocalReply core slot 0 0 {}))) ∧
       (a.kind = .arm → s.watches.length < 256 → a.mask < 4 → Yields (exec (.monitorArmAtHome core slot) s) (fun t =>
         t.mem = s.mem ∧ (s.cycle + back, .nonlocalReply core slot (Memory.read s.mem pa a.size) 0 {}) ∈ t.agenda ∧
         let old := th.mon a.mask
         let gen := if old.armed then (old.gen + 1) % 16 else old.gen
         t.thr = th.setMon a.mask { armed := true, line := .phys (pa - pa % 256), gen := gen, trig := false } ∧
         ∃ w, t.watches = s.watches ++ [w] ∧ w.line = .phys (pa - pa % 256) ∧ w.slot = slot ∧ w.mon = a.mask ∧ w.gen = gen ∧
           (w.gid, w.lid) = if slot = 11 then (65536 + core, 0) else (f.proc.gid, f.proc.lid)))) ∧
     (∀ (a : Acc) (c o : Nat), th.inFlight = some a → a.waited = false → a.place = .mmio c o →
       (a.kind = .lidget → exec (.remoteAccessAtHome core slot) s = .next (f.after 0 (.nonlocalReply core slot
         (if (s.coreAt c).occupied then (s.coreAt c).proc.lid else 2 ^ 64 - 1) 0 {}))) ∧
       (f.awayIn a.place a.size = none → s.watches = [] → s.bad = [] →
         let back := Instr.nonlocalReply core slot
         (a.kind = .load → c = 0 → o < 8192 →
           exec (.remoteAccessAtHome core slot) s = .next (f.after 250 (back (Memory.read s.module.mbind o a.size) 0 {}))) ∧
         (a.kind = .store → a.mask = 0 → c = 0 → o < 8192 → exec (.remoteAccessAtHome core slot) s =
           .next (({ f with module := { f.module with mbind := Memory.write s.module.mbind o a.size a.val } } : State).after 250 (back 0 0 {}))) ∧
         (a.kind = .load → c ≠ 0 ∨ 8192 ≤ o → ∃ v, v < 256 ^ a.size ∧
           exec (.remoteAccessAtHome core slot) s = .next (f.after 250 (back v 0 {}))) ∧
         (a.kind = .store → a.mask = 0 → c ≠ 0 ∨ 8192 ≤ o → exec (.remoteAccessAtHome core slot) s = .next (f.after 250 (back 0 0 {}))))) ∧
     (∀ (a : Acc) (g l o : Nat), th.inFlight = some a → a.place = .win g l o → a.kind = .load ∨ a.kind = .store → f.coreOf g l = none →
       th.sentTo = none → exec (.remoteAccessAtHome core slot) s = .next (f.after (f.backTime a true) (.nonlocalReply core slot 0 Trap.window.code {})))) ∧
  (∀ (core slot : Nat) (s : State), slot < 12 →
     let f := s.focusSlot core slot
     let th := f.thr
     (∀ (a : Acc) (pa : Nat) (l : List Acc), th.storeQ = a :: l → a.kind = .store → a.place = .phys pa → paType pa = 0 →
       exec (.storeQueueSend core slot) s =
         .next (f.after (if a.cached then 4 else clusterTransit core (paCore pa)) (.remoteAccessAtHome core slot))) ∧
     (∀ (a b : Acc) (l : List Acc) (v fault : Nat) (g : Sig), f.core.halted = false → f.proc.defs = [] →
       (th.storeQ = a :: b :: l → th.wait = none → exec (.nonlocalReply core slot v fault g) s =
         .next ((f.setThr { th with storeQ := b :: l }).after 0 (.storeQueueSend core slot))) ∧
       (th.storeQ = [a] → th.wait = some .fence → exec (.nonlocalReply core slot v fault g) s = .next (f.setThr { th with storeQ := [] }.resumed))) ∧
     (∀ (a : Acc) (v fault : Nat) (g : Sig) (d : BitVec 5) (n : Nat) (sg : Bool), f.core.halted = false → th.storeQ = [] → th.wait = some .access →
       th.pend = [a] → a.asked = false →
       th.got = [] → a.kind = .load → th.cont = .xreg d n sg →
       (fault = 0 → exec (.nonlocalReply core slot v fault g) s =
         .next (f.setThr { (th.wx d (loadExt v n sg)).resumed with cont := .nop, got := [], pend := [], gotSig := g })) ∧
       (fault ≠ 0 → exec (.nonlocalReply core slot v fault g) s = .next (f.trapParked fault a.va))) ∧
     (∀ (d : BitVec 5) (v : Nat) (g : Sig), f.core.halted = false → th.storeQ = [] → th.wait = some (.chopen d) →
       exec (.nonlocalReply core slot v 0 g) s = .next (f.setThr { (th.wx d (BitVec.ofNat 64 v)).resumed with got := [] })) ∧
     (∀ (page : Word) (l : List Word), th.wait = some (.retry .walk) → th.walked = page :: l →
       let sv := slot == 11
       let va := page.toNat * 2 ^ 16
       let k := s.clusterAt (clusterOf core)
       (∀ e, k.tlb2.find? (fun e => e.hits (f.tlbTag sv) va) = some e → exec (.pageWalk core slot) s = .next ((f.goOn core slot).fillTlb e)) ∧
       (k.tlb2.find? (fun e => e.hits (f.tlbTag sv) va) = none → walkBusy f va 3 th.walkRoot.toNat = none →
         (∀ x, f.begunWalk va = .error x → exec (.pageWalk core slot) s = .next (f.goOn core slot)) ∧
         (∀ pte large, f.begunWalk va = .ok (pte, large) → Yields (exec (.pageWalk core slot) s) (fun t => t.thr = th ∧
           t.redo = s.redo ++ [(core, slot)] ∧ t.core.tlb.head? = some (tlbEntry (f.tlbTag sv) va pte large) ∧
           (t.clusterAt (clusterOf core)).tlb2.head? = some (tlbEntry (f.tlbTag sv) va pte large))))) ∧
     (∀ cl line : Nat, s.units = [] → Yields (exec (.capacityEviction cl line) s) (fun t =>
       (∀ l ∈ (t.clusterAt cl).lines, l.line ≠ line) ∧
       ((∀ l ∈ (s.clusterAt cl).lines, l.line = line → l.dirty = 0) → t.mem = s.mem ∧ t.core = s.core ∧ t.others = s.others))) ∧
     (∀ (v fault : Nat) (g : Sig), f.core.halted = true → s.moves = [] → exec (.nonlocalReply core slot v fault g) s =
       .next { f with core := { f.core with replies := f.core.replies ++ [.nonlocalReply core slot v fault g] } }) ∧
     (∀ u : EccAt, exec (.eccSoftError core u true) s = .next (s.setCoreAt core { s.coreAt core with
       ecccnt := if (s.coreAt core).ecccnt = BitVec.allOnes 64 then (s.coreAt core).ecccnt else (s.coreAt core).ecccnt + 1 })) ∧
     (∀ g l o : Nat, s.bad = [] → exec (.eccSoftError core (.unit (.win g l o)) false) s = .next { s with bad := [.win g l (o - o % 16)] }) ∧
     (∀ n : Nat, let p := (s.coreAt core).proc
       (∀ e, p.latch = [e] → exec (.eccSoftError core (.latch 0) false) s =
         .next (s.setCoreAt core { s.coreAt core with proc := { p with latch := [{ e with bad := true }] } })) ∧
       (p.accBad = [] → exec (.eccSoftError core (.acc n) false) s = .next (s.setCoreAt core { s.coreAt core with proc := { p with accBad := [n] } }))))

/-- O49. The ways of a reservation unit (R182, R183, R187, R188, R191, R192; Table 8.1), for a unit of vault memory: a request that finds it
at home takes it, with its bytes and signatures, and reaches the requester after the service, the transit and the 4 cycles of the
operation; another request queues and a forward notice goes to the core of the last one queued, or of the holder where none is (the
model's choice, log entry 70); the operation leaves the new value in the unit, which goes to the requester of a notice that its holder has
received, and else home to the core that shipped it, where it is written and what waits for it follows. Monitors away from their
instructions, the FIFO port and the change of a bank's mode (R160, R161, R193-R198): a cancel removes its watch entry; a wake sets the
triggered bit of the monitor whose generation it carries, and waits while the process is being moved (R346); a timeout ends its WAITM with
bit 4; a parked pop gets two entries when they are there; and a mode change that nothing delays empties the bank and lets the core that
asked go on. -/
def Obligations.UnitsAndMonitors : Prop :=
  (∀ (core slot : Nat) (s : State), slot < 12 →
     let f := s.focusSlot core slot
     let th := f.thr
     (∀ (r : AmoReq) (pa : Nat), th.amo = some r → r.place = .phys pa → paType pa = 0 →
       let base := pa - pa % 16
       let u : Place := .phys base
       let sg (p : Place) : Option Sig := (s.sigSlots.find? (fun e => e.word == p)).map (·.sig)
       let taken : RUnit := {
         unit := u, bytes := Memory.read s.mem base 16, sig0 := sg u, sig1 := sg (.phys (base + 8)), holder := some (core, slot),
         queue := [], notices := [], waiting := [], back := paCore base }
       (f.unitAway u = none → f.isBad u 16 = false → exec (.atomicRequestAtHome core slot) s =
         .next (({ f with units := s.units ++ [taken] } : State).after (70 + transit core (paCore pa)) (.atomicUnitArrival core slot))) ∧
       (∀ w h, f.unitAway u = some w → (w.queue.getLast? = some h ∨ (w.queue = [] ∧ w.holder = some h)) →
         exec (.atomicRequestAtHome core slot) s = .next ((f.setUnit { w with queue := w.queue ++ [(core, slot)] }).after
           (transit (paCore pa) h.1) (.forwardNotice u h.1 h.2 core slot))) ∧
       (∀ w, f.unitAway u = some w → f.core.halted = false → r.again = false → r.ord = 0 → r.n ≤ 16 →
         let off := pa % 16
         let old := w.bytes / 256 ^ off % 256 ^ r.n
         let (new, fl) := r.compute old
         let done : Thread := { (th.amoResult r.op r.n r.d old fl.toNat).resumed with amo := none }
         Yields (exec (.atomicUnitArrival core slot) s) (fun t => t.thr = done ∧ t.mem = s.mem ∧
           (∃ x, t.unitAway u = some x ∧ x.bytes + old * 256 ^ off = w.bytes + new * 256 ^ off ∧ x.sig0 = w.sig0 ∧ x.sig1 = w.sig1 ∧
             ((∀ n ∈ w.notices, n.1 ≠ (core, slot)) → x.holder = none ∧ x.queue = w.queue ∧
               (s.cycle + transit core w.back, .atomicUnitReturn u) ∈ t.agenda) ∧
             (∀ c2 s2, w.notices = [((core, slot), (c2, s2))] → (c2, s2) ∈ w.queue → x.holder = some (c2, s2) ∧ x.notices = [] ∧
               x.queue = w.queue.filter (· != (c2, s2)) ∧ (s.cycle + transit core c2 + 4, .atomicUnitArrival c2 s2) ∈ t.agenda))))) ∧
     (∀ (u : Place) (hc hs : Nat) (w : RUnit), s.unitAway u = some w → w.holder = some (hc, hs) → (core, slot) ∈ w.queue →
       exec (.forwardNotice u hc hs core slot) s = .next (s.setUnit { w with notices := w.notices ++ [((hc, hs), (core, slot))] })) ∧
     (∀ (pa : Nat) (w : RUnit), paType pa = 0 → pa % 16 = 0 → s.unitAway (.phys pa) = some w → w.sig0 = none → w.sig1 = none → s.bad = [] →
       s.watches = [] →
       exec (.atomicUnitReturn (.phys pa)) s = .next { s with
                 mem := Memory.write s.mem pa 16 w.bytes, units := s.units.filter (fun r => r.unit != .phys pa),
                 agenda := (w.waiting ++ w.queue.map (fun r => Instr.atomicRequestAtHome r.1 r.2)).map (fun e => (s.cycle, e)) ++ s.agenda })) ∧
  (∀ (s : State) (gid lid slot mon gen : Nat), slot < 12 →
     exec (.monitorCancelAtHome gid lid slot mon gen) s = .next { s with watches := s.watches.filter (fun w =>
       !(w.gid == gid && w.lid == lid && w.slot == slot && w.mon == mon && w.gen == gen)) } ∧
     (∀ c, s.coreOfKey gid lid = some c → (∀ w ∈ s.wakes, w.1 ≠ .monitorWake gid lid slot mon gen) →
       let f := s.focusSlot c slot
       let th := f.thr
       let here := gid < 65536 → s.inTransfer c = false
       (here → th.wait = none → (th.mon mon).armed = true → (th.mon mon).gen = gen → exec (.monitorWake gid lid slot mon gen) s =
         .next (f.setThr (th.setMon mon { th.mon mon with trig := true }))) ∧
       (here → (th.mon mon).gen ≠ gen → exec (.monitorWake gid lid slot mon gen) s = .next f) ∧
       (¬ here → exec (.monitorWake gid lid slot mon gen) s = .next (f.after 1 (.monitorWake gid lid slot mon gen))) ∧
       (∀ d dl, th.wait = some (.waitm d (some dl)) → dl ≤ s.cycle → (f.clusterAt (clusterOf c)).dbgHalted = false → f.proc.hold = none →
         th.trigBits = 0 → th.intr = false →
         Yields (exec (.waitmTimeout gid lid slot) s) (fun t => t.thr.wait = none ∧ t.thr.pc = th.advance.pc ∧ (d ≠ 0#5 → t.thr.rx d = 16) ∧
           t.mem = s.mem ∧ t.proc = f.proc))) ∧
     (∀ (cl b c sl : Nat) (a : Acc) (e0 e1 : BitVec 128) (l : List (BitVec 128)), b < 8 → (s.clusterAt cl).fifoWait = [(b, c, sl)] →
       (s.focusSlot c sl).thr.pend = [a] → a.kind = .fifoPop → (s.clusterAt cl).fifos[b]? = some (e0 :: e1 :: l) →
       (s.focusSlot c sl).isBad (.phys (bankBase cl b)) 32 = false →
       Yields (exec (.fifoPortServe cl b) s) (fun t => (t.clusterAt cl).fifoWait = [] ∧ (t.clusterAt cl).fifos[b]? = some l ∧
         ∃ n, (n, .nonlocalReply c sl (e0.toNat + 2 ^ 128 * e1.toNat) 0 {}) ∈ t.agenda)) ∧
     (∀ (cl b c : Nat) (m : BankMode) (l : List (Nat × BankMode × Nat)), b < 8 → (s.clusterAt cl).change = (b, m, c) :: l → s.bankUnits cl b = [] →
       s.bankMode cl b ≠ m → s.bankMode cl b ≠ .cache ∨ (s.clusterAt cl).lines = [] →
       Yields (exec (.bankModeSwitch cl b) s) (fun t => t.bankMode cl b = m ∧ (t.clusterAt cl).fifos[b]? = some [] ∧
         (t.clusterAt cl).change = l.filter (fun e => e.1 != b) ++ l.filter (fun e => e.1 == b) ∧
         (∀ a, Memory.get t.mem a = if inBank cl b a then 0 else Memory.get s.mem a) ∧
         (∀ d, (s.thrAt c 11).wait = some (.bankcfg d b) → t.thrAt c 11 = ((s.thrAt c 11).wx d 0).resumed))))

/-- O50. The steps of a thread beside its instructions (R22, R101, R128, R203-R206, R252, R256, R378, R379, R383, Tables 18.1 and 19.2): a
condition that has cleared lets its thread go on, or ends it; the arrival of a thread whose stores are acknowledged is performed, or traps
ILLEGAL for another target; a deferred arrival is performed when it is due; a record enters the queue of its core, or goes to the TRGET
that waits for it; a TRGET whose time is over gets zeros; and a fault of a fetch is taken with the PC at the word. The steps of tasks and
of a group's life (R17, R25, R248, R252, R258, R259, R388, Tables 1.3, 10.2 and 15.1): a triggered entry of the task table enters the
ready queue; in a cycle in which the process was not held the task of the highest priority, of these the first, starts in the lowest free
helper slot; a process without threads and tasks ends, its placement entry says so, and with the last one the group has ended; a launch
packet puts its process on its core with the first bytes of its window laid out, and with the last of them the control threads start. That
the record of a group's end is raised at the core of its last process is the model's choice (log entry 38). -/
def Obligations.ThreadAndTaskSteps : Prop :=
  (∀ (core slot : Nat) (s : State), slot < 12 →
     let f := s.focusSlot core slot
     let th := f.thr
     let resume : Out := exec (.threadResume core slot) s
     (th.kpend = false → th.live = true →
       (∀ d v fl, th.wait = some (.ftr d v fl) → resume = .next (f.setThr ((th.wf d (BitVec.ofNat 64 v)).flag (BitVec.ofNat 5 fl)).resumed)) ∧
       (∀ on, th.wait = some (.retry on) → on = .more ∨ (∃ u, on = .unitHome u) → resume = .next (f.goOn core slot)) ∧
       (∀ on, th.wait = some (.retry on) → on ≠ .more → (∀ u, on ≠ .unitHome u) → resume = .next (f.setThr { th with wait := none }))) ∧
     (∀ e, th.wait = some (.hend e) → (th.storeQ ≠ [] → resume = .next f) ∧
       (th.storeQ = [] → Yields resume (fun t => t.thr.live = false ∧ t.thr.exitv = e ∧ t.thr.killed = th.kpend ∧ t.mem = s.mem))) ∧
     (th.live = true → th.kpend = true → th.wait = none → th.trap = none → th.ready = 0 → th.rel = none → th.storeQ = [] → s.moves = [] →
       Yields resume (fun t => t.thr.live = false ∧ t.thr.exitv.toNat = 2 ^ 63 ∧ t.thr.killed = true ∧ t.mem = s.mem)) ∧
     (∀ b c sync, th.wait = some (.barArr b c sync) → th.storeQ = [] →
       let r := f.proc.bar b
       let arrive : Out := exec (.barrierArrival core slot) s
       (r.tgt ≠ 0 → r.tgt ≠ c → arrive = .next (f.trapParked Trap.illegal.code 0)) ∧
       (r.tgt = 0 ∨ r.tgt = c → r.arr + 1 ≠ c →
         let s1 := f.setProc { f.proc with bars := f.proc.bars.setIfInBounds b { tgt := c, arr := r.arr + 1 } }
         let t1 := th.setBar b .arrived
         arrive = .next (s1.setThr (if sync then { t1 with wait := some (.barwait b) } else t1.resumed))) ∧
       (r.tgt = 0 ∨ r.tgt = c → r.arr + 1 = c → b < 32 → f.proc.hold = none → Yields arrive (fun t => t.proc.bar b = {} ∧ t.thr.wait = none ∧
         t.thr.bar b = (if sync then .none else .passed) ∧
         ∀ j : Fin 12, j.val ≠ slot → t.core.slots[j] = f.core.slots[j].phaseEnds b false s.cycle))) ∧
     (∀ gid lid (d : Deferred), s.coreOf gid lid = some core → f.proc.defs = [d] → d.slot = slot → d.stores = 0 → d.copies = [] → d.alive = true →
       let r := f.proc.bar d.bar
       (r.tgt = 0 ∨ r.tgt = d.count) → r.arr + 1 ≠ d.count → exec (.deferredArrival gid lid slot) s =
         .next (((s.focus core).setProc { f.proc with defs := [], bars := f.proc.bars.setIfInBounds d.bar { tgt := d.count, arr := r.arr + 1 } }).setThrAt
           core slot (th.setBar d.bar .arrived))) ∧
     (let g := s.focus core
      let t11 := g.core.thr 11
      ∀ r : TrapRec,
       (g.core.trapQ.length < 8 → g.core.trapWait = [] → (∀ d, t11.wait ≠ some (.trget d)) → exec (.trapRecordEnqueue core r) s =
         .next { g with core := { g.core with trapQ := g.core.trapQ ++ [r] } }) ∧
       (g.core.trapQ.length = 8 → (∀ d, t11.wait ≠ some (.trget d)) → exec (.trapRecordEnqueue core r) s =
         .next { g with core := { g.core with trapWait := g.core.trapWait ++ [r] } }) ∧
       (∀ d, t11.wait = some (.trget d) → g.core.trapQ = [] → g.core.trapWait = [] → exec (.trapRecordEnqueue core r) s =
         .next (g.setThrAt core 11 { (t11.takeRecord d r).resumed with got := [] }))) ∧
     (∀ d due, slot = 11 → th.wait = some (.trget d) → th.got = [due] → due ≤ s.cycle → Yields (exec (.trgetTimeout core) s) (fun t =>
       t.thr.wait = none ∧ (∀ i, i < 4 → t.thr.rx (d + BitVec.ofNat 5 i) = 0) ∧ t.mem = s.mem ∧ t.core.trapQ = f.core.trapQ)) ∧
     (∀ (code : Nat) (addr : Word), Yields (exec (.instructionFetchFault code addr) s) (fun t => t.thr.pc = s.thr.pc ∧ t.thr.wait = some .trap ∧
       t.thr.x = s.thr.x ∧ t.mem = s.mem ∧ ∃ r, t.thr.trap = some r ∧ r.pc = s.thr.pc ∧ r.code = code ∧ r.addr = addr ∧ r.slot = s.slot.val ∧
         (s.slot.val ≠ 11 → (s.cycle + 4, .trapRecordEnqueue s.here r) ∈ t.agenda ∧ t.core.halted = s.core.halted) ∧
         (s.slot.val = 11 → t.core.halted = true)))) ∧
  (∀ (gid lid : Nat) (s : State),
     (∀ c, s.coreOf gid lid = some c →
       let f := s.focus c
       let p := f.proc
       (∀ i e k, p.tt.toList[i]? = some (some e) → e.trig = some k → k < s.cycle → p.rq.length + p.rqRes < 16 →
         (∀ j x, j ≠ i → p.tt.toList[j]? = some (some x) → x.trig = none) →
         Yields (exec (.readyQueueEnter gid lid) s) (fun t => t.proc.tt.toList[i]? = some none ∧
           t.proc.rq = p.rq ++ [{ pc := e.pc, arg := e.arg, prio := e.prio, src := i, stamp := 64 * s.cycle + i }] ∧
           (s.cycle + 1, .taskDispatch gid lid) ∈ t.agenda ∧ t.core.slots = f.core.slots ∧ t.mem = s.mem)) ∧
       (∀ e i, p.wasHeld s.cycle = false → e ∈ p.rq → (∀ x ∈ p.rq, x.was = none) →
         e.stamp / 64 ≤ s.cycle - 1 →
         (∀ x ∈ p.rq, x.stamp / 64 ≤ s.cycle - 1 → x = e ∨ x.prio < e.prio ∨ (x.prio = e.prio ∧ e.stamp < x.stamp)) → 1 ≤ i → i ≤ 10 →
           f.slotFree (s.cycle - 1) i = true →
         (∀ j, 1 ≤ j → j < i → f.slotFree (s.cycle - 1) j = false) →
         Yields (exec (.taskDispatch gid lid) s) (fun t =>
           let u := t.core.thr i
           u.live = true ∧ u.task = true ∧ u.pc = e.pc ∧ u.notBefore = s.cycle - 1 + 24 ∧ u.wait = none ∧
           (∀ r, u.rx r = if r = 10#5 then e.arg else if r = 11#5 then BitVec.ofNat 64 e.src else 0) ∧
           (∀ j : Fin 12, j.val ≠ i → t.core.slots[j] = f.core.slots[j]) ∧
           t.proc.rq = p.rq.filter (fun x => x.stamp != e.stamp) ∧ t.mem = s.mem)) ∧
       (∀ g, s.groupOf gid = some g → p.ctlEnded = true → f.helperLives = false → p.rq = [] → (∀ h ∈ p.handles.toList, h = none) →
         Yields (exec (.processEnd gid lid) s) (fun t => t.core.occupied = false ∧ (∀ i : Fin 12, i.val < 11 → t.core.slots[i].live = false) ∧
           (s.mem.wf = true → s.units = [] → ∀ a, f.placeAt c gid lid = some a → paType a = 0 → Memory.read t.mem a 8 / 2 ^ 30 % 4 = 3) ∧
           (g.ends.length + 1 = g.n → (∃ x, t.groupOf gid = some x ∧ x.phase = .ended) ∧ (∀ u ∈ t.aunits, u.gid ≠ gid) ∧
             ∃ r, r.src = 4 ∧ r.info = 1 ∧ (s.cycle + 4, .trapRecordEnqueue c r) ∈ t.agenda) ∧
           (g.ends.length + 1 ≠ g.n → ∃ x, t.groupOf gid = some x ∧ x.phase = g.phase ∧ x.ends = g.ends ++ [lid])))) ∧
     (∀ g, s.groupOf gid = some g → g.phase = .launching →
       let c := g.launchCore lid
       Yields (exec (.multicastReplicate gid lid) s) (fun t => (t.coreAt c).occupied = true ∧ (t.coreAt c).proc.lid = lid ∧
         (t.coreAt c).proc.gid = gid ∧ (t.coreAt c).proc.winsize = g.winsize ∧
         (lid < 2 ^ 32 → Memory.read (t.coreAt c).proc.win 0 4 = lid) ∧ (g.n < 2 ^ 32 → Memory.read (t.coreAt c).proc.win 4 4 = g.n) ∧
         (g.rw < 2 ^ 16 → Memory.read (t.coreAt c).proc.win 8 2 = g.rw) ∧ (g.rh < 2 ^ 16 → Memory.read (t.coreAt c).proc.win 10 2 = g.rh) ∧
         (∃ x, t.groupOf gid = some x ∧ x.landed = g.landed + 1 ∧ x.phase = if g.landed + 1 = g.n then .running else .launching) ∧
         (g.landed + 1 ≠ g.n → ∀ i, i < 11 → (t.thrAt c i).live = false) ∧
         (g.landed + 1 = g.n → lid < g.rw * g.rh → 
           let u := t.thrAt c 0
           u.live = true ∧ u.task = false ∧ u.pc = g.entry ∧ u.notBefore = s.cycle + 1 ∧ u.rx 10#5 = BitVec.ofNat 64 lid ∧
           u.rx 2#5 = BitVec.ofNat 64 (0xFFFF * 2 ^ 48 + g.winsize)))))

/-- O51. The steps of a channel on the sender's side (R210-R212, R216, R218, R219, R222, R225, R333, R336, R367, Table 9.9): a request to open
allocates both ends, or is answered with -4 by a destination without room; the end of an injection counts its bytes, and the last of a
send lets its thread go on; an acknowledgement frees the packets that it covers, and a closed channel that is all acknowledged is free;
the timer of a channel acknowledges what has been delivered; packets that waited for a placement entry leave by it; and a newer notice of
a move replaces the entry held. The arrival of packets and the end of messages (R213-R215, R226-R230, R334, R367, Tables 9.4, 9.5 and
9.7): a packet of a channel that is not open, or outside the window of the number expected, is reported and has no other effect, and so is
one for a group that is drained or parked (R390); one that is ahead is held; a message of one packet lands under the record that it
matches, 32 bytes in a cycle: where the engine is free its first 32 bytes stand in the window in the cycle of its arrival, and each cycle
32 more; with the last of them the next number is expected, and the message's end is due in the next cycle; the end of the landing of a
message writes the status granule, makes it full, counts, and frees the record; and at a core that its destination has left a packet goes
on by the departed table, the core that sent it being told. -/
def Obligations.ChannelSteps : Prop :=
  (∀ (s : State) (gid lid core : Nat),
     let f := s.focus core
     let p := f.proc
     s.coreOf gid lid = some core → f.core.occupied = true → p.gid = gid → p.lid = lid →
     (∀ (slot h v c : Nat) (d : BitVec 5), slot < 12 → (s.focusSlot core slot).thr.wait = some (.chopen d) →
       (s.focusSlot core slot).thr.got = [v] → (s.focusSlot core slot).thr.sentTo = none →
       h < 32 → p.handle h = none → (∀ j, j < h → p.handle j ≠ none) → p.hasChannel (v / 8 % 2 ^ 16) (v % 8) = false →
       v / 8 % 2 ^ 16 ≠ 0xFFFE → f.coreOf gid (v / 8 % 2 ^ 16) = some c → s.inTransfer c = false → (s.coreAt c).proc.ended = false →
       let latch := decide (v / 2 ^ 19 % 2 = 1)
       let used := ((s.coreAt c).proc.inb.filter (fun i => i.src != 0xFFFE)).length
       let answer (r : Nat) : Nat × Instr := (s.cycle + (14 + transit core c), .nonlocalReply core slot r 0 {})
       (used < 128 → Yields (exec (.chopenRequest core slot) s) (fun t => answer h ∈ t.agenda ∧ t.mem = s.mem ∧
         t.proc.handle h = some { lid := v / 8 % 2 ^ 16, ch := v % 8, latch := latch } ∧
         (t.coreAt c).proc.inb = (s.coreAt c).proc.inb ++ [{ src := p.lid, ch := v % 8, latch := latch }])) ∧
       (128 ≤ used → Yields (exec (.chopenRequest core slot) s) (fun t => answer (2 ^ 64 - 4) ∈ t.agenda ∧ t.proc = p))) ∧
     (∀ h o cur pkt, p.handle h = some o → o.cur = some cur → cur.inj = some pkt → o.lid ≠ 0xFFFE →
       let n := pkt.payload.length
       let o1 : OutCh := { o with total := (o.total + n) % 2 ^ 48, since := min (o.since + n) (2 ^ 32 - 1) }
       (pkt.last = true → cur.release = false → cur.latch = none → o.closing = false → Yields (exec (.packetInject gid lid h) s) (fun t =>
         (t.coreAt core).proc.handle h = some { o1 with cur := none } ∧ t.agenda = s.agenda ∧ t.mem = s.mem ∧
         (cur.slot < 12 → (s.thrAt core cur.slot).wait = some (.send h) →
           t.thrAt core cur.slot = { (s.thrAt core cur.slot).resumed with notBefore := s.cycle + 1 }))) ∧
       (pkt.last = false → 32 ≤ o.unack → Yields (exec (.packetInject gid lid h) s) (fun t =>
         (t.coreAt core).proc.handle h = some { o1 with cur := some { cur with off := cur.off + n, inj := none } } ∧ t.agenda = s.agenda))) ∧
     (∀ ack h o j, core < 3072 → s.inTransfer core = false → ack.gid = gid → ack.src = lid → p.handle h = some o → o.lid = ack.dst → o.ch = ack.ch →
       (∀ i x, i ≠ h → p.handle i = some x → x.lid ≠ ack.dst ∨ x.ch ≠ ack.ch) → o.seq < 4096 → o.unack ≤ 32 → j ≤ o.unack →
       ack.seq = (o.seq + 4095 - j) % 4096 →
       (o.closing = false → o.closeSent = false → o.cur = none → exec (.ackArrival core ack) s =
         .next (s.setCoreAt core { s.coreAt core with proc := p.setHandle h (some { o with unack := j }) })) ∧
       (o.closeSent = true → j = 0 → Yields (exec (.ackArrival core ack) s) (fun t => (t.coreAt core).proc.handle h = none ∧
         ∀ i : Fin 12, (s.coreAt core).slots[i].wait = some (.chclose h) → (p.hold = none ∨ i.val = 11) →
           (t.coreAt core).slots[i] = (s.coreAt core).slots[i].resumed))) ∧
     (∀ i, lid ≠ 0xFFFE → s.isParked gid = false → p.inb.find? (fun x => x.src == i.src && x.ch == i.ch) = some i → i.sinceAck ≠ 0 →
       (s.cycle < i.lastDeliver + 256 → exec (.ackTimer gid lid i.src i.ch) s = .next f) ∧
       (∀ e, i.lastDeliver + 256 ≤ s.cycle → i.src ≠ 0xFFFE → f.coreOf gid i.src ≠ some core → findLoc f.core.loc gid i.src = some e →
         Yields (exec (.ackTimer gid lid i.src i.ch) s) (fun t =>
           t.proc.inb.find? (fun x => x.src == i.src && x.ch == i.ch) = some { i with sinceAck := 0 } ∧
           t.agenda = agendaPut s.agenda (s.cycle + transit core e.core)
             (.ackArrival e.core { gid := gid, src := i.src, dst := lid, ch := i.ch, seq := (i.expect + 4095) % 4096, origin := core })))) ∧
     (∀ (g l : Nat) (x : Packet), f.core.lookup = [x] → f.core.seeking = [] → x.gid = g → x.dst = l → f.elsewhere core g l = false →
       f.core.halted = false →
       let e := f.placeEntry core g l
       exec (.locationLookupReply core g l) s = .next ((f.setCoreAt core { f.core with
         lookup := [], loc := putLoc f.core.loc { gid := g, lid := l, core := e % 2 ^ 12, mc := e / 2 ^ 48 % 2 ^ 16 } 64 }).after
           (transit core (e % 2 ^ 12) + 5) (.channelPacketArrival (e % 2 ^ 12) x))) ∧
     (∀ e x : LocEnt, findLoc (s.coreAt core).loc e.gid e.lid = some x → e.mc < 2 ^ 16 → x.mc < 2 ^ 16 →
       let newer := 1 ≤ (e.mc + 65536 - x.mc) % 65536 ∧ (e.mc + 65536 - x.mc) % 65536 ≤ 32767
       (newer → exec (.movedNoticeArrival core e) s =
         .next (s.setCoreAt core { s.coreAt core with loc := putLoc (s.coreAt core).loc e 64 })) ∧
       (¬ newer → exec (.movedNoticeArrival core e) s = .next s))) ∧
  (∀ (s : State) (core : Nat) (pkt : Packet), core < 3072 → s.inTransfer core = false → (s.focus core).proc.win.wf →
     let f := s.focus core
     let p := f.proc
     let arrives : Out := exec (.channelPacketArrival core pkt) s
     let goes : Prop := s.isParked pkt.gid = false ∨ pkt.src = 0xFFFE
     let here : Prop := goes ∧ f.core.occupied = true ∧ p.gid = pkt.gid ∧ p.lid = pkt.dst
     let report : State := { f with module := { s.module with reports := s.module.reports ++ [.badPacket core pkt] } }
     let find (l : List InCh) : Option InCh := l.find? (fun i => i.src == pkt.src && i.ch == pkt.ch)
     let lands (t : State) (at_ : Nat) (bytes : List Byte) : Prop := Memory.bytes t.proc.win at_ bytes.length = bytes ∧
       ∀ a, a < at_ ∨ at_ + bytes.length ≤ a → Memory.get t.proc.win a = Memory.get p.win a
     let ends (t : State) (slot : Nat) : Prop := t.proc.stream = none ∧ t.proc.landUntil = s.cycle + 1 ∧
       (∃ x, find t.proc.inb = some x ∧ x.expect = (pkt.seq + 1) % 4096 ∧ x.msg = none) ∧
       (s.cycle + 1, .messageLanded pkt.gid pkt.dst slot) ∈ t.agenda
     let goesOn (t : State) (l : Landing) (got : Nat) : Prop := t.proc.stream = some l ∧
       (∃ x m, find t.proc.inb = some x ∧ x.msg = some m ∧ m.got = got) ∧ (s.cycle + 1, .latchEntryAppend pkt.gid pkt.dst 0) ∈ t.agenda
     (¬ goes → arrives = .next { s with module := { s.module with reports := s.module.reports ++ [.badPacket core pkt] } }) ∧
     (here → find p.inb = none → pkt.src ≠ 0xFFFE → arrives = .next report) ∧
     (∀ i, here → find p.inb = some i →
       (32 ≤ (pkt.seq + 4096 - i.expect) % 4096 → arrives = .next report) ∧
       ((pkt.seq + 4096 - i.expect) % 4096 < 32 → pkt.seq ≠ i.expect → p.held = [] → p.spilled = [] →
         arrives = .next (f.setProc { p with held := [pkt] })) ∧
       (∀ slot r, pkt.seq = i.expect → i.expect < 4096 → i.latch = false → pkt.first = true → pkt.last = true → pkt.close = false →
         pkt.abort = false →
         pkt.release = false → p.held = [] → p.spilled = [] → p.blocked = false → p.landFault = none → f.core.halted = false → f.core.broke = [] →
           p.hold ≠ some .loaded →
         (f.clusterAt (clusterOf core)).dbgHalted = false → f.breaksOn pkt = false → f.searching = false → s.units = [] → s.waiters = [] →
         p.matchPosted pkt.src pkt.tag pkt.ch = some (slot, r) → r.rcd.mode = 0 → r.rcd.dest.toNat / 2 ^ 48 = 0xFFFF →
         r.rcd.dest.toNat % 2 ^ 48 + r.rcd.maxlen ≤ p.winsize → p.winsize ≤ 2 ^ 18 → pkt.payload.length ≤ r.rcd.maxlen → slot < 64 →
         p.stream = none → p.copies = [] → p.landUntil ≤ s.cycle →
         Yields arrives (fun t => lands t (r.rcd.dest.toNat % 2 ^ 48) (pkt.payload.take 32) ∧ t.proc.held = [] ∧
           (∃ x, (t.proc.posted.toList[slot]?).getD none = some x ∧ x.landing = true ∧ x.src = pkt.src ∧ x.ch = pkt.ch ∧ x.tag = pkt.tag ∧
             x.len = pkt.len) ∧
           (pkt.payload.length ≤ 32 → ends t slot) ∧
           (32 < pkt.payload.length → goesOn t { pkt := some pkt, off := 32, k := 32, due := s.cycle + 1 } 32)))) ∧
     (∀ i m l slot r, f.core.occupied = true → s.coreOf p.gid p.lid = some core → p.gid = pkt.gid → p.lid = pkt.dst → find p.inb = some i →
       i.msg = some m → m.at_ = .record slot → m.release = false → slot < 64 →
       (p.posted.toList[slot]?).getD none = some r → p.stream = some l → l.pkt = some pkt → l.due ≤ s.cycle → l.off < pkt.payload.length →
         pkt.last = true →
       pkt.close = false → pkt.abort = false → p.hdrs = [] → p.held = [] → p.spilled = [] → p.copies = [] → p.mq.latchWait = [] → p.landFault = none →
       f.core.halted = false → f.core.broke = [] → p.hold ≠ some .loaded → (f.clusterAt (clusterOf core)).dbgHalted = false → s.units = [] →
         s.waiters = [] →
       (∀ j : Fin 12, f.core.slots[j].kpend = false) → r.rcd.mode = 0 → r.rcd.dest.toNat / 2 ^ 48 = 0xFFFF →
         r.rcd.dest.toNat % 2 ^ 48 + r.rcd.maxlen ≤ p.winsize →
       p.winsize ≤ 2 ^ 18 → m.got + (pkt.payload.length - l.off) ≤ r.rcd.maxlen →
       let n := min 32 (pkt.payload.length - l.off)
       Yields (exec (.latchEntryAppend p.gid p.lid 0) s) (fun t =>
         lands t (r.rcd.dest.toNat % 2 ^ 48 + m.got) ((pkt.payload.drop l.off).take 32) ∧
         (pkt.payload.length ≤ l.off + 32 → ends t slot) ∧
         (l.off + 32 < pkt.payload.length → goesOn t { l with off := l.off + n, k := l.k + n, due := s.cycle + 1 } (m.got + n)))) ∧
     (∀ e, goes → ¬ here → findLoc f.core.departed pkt.gid pkt.dst = some e → e.core ≠ core → pkt.origin ≠ gateCore →
       arrives = .next (((f.setCoreAt core { f.coreAt core with departed := putLoc f.core.departed e 8 }).after (transit core pkt.origin)
         (.movedNoticeArrival pkt.origin e)).after (transit core e.core) (.channelPacketArrival e.core pkt))) ∧
     (∀ (record : Nat) (r : Posted), record < 64 → f.core.occupied = true → s.coreOf p.gid p.lid = some core →
       (p.posted.toList[record]?).getD none = some r → r.adds = [] → r.ends.any (fun k => decide (k ≤ s.cycle)) = true → r.rcd.stat ≠ 0 →
         s.units = [] → s.waiters = [] → r.src < 2 ^ 16 → r.ch < 2 ^ 8 → r.flags < 2 ^ 8 →
       r.len < 2 ^ 32 → r.tag < 2 ^ 32 → r.rcd.cookie < 2 ^ 32 → r.rcd.ctr < 64 →
       Yields (exec (.messageLanded p.gid p.lid record) s) (fun t =>
         let at_ := 16 * r.rcd.stat
         Memory.read t.proc.win at_ 2 = r.src ∧ Memory.read t.proc.win (at_ + 2) 1 = r.ch ∧ Memory.read t.proc.win (at_ + 3) 1 = r.flags ∧
         Memory.read t.proc.win (at_ + 4) 4 = r.len ∧ Memory.read t.proc.win (at_ + 8) 4 = r.tag ∧
           Memory.read t.proc.win (at_ + 12) 4 = r.rcd.cookie ∧
         r.rcd.stat ∉ t.proc.empty ∧ (∀ a, a < at_ ∨ at_ + 16 ≤ a → Memory.get t.proc.win a = Memory.get p.win a) ∧
         (t.proc.posted.toList[record]?).getD none = none ∧
         ∀ n, n < 64 → t.ctr n = if r.rcd.noctr = false ∧
           n = r.rcd.ctr then f.ctr n + (if r.rcd.inc then 1 else BitVec.ofNat 32 r.lastBytes) else f.ctr n)))

/-- O52. The steps of the copy engine (R276, R280, R286, R288, R295, R298, Table 12.7), for a process whose FIFO holds one request: a COPY or
a FILL starts; a chunk of at most 64 bytes of a COPY inside the own window is moved in one action, and nothing else of the window changes;
acknowledged bytes are counted, and with the last of them the request retires and a CPWAIT for its id goes on; the counter word of a PUT
takes the chunk's bytes at its home. The steps of the matrix engine and of the B latch (R301, R310-R312, R316, R319, R322, R324): on a
warm engine an MCLR, and an MLDA of the own window, start with their results and complete after their occupancy and latency; at its
completion an op's results and flags are written and its thread goes on; an entry whose data has arrived is ready, and its MLDB completes;
and an engine that has been idle for 256 cycles is cold. That an MLDB whose data has arrived completes, though the landing of an entry
before its own is not over, is the model's choice (log entry 77). -/
def Obligations.EngineSteps : Prop :=
  (∀ (s : State) (gid lid core : Nat) (r : CopyReq),
     let f := s.focus core
     let p := f.proc
     s.coreOf gid lid = some core → f.core.occupied = true → p.gid = gid → p.lid = lid → s.inTransfer core = false → f.enginesRun = true →
       r.id < 2 ^ 32 →
     p.fifo = [r] → r.aborted = false →
     (r.state = 1 → r.kind = 0 ∨ r.kind = 4 → 0 < r.len → r.cursor = 0 → r.wr = none → Yields (exec (.copyRequestStart gid lid) s) (fun t =>
       t.proc = { p with fifo := [{ r with state := 2, cause := 0 }] } ∧ t.mem = s.mem ∧
       ∃ e ∈ t.agenda, e.2 = .engineAccessReply gid lid r.id)) ∧
     (r.state = 2 → r.kind = 0 → r.lastIssued = false → r.backward = false → r.cursor < r.len → r.acked ≤ r.issued → r.wr = none → s.units = [] →
       s.bad = [] →
       s.waiters = [] → (∀ x ∈ s.far, x.step ≠ s.event) → p.win.wf → p.ended = false → p.winsize ≤ 2 ^ 18 → r.w1.toNat / 2 ^ 48 = 0xFFFF →
         r.w2.toNat / 2 ^ 48 = 0xFFFF →
       r.w1.toNat % 2 ^ 48 + r.len ≤ p.winsize → r.w2.toNat % 2 ^ 48 + r.len ≤ p.winsize →
       let n := min 64 (r.len - r.cursor)
       let src := r.w1.toNat % 2 ^ 48 + r.cursor
       let dst := r.w2.toNat % 2 ^ 48 + r.cursor
       Yields (exec (.engineAccessReply gid lid r.id) s) (fun t => Memory.bytes t.proc.win dst n = Memory.bytes p.win src n ∧
         (∀ a, a < dst ∨ dst + n ≤ a → Memory.get t.proc.win a = Memory.get p.win a) ∧ t.mem = s.mem ∧
         (∃ x, t.proc.fifo = [x] ∧ x.id = r.id ∧ x.cursor = r.cursor + n ∧ x.issued = r.issued + n ∧ x.acked = r.acked ∧
           x.lastIssued = decide (r.len ≤ r.cursor + n)) ∧
         (s.cycle + 1, .engineAccessAck gid lid r.id n) ∈ t.agenda)) ∧
     (∀ b, r.state = 2 →
       let counts (t : State) : Prop := ∀ n, n < 64 → t.ctr n =
         if r.noctr = false ∧ n = r.ctr then f.ctr n + (if r.inc then (if r.lastIssued ∧ r.acked + b = r.issued then 1 else 0) else BitVec.ofNat 32 b)
         else f.ctr n
       (r.lastIssued = false ∨ r.acked + b ≠ r.issued → Yields (exec (.engineAccessAck gid lid r.id b) s) (fun t =>
         t.proc.fifo = [{ r with acked := r.acked + b }] ∧ t.proc.lastRet = p.lastRet ∧ counts t)) ∧
       (r.lastIssued = true → r.acked + b = r.issued → r.wr = none → p.pushQ = [] → r.id < 2 ^ 32 →
         Yields (exec (.engineAccessAck gid lid r.id b) s) (fun t =>
         t.proc.fifo = [] ∧ t.proc.lastRet = r.id ∧ (∃ x l, t.proc.done = x :: l ∧ x.id = r.id ∧ x.state = 0) ∧ counts t ∧
         ∀ (i : Fin 12) (d : BitVec 5), f.core.slots[i].wait = some (.cpwait d r.id) → (p.hold = none ∨ i.val = 11) →
           t.core.slots[i] = { (f.core.slots[i].wx d 0).resumed with notBefore := s.cycle + 1 }))) ∧
     (∀ b pa ca sc ty, f.resolveNow false .rw 8 r.w3 0 = .ok (.phys pa) ca sc ty → paType pa = 0 → f.awayIn (.phys pa) 8 = none → s.bad = [] →
       (∀ x ∈ s.far, x.step ≠ s.event) → s.watches = [] → exec (.putCounterAdd gid lid r.id b) s = .next (({ f with
         mem := Memory.write s.mem pa 8 ((Memory.read s.mem pa 8 + b) % 2 ^ 64),
         sigSlots := s.sigSlots.filter (fun e => e.word != .phys (pa - pa % 8)) } : State).after (clusterTransit core (paCore pa) + 1)
           (.engineAccessAck gid lid r.id b)))) ∧
  (∀ (s : State) (gid lid core : Nat),
     let f := s.focus core
     let p := f.proc
     let m := p.mq
     s.coreOf gid lid = some core → f.core.occupied = true → p.gid = gid → p.lid = lid → p.winsize ≤ 2 ^ 18 →
     (∀ op, m.running = [] → m.queue = [op] → m.waiting = [] → m.busyUntil ≤ s.cycle → m.coldAt s.cycle = false → f.core.halted = false →
       f.core.hot = false →
       (f.clusterAt (clusterOf core)).dbgHalted = false → (f.clusterAt (clusterOf core)).droopUntil ≤ s.cycle → p.ended = false → s.units = [] →
         s.bad = [] →
       (∀ x ∈ s.far, x.step ≠ s.event) →
       let starts (occ : Nat) (v : BitVec 8192) : Prop := Yields (exec (.matrixOpStart gid lid) s) (fun t => t.mem = s.mem ∧ t.proc.win = p.win ∧
         t.proc.acc = p.acc ∧ t.proc.mq.queue = [] ∧ t.proc.mq.busyUntil = s.cycle + occ ∧ t.core.slots = f.core.slots ∧
         (∃ x, t.proc.mq.running = [x] ∧ x.id = op.id ∧ x.slot = op.slot ∧ x.res = [(op.acc, v)] ∧ x.flags = 0 ∧ x.doneAt = s.cycle + occ + 2 ∧
           x.late = op.late) ∧ (s.cycle + occ + 2, .matrixOpComplete gid lid) ∈ t.agenda)
       (op.kind = .mclr → starts 2 0) ∧
       (op.kind = .mlda → op.addr.toNat / 2 ^ 48 = 0xFFFF → op.addr.toNat % 16 = 0 → op.addr.toNat % 2 ^ 48 + 1024 ≤ p.winsize →
         starts 32 (BitVec.ofNat 8192 (Memory.read p.win (op.addr.toNat % 2 ^ 48) 1024)))) ∧
     (∀ (op : MOp) (i : Nat) (v : BitVec 8192), m.running = [op] → m.waiting = [] → m.latchWait = [] → op.late = false → op.doneAt ≤ s.cycle →
       op.res = [(i, v)] → i < 4 → op.slot < 12 →
       (f.core.thr op.slot).wait = some .op → (f.core.thr op.slot).kpend = false →
       Yields (exec (.matrixOpComplete gid lid) s) (fun t => t.proc.mq.running = [] ∧ t.mem = s.mem ∧ t.proc.win = p.win ∧
         (∀ j : Fin 4, t.proc.acc[j] = if j.val = i then v else p.acc[j]) ∧
         t.core.thr op.slot = { ((f.core.thr op.slot).flag (BitVec.ofNat 5 op.flags)).resumed with notBefore := s.cycle + 1 } ∧
         ∀ j : Fin 12, j.val ≠ op.slot → t.core.slots[j] = f.core.slots[j])) ∧
     (∀ entry : Nat, entry ≠ 0 → p.hdrs = [] → p.held = [] → p.spilled = [] → p.copies = [] → p.stream = none → m.latchWait = [] →
       (∀ j : Fin 12, f.core.slots[j].kpend = false) → Yields (exec (.latchEntryAppend gid lid entry) s) (fun t =>
       t.proc.latch = p.latch.map (fun e => if e.id == entry then { e with ready := true } else e) ∧ t.proc.win = p.win ∧
       (∀ j : Fin 12, let u := f.core.slots[j]
         t.core.slots[j] = if (u.wait = some (.mldb true) ∨ u.wait = some (.mldb false)) ∧ u.got = [entry] then
           { u.resumed with got := [], notBefore := s.cycle + 1 }
         else if u.wait = some (.retry .latchEmpty) then { u with wait := some (.retry .appended), notBefore := s.cycle + 1 } else u))) ∧
     (m.queue = [] → m.cold = false → m.busyUntil + 256 ≤ s.cycle → m.burst ≤ s.cycle →
       exec (.engineCold gid lid) s = .next (f.setProc { p with mq := { m with cold := true } })))

/-- O53. The annealer unit (R336, R337, R339, R340, R342, R343, R363, R365, Tables 15.7 to 15.9): a timed proposal that is due is made, or
waits for a fold or a swap to end; a draw outside the domain is a failure with its reason; one that does not raise the energy, of two
cores that can take part, is in flight with both cores named; a fold reads and clears the counts one handle after another (log entry 35),
and at its end the weights follow by their rule; a write of TPOS clears ENDED and a write of a weight leaves the other weights. -/
def Obligations.AnnealerSteps : Prop :=
  ∀ (s : State) (die idx : Nat) (u : AUnit), s.aunitOf die idx = some u →
    let unit (t : State) (P : AUnit → Prop) : Prop := ∃ v, t.aunitOf die idx = some v ∧ P v
    (u.ctl % 4 = 3 → (∃ r, u.resolvedAt = some r ∧ r + u.pint ≤ s.cycle) → u.drawing = none → s.groupRuns u.gid = true →
      (u.inFlight = false → u.fold = none → exec (.proposalTimer die idx) s = .next (s.afterOnce 0 (.proposal die idx))) ∧
      (u.inFlight = true ∨ u.fold ≠ none → exec (.proposalTimer die idx) s = .next (s.setAunit { u with due := true }))) ∧
    (s.groupRuns u.gid = true → u.ctl / 8 % 2 = 0 → u.inFlight = false → u.fold = none → u.drawing = none →
      let x := xorshift u.seed
      let ci := x.toNat / 2 ^ 8 % 2 ^ 8 % (u.w * u.h)
      let a := coreId (u.gx + ci % u.w) (u.gy + ci / u.w)
      let b := coreId (u.gx + ci % u.w + 1) (u.gy + ci / u.w)
      let both (P : State → Prop) : Prop := Yields (exec (.proposal die idx) s) P ∧ Yields (exec (.propose die idx) s) P
      x.toNat / 2 ^ 16 % 4 = 1 →
        (u.w ≤ ci % u.w + 1 → both (fun t => t.moves = s.moves ∧ unit t (fun v => v.seed = x ∧ v.reason = .outside ∧ v.inFlight = false ∧
          v.failures = u.failures + 1 ∧ v.rej = (if u.rej + 1 = 128 then 0 else u.rej + 1)))) ∧
        (ci % u.w + 1 < u.w → (s.coreAt a).occupied = true → (s.coreAt a).proc.anch = false → (s.coreAt b).occupied = true →
          (s.coreAt b).proc.anch = false → s.moveBusy a = false → s.moveBusy b = false → s.delta u a b ≤ 0 →
          both (fun t => unit t (fun v => v.seed = x ∧ v.reason = .inflight ∧ v.inFlight = true ∧ v.kreq = 0) ∧
            (∃ m, t.moves = s.moves ++ [m] ∧ m.id = s.nextMove ∧ m.kind = .swap u.die u.idx ∧ m.a = a ∧ m.b = b ∧ m.swto = u.swto ∧
              m.transfer = false) ∧
            (t.coreAt a).moving = some s.nextMove ∧ (t.coreAt b).moving = some s.nextMove ∧
            (s.cycle + transit (coreId u.gx u.gy) a, .swapProposalArrival s.nextMove a) ∈ t.agenda ∧
            (s.cycle + transit (coreId u.gx u.gy) b, .swapProposalArrival s.nextMove b) ∈ t.agenda))) ∧
    (u.fold = none → Yields (exec (.fold die idx) s) (fun t => t.mem = s.mem ∧ t.core = s.core ∧ t.others = s.others ∧
      unit t (fun v => v.fold = some [] ∧ v.foldFrom = s.cycle ∧ v.foldAt = 0 ∧ v.wts = u.wts) ∧
      (s.cycle, .fold u.die u.idx) ∈ t.agenda ∧ (s.cycle + 256 * (u.w * u.h) + 1024, .foldEnd u.die u.idx) ∈ t.agenda)) ∧
    (∀ got c o, u.fold = some got → s.cycle = u.foldFrom + 8 * u.foldAt → s.indexCore u (u.foldAt / 32) = some c →
      let p := (s.coreAt c).proc
      p.handle (u.foldAt % 32) = some o → Yields (exec (.fold die idx) s) (fun t => t.mem = s.mem ∧
        (t.coreAt c).proc = p.setHandle (u.foldAt % 32) (some { o with since := 0 }) ∧
        unit t (fun v => v.foldAt = u.foldAt + 1 ∧ v.wts = u.wts ∧
          v.fold = some (if o.since = 0 then got else got ++ [(p.didx, u.gid, o.lid, o.since)])) ∧
        (u.foldAt + 1 < 32 * (u.w * u.h) → (s.cycle + 8, .fold u.die u.idx) ∈ t.agenda))) ∧
    (∀ i j n lid e, u.fold = some [(i, u.gid, lid, n)] → u.foldFrom + 256 * (u.w * u.h) + 1024 ≤ s.cycle → u.ext = [] →
      (∃ x ∈ s.domainProcs u, x.2.didx = i) →
      (s.domainProcs u).find? (fun x => x.2.lid == lid) = some e → e.2.didx = j → Yields (exec (.foldEnd die idx) s) (fun t => t.mem = s.mem ∧
        unit t (fun v => v.fold = none ∧ ∀ k l,
          let w := u.weight k l
          v.weight k l = w - w / 8 + min ((if k = i ∧ l = j then n else 0) / 64) (65535 - w)))) ∧
    (∀ val : Word, Yields (exec (.tposWrite die idx val) s) (fun t => unit t (fun v =>
      v = { u with tpos := min val.toNat (2 ^ 24), ctl := u.ctl % 16 }) ∧ t.mem = s.mem)) ∧
    (∀ (i j : Nat) (val : Word), Yields (exec (.weightWrite die idx i j val) s) (fun t => t.mem = s.mem ∧ t.agenda = s.agenda ∧
      unit t (fun v => ∀ k l, v.weight k l = if k = i ∧ l = j then val.toNat % 2 ^ 16 else u.weight k l)))

/-- O54. Moves (R345-R348, R361, Table 15.3), between two cores of one cluster: a request holds the process at its core and starts the
timeout; when both sides are at their swap points the transfer begins, its time fixed by the bytes; at its end the process stands at the
other core with its window and registers, its move count one higher, and its placement entry names the core; a timeout before the transfer
ends the move, and the proposal has failed with its reason; and a request of a process is answered by its status, and starts a move where
it is taken. The thermal rules (R352, R353, R408; TRIP of Table 2.6): a new temperature is TEMP, and a core is hot from 1760 on until it
is below 1680; a temperature below TRIP - 80 arms the process's next request; at TRIP or above one further slot is withheld in a step, and
below TRIP the process of withholding ends; once slots are being returned, each step returns one; a request of an anchored process fails,
is raised again 65,536 cycles later, and slots are withheld; and a write of TRIP is limited to 1520. -/
def Obligations.MovesAndHeat : Prop :=
  (∀ (s : State) (move : Nat) (m : Move), s.moves.find? (fun x => x.id == move) = some m → m.a ≠ m.b → clusterOf m.a = clusterOf m.b →
     let ka := s.coreAt m.a
     let kb := s.coreAt m.b
     (s.dbgHalted m.a = false → ka.moving = some move → ka.occupied = true → ka.proc.hold = none →
       Yields (exec (.swapProposalArrival move m.a) s) (fun t => (t.coreAt m.a).proc = { ka.proc with hold := some (.move move), holdAt := s.cycle } ∧
         (∃ x, t.moves.find? (fun x => x.id == move) = some x ∧ x.arrA = true) ∧ (s.cycle + m.swto, .swapTimeout move m.a) ∈ t.agenda)) ∧
     (m.transfer = false → s.sideReady m.a = true → s.sideReady m.b = true →
       let bytes := max (if ka.occupied then ka.proc.winsize + 24576 else 0) (if kb.occupied then kb.proc.winsize + 24576 else 0)
       exec (.swapTransfer move) s = .next (({ s with moves := s.moves.map (fun x => if x.id == move then { x with transfer := true, began := s.cycle } else x) } : State).after
         (match m.kind with | .swap _ _ => 64 + (bytes + 63) / 64 | _ => (bytes + 31) / 32 + transit m.a m.b) (.swapResume move))) ∧
     (m.kind = .requested → ka.occupied = true → kb.occupied = false → s.mem.wf → ka.proc.held = [] → ka.proc.spilled = [] →
       ka.proc.stream = none → ka.proc.copies = [] → ka.proc.mc < 2 ^ 16 → m.a < 2 ^ 12 → m.b < 2 ^ 12 →
       Yields (exec (.swapResume move) s) (fun t => (t.coreAt m.a).occupied = false ∧ (t.coreAt m.b).occupied = true ∧
         (t.coreAt m.b).proc.gid = ka.proc.gid ∧ (t.coreAt m.b).proc.lid = ka.proc.lid ∧ (t.coreAt m.b).proc.win = ka.proc.win ∧
         (t.coreAt m.b).proc.mc = (ka.proc.mc + 1) % 2 ^ 16 ∧ (∀ i, i < 11 → ((t.coreAt m.b).thr i).f = (ka.thr i).f ∧
           ((t.coreAt m.b).thr i).v = (ka.thr i).v) ∧
         (∀ g, s.groupOf ka.proc.gid = some g → s.units = [] → paType (ka.proc.plbase.toNat + 8 * ka.proc.lid) = 0 →
           t.placeEntry m.b ka.proc.gid ka.proc.lid % 2 ^ 12 = m.b ∧
           t.placeEntry m.b ka.proc.gid ka.proc.lid / 2 ^ 48 = (ka.proc.mc + 1) % 2 ^ 16))) ∧
     (∀ die idx u, m.kind = .swap die idx → s.aunitOf die idx = some u → m.transfer = false → Yields (exec (.swapTimeout move m.a) s) (fun t =>
       (∀ x ∈ t.moves, x.id ≠ move) ∧ ∃ v, t.aunitOf die idx = some v ∧ v.reason = .timeout ∧ v.inFlight = false)) ∧
     (m.transfer = true → exec (.swapTimeout move m.a) s = .next s) ∧
     (∀ (core slot : Nat) (d : BitVec 5) (target : Word), slot < 12 → (s.focusSlot core slot).thr.wait = some (.migreq d target) →
       let f := s.focusSlot core slot
       (f.proc.anch = true → exec (.migrationRequestService core slot) s = .next (f.setThr (f.thr.wx d 1).resumed)) ∧
       (f.proc.anch = false → f.proc.migp = true → exec (.migrationRequestService core slot) s = .next (f.setThr (f.thr.wx d 3).resumed)) ∧
       (∀ c, f.proc.anch = false → f.proc.migp = false → s.groupRuns f.proc.gid = true → f.core.occupied = true → target ≠ BitVec.allOnes 64 →
         f.proc.regionCore target = some c → f.eligible none c = true → Yields (exec (.migrationRequestService core slot) s) (fun t =>
           (∃ x, t.moves = s.moves ++ [x] ∧ x.kind = .requested ∧ x.a = core ∧ x.b = c ∧ x.transfer = false) ∧ (t.coreAt core).proc.migp = true ∧
           (t.thrAt core slot).wait = none ∧ (d ≠ 0#5 → (t.thrAt core slot).rx d = 0))))) ∧
  (∀ (s : State) (core : Nat),
     let f := s.focus core
     let k := f.core
     let trip : Int := if k.occupied then k.proc.trip.toInt else 1520
     let now := k.temp.toInt
     (∀ temp : Word, Yields (exec (.sensorUpdate core temp) s) (fun t => (t.coreAt core).temp = temp ∧ t.mem = s.mem ∧
       (t.coreAt core).hot = decide (1760 ≤ temp.toInt ∨ (k.hot = true ∧ 1680 ≤ temp.toInt)) ∧
       (k.occupied = true → temp.toInt < trip - 80 → (t.coreAt core).proc.armed = true))) ∧
     (k.thermRun = true → trip ≤ now → exec (.slotWithholdStep core) s =
       .next (({ f with core := { k with thermWithheld := min 10 (k.thermWithheld + 1) } } : State).after 4096 (.slotWithholdStep core))) ∧
     (k.thermRun = true → now < trip → exec (.slotWithholdStep core) s = .next { f with core := { k with thermRun := false } }) ∧
     (k.thermRun = false → 0 < k.thermWithheld → Yields (exec (.slotWithholdStep core) s) (fun t =>
       t.core = { k with thermWithheld := k.thermWithheld - 1 } ∧ t.mem = s.mem ∧
       (1 < k.thermWithheld → (s.cycle + 4096, .slotWithholdStep core) ∈ t.agenda))) ∧
     (∀ gid lid, s.coreOf gid lid = some core → k.proc.gid = gid → k.proc.lid = lid →
       (k.proc.migp = true ∨ now < k.proc.trip.toInt → exec (.thermalRetryTimer gid lid) s = .next f) ∧
       (k.proc.migp = false → k.proc.trip.toInt ≤ now → k.proc.anch = true → Yields (exec (.thermalRetryTimer gid lid) s) (fun t =>
         (s.cycle + 65536, .thermalRetryTimer gid lid) ∈ t.agenda ∧ t.core.thermRun = true ∧ t.moves = s.moves))) ∧
     (∀ v : Word, Yields (exec (.tripWrite core v) s) (fun t => (t.coreAt core).proc.trip = if 1520 < v.toInt then 1520#64 else v)))

/-- O55. Parking a group and bringing it back (R349, R390-R392): PREEMPT of a running group marks it for parking with its inbox and abandons
its folds; for another group the service request is answered 1. A hold that times out before every process has reached its swap point is
undone: the group runs, and the messages of its inbox go into the edge queue. A group that is drained is answered 0, is being parked, and
each of its cores gets a record. SAVED and LOADED of a lid that qualifies are answered 0, else 1; the last lid saved parks the group, and
the last lid loaded brings the step that resumes it; a resumed group runs and the messages of its inbox go into the edge queue. The
messages of an inbox enter behind those in the edge queue (log entry 45), the inbox's base is aligned down to 64 (log entry 40), and the
250 cycles until the group resumes have no bound in the spec (log entry 1): these are the model's choices. -/
def Obligations.GroupSteps : Prop :=
  ∀ (s : State) (gid : Nat),
    let grp (t : State) (P : Group → Prop) : Prop := ∃ g, t.groupOf gid = some g ∧ P g
    let note : TrapRec := {
      pc := 0, addr := 0, code := 0x08, slot := 0, src := 4, frame := false, pass := 0, posn := 0, info := 0, word := 0, cause := 0 }
    (∀ inbox n timeout core d, (∀ g, s.groupOf gid = some g → g.phase ≠ .running) → (s.thrAt core 11).wait = some (.svsend d) →
      exec (.preempt gid inbox n timeout core) s =
        .next (s.setThrAt core 11 { ((s.thrAt core 11).wx d 1).resumed with got := [] })) ∧
    (∀ g, s.groupOf gid = some g →
      (∀ inbox n timeout core, g.phase = .running → Yields (exec (.preempt gid inbox n timeout core) s) (fun t =>
        grp t (fun v => v = { g with phase := .holding, inbox := inbox / 64 * 64, inboxCap := n, inboxQ := [], svCore := core, held := [],
                                     savedL := [timeout], loadedL := [] }) ∧
        t.mem = s.mem ∧ t.core = s.core ∧ t.others = s.others ∧
        (∀ u ∈ t.aunits, u.gid = gid → u.fold = none) ∧
        (∀ u ∈ s.aunits, (∀ w ∈ s.aunits, w.gid = gid → (w.die, w.idx) ≠ (u.die, u.idx)) → u ∈ t.aunits))) ∧
      (g.phase ≠ .holding → exec (.preemptHoldTimeout gid) s = .next s ∧ exec (.preemptDrained gid) s = .next s) ∧
      (∀ c, g.phase = .holding → g.held ≠ [] → c ∈ s.groupCores gid → s.atSwapPoint c = false →
        Yields (exec (.preemptHoldTimeout gid) s) (fun t => grp t (fun v => v.phase = .running ∧ v.inboxQ = [] ∧ v.n = g.n) ∧
          t.module.edgeQ = s.module.edgeQ ++ g.inboxQ)) ∧
      (g.phase = .holding → Yields (exec (.preemptDrained gid) s) (fun t => grp t (fun v => v = { g with phase := .parking, savedL := [] }) ∧
        t.mem = s.mem ∧
        (∀ d, (s.thrAt g.svCore 11).wait = some (.svsend d) → (t.thrAt g.svCore 11).rx d = 0 ∧ (t.thrAt g.svCore 11).wait = none) ∧
        ∀ c ∈ s.groupCores gid, ∃ e ∈ t.agenda, e = (s.cycle + 4, .trapRecordEnqueue c note))) ∧
      (∀ lid c d, (s.thrAt c 11).wait = some (.svsend d) → (s.thrAt c 11).got = [2, gid, lid] →
        let done (v : Word) (t : State) : Prop := (t.thrAt c 11).wait = none ∧ (d ≠ 0#5 → (t.thrAt c 11).rx d = v) ∧ t.mem = s.mem
        (g.phase = .parking → (∃ e ∈ g.store, e.1 = lid) → lid ∉ g.savedL → Yields (exec (.saved gid lid) s) (fun t => done 0 t ∧
          grp t (fun v => v.savedL = g.savedL ++ [lid] ∧ v.n = g.n ∧ v.store = g.store ∧
            v.phase = (if g.savedL.length + 1 = g.n - g.ends.length then GroupPhase.parked else GroupPhase.parking)))) ∧
        (g.phase ≠ .parking ∨ (∀ e ∈ g.store, e.1 ≠ lid) ∨ lid ∈ g.savedL → Yields (exec (.saved gid lid) s) (fun t => done 1 t ∧
          t.groups = s.groups))) ∧
      (∀ lid c d, (s.thrAt c 11).wait = some (.svsend d) → (s.thrAt c 11).got = [3, gid, lid] →
        let done (v : Word) (t : State) : Prop := (t.thrAt c 11).wait = none ∧ (d ≠ 0#5 → (t.thrAt c 11).rx d = v) ∧ t.mem = s.mem
        (∀ k, g.phase = .parked → s.coreOf gid lid = some k → (s.coreAt k).proc.hold = some .loaded → lid ∉ g.loadedL →
          Yields (exec (.loaded gid lid) s) (fun t => done 0 t ∧ grp t (fun v => v = { g with loadedL := g.loadedL ++ [lid] }) ∧
            (g.loadedL.length + 1 = g.n - g.ends.length → (s.cycle + 250, .groupResume gid) ∈ t.agenda))) ∧
        (g.phase ≠ .parked ∨ s.coreOf gid lid = none ∨ (∃ k, s.coreOf gid lid = some k ∧ (s.coreAt k).proc.hold ≠ some .loaded) ∨ lid ∈ g.loadedL →
          Yields (exec (.loaded gid lid) s) (fun t => done 1 t ∧ t.groups = s.groups))) ∧
      (g.phase = .parked → g.loadedL.length = g.n - g.ends.length → Yields (exec (.groupResume gid) s) (fun t =>
        grp t (fun v => v.phase = .running ∧ v.store = [] ∧ v.inboxQ = [] ∧ v.n = g.n) ∧ t.module.edgeQ = s.module.edgeQ ++ g.inboxQ)) ∧
      (g.phase ≠ .parked ∨ g.loadedL.length ≠ g.n - g.ends.length → exec (.groupResume gid) s = .next s))

/-- O56. Writes of registers that are steps of their own, and repair (R6, R88, R231, R385, R387, R399, R401, R410, R411, Tables 19.4 and
21.1): what a write of UQCFG leaves as the base and the size of the queue, and what writes of INTPOST, TXVAL, RHSEL.CLR, FPCTL, a format
register, MODID, DROOPHOLD, an attestation nonce and the vector's mask leave, and the failure code of bring-up (R403); a number of Table
19.4 in another slot than 11 traps PRIV; a comparator of a cluster is set; a halted core is restarted with slot 11 at the runtime's entry
(log entry 5), goes out of service when it is empty, and otherwise its process moves to an eligible core. -/
def Obligations.RegisterSteps : Prop :=
  ∀ (s : State) (core : Nat) (v : Word),
    let f := s.focus core
    let only (o : Out) (p : Proc) : Prop := Yields o (fun t => t.core.proc.uqbase = p.uqbase ∧ t.core.proc.uqsize = p.uqsize)
    ((∃ e ∈ f.core.proc.uq, e.pad = false) → only (exec (.uqcfgWrite core v) s) f.core.proc) ∧
    ((∀ e ∈ f.core.proc.uq, e.pad = true) → f.core.proc.held = [] → f.core.proc.spilled = [] →
      ∀ base size : Nat, base = v.toNat % 2 ^ 18 / 256 * 256 → size = v.toNat / 2 ^ 32 % 2 ^ 18 / 256 * 256 →
      only (exec (.uqcfgWrite core v) s) { f.core.proc with
        uqbase := base, uqsize := if f.core.proc.winsize < base + size then (f.core.proc.winsize - base) / 256 * 256 else size }) ∧
    Yields (exec (.intpostWrite core v) s) (fun t => t.mem = s.mem ∧ t.core.proc = f.core.proc ∧ ∀ i : Fin 12,
      (v.getLsbD i.val = false ∨ f.core.slots[i].live = false → t.core.slots[i] = f.core.slots[i]) ∧
      (v.getLsbD i.val = true → f.core.slots[i].live = true → f.core.slots[i].wait = none →
        t.core.slots[i] = { f.core.slots[i] with intr := true }) ∧
      (∀ d, v.getLsbD i.val = true → f.core.slots[i].live = true → f.core.slots[i].wait = some (.trget d) →
        t.core.slots[i].wait = none ∧ ∀ j, j < 4 → t.core.slots[i].rx (d + BitVec.ofNat 5 j) = 0) ∧
      (∀ d dl, v.getLsbD i.val = true → f.core.slots[i].live = true → f.core.slots[i].wait = some (.waitm d dl) →
        f.core.proc.hold = none ∨ i.val = 11 → t.core.slots[i].wait = none ∧ t.core.slots[i].intr = false)) ∧
    (∀ i : Fin 12, f.core.txsel.toNat % 16 = i.val → f.core.slots[i].trap.isSome = true →
      exec (.txvalWrite core v) s = .next (f.setThrAt core i.val
        (if f.core.txsel.getLsbD 8 then f.core.slots[i].wf (f.core.txsel.extractLsb' 16 5) v else f.core.slots[i].wx (f.core.txsel.extractLsb' 16 5) v))) ∧
    ((∀ i : Fin 12, f.core.txsel.toNat % 16 = i.val → f.core.slots[i].trap = none) → exec (.txvalWrite core v) s = .next f) ∧
    (exec (.rhselClr core) s = .next { f with core := { f.core with hist := Vector.replicate 13 0 } }) ∧
    (∀ i : Fin 12,
      let fp : Word := (v &&& 0x1F18#64) ||| (if v.toNat % 8 ≤ 4 then v &&& 7#64 else 0)
      exec (.registerWrite (.status core i.val 0x000) v) s = .next (({ f with slot := i } : State).setThr { f.core.slots[i] with fpctl := fp })) ∧
    (∀ (i : Fin 12) (n : Fin 8), f.core.occupied = true → Yields (exec (.registerWrite (.status core i.val (0x010 + n.val)) v) s) (fun t =>
      t.core = { f.core with proc := { f.core.proc with fm := f.core.proc.fm.set n (v &&& 0x01FF07FF#64) n.isLt } } ∧ t.mem = s.mem)) ∧
    (exec (.registerWrite (.bar2 0x0000) v) s = .next (if s.module.phase = 1 then { s with module := { s.module with modid := v.toNat % 2 ^ 16 } } else s)) ∧
    (∀ (i : Fin 12) (num : Nat), f.core.slots[i].live = true → 0x800 ≤ num → i.val ≠ 11 →
      exec (.registerWrite (.status core i.val num) v) s = ({ f with slot := i } : State).takeTrap .priv 0) ∧
    (exec (.registerWrite .msixMask v) s = .next (if v.getLsbD 0 then { s with module := { s.module with masked := true } } else s)) ∧
    (exec (.registerWrite .failure v) s = .next (if s.module.phase = 0 then { s with module := { s.module with failCode := 1 } }
      else if s.module.phase = 1 then { s with module := { s.module with failCode := 2 } } else s)) ∧
    (∀ (cl : Nat) (n : Fin 4) (b : Break), Yields (exec (.registerWrite (.comparator cl n.val b) v) s) (fun t =>
      (t.clusterAt cl).breaks[n] = b ∧ t.mem = s.mem ∧ t.core = s.core)) ∧
    (exec (.registerWrite (.bar2 0x0040) v) s = .next { s with module := { s.module with droophold := v.toNat % 256 } }) ∧
    (∀ n : Fin 4, exec (.registerWrite (.bar2 (0x0060 + 8 * n.val)) v) s =
      .next { s with module := { s.module with attnonce := s.module.attnonce.set n v n.isLt } }) ∧
    (∀ target restart, f.core.halted = false → exec (.coreRepair core target restart) s = .next f) ∧
    (∀ target, f.core.halted = true →
      Yields (exec (.coreRepair core target true) s) (fun t => (t.coreAt core).halted = false ∧ (t.thrAt core 11).live = true ∧
        (t.thrAt core 11).pc = entryPc ∧
        (t.thrAt core 11).wait = none ∧ (∀ r, (t.thrAt core 11).rx r = 0) ∧ (t.thrAt core 11).notBefore = s.cycle + 1) ∧
      (f.core.occupied = false → exec (.coreRepair core target false) s = .next { f with core := { f.core with oos := true } }) ∧
      (f.core.occupied = true → f.eligible none target = true → target ∈ f.proc.regionCores → f.core.moving = none →
        Yields (exec (.coreRepair core target false) s) (fun t => t.mem = s.mem ∧
          ∃ m, t.moves = s.moves ++ [m] ∧ m.kind = .repair ∧ m.a = core ∧ m.b = target ∧ m.transfer = false)))

/-- O57. The host ring, interrupts and attestation (R399, R401, R405, R407): HRHEAD takes a multiple of 64 between itself and HRTAIL in ring
order, and the host is signalled again when messages are left; HRBASE and HRSIZE are taken only while the ring is empty and the value is
legal; SLOTCAP is limited to 10; unmasking the vector sends what is pending; a message that fits is written at HRTAIL behind its header,
and HRTAIL moves past it; a report holds the nonce and MODID and ends the request. That MODID stands at offset 32 of the report, behind
the nonce, is the model's layout (log entry 9). Mailboxes and the edge queue (R245, R390, R403, R404, R412): a write of a whole mailbox
whose header is legal and whose group is bound, not being parked, and has the lid puts its message into the edge queue; in phase 0, and
where the header is not legal, MBDROP counts one; a message that its mailbox holds is taken once the queue has room; and the queue sends
its first message that may leave as one packet, with the next sequence number of its lid's channel. That the channel number of a message
from HOST is 0 is the model's choice (log entry 61). -/
def Obligations.HostSide : Prop :=
  (∀ (s : State),
     let m := s.module
     let keep (t : State) : Prop := t.mem = s.mem ∧ t.core = s.core ∧ t.others = s.others
     let told (t : State) : Prop := t.module.notify = true ∧
       (m.masked = true → t.module.msiPending = true ∧ t.module.msiSent = m.msiSent) ∧ (m.masked = false → t.module.msiSent = m.msiSent + 1)
     (∀ v : Word,
       let dist (x : Nat) : Nat := (x + m.hrsize - m.hrhead) % m.hrsize
       (v.toNat % 64 = 0 → v.toNat < m.hrsize → dist v.toNat ≤ dist m.hrtail → Yields (exec (.hrheadWrite v) s) (fun t => keep t ∧
         t.module.hrhead = v.toNat ∧ t.module.hrtail = m.hrtail ∧ (v.toNat ≠ m.hrtail → told t) ∧ (v.toNat = m.hrtail → t.module.notify = false))) ∧
       (v.toNat ≠ m.hrhead → v.toNat % 64 ≠ 0 ∨ m.hrsize ≤ v.toNat ∨ dist m.hrtail < dist v.toNat → exec (.hrheadWrite v) s = .next s) ∧
       (m.hrtail ≠ m.hrhead ∨ v.toNat % 4096 ≠ 0 → exec (.hrbaseWrite v) s = .next s) ∧
       (m.hrtail = m.hrhead → v.toNat % 4096 = 0 → Yields (exec (.hrbaseWrite v) s) (fun t => keep t ∧
         t.module = { m with hrbase := v, hrtail := 0, hrhead := 0 })) ∧
       (m.hrtail = m.hrhead → v = 0 ∨ (∃ i, i ≤ 18 ∧ v.toNat = 2 ^ (12 + i)) → Yields (exec (.hrsizeWrite v) s) (fun t => keep t ∧
         t.module = { m with hrsize := v.toNat, hrtail := 0, hrhead := 0 })) ∧
       (m.hrtail ≠ m.hrhead ∨ (v ≠ 0 ∧ ∀ i, i ≤ 18 → v.toNat ≠ 2 ^ (12 + i)) → exec (.hrsizeWrite v) s = .next s) ∧
       Yields (exec (.slotcapWrite v) s) (fun t => keep t ∧ t.module = { m with slotcap := min 10 (v.toNat % 16) }) ∧
       (v.getLsbD 0 = true → m.attctl = false → Yields (exec (.attctlWrite v) s) (fun t => keep t ∧ t.module = { m with attctl := true } ∧
         ∃ e ∈ t.agenda, e.2 = .attestationReport)) ∧
       (v.getLsbD 0 = false ∨ m.attctl = true → exec (.attctlWrite v) s = .next s)) ∧
     (let sent : Nat := if m.msiPending then m.msiSent + 1 else m.msiSent
      exec .msiXVectorUnmask s = .next { s with module := { m with masked := false, msiPending := false, msiSent := sent } }) ∧
     (s.mem.wf = true → m.modid < 2 ^ 16 → Yields (exec .attestationReport s) (fun t => t.module = { m with attctl := false } ∧ t.core = s.core ∧
       t.others = s.others ∧
       (∀ i : Fin 4, Memory.read t.mem (4 * 2 ^ 56 + m.attaddr.toNat + 8 * i.val) 8 = m.attnonce[i].toNat) ∧
       Memory.read t.mem (4 * 2 ^ 56 + m.attaddr.toNat + 32) 8 = m.modid ∧
       ∀ a, a < 4 * 2 ^ 56 + m.attaddr.toNat ∨ 4 * 2 ^ 56 + m.attaddr.toNat + 2048 ≤ a → Memory.read t.mem a 1 = Memory.read s.mem a 1)) ∧
     (∀ (g : GateCh) (tag len : Nat) (bytes : List Byte) (ab : Bool), m.gate.find? (fun x => x.gid == g.gid && x.lid == g.lid && x.ch == g.ch) = some g →
       g.full = [(tag, len, bytes, ab)] → g.lid < 2 ^ 16 → tag < 2 ^ 16 → s.mem.wf = true →
       let size := (16 + bytes.length + 63) / 64 * 64
       let at_ := 4 * 2 ^ 56 + m.hrbase.toNat + m.hrtail
       m.hrtail + size ≤ m.hrsize → (m.hrtail + m.hrsize - m.hrhead) % m.hrsize + size < m.hrsize →
         Yields (exec (.hostRingWrite g.gid g.lid g.ch) s) (fun t => t.module.hrtail = (m.hrtail + size) % m.hrsize ∧ t.module.hrhead = m.hrhead ∧
           (m.notify = false → told t) ∧ t.core = s.core ∧ t.others = s.others ∧
           Memory.read t.mem at_ 2 = g.lid ∧ Memory.read t.mem (at_ + 4) 2 = tag ∧ Memory.read t.mem (at_ + 6) 1 = (if ab then 1 else 0) ∧
           Memory.bytes t.mem (at_ + 16) bytes.length = bytes ∧
           ∀ a, a < at_ ∨ at_ + size ≤ a → Memory.read t.mem a 1 = Memory.read s.mem a 1)) ∧
     (∀ (g : GateCh), m.gate.find? (fun x => x.gid == g.gid && x.lid == g.lid && x.ch == g.ch) = some g → g.full = [] ∨ m.hrsize = 0 →
       exec (.hostRingWrite g.gid g.lid g.ch) s = .next s)) ∧
  (∀ (s : State) (mb : Nat), mb < 4096 →
     let m := s.module
     let keep (t : State) : Prop := t.mem = s.mem ∧ t.core = s.core ∧ t.others = s.others
     (∀ h (pay : List Byte), pay.length = 56 → h < 2 ^ 64 → m.mbox.wf = true → m.mbBusy = [] → m.edgeQ.length < 8192 →
       let gid := Memory.read m.mbind (2 * mb) 2
       (∀ g, s.groupOf gid = some g → gid ≠ 0 → g.phase = .running → h < 2 ^ 38 → h / 2 ^ 32 ≤ 56 → h % 2 ^ 16 < g.n → m.phase ≠ 0 →
         Yields (exec (.mailboxWrite (64 * mb) (leBytes 8 h ++ pay)) s) (fun t => keep t ∧ t.module.mbdrop = m.mbdrop ∧ t.module.edgeQ = m.edgeQ ++
           [{ gid := gid, lid := h % 2 ^ 16, tag := h / 2 ^ 16 % 2 ^ 16, len := h / 2 ^ 32, payload := pay.take (h / 2 ^ 32) }])) ∧
       (m.phase = 0 ∨ 2 ^ 38 ≤ h ∨ 56 < h / 2 ^ 32 ∨ gid = 0 ∨ (∀ g, s.groupOf gid = some g → g.n ≤ h % 2 ^ 16) →
         Yields (exec (.mailboxWrite (64 * mb) (leBytes 8 h ++ pay)) s) (fun t => keep t ∧ t.module.mbdrop = m.mbdrop + 1 ∧
           t.module.edgeQ = m.edgeQ))) ∧
     (m.mbBusy = [] → exec .mailboxTake s = .next s) ∧
     (∀ gid msg g, m.mbBusy = [(mb, gid)] → s.mailOf mb gid = some msg → s.groupOf msg.gid = some g → g.phase = .running →
       (m.edgeQ.length < 8192 → Yields (exec .mailboxTake s) (fun t => keep t ∧ t.module = { m with mbBusy := [], edgeQ := m.edgeQ ++ [msg] })) ∧
       (8192 ≤ m.edgeQ.length → exec .mailboxTake s = .next s)) ∧
     ((∀ x ∈ m.edgeQ, s.canSend x = false) → exec .edgeQueueSend s = .next s) ∧
     (∀ pre x rest c, m.edgeQ = pre ++ x :: rest → (∀ y ∈ pre, s.canSend y = false) → s.canSend x = true → s.coreOf x.gid x.lid = some c →
       let k := s.hostChan x.gid x.lid
       let pkt : Packet := {
         gid := x.gid, src := 0xFFFE, dst := x.lid, ch := 0, seq := k.seq, first := true, last := true, release := false, ackreq := k.unack + 1 == 16,
         close := false, abort := false, tag := x.tag, len := x.len, payload := x.payload, sig := {}, origin := gateCore }
       Yields (exec .edgeQueueSend s) (fun t => keep t ∧ t.module.edgeQ = pre ++ rest ∧
         t.hostChan x.gid x.lid = { k with gid := x.gid, lid := x.lid, seq := (k.seq + 1) % 4096, unack := k.unack + 1 } ∧
         (s.cycle + transit 0 c + 9, .channelPacketArrival c pkt) ∈ t.agenda)))

/-- O58. Links, bring-up, droop holds and debug halts (R402, R403, R406, R409, Table 21.2): a bad flit counts as failed, and the 64th in a row
stops the port; a good flit in sequence is accepted, one accepted before is discarded, and both are acknowledged, but by a port that has
stopped; a request of another module that has reached its place is performed there and answered, and a reply goes to the thread that asked
(R40, R247); an unacknowledged flit is sent again after 8,192 cycles. RESET leaves phase 0 and keeps host memory alone; FIRMWARE_VERIFIED
enters phase 1 and starts slot 11 of every core (log entry 5); VAULT_TRAINED enters phase 2. A droop holds its cluster for DROOPHOLD
cycles; a debug halt stops its cluster, and resuming schedules the timeouts that stood still. That memory reads 0 after RESET (log entry
3), what the registers of the module hold then (log entries 4 and 66), and that a resend counts as one failure (log entry 46) are the
model's choices. -/
def Obligations.ModuleSteps : Prop :=
  ∀ (s : State),
    (∀ (n : Fin 12) (seq : Nat) (item : LinkItem), seq < 4096 →
      let p := s.module.ports[n]
      Yields (exec (.linkFlitReceive n.val seq false item) s) (fun t => t.mem = s.mem ∧ t.core = s.core ∧ t.module.ports[n].failed = p.failed + 1 ∧
        t.module.ports[n].rxSeq = p.rxSeq ∧ t.module.ports[n].stopped = (p.stopped || decide (64 ≤ p.failed + 1)) ∧
        (p.failed = 63 → p.stopped = false → t.module.reports = s.module.reports ++ [.link n.val])) ∧
      (∀ pkt c, item = .packet pkt → seq = p.rxSeq → s.coreOf pkt.gid pkt.dst = some c →
        Yields (exec (.linkFlitReceive n.val seq true item) s) (fun t => t.module.ports[n] = { p with failed := 0, rxSeq := (seq + 1) % 4096, ackOut := if p.stopped then p.ackOut else some seq } ∧
          ∃ e ∈ t.agenda, s.cycle ≤ e.1 ∧ ∃ k, e.2 = .channelPacketArrival k { pkt with origin := gateCore })) ∧
      (seq ≠ p.rxSeq → (∀ k, item ≠ .accepted k) → Yields (exec (.linkFlitReceive n.val seq true item) s) (fun t =>
        t.module.ports[n] = { p with failed := 0, ackOut := if p.stopped then p.ackOut else some ((p.rxSeq + 4095) % 4096) } ∧ t.agenda = s.agenda)) ∧
      (p.unacked = [] → exec (.linkResendTimeout n.val) s = .next s) ∧
      (∀ e rest, p.unacked = e :: rest → e.2.1 + 8192 ≤ s.cycle → p.stopped = false → p.failed < 63 →
        Yields (exec (.linkResendTimeout n.val) s) (fun t => t.module.ports[n].unacked = p.unacked.map (fun x => (x.1, s.cycle, x.2.2)) ∧
          t.module.ports[n].failed = p.failed + 1 ∧ (s.cycle + 8192, .linkResendTimeout n.val) ∈ t.agenda))) ∧
    (∀ (n : Fin 12) (r : LinkReq) (v fault : Nat) (g : Sig),
      let inside (x : LinkItem) : Out := exec (.linkFlitReceive n.val 4096 true x) s
      (∀ pa, r.place = .phys pa → paType pa = 0 → s.units = [] → s.bad = [] →
        (r.kind = .load → inside (.request r) =
          .next ((s.focus (attachCore n.val)).linkReply (paCore pa) r (Memory.read s.mem pa r.size) 0 {})) ∧
        (r.kind = .store → r.mask = 0 → s.watches = [] → inside (.request r) =
          .next (({ s.focus (attachCore n.val) with mem := Memory.write s.mem pa r.size r.val } : State).linkReply (paCore pa) r 0 0 {}))) ∧
      (r.tag.who < 12 → (∀ d, (s.thrAt r.tag.core r.tag.who).wait ≠ some (.chopen d)) → inside (.reply r v fault g) =
        .next (s.after 0 (.nonlocalReply r.tag.core r.tag.who v fault g)))) ∧
    Yields (exec .reset s) (fun t => t.module = State.reset.module ∧ t.core = State.reset.core ∧ t.others = [] ∧ t.cycle = 0 ∧ t.groups = [] ∧
      (∀ a, a < 4 * 2 ^ 56 → Memory.read t.mem a 1 = 0) ∧ (s.mem.wf = true → ∀ a, 4 * 2 ^ 56 ≤ a → Memory.read t.mem a 1 = Memory.read s.mem a 1)) ∧
    (s.module.phase ≠ 0 → exec .firmwareVerified s = .next s) ∧
    (s.module.phase = 0 → Yields (exec .firmwareVerified s) (fun t => t.module = { s.module with phase := 1, failCode := 0 } ∧ t.mem = s.mem ∧
      ∀ c, c < 3072 → (t.thrAt c 11).live = true ∧ (t.thrAt c 11).pc = entryPc ∧ (t.thrAt c 11).wait = none ∧ (∀ r, (t.thrAt c 11).rx r = 0) ∧
        (t.coreAt c).occupied = (s.coreAt c).occupied)) ∧
    (exec .vaultTrained s = .next (if s.module.phase = 1 then { s with module := { s.module with phase := 2, failCode := 0 } } else s)) ∧
    (∀ cl,
      let k := s.clusterAt cl
      let at_ (t : State) (P : Cluster → Prop) : Prop := P (t.clusterAt cl) ∧ t.mem = s.mem ∧ t.core = s.core ∧ t.others = s.others
      (s.module.droophold = 0 → exec (.droopDetect cl) s = .next s) ∧
      (0 < s.module.droophold → Yields (exec (.droopDetect cl) s) (fun t => at_ t (fun v => v.droopUntil = s.cycle + s.module.droophold + 1 ∧
        v.droopFrom = (if s.cycle < k.droopUntil then k.droopFrom else s.cycle + 1)) ∧
          (s.cycle + s.module.droophold + 1, .droopHoldEnd cl) ∈ t.agenda)) ∧
      (k.droopUntil ≤ s.cycle → Yields (exec (.droopHoldEnd cl) s) (fun t => at_ t (fun v => v = { k with droopFrom := 0, droopUntil := 0 }))) ∧
      (s.cycle < k.droopUntil → exec (.droopHoldEnd cl) s = .next s) ∧
      (k.dbgHalted = true → exec (.debugHalt cl) s = .next s) ∧
      (k.dbgHalted = false → (∀ i, i < 4 → s.inTransfer (clusterCore cl i) = false) → Yields (exec (.debugHalt cl) s) (fun t =>
        at_ t (fun v => v.dbgHalted = true ∧ v.dbgSince = s.cycle ∧ v.modes = k.modes ∧ v.lines = k.lines))) ∧
      (k.dbgHalted = false → exec (.debugResume cl) s = .next s) ∧
      (k.dbgHalted = true → Yields (exec (.debugResume cl) s) (fun t => (t.clusterAt cl).dbgHalted = false ∧
        ∀ e ∈ k.paused, (s.cycle + e.1, e.2) ∈ t.agenda)))

/-- O59. The machine after reset (R9, R160, R245, R399, R403, R406, R407): phase 0, no core occupied and no slot live, every bank in cache
mode, nothing in the edge queue, the DROOPHOLD and SLOTCAP of Table 21.1, and the invariant holds. That memory reads 0 and a core's
registers are 0 is the model's choice (log entries 3 and 4). -/
def Obligations.ResetState : Prop :=
  let s := State.reset
  s.Inv ∧ s.module.phase = 0 ∧ s.module.droophold = 16 ∧ s.module.slotcap = 10 ∧ s.module.hrsize = 0 ∧ s.module.mbdrop = 0 ∧ s.module.edgeQ = [] ∧
  s.agenda = [] ∧ s.groups = [] ∧ (∀ a, Memory.read s.mem a 1 = 0) ∧
  (∀ c, (s.coreAt c).occupied = false ∧ (s.coreAt c).trapQ = [] ∧ ∀ i, (s.thrAt c i).live = false ∧ ∀ r, (s.thrAt c i).rx r = 0) ∧
  (∀ cl, ∀ b : Fin 8, (s.clusterAt cl).modes[b] = .cache)

/-- O60. The invariant: a turn of a core keeps it, whatever state it starts from. Where every memory is canonical, every core listed once by
rising id, every thread's PC a multiple of 4 and its FPCTL legal, they are so after a step in which no event is due and a core has its
turn, where the turn issues nothing, its fetch misses or faults, or the word it fetches is of a major that computes in registers or moves
the PC (R56, R58, R61, R66, R97-R101). -/
def Obligations.TurnsKeepInv : Prop :=
  ∀ (s t : State) (c : Nat) (rest : List Nat),
    s.Inv → s.redo = [] → (∀ e ∈ s.agenda.head?, s.cycle < e.1) → s.todo = c :: rest →
    (∀ w pa, (({ s with todo := rest } : State).focusSlot c (s.cycle % 12)).issue = .word w pa → registerMajor w = true) →
    step s = .next t → t.Inv
end

