-- ==== Sys2Proof/Laws/Fields.lean ====
section
/-! SUPPORT. The fields of a word put together by a format are the fields it was put together from. -/

namespace Sys2Proof

theorem toNat_join {n m : Nat} (x : BitVec n) (y : BitVec m) : (x ++ y).toNat = x.toNat * 2 ^ m + y.toNat := by
  rw [BitVec.toNat_append, Nat.shiftLeft_eq, Nat.mul_comm, ← Nat.two_pow_add_eq_or_of_lt y.isLt]

@[simp] theorem joinR_q (q : BitVec 3) (op : BitVec 6) (d : BitVec 5) (a : BitVec 5) (b : BitVec 5) (fn : BitVec 8) : fld (joinR q op d a b fn) 29 3 = q := by
  apply BitVec.eq_of_toNat_eq
  simp only [fld, joinR, BitVec.extractLsb'_toNat, toNat_join, Nat.shiftRight_eq_div_pow]
  have hq := q.isLt; have hop := op.isLt; have hd := d.isLt; have ha := a.isLt; have hb := b.isLt; have hfn := fn.isLt; omega
@[simp] theorem joinR_op (q : BitVec 3) (op : BitVec 6) (d : BitVec 5) (a : BitVec 5) (b : BitVec 5) (fn : BitVec 8) : fld (joinR q op d a b fn) 23 6 = op := by
  apply BitVec.eq_of_toNat_eq
  simp only [fld, joinR, BitVec.extractLsb'_toNat, toNat_join, Nat.shiftRight_eq_div_pow]
  have hq := q.isLt; have hop := op.isLt; have hd := d.isLt; have ha := a.isLt; have hb := b.isLt; have hfn := fn.isLt; omega
@[simp] theorem joinR_d (q : BitVec 3) (op : BitVec 6) (d : BitVec 5) (a : BitVec 5) (b : BitVec 5) (fn : BitVec 8) : fld (joinR q op d a b fn) 18 5 = d := by
  apply BitVec.eq_of_toNat_eq
  simp only [fld, joinR, BitVec.extractLsb'_toNat, toNat_join, Nat.shiftRight_eq_div_pow]
  have hq := q.isLt; have hop := op.isLt; have hd := d.isLt; have ha := a.isLt; have hb := b.isLt; have hfn := fn.isLt; omega
@[simp] theorem joinR_a (q : BitVec 3) (op : BitVec 6) (d : BitVec 5) (a : BitVec 5) (b : BitVec 5) (fn : BitVec 8) : fld (joinR q op d a b fn) 13 5 = a := by
  apply BitVec.eq_of_toNat_eq
  simp only [fld, joinR, BitVec.extractLsb'_toNat, toNat_join, Nat.shiftRight_eq_div_pow]
  have hq := q.isLt; have hop := op.isLt; have hd := d.isLt; have ha := a.isLt; have hb := b.isLt; have hfn := fn.isLt; omega
@[simp] theorem joinR_b (q : BitVec 3) (op : BitVec 6) (d : BitVec 5) (a : BitVec 5) (b : BitVec 5) (fn : BitVec 8) : fld (joinR q op d a b fn) 8 5 = b := by
  apply BitVec.eq_of_toNat_eq
  simp only [fld, joinR, BitVec.extractLsb'_toNat, toNat_join, Nat.shiftRight_eq_div_pow]
  have hq := q.isLt; have hop := op.isLt; have hd := d.isLt; have ha := a.isLt; have hb := b.isLt; have hfn := fn.isLt; omega
@[simp] theorem joinR_fn (q : BitVec 3) (op : BitVec 6) (d : BitVec 5) (a : BitVec 5) (b : BitVec 5) (fn : BitVec 8) : fld (joinR q op d a b fn) 0 8 = fn := by
  apply BitVec.eq_of_toNat_eq
  simp only [fld, joinR, BitVec.extractLsb'_toNat, toNat_join, Nat.shiftRight_eq_div_pow]
  have hq := q.isLt; have hop := op.isLt; have hd := d.isLt; have ha := a.isLt; have hb := b.isLt; have hfn := fn.isLt; omega
@[simp] theorem joinI_q (q : BitVec 3) (op : BitVec 6) (d : BitVec 5) (a : BitVec 5) (imm : BitVec 13) : fld (joinI q op d a imm) 29 3 = q := by
  apply BitVec.eq_of_toNat_eq
  simp only [fld, joinI, BitVec.extractLsb'_toNat, toNat_join, Nat.shiftRight_eq_div_pow]
  have hq := q.isLt; have hop := op.isLt; have hd := d.isLt; have ha := a.isLt; have himm := imm.isLt; omega
@[simp] theorem joinI_op (q : BitVec 3) (op : BitVec 6) (d : BitVec 5) (a : BitVec 5) (imm : BitVec 13) : fld (joinI q op d a imm) 23 6 = op := by
  apply BitVec.eq_of_toNat_eq
  simp only [fld, joinI, BitVec.extractLsb'_toNat, toNat_join, Nat.shiftRight_eq_div_pow]
  have hq := q.isLt; have hop := op.isLt; have hd := d.isLt; have ha := a.isLt; have himm := imm.isLt; omega
@[simp] theorem joinI_d (q : BitVec 3) (op : BitVec 6) (d : BitVec 5) (a : BitVec 5) (imm : BitVec 13) : fld (joinI q op d a imm) 18 5 = d := by
  apply BitVec.eq_of_toNat_eq
  simp only [fld, joinI, BitVec.extractLsb'_toNat, toNat_join, Nat.shiftRight_eq_div_pow]
  have hq := q.isLt; have hop := op.isLt; have hd := d.isLt; have ha := a.isLt; have himm := imm.isLt; omega
@[simp] theorem joinI_a (q : BitVec 3) (op : BitVec 6) (d : BitVec 5) (a : BitVec 5) (imm : BitVec 13) : fld (joinI q op d a imm) 13 5 = a := by
  apply BitVec.eq_of_toNat_eq
  simp only [fld, joinI, BitVec.extractLsb'_toNat, toNat_join, Nat.shiftRight_eq_div_pow]
  have hq := q.isLt; have hop := op.isLt; have hd := d.isLt; have ha := a.isLt; have himm := imm.isLt; omega
@[simp] theorem joinI_imm (q : BitVec 3) (op : BitVec 6) (d : BitVec 5) (a : BitVec 5) (imm : BitVec 13) : fld (joinI q op d a imm) 0 13 = imm := by
  apply BitVec.eq_of_toNat_eq
  simp only [fld, joinI, BitVec.extractLsb'_toNat, toNat_join, Nat.shiftRight_eq_div_pow]
  have hq := q.isLt; have hop := op.isLt; have hd := d.isLt; have ha := a.isLt; have himm := imm.isLt; omega
@[simp] theorem joinM_q (q : BitVec 3) (op : BitVec 6) (d : BitVec 5) (a : BitVec 5) (sz : BitVec 3) (imm : BitVec 10) : fld (joinM q op d a sz imm) 29 3 = q := by
  apply BitVec.eq_of_toNat_eq
  simp only [fld, joinM, BitVec.extractLsb'_toNat, toNat_join, Nat.shiftRight_eq_div_pow]
  have hq := q.isLt; have hop := op.isLt; have hd := d.isLt; have ha := a.isLt; have hsz := sz.isLt; have himm := imm.isLt; omega
@[simp] theorem joinM_op (q : BitVec 3) (op : BitVec 6) (d : BitVec 5) (a : BitVec 5) (sz : BitVec 3) (imm : BitVec 10) : fld (joinM q op d a sz imm) 23 6 = op := by
  apply BitVec.eq_of_toNat_eq
  simp only [fld, joinM, BitVec.extractLsb'_toNat, toNat_join, Nat.shiftRight_eq_div_pow]
  have hq := q.isLt; have hop := op.isLt; have hd := d.isLt; have ha := a.isLt; have hsz := sz.isLt; have himm := imm.isLt; omega
@[simp] theorem joinM_d (q : BitVec 3) (op : BitVec 6) (d : BitVec 5) (a : BitVec 5) (sz : BitVec 3) (imm : BitVec 10) : fld (joinM q op d a sz imm) 18 5 = d := by
  apply BitVec.eq_of_toNat_eq
  simp only [fld, joinM, BitVec.extractLsb'_toNat, toNat_join, Nat.shiftRight_eq_div_pow]
  have hq := q.isLt; have hop := op.isLt; have hd := d.isLt; have ha := a.isLt; have hsz := sz.isLt; have himm := imm.isLt; omega
@[simp] theorem joinM_a (q : BitVec 3) (op : BitVec 6) (d : BitVec 5) (a : BitVec 5) (sz : BitVec 3) (imm : BitVec 10) : fld (joinM q op d a sz imm) 13 5 = a := by
  apply BitVec.eq_of_toNat_eq
  simp only [fld, joinM, BitVec.extractLsb'_toNat, toNat_join, Nat.shiftRight_eq_div_pow]
  have hq := q.isLt; have hop := op.isLt; have hd := d.isLt; have ha := a.isLt; have hsz := sz.isLt; have himm := imm.isLt; omega
@[simp] theorem joinM_sz (q : BitVec 3) (op : BitVec 6) (d : BitVec 5) (a : BitVec 5) (sz : BitVec 3) (imm : BitVec 10) : fld (joinM q op d a sz imm) 10 3 = sz := by
  apply BitVec.eq_of_toNat_eq
  simp only [fld, joinM, BitVec.extractLsb'_toNat, toNat_join, Nat.shiftRight_eq_div_pow]
  have hq := q.isLt; have hop := op.isLt; have hd := d.isLt; have ha := a.isLt; have hsz := sz.isLt; have himm := imm.isLt; omega
@[simp] theorem joinM_imm (q : BitVec 3) (op : BitVec 6) (d : BitVec 5) (a : BitVec 5) (sz : BitVec 3) (imm : BitVec 10) : fld (joinM q op d a sz imm) 0 10 = imm := by
  apply BitVec.eq_of_toNat_eq
  simp only [fld, joinM, BitVec.extractLsb'_toNat, toNat_join, Nat.shiftRight_eq_div_pow]
  have hq := q.isLt; have hop := op.isLt; have hd := d.isLt; have ha := a.isLt; have hsz := sz.isLt; have himm := imm.isLt; omega
@[simp] theorem joinL_q (q : BitVec 3) (op : BitVec 6) (d : BitVec 5) (imm : BitVec 18) : fld (joinL q op d imm) 29 3 = q := by
  apply BitVec.eq_of_toNat_eq
  simp only [fld, joinL, BitVec.extractLsb'_toNat, toNat_join, Nat.shiftRight_eq_div_pow]
  have hq := q.isLt; have hop := op.isLt; have hd := d.isLt; have himm := imm.isLt; omega
@[simp] theorem joinL_op (q : BitVec 3) (op : BitVec 6) (d : BitVec 5) (imm : BitVec 18) : fld (joinL q op d imm) 23 6 = op := by
  apply BitVec.eq_of_toNat_eq
  simp only [fld, joinL, BitVec.extractLsb'_toNat, toNat_join, Nat.shiftRight_eq_div_pow]
  have hq := q.isLt; have hop := op.isLt; have hd := d.isLt; have himm := imm.isLt; omega
@[simp] theorem joinL_d (q : BitVec 3) (op : BitVec 6) (d : BitVec 5) (imm : BitVec 18) : fld (joinL q op d imm) 18 5 = d := by
  apply BitVec.eq_of_toNat_eq
  simp only [fld, joinL, BitVec.extractLsb'_toNat, toNat_join, Nat.shiftRight_eq_div_pow]
  have hq := q.isLt; have hop := op.isLt; have hd := d.isLt; have himm := imm.isLt; omega
@[simp] theorem joinL_imm (q : BitVec 3) (op : BitVec 6) (d : BitVec 5) (imm : BitVec 18) : fld (joinL q op d imm) 0 18 = imm := by
  apply BitVec.eq_of_toNat_eq
  simp only [fld, joinL, BitVec.extractLsb'_toNat, toNat_join, Nat.shiftRight_eq_div_pow]
  have hq := q.isLt; have hop := op.isLt; have hd := d.isLt; have himm := imm.isLt; omega
@[simp] theorem joinK_q (q : BitVec 3) (op : BitVec 6) (d : BitVec 5) (hw : BitVec 2) (imm : BitVec 16) : fld (joinK q op d hw imm) 29 3 = q := by
  apply BitVec.eq_of_toNat_eq
  simp only [fld, joinK, BitVec.extractLsb'_toNat, toNat_join, Nat.shiftRight_eq_div_pow]
  have hq := q.isLt; have hop := op.isLt; have hd := d.isLt; have hhw := hw.isLt; have himm := imm.isLt; omega
@[simp] theorem joinK_op (q : BitVec 3) (op : BitVec 6) (d : BitVec 5) (hw : BitVec 2) (imm : BitVec 16) : fld (joinK q op d hw imm) 23 6 = op := by
  apply BitVec.eq_of_toNat_eq
  simp only [fld, joinK, BitVec.extractLsb'_toNat, toNat_join, Nat.shiftRight_eq_div_pow]
  have hq := q.isLt; have hop := op.isLt; have hd := d.isLt; have hhw := hw.isLt; have himm := imm.isLt; omega
@[simp] theorem joinK_d (q : BitVec 3) (op : BitVec 6) (d : BitVec 5) (hw : BitVec 2) (imm : BitVec 16) : fld (joinK q op d hw imm) 18 5 = d := by
  apply BitVec.eq_of_toNat_eq
  simp only [fld, joinK, BitVec.extractLsb'_toNat, toNat_join, Nat.shiftRight_eq_div_pow]
  have hq := q.isLt; have hop := op.isLt; have hd := d.isLt; have hhw := hw.isLt; have himm := imm.isLt; omega
@[simp] theorem joinK_hw (q : BitVec 3) (op : BitVec 6) (d : BitVec 5) (hw : BitVec 2) (imm : BitVec 16) : fld (joinK q op d hw imm) 16 2 = hw := by
  apply BitVec.eq_of_toNat_eq
  simp only [fld, joinK, BitVec.extractLsb'_toNat, toNat_join, Nat.shiftRight_eq_div_pow]
  have hq := q.isLt; have hop := op.isLt; have hd := d.isLt; have hhw := hw.isLt; have himm := imm.isLt; omega
@[simp] theorem joinK_imm (q : BitVec 3) (op : BitVec 6) (d : BitVec 5) (hw : BitVec 2) (imm : BitVec 16) : fld (joinK q op d hw imm) 0 16 = imm := by
  apply BitVec.eq_of_toNat_eq
  simp only [fld, joinK, BitVec.extractLsb'_toNat, toNat_join, Nat.shiftRight_eq_div_pow]
  have hq := q.isLt; have hop := op.isLt; have hd := d.isLt; have hhw := hw.isLt; have himm := imm.isLt; omega
@[simp] theorem joinB_q (q : BitVec 3) (op : BitVec 6) (h : BitVec 1) (disp : BitVec 22) : fld (joinB q op h disp) 29 3 = q := by
  apply BitVec.eq_of_toNat_eq
  simp only [fld, joinB, BitVec.extractLsb'_toNat, toNat_join, Nat.shiftRight_eq_div_pow]
  have hq := q.isLt; have hop := op.isLt; have hh := h.isLt; have hdisp := disp.isLt; omega
@[simp] theorem joinB_op (q : BitVec 3) (op : BitVec 6) (h : BitVec 1) (disp : BitVec 22) : fld (joinB q op h disp) 23 6 = op := by
  apply BitVec.eq_of_toNat_eq
  simp only [fld, joinB, BitVec.extractLsb'_toNat, toNat_join, Nat.shiftRight_eq_div_pow]
  have hq := q.isLt; have hop := op.isLt; have hh := h.isLt; have hdisp := disp.isLt; omega
@[simp] theorem joinB_h (q : BitVec 3) (op : BitVec 6) (h : BitVec 1) (disp : BitVec 22) : fld (joinB q op h disp) 22 1 = h := by
  apply BitVec.eq_of_toNat_eq
  simp only [fld, joinB, BitVec.extractLsb'_toNat, toNat_join, Nat.shiftRight_eq_div_pow]
  have hq := q.isLt; have hop := op.isLt; have hh := h.isLt; have hdisp := disp.isLt; omega
@[simp] theorem joinB_disp (q : BitVec 3) (op : BitVec 6) (h : BitVec 1) (disp : BitVec 22) : fld (joinB q op h disp) 0 22 = disp := by
  apply BitVec.eq_of_toNat_eq
  simp only [fld, joinB, BitVec.extractLsb'_toNat, toNat_join, Nat.shiftRight_eq_div_pow]
  have hq := q.isLt; have hop := op.isLt; have hh := h.isLt; have hdisp := disp.isLt; omega
@[simp] theorem joinC_q (q : BitVec 3) (op : BitVec 6) (pd1 : BitVec 3) (pd2 : BitVec 3) (ty : BitVec 3) (cnd : BitVec 3) (a : BitVec 5) (lo : BitVec 6) : fld (joinC q op pd1 pd2 ty cnd a lo) 29 3 = q := by
  apply BitVec.eq_of_toNat_eq
  simp only [fld, joinC, BitVec.extractLsb'_toNat, toNat_join, Nat.shiftRight_eq_div_pow]
  have hq := q.isLt; have hop := op.isLt; have hpd1 := pd1.isLt; have hpd2 := pd2.isLt; have hty := ty.isLt; have hcnd := cnd.isLt; have ha := a.isLt; have hlo := lo.isLt; omega
@[simp] theorem joinC_op (q : BitVec 3) (op : BitVec 6) (pd1 : BitVec 3) (pd2 : BitVec 3) (ty : BitVec 3) (cnd : BitVec 3) (a : BitVec 5) (lo : BitVec 6) : fld (joinC q op pd1 pd2 ty cnd a lo) 23 6 = op := by
  apply BitVec.eq_of_toNat_eq
  simp only [fld, joinC, BitVec.extractLsb'_toNat, toNat_join, Nat.shiftRight_eq_div_pow]
  have hq := q.isLt; have hop := op.isLt; have hpd1 := pd1.isLt; have hpd2 := pd2.isLt; have hty := ty.isLt; have hcnd := cnd.isLt; have ha := a.isLt; have hlo := lo.isLt; omega
@[simp] theorem joinC_pd1 (q : BitVec 3) (op : BitVec 6) (pd1 : BitVec 3) (pd2 : BitVec 3) (ty : BitVec 3) (cnd : BitVec 3) (a : BitVec 5) (lo : BitVec 6) : fld (joinC q op pd1 pd2 ty cnd a lo) 20 3 = pd1 := by
  apply BitVec.eq_of_toNat_eq
  simp only [fld, joinC, BitVec.extractLsb'_toNat, toNat_join, Nat.shiftRight_eq_div_pow]
  have hq := q.isLt; have hop := op.isLt; have hpd1 := pd1.isLt; have hpd2 := pd2.isLt; have hty := ty.isLt; have hcnd := cnd.isLt; have ha := a.isLt; have hlo := lo.isLt; omega
@[simp] theorem joinC_pd2 (q : BitVec 3) (op : BitVec 6) (pd1 : BitVec 3) (pd2 : BitVec 3) (ty : BitVec 3) (cnd : BitVec 3) (a : BitVec 5) (lo : BitVec 6) : fld (joinC q op pd1 pd2 ty cnd a lo) 17 3 = pd2 := by
  apply BitVec.eq_of_toNat_eq
  simp only [fld, joinC, BitVec.extractLsb'_toNat, toNat_join, Nat.shiftRight_eq_div_pow]
  have hq := q.isLt; have hop := op.isLt; have hpd1 := pd1.isLt; have hpd2 := pd2.isLt; have hty := ty.isLt; have hcnd := cnd.isLt; have ha := a.isLt; have hlo := lo.isLt; omega
@[simp] theorem joinC_ty (q : BitVec 3) (op : BitVec 6) (pd1 : BitVec 3) (pd2 : BitVec 3) (ty : BitVec 3) (cnd : BitVec 3) (a : BitVec 5) (lo : BitVec 6) : fld (joinC q op pd1 pd2 ty cnd a lo) 14 3 = ty := by
  apply BitVec.eq_of_toNat_eq
  simp only [fld, joinC, BitVec.extractLsb'_toNat, toNat_join, Nat.shiftRight_eq_div_pow]
  have hq := q.isLt; have hop := op.isLt; have hpd1 := pd1.isLt; have hpd2 := pd2.isLt; have hty := ty.isLt; have hcnd := cnd.isLt; have ha := a.isLt; have hlo := lo.isLt; omega
@[simp] theorem joinC_cnd (q : BitVec 3) (op : BitVec 6) (pd1 : BitVec 3) (pd2 : BitVec 3) (ty : BitVec 3) (cnd : BitVec 3) (a : BitVec 5) (lo : BitVec 6) : fld (joinC q op pd1 pd2 ty cnd a lo) 11 3 = cnd := by
  apply BitVec.eq_of_toNat_eq
  simp only [fld, joinC, BitVec.extractLsb'_toNat, toNat_join, Nat.shiftRight_eq_div_pow]
  have hq := q.isLt; have hop := op.isLt; have hpd1 := pd1.isLt; have hpd2 := pd2.isLt; have hty := ty.isLt; have hcnd := cnd.isLt; have ha := a.isLt; have hlo := lo.isLt; omega
@[simp] theorem joinC_a (q : BitVec 3) (op : BitVec 6) (pd1 : BitVec 3) (pd2 : BitVec 3) (ty : BitVec 3) (cnd : BitVec 3) (a : BitVec 5) (lo : BitVec 6) : fld (joinC q op pd1 pd2 ty cnd a lo) 6 5 = a := by
  apply BitVec.eq_of_toNat_eq
  simp only [fld, joinC, BitVec.extractLsb'_toNat, toNat_join, Nat.shiftRight_eq_div_pow]
  have hq := q.isLt; have hop := op.isLt; have hpd1 := pd1.isLt; have hpd2 := pd2.isLt; have hty := ty.isLt; have hcnd := cnd.isLt; have ha := a.isLt; have hlo := lo.isLt; omega
@[simp] theorem joinC_lo (q : BitVec 3) (op : BitVec 6) (pd1 : BitVec 3) (pd2 : BitVec 3) (ty : BitVec 3) (cnd : BitVec 3) (a : BitVec 5) (lo : BitVec 6) : fld (joinC q op pd1 pd2 ty cnd a lo) 0 6 = lo := by
  apply BitVec.eq_of_toNat_eq
  simp only [fld, joinC, BitVec.extractLsb'_toNat, toNat_join, Nat.shiftRight_eq_div_pow]
  have hq := q.isLt; have hop := op.isLt; have hpd1 := pd1.isLt; have hpd2 := pd2.isLt; have hty := ty.isLt; have hcnd := cnd.isLt; have ha := a.isLt; have hlo := lo.isLt; omega
@[simp] theorem joinVC_q (q : BitVec 3) (op : BitVec 6) (kd : BitVec 3) (a : BitVec 4) (b : BitVec 4) (t : BitVec 3) (cnd : BitVec 3) (kg : BitVec 3) (z : BitVec 3) : fld (joinVC q op kd a b t cnd kg z) 29 3 = q := by
  apply BitVec.eq_of_toNat_eq
  simp only [fld, joinVC, BitVec.extractLsb'_toNat, toNat_join, Nat.shiftRight_eq_div_pow]
  have hq := q.isLt; have hop := op.isLt; have hkd := kd.isLt; have ha := a.isLt; have hb := b.isLt; have ht := t.isLt; have hcnd := cnd.isLt; have hkg := kg.isLt; have hz := z.isLt; omega
@[simp] theorem joinVC_op (q : BitVec 3) (op : BitVec 6) (kd : BitVec 3) (a : BitVec 4) (b : BitVec 4) (t : BitVec 3) (cnd : BitVec 3) (kg : BitVec 3) (z : BitVec 3) : fld (joinVC q op kd a b t cnd kg z) 23 6 = op := by
  apply BitVec.eq_of_toNat_eq
  simp only [fld, joinVC, BitVec.extractLsb'_toNat, toNat_join, Nat.shiftRight_eq_div_pow]
  have hq := q.isLt; have hop := op.isLt; have hkd := kd.isLt; have ha := a.isLt; have hb := b.isLt; have ht := t.isLt; have hcnd := cnd.isLt; have hkg := kg.isLt; have hz := z.isLt; omega
@[simp] theorem joinVC_kd (q : BitVec 3) (op : BitVec 6) (kd : BitVec 3) (a : BitVec 4) (b : BitVec 4) (t : BitVec 3) (cnd : BitVec 3) (kg : BitVec 3) (z : BitVec 3) : fld (joinVC q op kd a b t cnd kg z) 20 3 = kd := by
  apply BitVec.eq_of_toNat_eq
  simp only [fld, joinVC, BitVec.extractLsb'_toNat, toNat_join, Nat.shiftRight_eq_div_pow]
  have hq := q.isLt; have hop := op.isLt; have hkd := kd.isLt; have ha := a.isLt; have hb := b.isLt; have ht := t.isLt; have hcnd := cnd.isLt; have hkg := kg.isLt; have hz := z.isLt; omega
@[simp] theorem joinVC_a (q : BitVec 3) (op : BitVec 6) (kd : BitVec 3) (a : BitVec 4) (b : BitVec 4) (t : BitVec 3) (cnd : BitVec 3) (kg : BitVec 3) (z : BitVec 3) : fld (joinVC q op kd a b t cnd kg z) 16 4 = a := by
  apply BitVec.eq_of_toNat_eq
  simp only [fld, joinVC, BitVec.extractLsb'_toNat, toNat_join, Nat.shiftRight_eq_div_pow]
  have hq := q.isLt; have hop := op.isLt; have hkd := kd.isLt; have ha := a.isLt; have hb := b.isLt; have ht := t.isLt; have hcnd := cnd.isLt; have hkg := kg.isLt; have hz := z.isLt; omega
@[simp] theorem joinVC_b (q : BitVec 3) (op : BitVec 6) (kd : BitVec 3) (a : BitVec 4) (b : BitVec 4) (t : BitVec 3) (cnd : BitVec 3) (kg : BitVec 3) (z : BitVec 3) : fld (joinVC q op kd a b t cnd kg z) 12 4 = b := by
  apply BitVec.eq_of_toNat_eq
  simp only [fld, joinVC, BitVec.extractLsb'_toNat, toNat_join, Nat.shiftRight_eq_div_pow]
  have hq := q.isLt; have hop := op.isLt; have hkd := kd.isLt; have ha := a.isLt; have hb := b.isLt; have ht := t.isLt; have hcnd := cnd.isLt; have hkg := kg.isLt; have hz := z.isLt; omega
@[simp] theorem joinVC_t (q : BitVec 3) (op : BitVec 6) (kd : BitVec 3) (a : BitVec 4) (b : BitVec 4) (t : BitVec 3) (cnd : BitVec 3) (kg : BitVec 3) (z : BitVec 3) : fld (joinVC q op kd a b t cnd kg z) 9 3 = t := by
  apply BitVec.eq_of_toNat_eq
  simp only [fld, joinVC, BitVec.extractLsb'_toNat, toNat_join, Nat.shiftRight_eq_div_pow]
  have hq := q.isLt; have hop := op.isLt; have hkd := kd.isLt; have ha := a.isLt; have hb := b.isLt; have ht := t.isLt; have hcnd := cnd.isLt; have hkg := kg.isLt; have hz := z.isLt; omega
@[simp] theorem joinVC_cnd (q : BitVec 3) (op : BitVec 6) (kd : BitVec 3) (a : BitVec 4) (b : BitVec 4) (t : BitVec 3) (cnd : BitVec 3) (kg : BitVec 3) (z : BitVec 3) : fld (joinVC q op kd a b t cnd kg z) 6 3 = cnd := by
  apply BitVec.eq_of_toNat_eq
  simp only [fld, joinVC, BitVec.extractLsb'_toNat, toNat_join, Nat.shiftRight_eq_div_pow]
  have hq := q.isLt; have hop := op.isLt; have hkd := kd.isLt; have ha := a.isLt; have hb := b.isLt; have ht := t.isLt; have hcnd := cnd.isLt; have hkg := kg.isLt; have hz := z.isLt; omega
@[simp] theorem joinVC_kg (q : BitVec 3) (op : BitVec 6) (kd : BitVec 3) (a : BitVec 4) (b : BitVec 4) (t : BitVec 3) (cnd : BitVec 3) (kg : BitVec 3) (z : BitVec 3) : fld (joinVC q op kd a b t cnd kg z) 3 3 = kg := by
  apply BitVec.eq_of_toNat_eq
  simp only [fld, joinVC, BitVec.extractLsb'_toNat, toNat_join, Nat.shiftRight_eq_div_pow]
  have hq := q.isLt; have hop := op.isLt; have hkd := kd.isLt; have ha := a.isLt; have hb := b.isLt; have ht := t.isLt; have hcnd := cnd.isLt; have hkg := kg.isLt; have hz := z.isLt; omega
@[simp] theorem joinVC_z (q : BitVec 3) (op : BitVec 6) (kd : BitVec 3) (a : BitVec 4) (b : BitVec 4) (t : BitVec 3) (cnd : BitVec 3) (kg : BitVec 3) (z : BitVec 3) : fld (joinVC q op kd a b t cnd kg z) 0 3 = z := by
  apply BitVec.eq_of_toNat_eq
  simp only [fld, joinVC, BitVec.extractLsb'_toNat, toNat_join, Nat.shiftRight_eq_div_pow]
  have hq := q.isLt; have hop := op.isLt; have hkd := kd.isLt; have ha := a.isLt; have hb := b.isLt; have ht := t.isLt; have hcnd := cnd.isLt; have hkg := kg.isLt; have hz := z.isLt; omega
@[simp] theorem joinX_q (q : BitVec 3) (op : BitVec 6) (acc : BitVec 2) (a : BitVec 5) (m : BitVec 5) (fA : BitVec 3) (fB : BitVec 3) (s : BitVec 4) (z : BitVec 1) : fld (joinX q op acc a m fA fB s z) 29 3 = q := by
  apply BitVec.eq_of_toNat_eq
  simp only [fld, joinX, BitVec.extractLsb'_toNat, toNat_join, Nat.shiftRight_eq_div_pow]
  have hq := q.isLt; have hop := op.isLt; have hacc := acc.isLt; have ha := a.isLt; have hm := m.isLt; have hfA := fA.isLt; have hfB := fB.isLt; have hs := s.isLt; have hz := z.isLt; omega
@[simp] theorem joinX_op (q : BitVec 3) (op : BitVec 6) (acc : BitVec 2) (a : BitVec 5) (m : BitVec 5) (fA : BitVec 3) (fB : BitVec 3) (s : BitVec 4) (z : BitVec 1) : fld (joinX q op acc a m fA fB s z) 23 6 = op := by
  apply BitVec.eq_of_toNat_eq
  simp only [fld, joinX, BitVec.extractLsb'_toNat, toNat_join, Nat.shiftRight_eq_div_pow]
  have hq := q.isLt; have hop := op.isLt; have hacc := acc.isLt; have ha := a.isLt; have hm := m.isLt; have hfA := fA.isLt; have hfB := fB.isLt; have hs := s.isLt; have hz := z.isLt; omega
@[simp] theorem joinX_acc (q : BitVec 3) (op : BitVec 6) (acc : BitVec 2) (a : BitVec 5) (m : BitVec 5) (fA : BitVec 3) (fB : BitVec 3) (s : BitVec 4) (z : BitVec 1) : fld (joinX q op acc a m fA fB s z) 21 2 = acc := by
  apply BitVec.eq_of_toNat_eq
  simp only [fld, joinX, BitVec.extractLsb'_toNat, toNat_join, Nat.shiftRight_eq_div_pow]
  have hq := q.isLt; have hop := op.isLt; have hacc := acc.isLt; have ha := a.isLt; have hm := m.isLt; have hfA := fA.isLt; have hfB := fB.isLt; have hs := s.isLt; have hz := z.isLt; omega
@[simp] theorem joinX_a (q : BitVec 3) (op : BitVec 6) (acc : BitVec 2) (a : BitVec 5) (m : BitVec 5) (fA : BitVec 3) (fB : BitVec 3) (s : BitVec 4) (z : BitVec 1) : fld (joinX q op acc a m fA fB s z) 16 5 = a := by
  apply BitVec.eq_of_toNat_eq
  simp only [fld, joinX, BitVec.extractLsb'_toNat, toNat_join, Nat.shiftRight_eq_div_pow]
  have hq := q.isLt; have hop := op.isLt; have hacc := acc.isLt; have ha := a.isLt; have hm := m.isLt; have hfA := fA.isLt; have hfB := fB.isLt; have hs := s.isLt; have hz := z.isLt; omega
@[simp] theorem joinX_m (q : BitVec 3) (op : BitVec 6) (acc : BitVec 2) (a : BitVec 5) (m : BitVec 5) (fA : BitVec 3) (fB : BitVec 3) (s : BitVec 4) (z : BitVec 1) : fld (joinX q op acc a m fA fB s z) 11 5 = m := by
  apply BitVec.eq_of_toNat_eq
  simp only [fld, joinX, BitVec.extractLsb'_toNat, toNat_join, Nat.shiftRight_eq_div_pow]
  have hq := q.isLt; have hop := op.isLt; have hacc := acc.isLt; have ha := a.isLt; have hm := m.isLt; have hfA := fA.isLt; have hfB := fB.isLt; have hs := s.isLt; have hz := z.isLt; omega
@[simp] theorem joinX_fA (q : BitVec 3) (op : BitVec 6) (acc : BitVec 2) (a : BitVec 5) (m : BitVec 5) (fA : BitVec 3) (fB : BitVec 3) (s : BitVec 4) (z : BitVec 1) : fld (joinX q op acc a m fA fB s z) 8 3 = fA := by
  apply BitVec.eq_of_toNat_eq
  simp only [fld, joinX, BitVec.extractLsb'_toNat, toNat_join, Nat.shiftRight_eq_div_pow]
  have hq := q.isLt; have hop := op.isLt; have hacc := acc.isLt; have ha := a.isLt; have hm := m.isLt; have hfA := fA.isLt; have hfB := fB.isLt; have hs := s.isLt; have hz := z.isLt; omega
@[simp] theorem joinX_fB (q : BitVec 3) (op : BitVec 6) (acc : BitVec 2) (a : BitVec 5) (m : BitVec 5) (fA : BitVec 3) (fB : BitVec 3) (s : BitVec 4) (z : BitVec 1) : fld (joinX q op acc a m fA fB s z) 5 3 = fB := by
  apply BitVec.eq_of_toNat_eq
  simp only [fld, joinX, BitVec.extractLsb'_toNat, toNat_join, Nat.shiftRight_eq_div_pow]
  have hq := q.isLt; have hop := op.isLt; have hacc := acc.isLt; have ha := a.isLt; have hm := m.isLt; have hfA := fA.isLt; have hfB := fB.isLt; have hs := s.isLt; have hz := z.isLt; omega
@[simp] theorem joinX_s (q : BitVec 3) (op : BitVec 6) (acc : BitVec 2) (a : BitVec 5) (m : BitVec 5) (fA : BitVec 3) (fB : BitVec 3) (s : BitVec 4) (z : BitVec 1) : fld (joinX q op acc a m fA fB s z) 1 4 = s := by
  apply BitVec.eq_of_toNat_eq
  simp only [fld, joinX, BitVec.extractLsb'_toNat, toNat_join, Nat.shiftRight_eq_div_pow]
  have hq := q.isLt; have hop := op.isLt; have hacc := acc.isLt; have ha := a.isLt; have hm := m.isLt; have hfA := fA.isLt; have hfB := fB.isLt; have hs := s.isLt; have hz := z.isLt; omega
@[simp] theorem joinX_z (q : BitVec 3) (op : BitVec 6) (acc : BitVec 2) (a : BitVec 5) (m : BitVec 5) (fA : BitVec 3) (fB : BitVec 3) (s : BitVec 4) (z : BitVec 1) : fld (joinX q op acc a m fA fB s z) 0 1 = z := by
  apply BitVec.eq_of_toNat_eq
  simp only [fld, joinX, BitVec.extractLsb'_toNat, toNat_join, Nat.shiftRight_eq_div_pow]
  have hq := q.isLt; have hop := op.isLt; have hacc := acc.isLt; have ha := a.isLt; have hm := m.isLt; have hfA := fA.isLt; have hfB := fB.isLt; have hs := s.isLt; have hz := z.isLt; omega
@[simp] theorem joinP_q (q : BitVec 3) (op : BitVec 6) (n : BitVec 6) (len : BitVec 4) (stag : BitVec 3) (mask : BitVec 3) (z : BitVec 7) : fld (joinP q op n len stag mask z) 29 3 = q := by
  apply BitVec.eq_of_toNat_eq
  simp only [fld, joinP, BitVec.extractLsb'_toNat, toNat_join, Nat.shiftRight_eq_div_pow]
  have hq := q.isLt; have hop := op.isLt; have hn := n.isLt; have hlen := len.isLt; have hstag := stag.isLt; have hmask := mask.isLt; have hz := z.isLt; omega
@[simp] theorem joinP_op (q : BitVec 3) (op : BitVec 6) (n : BitVec 6) (len : BitVec 4) (stag : BitVec 3) (mask : BitVec 3) (z : BitVec 7) : fld (joinP q op n len stag mask z) 23 6 = op := by
  apply BitVec.eq_of_toNat_eq
  simp only [fld, joinP, BitVec.extractLsb'_toNat, toNat_join, Nat.shiftRight_eq_div_pow]
  have hq := q.isLt; have hop := op.isLt; have hn := n.isLt; have hlen := len.isLt; have hstag := stag.isLt; have hmask := mask.isLt; have hz := z.isLt; omega
@[simp] theorem joinP_n (q : BitVec 3) (op : BitVec 6) (n : BitVec 6) (len : BitVec 4) (stag : BitVec 3) (mask : BitVec 3) (z : BitVec 7) : fld (joinP q op n len stag mask z) 17 6 = n := by
  apply BitVec.eq_of_toNat_eq
  simp only [fld, joinP, BitVec.extractLsb'_toNat, toNat_join, Nat.shiftRight_eq_div_pow]
  have hq := q.isLt; have hop := op.isLt; have hn := n.isLt; have hlen := len.isLt; have hstag := stag.isLt; have hmask := mask.isLt; have hz := z.isLt; omega
@[simp] theorem joinP_len (q : BitVec 3) (op : BitVec 6) (n : BitVec 6) (len : BitVec 4) (stag : BitVec 3) (mask : BitVec 3) (z : BitVec 7) : fld (joinP q op n len stag mask z) 13 4 = len := by
  apply BitVec.eq_of_toNat_eq
  simp only [fld, joinP, BitVec.extractLsb'_toNat, toNat_join, Nat.shiftRight_eq_div_pow]
  have hq := q.isLt; have hop := op.isLt; have hn := n.isLt; have hlen := len.isLt; have hstag := stag.isLt; have hmask := mask.isLt; have hz := z.isLt; omega
@[simp] theorem joinP_stag (q : BitVec 3) (op : BitVec 6) (n : BitVec 6) (len : BitVec 4) (stag : BitVec 3) (mask : BitVec 3) (z : BitVec 7) : fld (joinP q op n len stag mask z) 10 3 = stag := by
  apply BitVec.eq_of_toNat_eq
  simp only [fld, joinP, BitVec.extractLsb'_toNat, toNat_join, Nat.shiftRight_eq_div_pow]
  have hq := q.isLt; have hop := op.isLt; have hn := n.isLt; have hlen := len.isLt; have hstag := stag.isLt; have hmask := mask.isLt; have hz := z.isLt; omega
@[simp] theorem joinP_mask (q : BitVec 3) (op : BitVec 6) (n : BitVec 6) (len : BitVec 4) (stag : BitVec 3) (mask : BitVec 3) (z : BitVec 7) : fld (joinP q op n len stag mask z) 7 3 = mask := by
  apply BitVec.eq_of_toNat_eq
  simp only [fld, joinP, BitVec.extractLsb'_toNat, toNat_join, Nat.shiftRight_eq_div_pow]
  have hq := q.isLt; have hop := op.isLt; have hn := n.isLt; have hlen := len.isLt; have hstag := stag.isLt; have hmask := mask.isLt; have hz := z.isLt; omega
@[simp] theorem joinP_z (q : BitVec 3) (op : BitVec 6) (n : BitVec 6) (len : BitVec 4) (stag : BitVec 3) (mask : BitVec 3) (z : BitVec 7) : fld (joinP q op n len stag mask z) 0 7 = z := by
  apply BitVec.eq_of_toNat_eq
  simp only [fld, joinP, BitVec.extractLsb'_toNat, toNat_join, Nat.shiftRight_eq_div_pow]
  have hq := q.isLt; have hop := op.isLt; have hn := n.isLt; have hlen := len.isLt; have hstag := stag.isLt; have hmask := mask.isLt; have hz := z.isLt; omega

end Sys2Proof
end

