-- ==== Sys2Proof/Laws/Memory.lean ====
section
/-! SUPPORT. Memory: every operation keeps the canonical form, and a byte read is the last one written. -/

namespace Sys2Proof.Machine

theorem wfFrom_mono {m : Memory} {lo lo' : Nat} (h : lo' ≤ lo) (hm : Memory.wfFrom lo m = true) : Memory.wfFrom lo' m = true := by
  cases m with
  | nil => rfl
  | cons e t =>
    simp only [Memory.wfFrom, Bool.and_eq_true, decide_eq_true_eq, bne_iff_ne] at hm ⊢
    exact ⟨⟨by omega, hm.1.2⟩, hm.2⟩

theorem wfFrom_put {m : Memory} {lo a : Nat} {b : Byte} (hm : Memory.wfFrom lo m = true) (ha : lo ≤ a) :
    Memory.wfFrom lo (Memory.put m a b) = true := by
  induction m generalizing lo with
  | nil =>
    unfold Memory.put
    split
    · rfl
    · simp only [Memory.wfFrom, Bool.and_eq_true, decide_eq_true_eq, bne_iff_ne]
      exact ⟨⟨ha, by assumption⟩, trivial⟩
  | cons e t ih =>
    obtain ⟨k, v⟩ := e
    simp only [Memory.wfFrom, Bool.and_eq_true, decide_eq_true_eq, bne_iff_ne] at hm
    unfold Memory.put
    split
    · split
      · simp only [Memory.wfFrom, Bool.and_eq_true, decide_eq_true_eq, bne_iff_ne]
        exact hm
      · simp only [Memory.wfFrom, Bool.and_eq_true, decide_eq_true_eq, bne_iff_ne]
        exact ⟨⟨ha, by assumption⟩, ⟨by omega, hm.1.2⟩, hm.2⟩
    · split
      · split
        · exact wfFrom_mono (by omega) hm.2
        · simp only [Memory.wfFrom, Bool.and_eq_true, decide_eq_true_eq, bne_iff_ne]
          rename_i h _
          exact ⟨⟨ha, by assumption⟩, by rw [h]; exact hm.2⟩
      · simp only [Memory.wfFrom, Bool.and_eq_true, decide_eq_true_eq, bne_iff_ne]
        exact ⟨hm.1, ih hm.2 (by omega)⟩

theorem wf_put {m : Memory} (a : Nat) (b : Byte) (h : m.wf = true) : (m.put a b).wf = true := wfFrom_put h (Nat.zero_le a)

theorem wf_write {m : Memory} (a n v : Nat) (h : m.wf = true) : (m.write a n v).wf = true := by
  induction n generalizing m a v with
  | zero => exact h
  | succ n ih => exact ih (a + 1) (v / 256) (wf_put a _ h)

theorem wf_writeBytes {m : Memory} (a : Nat) (l : List Byte) (h : m.wf = true) : (m.writeBytes a l).wf = true := by
  induction l generalizing m a with
  | nil => exact h
  | cons b t ih => exact ih (a + 1) (wf_put a b h)

theorem get_of_lt {m : Memory} {lo a : Nat} (hm : Memory.wfFrom lo m = true) (h : a < lo) : m.get a = 0 := by
  induction m generalizing lo with
  | nil => rfl
  | cons e t ih =>
    obtain ⟨k, v⟩ := e
    simp only [Memory.wfFrom, Bool.and_eq_true, decide_eq_true_eq, bne_iff_ne] at hm
    unfold Memory.get
    rw [if_neg (by omega)]
    exact ih hm.2 (by omega)

theorem get_put_from {m : Memory} {lo : Nat} (a c : Nat) (b : Byte) (hm : Memory.wfFrom lo m = true) :
    (m.put a b).get c = if c = a then b else m.get c := by
  induction m generalizing lo with
  | nil =>
    unfold Memory.put
    split
    · rename_i h
      simp [Memory.get, h]
    · simp only [Memory.get]
      by_cases h : c = a
      · rw [if_pos h.symm, if_pos h]
      · rw [if_neg (Ne.symm h), if_neg h]
  | cons e t ih =>
    obtain ⟨k, v⟩ := e
    simp only [Memory.wfFrom, Bool.and_eq_true, decide_eq_true_eq, bne_iff_ne] at hm
    have h0 : ∀ x, x < k + 1 → Memory.get t x = 0 := fun x hx => get_of_lt hm.2 hx
    unfold Memory.put
    split
    · split
      · rename_i hb
        by_cases h : c = a
        · subst h
          simp only [Memory.get, if_pos, hb]
          rw [if_neg (by omega), h0 c (by omega)]
        · simp [h]
      · simp only [Memory.get]
        by_cases h : c = a
        · simp [h]
        · simp [h, Ne.symm h]
    · split
      · rename_i h1 h2
        split
        · rename_i hb
          by_cases h : c = a
          · subst h
            simp [hb, h0 c (by omega)]
          · simp only [Memory.get, if_neg h]
            rw [if_neg (by omega)]
        · simp only [Memory.get]
          by_cases h : c = a
          · simp [h]
          · simp only [if_neg h]
            rw [if_neg (Ne.symm h), if_neg (by omega)]
      · simp only [Memory.get]
        by_cases h : k = c
        · rw [if_pos h, if_pos h, if_neg (by omega)]
        · rw [if_neg h, if_neg h]
          exact ih hm.2

/-- A byte read after a byte written. -/
theorem get_put {m : Memory} (a c : Nat) (b : Byte) (h : m.wf = true) : (m.put a b).get c = if c = a then b else m.get c :=
  get_put_from a c b h

/-- A byte read after `n` bytes written. -/
theorem get_write {m : Memory} (a n v c : Nat) (h : m.wf = true) :
    (m.write a n v).get c = if a ≤ c ∧ c < a + n then BitVec.ofNat 8 (v / 256 ^ (c - a)) else m.get c := by
  induction n generalizing m a v with
  | zero =>
    rw [if_neg (by omega)]
    rfl
  | succ n ih =>
    unfold Memory.write
    rw [ih (a + 1) (v / 256) (wf_put a _ h), get_put a c _ h]
    by_cases h1 : c = a
    · subst h1
      rw [if_neg (by omega), if_pos rfl, if_pos (by omega), Nat.sub_self, Nat.pow_zero, Nat.div_one]
    · by_cases h2 : a + 1 ≤ c ∧ c < a + 1 + n
      · rw [if_pos h2, if_pos (by omega), Nat.div_div_eq_div_mul, show c - a = (c - (a + 1)) + 1 by omega, Nat.pow_succ,
          Nat.mul_comm]
      · rw [if_neg h2, if_neg h1, if_neg (by omega)]

/-- Numbers that agree in every byte read are equal. -/
theorem read_congr {m m' : Memory} (a n : Nat) (h : ∀ c, a ≤ c → c < a + n → m.get c = m'.get c) : m.read a n = m'.read a n := by
  induction n generalizing a with
  | zero => rfl
  | succ n ih =>
    unfold Memory.read
    rw [h a (by omega) (by omega), ih (a + 1) (fun c h1 h2 => h c (by omega) (by omega))]

/-- Bytes outside what is written read as before. -/
theorem read_write_other {m : Memory} (a n v c k : Nat) (h : m.wf = true) (hd : c + k ≤ a ∨ a + n ≤ c) :
    (m.write a n v).read c k = m.read c k :=
  read_congr c k (fun x h1 h2 => by rw [get_write a n v x h, if_neg (by omega)])

/-- The bytes written read as the low bytes of the number. -/
theorem read_write {m : Memory} (a n v : Nat) (h : m.wf = true) : (m.write a n v).read a n = v % 256 ^ n := by
  induction n generalizing m a v with
  | zero => simp [Memory.read, Nat.mod_one]
  | succ n ih =>
    have hp := wf_put a (BitVec.ofNat 8 v) h
    unfold Memory.read
    rw [get_write a (n + 1) v a h, if_pos (by omega), Nat.sub_self, Nat.pow_zero, Nat.div_one]
    have e : (m.write a (n + 1) v).read (a + 1) n = v / 256 % 256 ^ n := ih (a + 1) (v / 256) hp
    rw [e, BitVec.toNat_ofNat, show 256 ^ (n + 1) = 256 * 256 ^ n by rw [Nat.pow_succ, Nat.mul_comm], Nat.mod_mul]

end Sys2Proof.Machine
end

