-- ==== Sys2Proof/Laws/State.lean ====
section
/-! SUPPORT. One lemma for each field of the state and each update of it. -/

namespace Sys2Proof.Machine

@[simp] theorem thr_setThr (s : State) (t : Thread) : (s.setThr t).thr = t := by simp [State.thr, State.setThr]
@[simp] theorem setThr_setThr (s : State) (t u : Thread) : (s.setThr t).setThr u = s.setThr u := by simp [State.setThr]
@[simp] theorem setThr_thr (s : State) : s.setThr s.thr = s := by simp [State.thr, State.setThr]
@[simp] theorem proc_setThr (s : State) (t : Thread) : (s.setThr t).proc = s.proc := rfl
@[simp] theorem proc_setProc (s : State) (p : Proc) : (s.setProc p).proc = p := rfl
@[simp] theorem thr_setProc (s : State) (p : Proc) : (s.setProc p).thr = s.thr := rfl
@[simp] theorem setProc_setProc (s : State) (p r : Proc) : (s.setProc p).setProc r = s.setProc r := rfl
theorem setThr_setProc (s : State) (t : Thread) (p : Proc) : (s.setThr t).setProc p = (s.setProc p).setThr t := rfl
@[simp] theorem occupied_setThr (s : State) (t : Thread) : (s.setThr t).core.occupied = s.core.occupied := rfl
@[simp] theorem occupied_setProc (s : State) (p : Proc) : (s.setProc p).core.occupied = s.core.occupied := rfl

@[simp] theorem cycle_setThr (s : State) (t : Thread) : (s.setThr t).cycle = s.cycle := rfl
@[simp] theorem todo_setThr (s : State) (t : Thread) : (s.setThr t).todo = s.todo := rfl
@[simp] theorem redo_setThr (s : State) (t : Thread) : (s.setThr t).redo = s.redo := rfl
@[simp] theorem agenda_setThr (s : State) (t : Thread) : (s.setThr t).agenda = s.agenda := rfl
@[simp] theorem here_setThr (s : State) (t : Thread) : (s.setThr t).here = s.here := rfl
@[simp] theorem slot_setThr (s : State) (t : Thread) : (s.setThr t).slot = s.slot := rfl
@[simp] theorem others_setThr (s : State) (t : Thread) : (s.setThr t).others = s.others := rfl
@[simp] theorem clusters_setThr (s : State) (t : Thread) : (s.setThr t).clusters = s.clusters := rfl
@[simp] theorem mem_setThr (s : State) (t : Thread) : (s.setThr t).mem = s.mem := rfl
@[simp] theorem emptyPhys_setThr (s : State) (t : Thread) : (s.setThr t).emptyPhys = s.emptyPhys := rfl
@[simp] theorem bad_setThr (s : State) (t : Thread) : (s.setThr t).bad = s.bad := rfl
@[simp] theorem waiters_setThr (s : State) (t : Thread) : (s.setThr t).waiters = s.waiters := rfl
@[simp] theorem units_setThr (s : State) (t : Thread) : (s.setThr t).units = s.units := rfl
@[simp] theorem sigSlots_setThr (s : State) (t : Thread) : (s.setThr t).sigSlots = s.sigSlots := rfl
@[simp] theorem watches_setThr (s : State) (t : Thread) : (s.setThr t).watches = s.watches := rfl
@[simp] theorem groups_setThr (s : State) (t : Thread) : (s.setThr t).groups = s.groups := rfl
@[simp] theorem aunits_setThr (s : State) (t : Thread) : (s.setThr t).aunits = s.aunits := rfl
@[simp] theorem moves_setThr (s : State) (t : Thread) : (s.setThr t).moves = s.moves := rfl
@[simp] theorem nextMove_setThr (s : State) (t : Thread) : (s.setThr t).nextMove = s.nextMove := rfl
@[simp] theorem module_setThr (s : State) (t : Thread) : (s.setThr t).module = s.module := rfl
@[simp] theorem free_setThr (s : State) (t : Thread) : (s.setThr t).free = s.free := rfl
@[simp] theorem far_setThr (s : State) (t : Thread) : (s.setThr t).far = s.far := rfl
@[simp] theorem nextFar_setThr (s : State) (t : Thread) : (s.setThr t).nextFar = s.nextFar := rfl
@[simp] theorem event_setThr (s : State) (t : Thread) : (s.setThr t).event = s.event := rfl
@[simp] theorem cycle_setProc (s : State) (p : Proc) : (s.setProc p).cycle = s.cycle := rfl
@[simp] theorem todo_setProc (s : State) (p : Proc) : (s.setProc p).todo = s.todo := rfl
@[simp] theorem redo_setProc (s : State) (p : Proc) : (s.setProc p).redo = s.redo := rfl
@[simp] theorem agenda_setProc (s : State) (p : Proc) : (s.setProc p).agenda = s.agenda := rfl
@[simp] theorem here_setProc (s : State) (p : Proc) : (s.setProc p).here = s.here := rfl
@[simp] theorem slot_setProc (s : State) (p : Proc) : (s.setProc p).slot = s.slot := rfl
@[simp] theorem others_setProc (s : State) (p : Proc) : (s.setProc p).others = s.others := rfl
@[simp] theorem clusters_setProc (s : State) (p : Proc) : (s.setProc p).clusters = s.clusters := rfl
@[simp] theorem mem_setProc (s : State) (p : Proc) : (s.setProc p).mem = s.mem := rfl
@[simp] theorem emptyPhys_setProc (s : State) (p : Proc) : (s.setProc p).emptyPhys = s.emptyPhys := rfl
@[simp] theorem bad_setProc (s : State) (p : Proc) : (s.setProc p).bad = s.bad := rfl
@[simp] theorem waiters_setProc (s : State) (p : Proc) : (s.setProc p).waiters = s.waiters := rfl
@[simp] theorem units_setProc (s : State) (p : Proc) : (s.setProc p).units = s.units := rfl
@[simp] theorem sigSlots_setProc (s : State) (p : Proc) : (s.setProc p).sigSlots = s.sigSlots := rfl
@[simp] theorem watches_setProc (s : State) (p : Proc) : (s.setProc p).watches = s.watches := rfl
@[simp] theorem groups_setProc (s : State) (p : Proc) : (s.setProc p).groups = s.groups := rfl
@[simp] theorem aunits_setProc (s : State) (p : Proc) : (s.setProc p).aunits = s.aunits := rfl
@[simp] theorem moves_setProc (s : State) (p : Proc) : (s.setProc p).moves = s.moves := rfl
@[simp] theorem nextMove_setProc (s : State) (p : Proc) : (s.setProc p).nextMove = s.nextMove := rfl
@[simp] theorem module_setProc (s : State) (p : Proc) : (s.setProc p).module = s.module := rfl
@[simp] theorem free_setProc (s : State) (p : Proc) : (s.setProc p).free = s.free := rfl
@[simp] theorem far_setProc (s : State) (p : Proc) : (s.setProc p).far = s.far := rfl
@[simp] theorem nextFar_setProc (s : State) (p : Proc) : (s.setProc p).nextFar = s.nextFar := rfl
@[simp] theorem event_setProc (s : State) (p : Proc) : (s.setProc p).event = s.event := rfl
@[simp] theorem core_proc_setThr (s : State) (t : Thread) : (s.setThr t).core.proc = s.core.proc := rfl
@[simp] theorem core_temp_setThr (s : State) (t : Thread) : (s.setThr t).core.temp = s.core.temp := rfl
@[simp] theorem core_trapQ_setThr (s : State) (t : Thread) : (s.setThr t).core.trapQ = s.core.trapQ := rfl
@[simp] theorem core_trapWait_setThr (s : State) (t : Thread) : (s.setThr t).core.trapWait = s.core.trapWait := rfl
@[simp] theorem core_halted_setThr (s : State) (t : Thread) : (s.setThr t).core.halted = s.core.halted := rfl
@[simp] theorem core_oos_setThr (s : State) (t : Thread) : (s.setThr t).core.oos = s.core.oos := rfl
@[simp] theorem core_reserved_setThr (s : State) (t : Thread) : (s.setThr t).core.reserved = s.core.reserved := rfl
@[simp] theorem core_moving_setThr (s : State) (t : Thread) : (s.setThr t).core.moving = s.core.moving := rfl
@[simp] theorem core_txsel_setThr (s : State) (t : Thread) : (s.setThr t).core.txsel = s.core.txsel := rfl
@[simp] theorem core_svroot_setThr (s : State) (t : Thread) : (s.setThr t).core.svroot = s.core.svroot := rfl
@[simp] theorem core_ecccnt_setThr (s : State) (t : Thread) : (s.setThr t).core.ecccnt = s.core.ecccnt := rfl
@[simp] theorem core_meaddr_setThr (s : State) (t : Thread) : (s.setThr t).core.meaddr = s.core.meaddr := rfl
@[simp] theorem core_rhsel_setThr (s : State) (t : Thread) : (s.setThr t).core.rhsel = s.core.rhsel := rfl
@[simp] theorem core_hist_setThr (s : State) (t : Thread) : (s.setThr t).core.hist = s.core.hist := rfl
@[simp] theorem core_tlb_setThr (s : State) (t : Thread) : (s.setThr t).core.tlb = s.core.tlb := rfl
@[simp] theorem core_icache_setThr (s : State) (t : Thread) : (s.setThr t).core.icache = s.core.icache := rfl
@[simp] theorem core_loc_setThr (s : State) (t : Thread) : (s.setThr t).core.loc = s.core.loc := rfl
@[simp] theorem core_departed_setThr (s : State) (t : Thread) : (s.setThr t).core.departed = s.core.departed := rfl
@[simp] theorem core_lookup_setThr (s : State) (t : Thread) : (s.setThr t).core.lookup = s.core.lookup := rfl
@[simp] theorem core_ghosts_setThr (s : State) (t : Thread) : (s.setThr t).core.ghosts = s.core.ghosts := rfl
@[simp] theorem core_thermWithheld_setThr (s : State) (t : Thread) : (s.setThr t).core.thermWithheld = s.core.thermWithheld := rfl
@[simp] theorem core_thermRun_setThr (s : State) (t : Thread) : (s.setThr t).core.thermRun = s.core.thermRun := rfl
@[simp] theorem core_hot_setThr (s : State) (t : Thread) : (s.setThr t).core.hot = s.core.hot := rfl
@[simp] theorem core_temp_setProc (s : State) (p : Proc) : (s.setProc p).core.temp = s.core.temp := rfl
@[simp] theorem core_trapQ_setProc (s : State) (p : Proc) : (s.setProc p).core.trapQ = s.core.trapQ := rfl
@[simp] theorem core_trapWait_setProc (s : State) (p : Proc) : (s.setProc p).core.trapWait = s.core.trapWait := rfl
@[simp] theorem core_halted_setProc (s : State) (p : Proc) : (s.setProc p).core.halted = s.core.halted := rfl
@[simp] theorem core_oos_setProc (s : State) (p : Proc) : (s.setProc p).core.oos = s.core.oos := rfl
@[simp] theorem core_reserved_setProc (s : State) (p : Proc) : (s.setProc p).core.reserved = s.core.reserved := rfl
@[simp] theorem core_moving_setProc (s : State) (p : Proc) : (s.setProc p).core.moving = s.core.moving := rfl
@[simp] theorem core_txsel_setProc (s : State) (p : Proc) : (s.setProc p).core.txsel = s.core.txsel := rfl
@[simp] theorem core_svroot_setProc (s : State) (p : Proc) : (s.setProc p).core.svroot = s.core.svroot := rfl
@[simp] theorem core_ecccnt_setProc (s : State) (p : Proc) : (s.setProc p).core.ecccnt = s.core.ecccnt := rfl
@[simp] theorem core_meaddr_setProc (s : State) (p : Proc) : (s.setProc p).core.meaddr = s.core.meaddr := rfl
@[simp] theorem core_rhsel_setProc (s : State) (p : Proc) : (s.setProc p).core.rhsel = s.core.rhsel := rfl
@[simp] theorem core_hist_setProc (s : State) (p : Proc) : (s.setProc p).core.hist = s.core.hist := rfl
@[simp] theorem core_tlb_setProc (s : State) (p : Proc) : (s.setProc p).core.tlb = s.core.tlb := rfl
@[simp] theorem core_icache_setProc (s : State) (p : Proc) : (s.setProc p).core.icache = s.core.icache := rfl
@[simp] theorem core_loc_setProc (s : State) (p : Proc) : (s.setProc p).core.loc = s.core.loc := rfl
@[simp] theorem core_departed_setProc (s : State) (p : Proc) : (s.setProc p).core.departed = s.core.departed := rfl
@[simp] theorem core_lookup_setProc (s : State) (p : Proc) : (s.setProc p).core.lookup = s.core.lookup := rfl
@[simp] theorem core_ghosts_setProc (s : State) (p : Proc) : (s.setProc p).core.ghosts = s.core.ghosts := rfl
@[simp] theorem core_thermWithheld_setProc (s : State) (p : Proc) : (s.setProc p).core.thermWithheld = s.core.thermWithheld := rfl
@[simp] theorem core_thermRun_setProc (s : State) (p : Proc) : (s.setProc p).core.thermRun = s.core.thermRun := rfl
@[simp] theorem core_hot_setProc (s : State) (p : Proc) : (s.setProc p).core.hot = s.core.hot := rfl
@[simp] theorem core_proc_setProc (s : State) (p : Proc) : (s.setProc p).core.proc = p := rfl
@[simp] theorem core_slots_setProc (s : State) (p : Proc) : (s.setProc p).core.slots = s.core.slots := rfl
@[simp] theorem cycle_after (s : State) (n : Nat) (e : Instr) : (s.after n e).cycle = s.cycle := rfl
@[simp] theorem todo_after (s : State) (n : Nat) (e : Instr) : (s.after n e).todo = s.todo := rfl
@[simp] theorem redo_after (s : State) (n : Nat) (e : Instr) : (s.after n e).redo = s.redo := rfl
@[simp] theorem here_after (s : State) (n : Nat) (e : Instr) : (s.after n e).here = s.here := rfl
@[simp] theorem slot_after (s : State) (n : Nat) (e : Instr) : (s.after n e).slot = s.slot := rfl
@[simp] theorem others_after (s : State) (n : Nat) (e : Instr) : (s.after n e).others = s.others := rfl
@[simp] theorem clusters_after (s : State) (n : Nat) (e : Instr) : (s.after n e).clusters = s.clusters := rfl
@[simp] theorem mem_after (s : State) (n : Nat) (e : Instr) : (s.after n e).mem = s.mem := rfl
@[simp] theorem emptyPhys_after (s : State) (n : Nat) (e : Instr) : (s.after n e).emptyPhys = s.emptyPhys := rfl
@[simp] theorem bad_after (s : State) (n : Nat) (e : Instr) : (s.after n e).bad = s.bad := rfl
@[simp] theorem waiters_after (s : State) (n : Nat) (e : Instr) : (s.after n e).waiters = s.waiters := rfl
@[simp] theorem units_after (s : State) (n : Nat) (e : Instr) : (s.after n e).units = s.units := rfl
@[simp] theorem sigSlots_after (s : State) (n : Nat) (e : Instr) : (s.after n e).sigSlots = s.sigSlots := rfl
@[simp] theorem watches_after (s : State) (n : Nat) (e : Instr) : (s.after n e).watches = s.watches := rfl
@[simp] theorem groups_after (s : State) (n : Nat) (e : Instr) : (s.after n e).groups = s.groups := rfl
@[simp] theorem aunits_after (s : State) (n : Nat) (e : Instr) : (s.after n e).aunits = s.aunits := rfl
@[simp] theorem moves_after (s : State) (n : Nat) (e : Instr) : (s.after n e).moves = s.moves := rfl
@[simp] theorem nextMove_after (s : State) (n : Nat) (e : Instr) : (s.after n e).nextMove = s.nextMove := rfl
@[simp] theorem module_after (s : State) (n : Nat) (e : Instr) : (s.after n e).module = s.module := rfl
@[simp] theorem free_after (s : State) (n : Nat) (e : Instr) : (s.after n e).free = s.free := rfl
@[simp] theorem far_after (s : State) (n : Nat) (e : Instr) : (s.after n e).far = s.far := rfl
@[simp] theorem nextFar_after (s : State) (n : Nat) (e : Instr) : (s.after n e).nextFar = s.nextFar := rfl
@[simp] theorem event_after (s : State) (n : Nat) (e : Instr) : (s.after n e).event = s.event := rfl
@[simp] theorem core_after (s : State) (n : Nat) (e : Instr) : (s.after n e).core = s.core := rfl
@[simp] theorem agenda_after (s : State) (n : Nat) (e : Instr) : (s.after n e).agenda = agendaPut s.agenda (s.cycle + n) e := rfl
@[simp] theorem thr_after (s : State) (n : Nat) (e : Instr) : (s.after n e).thr = s.thr := rfl
@[simp] theorem proc_after (s : State) (n : Nat) (e : Instr) : (s.after n e).proc = s.proc := rfl
@[simp] theorem cycle_raise (s : State) (c : Nat) (r : TrapRec) : (s.raise c r).cycle = s.cycle := rfl
@[simp] theorem todo_raise (s : State) (c : Nat) (r : TrapRec) : (s.raise c r).todo = s.todo := rfl
@[simp] theorem redo_raise (s : State) (c : Nat) (r : TrapRec) : (s.raise c r).redo = s.redo := rfl
@[simp] theorem here_raise (s : State) (c : Nat) (r : TrapRec) : (s.raise c r).here = s.here := rfl
@[simp] theorem slot_raise (s : State) (c : Nat) (r : TrapRec) : (s.raise c r).slot = s.slot := rfl
@[simp] theorem others_raise (s : State) (c : Nat) (r : TrapRec) : (s.raise c r).others = s.others := rfl
@[simp] theorem clusters_raise (s : State) (c : Nat) (r : TrapRec) : (s.raise c r).clusters = s.clusters := rfl
@[simp] theorem mem_raise (s : State) (c : Nat) (r : TrapRec) : (s.raise c r).mem = s.mem := rfl
@[simp] theorem emptyPhys_raise (s : State) (c : Nat) (r : TrapRec) : (s.raise c r).emptyPhys = s.emptyPhys := rfl
@[simp] theorem bad_raise (s : State) (c : Nat) (r : TrapRec) : (s.raise c r).bad = s.bad := rfl
@[simp] theorem waiters_raise (s : State) (c : Nat) (r : TrapRec) : (s.raise c r).waiters = s.waiters := rfl
@[simp] theorem units_raise (s : State) (c : Nat) (r : TrapRec) : (s.raise c r).units = s.units := rfl
@[simp] theorem sigSlots_raise (s : State) (c : Nat) (r : TrapRec) : (s.raise c r).sigSlots = s.sigSlots := rfl
@[simp] theorem watches_raise (s : State) (c : Nat) (r : TrapRec) : (s.raise c r).watches = s.watches := rfl
@[simp] theorem groups_raise (s : State) (c : Nat) (r : TrapRec) : (s.raise c r).groups = s.groups := rfl
@[simp] theorem aunits_raise (s : State) (c : Nat) (r : TrapRec) : (s.raise c r).aunits = s.aunits := rfl
@[simp] theorem moves_raise (s : State) (c : Nat) (r : TrapRec) : (s.raise c r).moves = s.moves := rfl
@[simp] theorem nextMove_raise (s : State) (c : Nat) (r : TrapRec) : (s.raise c r).nextMove = s.nextMove := rfl
@[simp] theorem module_raise (s : State) (c : Nat) (r : TrapRec) : (s.raise c r).module = s.module := rfl
@[simp] theorem free_raise (s : State) (c : Nat) (r : TrapRec) : (s.raise c r).free = s.free := rfl
@[simp] theorem far_raise (s : State) (c : Nat) (r : TrapRec) : (s.raise c r).far = s.far := rfl
@[simp] theorem nextFar_raise (s : State) (c : Nat) (r : TrapRec) : (s.raise c r).nextFar = s.nextFar := rfl
@[simp] theorem event_raise (s : State) (c : Nat) (r : TrapRec) : (s.raise c r).event = s.event := rfl
@[simp] theorem core_raise (s : State) (c : Nat) (r : TrapRec) : (s.raise c r).core = s.core := rfl
@[simp] theorem live_wx (t : Thread) (d : BitVec 5) (w : Word) : (t.wx d w).live = t.live := by unfold Thread.wx; split <;> rfl
@[simp] theorem task_wx (t : Thread) (d : BitVec 5) (w : Word) : (t.wx d w).task = t.task := by unfold Thread.wx; split <;> rfl
@[simp] theorem notBefore_wx (t : Thread) (d : BitVec 5) (w : Word) : (t.wx d w).notBefore = t.notBefore := by unfold Thread.wx; split <;> rfl
@[simp] theorem f_wx (t : Thread) (d : BitVec 5) (w : Word) : (t.wx d w).f = t.f := by unfold Thread.wx; split <;> rfl
@[simp] theorem v_wx (t : Thread) (d : BitVec 5) (w : Word) : (t.wx d w).v = t.v := by unfold Thread.wx; split <;> rfl
@[simp] theorem k_wx (t : Thread) (d : BitVec 5) (w : Word) : (t.wx d w).k = t.k := by unfold Thread.wx; split <;> rfl
@[simp] theorem p_wx (t : Thread) (d : BitVec 5) (w : Word) : (t.wx d w).p = t.p := by unfold Thread.wx; split <;> rfl
@[simp] theorem pc_wx (t : Thread) (d : BitVec 5) (w : Word) : (t.wx d w).pc = t.pc := by unfold Thread.wx; split <;> rfl
@[simp] theorem ir_wx (t : Thread) (d : BitVec 5) (w : Word) : (t.wx d w).ir = t.ir := by unfold Thread.wx; split <;> rfl
@[simp] theorem fpctl_wx (t : Thread) (d : BitVec 5) (w : Word) : (t.wx d w).fpctl = t.fpctl := by unfold Thread.wx; split <;> rfl
@[simp] theorem instret_wx (t : Thread) (d : BitVec 5) (w : Word) : (t.wx d w).instret = t.instret := by unfold Thread.wx; split <;> rfl
@[simp] theorem hintdrop_wx (t : Thread) (d : BitVec 5) (w : Word) : (t.wx d w).hintdrop = t.hintdrop := by unfold Thread.wx; split <;> rfl
@[simp] theorem sciss_wx (t : Thread) (d : BitVec 5) (w : Word) : (t.wx d w).sciss = t.sciss := by unfold Thread.wx; split <;> rfl
@[simp] theorem scmem_wx (t : Thread) (d : BitVec 5) (w : Word) : (t.wx d w).scmem = t.scmem := by unfold Thread.wx; split <;> rfl
@[simp] theorem scmsg_wx (t : Thread) (d : BitVec 5) (w : Word) : (t.wx d w).scmsg = t.scmsg := by unfold Thread.wx; split <;> rfl
@[simp] theorem scvac_wx (t : Thread) (d : BitVec 5) (w : Word) : (t.wx d w).scvac = t.scvac := by unfold Thread.wx; split <;> rfl
@[simp] theorem wait_wx (t : Thread) (d : BitVec 5) (w : Word) : (t.wx d w).wait = t.wait := by unfold Thread.wx; split <;> rfl
@[simp] theorem pend_wx (t : Thread) (d : BitVec 5) (w : Word) : (t.wx d w).pend = t.pend := by unfold Thread.wx; split <;> rfl
@[simp] theorem got_wx (t : Thread) (d : BitVec 5) (w : Word) : (t.wx d w).got = t.got := by unfold Thread.wx; split <;> rfl
@[simp] theorem gotSig_wx (t : Thread) (d : BitVec 5) (w : Word) : (t.wx d w).gotSig = t.gotSig := by unfold Thread.wx; split <;> rfl
@[simp] theorem snap_wx (t : Thread) (d : BitVec 5) (w : Word) : (t.wx d w).snap = t.snap := by unfold Thread.wx; split <;> rfl
@[simp] theorem snapSig_wx (t : Thread) (d : BitVec 5) (w : Word) : (t.wx d w).snapSig = t.snapSig := by unfold Thread.wx; split <;> rfl
@[simp] theorem ready_wx (t : Thread) (d : BitVec 5) (w : Word) : (t.wx d w).ready = t.ready := by unfold Thread.wx; split <;> rfl
@[simp] theorem walked_wx (t : Thread) (d : BitVec 5) (w : Word) : (t.wx d w).walked = t.walked := by unfold Thread.wx; split <;> rfl
@[simp] theorem cont_wx (t : Thread) (d : BitVec 5) (w : Word) : (t.wx d w).cont = t.cont := by unfold Thread.wx; split <;> rfl
@[simp] theorem amo_wx (t : Thread) (d : BitVec 5) (w : Word) : (t.wx d w).amo = t.amo := by unfold Thread.wx; split <;> rfl
@[simp] theorem storeQ_wx (t : Thread) (d : BitVec 5) (w : Word) : (t.wx d w).storeQ = t.storeQ := by unfold Thread.wx; split <;> rfl
@[simp] theorem frame_wx (t : Thread) (d : BitVec 5) (w : Word) : (t.wx d w).frame = t.frame := by unfold Thread.wx; split <;> rfl
@[simp] theorem rstack_wx (t : Thread) (d : BitVec 5) (w : Word) : (t.wx d w).rstack = t.rstack := by unfold Thread.wx; split <;> rfl
@[simp] theorem lost_wx (t : Thread) (d : BitVec 5) (w : Word) : (t.wx d w).lost = t.lost := by unfold Thread.wx; split <;> rfl
@[simp] theorem mons_wx (t : Thread) (d : BitVec 5) (w : Word) : (t.wx d w).mons = t.mons := by unfold Thread.wx; split <;> rfl
@[simp] theorem intr_wx (t : Thread) (d : BitVec 5) (w : Word) : (t.wx d w).intr = t.intr := by unfold Thread.wx; split <;> rfl
@[simp] theorem barSt_wx (t : Thread) (d : BitVec 5) (w : Word) : (t.wx d w).barSt = t.barSt := by unfold Thread.wx; split <;> rfl
@[simp] theorem defStop_wx (t : Thread) (d : BitVec 5) (w : Word) : (t.wx d w).defStop = t.defStop := by unfold Thread.wx; split <;> rfl
@[simp] theorem trap_wx (t : Thread) (d : BitVec 5) (w : Word) : (t.wx d w).trap = t.trap := by unfold Thread.wx; split <;> rfl
@[simp] theorem kpend_wx (t : Thread) (d : BitVec 5) (w : Word) : (t.wx d w).kpend = t.kpend := by unfold Thread.wx; split <;> rfl
@[simp] theorem exitv_wx (t : Thread) (d : BitVec 5) (w : Word) : (t.wx d w).exitv = t.exitv := by unfold Thread.wx; split <;> rfl
@[simp] theorem killed_wx (t : Thread) (d : BitVec 5) (w : Word) : (t.wx d w).killed = t.killed := by unfold Thread.wx; split <;> rfl
@[simp] theorem sentTo_wx (t : Thread) (d : BitVec 5) (w : Word) : (t.wx d w).sentTo = t.sentTo := by unfold Thread.wx; split <;> rfl
@[simp] theorem rel_wx (t : Thread) (d : BitVec 5) (w : Word) : (t.wx d w).rel = t.rel := by unfold Thread.wx; split <;> rfl
@[simp] theorem desc_wx (t : Thread) (d : BitVec 5) (w : Word) : (t.wx d w).desc = t.desc := by unfold Thread.wx; split <;> rfl
@[simp] theorem live_wf (t : Thread) (d : BitVec 5) (w : Word) : (t.wf d w).live = t.live := rfl
@[simp] theorem task_wf (t : Thread) (d : BitVec 5) (w : Word) : (t.wf d w).task = t.task := rfl
@[simp] theorem notBefore_wf (t : Thread) (d : BitVec 5) (w : Word) : (t.wf d w).notBefore = t.notBefore := rfl
@[simp] theorem x_wf (t : Thread) (d : BitVec 5) (w : Word) : (t.wf d w).x = t.x := rfl
@[simp] theorem v_wf (t : Thread) (d : BitVec 5) (w : Word) : (t.wf d w).v = t.v := rfl
@[simp] theorem k_wf (t : Thread) (d : BitVec 5) (w : Word) : (t.wf d w).k = t.k := rfl
@[simp] theorem p_wf (t : Thread) (d : BitVec 5) (w : Word) : (t.wf d w).p = t.p := rfl
@[simp] theorem pc_wf (t : Thread) (d : BitVec 5) (w : Word) : (t.wf d w).pc = t.pc := rfl
@[simp] theorem ir_wf (t : Thread) (d : BitVec 5) (w : Word) : (t.wf d w).ir = t.ir := rfl
@[simp] theorem fpctl_wf (t : Thread) (d : BitVec 5) (w : Word) : (t.wf d w).fpctl = t.fpctl := rfl
@[simp] theorem instret_wf (t : Thread) (d : BitVec 5) (w : Word) : (t.wf d w).instret = t.instret := rfl
@[simp] theorem hintdrop_wf (t : Thread) (d : BitVec 5) (w : Word) : (t.wf d w).hintdrop = t.hintdrop := rfl
@[simp] theorem sciss_wf (t : Thread) (d : BitVec 5) (w : Word) : (t.wf d w).sciss = t.sciss := rfl
@[simp] theorem scmem_wf (t : Thread) (d : BitVec 5) (w : Word) : (t.wf d w).scmem = t.scmem := rfl
@[simp] theorem scmsg_wf (t : Thread) (d : BitVec 5) (w : Word) : (t.wf d w).scmsg = t.scmsg := rfl
@[simp] theorem scvac_wf (t : Thread) (d : BitVec 5) (w : Word) : (t.wf d w).scvac = t.scvac := rfl
@[simp] theorem wait_wf (t : Thread) (d : BitVec 5) (w : Word) : (t.wf d w).wait = t.wait := rfl
@[simp] theorem pend_wf (t : Thread) (d : BitVec 5) (w : Word) : (t.wf d w).pend = t.pend := rfl
@[simp] theorem got_wf (t : Thread) (d : BitVec 5) (w : Word) : (t.wf d w).got = t.got := rfl
@[simp] theorem gotSig_wf (t : Thread) (d : BitVec 5) (w : Word) : (t.wf d w).gotSig = t.gotSig := rfl
@[simp] theorem snap_wf (t : Thread) (d : BitVec 5) (w : Word) : (t.wf d w).snap = t.snap := rfl
@[simp] theorem snapSig_wf (t : Thread) (d : BitVec 5) (w : Word) : (t.wf d w).snapSig = t.snapSig := rfl
@[simp] theorem ready_wf (t : Thread) (d : BitVec 5) (w : Word) : (t.wf d w).ready = t.ready := rfl
@[simp] theorem walked_wf (t : Thread) (d : BitVec 5) (w : Word) : (t.wf d w).walked = t.walked := rfl
@[simp] theorem cont_wf (t : Thread) (d : BitVec 5) (w : Word) : (t.wf d w).cont = t.cont := rfl
@[simp] theorem amo_wf (t : Thread) (d : BitVec 5) (w : Word) : (t.wf d w).amo = t.amo := rfl
@[simp] theorem storeQ_wf (t : Thread) (d : BitVec 5) (w : Word) : (t.wf d w).storeQ = t.storeQ := rfl
@[simp] theorem frame_wf (t : Thread) (d : BitVec 5) (w : Word) : (t.wf d w).frame = t.frame := rfl
@[simp] theorem rstack_wf (t : Thread) (d : BitVec 5) (w : Word) : (t.wf d w).rstack = t.rstack := rfl
@[simp] theorem lost_wf (t : Thread) (d : BitVec 5) (w : Word) : (t.wf d w).lost = t.lost := rfl
@[simp] theorem mons_wf (t : Thread) (d : BitVec 5) (w : Word) : (t.wf d w).mons = t.mons := rfl
@[simp] theorem intr_wf (t : Thread) (d : BitVec 5) (w : Word) : (t.wf d w).intr = t.intr := rfl
@[simp] theorem barSt_wf (t : Thread) (d : BitVec 5) (w : Word) : (t.wf d w).barSt = t.barSt := rfl
@[simp] theorem defStop_wf (t : Thread) (d : BitVec 5) (w : Word) : (t.wf d w).defStop = t.defStop := rfl
@[simp] theorem trap_wf (t : Thread) (d : BitVec 5) (w : Word) : (t.wf d w).trap = t.trap := rfl
@[simp] theorem kpend_wf (t : Thread) (d : BitVec 5) (w : Word) : (t.wf d w).kpend = t.kpend := rfl
@[simp] theorem exitv_wf (t : Thread) (d : BitVec 5) (w : Word) : (t.wf d w).exitv = t.exitv := rfl
@[simp] theorem killed_wf (t : Thread) (d : BitVec 5) (w : Word) : (t.wf d w).killed = t.killed := rfl
@[simp] theorem sentTo_wf (t : Thread) (d : BitVec 5) (w : Word) : (t.wf d w).sentTo = t.sentTo := rfl
@[simp] theorem rel_wf (t : Thread) (d : BitVec 5) (w : Word) : (t.wf d w).rel = t.rel := rfl
@[simp] theorem desc_wf (t : Thread) (d : BitVec 5) (w : Word) : (t.wf d w).desc = t.desc := rfl
@[simp] theorem live_wv (t : Thread) (d : BitVec 4) (w : BitVec 256) : (t.wv d w).live = t.live := rfl
@[simp] theorem task_wv (t : Thread) (d : BitVec 4) (w : BitVec 256) : (t.wv d w).task = t.task := rfl
@[simp] theorem notBefore_wv (t : Thread) (d : BitVec 4) (w : BitVec 256) : (t.wv d w).notBefore = t.notBefore := rfl
@[simp] theorem x_wv (t : Thread) (d : BitVec 4) (w : BitVec 256) : (t.wv d w).x = t.x := rfl
@[simp] theorem f_wv (t : Thread) (d : BitVec 4) (w : BitVec 256) : (t.wv d w).f = t.f := rfl
@[simp] theorem k_wv (t : Thread) (d : BitVec 4) (w : BitVec 256) : (t.wv d w).k = t.k := rfl
@[simp] theorem p_wv (t : Thread) (d : BitVec 4) (w : BitVec 256) : (t.wv d w).p = t.p := rfl
@[simp] theorem pc_wv (t : Thread) (d : BitVec 4) (w : BitVec 256) : (t.wv d w).pc = t.pc := rfl
@[simp] theorem ir_wv (t : Thread) (d : BitVec 4) (w : BitVec 256) : (t.wv d w).ir = t.ir := rfl
@[simp] theorem fpctl_wv (t : Thread) (d : BitVec 4) (w : BitVec 256) : (t.wv d w).fpctl = t.fpctl := rfl
@[simp] theorem instret_wv (t : Thread) (d : BitVec 4) (w : BitVec 256) : (t.wv d w).instret = t.instret := rfl
@[simp] theorem hintdrop_wv (t : Thread) (d : BitVec 4) (w : BitVec 256) : (t.wv d w).hintdrop = t.hintdrop := rfl
@[simp] theorem sciss_wv (t : Thread) (d : BitVec 4) (w : BitVec 256) : (t.wv d w).sciss = t.sciss := rfl
@[simp] theorem scmem_wv (t : Thread) (d : BitVec 4) (w : BitVec 256) : (t.wv d w).scmem = t.scmem := rfl
@[simp] theorem scmsg_wv (t : Thread) (d : BitVec 4) (w : BitVec 256) : (t.wv d w).scmsg = t.scmsg := rfl
@[simp] theorem scvac_wv (t : Thread) (d : BitVec 4) (w : BitVec 256) : (t.wv d w).scvac = t.scvac := rfl
@[simp] theorem wait_wv (t : Thread) (d : BitVec 4) (w : BitVec 256) : (t.wv d w).wait = t.wait := rfl
@[simp] theorem pend_wv (t : Thread) (d : BitVec 4) (w : BitVec 256) : (t.wv d w).pend = t.pend := rfl
@[simp] theorem got_wv (t : Thread) (d : BitVec 4) (w : BitVec 256) : (t.wv d w).got = t.got := rfl
@[simp] theorem gotSig_wv (t : Thread) (d : BitVec 4) (w : BitVec 256) : (t.wv d w).gotSig = t.gotSig := rfl
@[simp] theorem snap_wv (t : Thread) (d : BitVec 4) (w : BitVec 256) : (t.wv d w).snap = t.snap := rfl
@[simp] theorem snapSig_wv (t : Thread) (d : BitVec 4) (w : BitVec 256) : (t.wv d w).snapSig = t.snapSig := rfl
@[simp] theorem ready_wv (t : Thread) (d : BitVec 4) (w : BitVec 256) : (t.wv d w).ready = t.ready := rfl
@[simp] theorem walked_wv (t : Thread) (d : BitVec 4) (w : BitVec 256) : (t.wv d w).walked = t.walked := rfl
@[simp] theorem cont_wv (t : Thread) (d : BitVec 4) (w : BitVec 256) : (t.wv d w).cont = t.cont := rfl
@[simp] theorem amo_wv (t : Thread) (d : BitVec 4) (w : BitVec 256) : (t.wv d w).amo = t.amo := rfl
@[simp] theorem storeQ_wv (t : Thread) (d : BitVec 4) (w : BitVec 256) : (t.wv d w).storeQ = t.storeQ := rfl
@[simp] theorem frame_wv (t : Thread) (d : BitVec 4) (w : BitVec 256) : (t.wv d w).frame = t.frame := rfl
@[simp] theorem rstack_wv (t : Thread) (d : BitVec 4) (w : BitVec 256) : (t.wv d w).rstack = t.rstack := rfl
@[simp] theorem lost_wv (t : Thread) (d : BitVec 4) (w : BitVec 256) : (t.wv d w).lost = t.lost := rfl
@[simp] theorem mons_wv (t : Thread) (d : BitVec 4) (w : BitVec 256) : (t.wv d w).mons = t.mons := rfl
@[simp] theorem intr_wv (t : Thread) (d : BitVec 4) (w : BitVec 256) : (t.wv d w).intr = t.intr := rfl
@[simp] theorem barSt_wv (t : Thread) (d : BitVec 4) (w : BitVec 256) : (t.wv d w).barSt = t.barSt := rfl
@[simp] theorem defStop_wv (t : Thread) (d : BitVec 4) (w : BitVec 256) : (t.wv d w).defStop = t.defStop := rfl
@[simp] theorem trap_wv (t : Thread) (d : BitVec 4) (w : BitVec 256) : (t.wv d w).trap = t.trap := rfl
@[simp] theorem kpend_wv (t : Thread) (d : BitVec 4) (w : BitVec 256) : (t.wv d w).kpend = t.kpend := rfl
@[simp] theorem exitv_wv (t : Thread) (d : BitVec 4) (w : BitVec 256) : (t.wv d w).exitv = t.exitv := rfl
@[simp] theorem killed_wv (t : Thread) (d : BitVec 4) (w : BitVec 256) : (t.wv d w).killed = t.killed := rfl
@[simp] theorem sentTo_wv (t : Thread) (d : BitVec 4) (w : BitVec 256) : (t.wv d w).sentTo = t.sentTo := rfl
@[simp] theorem rel_wv (t : Thread) (d : BitVec 4) (w : BitVec 256) : (t.wv d w).rel = t.rel := rfl
@[simp] theorem desc_wv (t : Thread) (d : BitVec 4) (w : BitVec 256) : (t.wv d w).desc = t.desc := rfl
@[simp] theorem live_wk (t : Thread) (d : BitVec 3) (w : BitVec 32) : (t.wk d w).live = t.live := by unfold Thread.wk; split <;> rfl
@[simp] theorem task_wk (t : Thread) (d : BitVec 3) (w : BitVec 32) : (t.wk d w).task = t.task := by unfold Thread.wk; split <;> rfl
@[simp] theorem notBefore_wk (t : Thread) (d : BitVec 3) (w : BitVec 32) : (t.wk d w).notBefore = t.notBefore := by unfold Thread.wk; split <;> rfl
@[simp] theorem x_wk (t : Thread) (d : BitVec 3) (w : BitVec 32) : (t.wk d w).x = t.x := by unfold Thread.wk; split <;> rfl
@[simp] theorem f_wk (t : Thread) (d : BitVec 3) (w : BitVec 32) : (t.wk d w).f = t.f := by unfold Thread.wk; split <;> rfl
@[simp] theorem v_wk (t : Thread) (d : BitVec 3) (w : BitVec 32) : (t.wk d w).v = t.v := by unfold Thread.wk; split <;> rfl
@[simp] theorem p_wk (t : Thread) (d : BitVec 3) (w : BitVec 32) : (t.wk d w).p = t.p := by unfold Thread.wk; split <;> rfl
@[simp] theorem pc_wk (t : Thread) (d : BitVec 3) (w : BitVec 32) : (t.wk d w).pc = t.pc := by unfold Thread.wk; split <;> rfl
@[simp] theorem ir_wk (t : Thread) (d : BitVec 3) (w : BitVec 32) : (t.wk d w).ir = t.ir := by unfold Thread.wk; split <;> rfl
@[simp] theorem fpctl_wk (t : Thread) (d : BitVec 3) (w : BitVec 32) : (t.wk d w).fpctl = t.fpctl := by unfold Thread.wk; split <;> rfl
@[simp] theorem instret_wk (t : Thread) (d : BitVec 3) (w : BitVec 32) : (t.wk d w).instret = t.instret := by unfold Thread.wk; split <;> rfl
@[simp] theorem hintdrop_wk (t : Thread) (d : BitVec 3) (w : BitVec 32) : (t.wk d w).hintdrop = t.hintdrop := by unfold Thread.wk; split <;> rfl
@[simp] theorem sciss_wk (t : Thread) (d : BitVec 3) (w : BitVec 32) : (t.wk d w).sciss = t.sciss := by unfold Thread.wk; split <;> rfl
@[simp] theorem scmem_wk (t : Thread) (d : BitVec 3) (w : BitVec 32) : (t.wk d w).scmem = t.scmem := by unfold Thread.wk; split <;> rfl
@[simp] theorem scmsg_wk (t : Thread) (d : BitVec 3) (w : BitVec 32) : (t.wk d w).scmsg = t.scmsg := by unfold Thread.wk; split <;> rfl
@[simp] theorem scvac_wk (t : Thread) (d : BitVec 3) (w : BitVec 32) : (t.wk d w).scvac = t.scvac := by unfold Thread.wk; split <;> rfl
@[simp] theorem wait_wk (t : Thread) (d : BitVec 3) (w : BitVec 32) : (t.wk d w).wait = t.wait := by unfold Thread.wk; split <;> rfl
@[simp] theorem pend_wk (t : Thread) (d : BitVec 3) (w : BitVec 32) : (t.wk d w).pend = t.pend := by unfold Thread.wk; split <;> rfl
@[simp] theorem got_wk (t : Thread) (d : BitVec 3) (w : BitVec 32) : (t.wk d w).got = t.got := by unfold Thread.wk; split <;> rfl
@[simp] theorem gotSig_wk (t : Thread) (d : BitVec 3) (w : BitVec 32) : (t.wk d w).gotSig = t.gotSig := by unfold Thread.wk; split <;> rfl
@[simp] theorem snap_wk (t : Thread) (d : BitVec 3) (w : BitVec 32) : (t.wk d w).snap = t.snap := by unfold Thread.wk; split <;> rfl
@[simp] theorem snapSig_wk (t : Thread) (d : BitVec 3) (w : BitVec 32) : (t.wk d w).snapSig = t.snapSig := by unfold Thread.wk; split <;> rfl
@[simp] theorem ready_wk (t : Thread) (d : BitVec 3) (w : BitVec 32) : (t.wk d w).ready = t.ready := by unfold Thread.wk; split <;> rfl
@[simp] theorem walked_wk (t : Thread) (d : BitVec 3) (w : BitVec 32) : (t.wk d w).walked = t.walked := by unfold Thread.wk; split <;> rfl
@[simp] theorem cont_wk (t : Thread) (d : BitVec 3) (w : BitVec 32) : (t.wk d w).cont = t.cont := by unfold Thread.wk; split <;> rfl
@[simp] theorem amo_wk (t : Thread) (d : BitVec 3) (w : BitVec 32) : (t.wk d w).amo = t.amo := by unfold Thread.wk; split <;> rfl
@[simp] theorem storeQ_wk (t : Thread) (d : BitVec 3) (w : BitVec 32) : (t.wk d w).storeQ = t.storeQ := by unfold Thread.wk; split <;> rfl
@[simp] theorem frame_wk (t : Thread) (d : BitVec 3) (w : BitVec 32) : (t.wk d w).frame = t.frame := by unfold Thread.wk; split <;> rfl
@[simp] theorem rstack_wk (t : Thread) (d : BitVec 3) (w : BitVec 32) : (t.wk d w).rstack = t.rstack := by unfold Thread.wk; split <;> rfl
@[simp] theorem lost_wk (t : Thread) (d : BitVec 3) (w : BitVec 32) : (t.wk d w).lost = t.lost := by unfold Thread.wk; split <;> rfl
@[simp] theorem mons_wk (t : Thread) (d : BitVec 3) (w : BitVec 32) : (t.wk d w).mons = t.mons := by unfold Thread.wk; split <;> rfl
@[simp] theorem intr_wk (t : Thread) (d : BitVec 3) (w : BitVec 32) : (t.wk d w).intr = t.intr := by unfold Thread.wk; split <;> rfl
@[simp] theorem barSt_wk (t : Thread) (d : BitVec 3) (w : BitVec 32) : (t.wk d w).barSt = t.barSt := by unfold Thread.wk; split <;> rfl
@[simp] theorem defStop_wk (t : Thread) (d : BitVec 3) (w : BitVec 32) : (t.wk d w).defStop = t.defStop := by unfold Thread.wk; split <;> rfl
@[simp] theorem trap_wk (t : Thread) (d : BitVec 3) (w : BitVec 32) : (t.wk d w).trap = t.trap := by unfold Thread.wk; split <;> rfl
@[simp] theorem kpend_wk (t : Thread) (d : BitVec 3) (w : BitVec 32) : (t.wk d w).kpend = t.kpend := by unfold Thread.wk; split <;> rfl
@[simp] theorem exitv_wk (t : Thread) (d : BitVec 3) (w : BitVec 32) : (t.wk d w).exitv = t.exitv := by unfold Thread.wk; split <;> rfl
@[simp] theorem killed_wk (t : Thread) (d : BitVec 3) (w : BitVec 32) : (t.wk d w).killed = t.killed := by unfold Thread.wk; split <;> rfl
@[simp] theorem sentTo_wk (t : Thread) (d : BitVec 3) (w : BitVec 32) : (t.wk d w).sentTo = t.sentTo := by unfold Thread.wk; split <;> rfl
@[simp] theorem rel_wk (t : Thread) (d : BitVec 3) (w : BitVec 32) : (t.wk d w).rel = t.rel := by unfold Thread.wk; split <;> rfl
@[simp] theorem desc_wk (t : Thread) (d : BitVec 3) (w : BitVec 32) : (t.wk d w).desc = t.desc := by unfold Thread.wk; split <;> rfl
@[simp] theorem live_wp (t : Thread) (d : BitVec 3) (w : Bool) : (t.wp d w).live = t.live := by unfold Thread.wp; split <;> rfl
@[simp] theorem task_wp (t : Thread) (d : BitVec 3) (w : Bool) : (t.wp d w).task = t.task := by unfold Thread.wp; split <;> rfl
@[simp] theorem notBefore_wp (t : Thread) (d : BitVec 3) (w : Bool) : (t.wp d w).notBefore = t.notBefore := by unfold Thread.wp; split <;> rfl
@[simp] theorem x_wp (t : Thread) (d : BitVec 3) (w : Bool) : (t.wp d w).x = t.x := by unfold Thread.wp; split <;> rfl
@[simp] theorem f_wp (t : Thread) (d : BitVec 3) (w : Bool) : (t.wp d w).f = t.f := by unfold Thread.wp; split <;> rfl
@[simp] theorem v_wp (t : Thread) (d : BitVec 3) (w : Bool) : (t.wp d w).v = t.v := by unfold Thread.wp; split <;> rfl
@[simp] theorem k_wp (t : Thread) (d : BitVec 3) (w : Bool) : (t.wp d w).k = t.k := by unfold Thread.wp; split <;> rfl
@[simp] theorem pc_wp (t : Thread) (d : BitVec 3) (w : Bool) : (t.wp d w).pc = t.pc := by unfold Thread.wp; split <;> rfl
@[simp] theorem ir_wp (t : Thread) (d : BitVec 3) (w : Bool) : (t.wp d w).ir = t.ir := by unfold Thread.wp; split <;> rfl
@[simp] theorem fpctl_wp (t : Thread) (d : BitVec 3) (w : Bool) : (t.wp d w).fpctl = t.fpctl := by unfold Thread.wp; split <;> rfl
@[simp] theorem instret_wp (t : Thread) (d : BitVec 3) (w : Bool) : (t.wp d w).instret = t.instret := by unfold Thread.wp; split <;> rfl
@[simp] theorem hintdrop_wp (t : Thread) (d : BitVec 3) (w : Bool) : (t.wp d w).hintdrop = t.hintdrop := by unfold Thread.wp; split <;> rfl
@[simp] theorem sciss_wp (t : Thread) (d : BitVec 3) (w : Bool) : (t.wp d w).sciss = t.sciss := by unfold Thread.wp; split <;> rfl
@[simp] theorem scmem_wp (t : Thread) (d : BitVec 3) (w : Bool) : (t.wp d w).scmem = t.scmem := by unfold Thread.wp; split <;> rfl
@[simp] theorem scmsg_wp (t : Thread) (d : BitVec 3) (w : Bool) : (t.wp d w).scmsg = t.scmsg := by unfold Thread.wp; split <;> rfl
@[simp] theorem scvac_wp (t : Thread) (d : BitVec 3) (w : Bool) : (t.wp d w).scvac = t.scvac := by unfold Thread.wp; split <;> rfl
@[simp] theorem wait_wp (t : Thread) (d : BitVec 3) (w : Bool) : (t.wp d w).wait = t.wait := by unfold Thread.wp; split <;> rfl
@[simp] theorem pend_wp (t : Thread) (d : BitVec 3) (w : Bool) : (t.wp d w).pend = t.pend := by unfold Thread.wp; split <;> rfl
@[simp] theorem got_wp (t : Thread) (d : BitVec 3) (w : Bool) : (t.wp d w).got = t.got := by unfold Thread.wp; split <;> rfl
@[simp] theorem gotSig_wp (t : Thread) (d : BitVec 3) (w : Bool) : (t.wp d w).gotSig = t.gotSig := by unfold Thread.wp; split <;> rfl
@[simp] theorem snap_wp (t : Thread) (d : BitVec 3) (w : Bool) : (t.wp d w).snap = t.snap := by unfold Thread.wp; split <;> rfl
@[simp] theorem snapSig_wp (t : Thread) (d : BitVec 3) (w : Bool) : (t.wp d w).snapSig = t.snapSig := by unfold Thread.wp; split <;> rfl
@[simp] theorem ready_wp (t : Thread) (d : BitVec 3) (w : Bool) : (t.wp d w).ready = t.ready := by unfold Thread.wp; split <;> rfl
@[simp] theorem walked_wp (t : Thread) (d : BitVec 3) (w : Bool) : (t.wp d w).walked = t.walked := by unfold Thread.wp; split <;> rfl
@[simp] theorem cont_wp (t : Thread) (d : BitVec 3) (w : Bool) : (t.wp d w).cont = t.cont := by unfold Thread.wp; split <;> rfl
@[simp] theorem amo_wp (t : Thread) (d : BitVec 3) (w : Bool) : (t.wp d w).amo = t.amo := by unfold Thread.wp; split <;> rfl
@[simp] theorem storeQ_wp (t : Thread) (d : BitVec 3) (w : Bool) : (t.wp d w).storeQ = t.storeQ := by unfold Thread.wp; split <;> rfl
@[simp] theorem frame_wp (t : Thread) (d : BitVec 3) (w : Bool) : (t.wp d w).frame = t.frame := by unfold Thread.wp; split <;> rfl
@[simp] theorem rstack_wp (t : Thread) (d : BitVec 3) (w : Bool) : (t.wp d w).rstack = t.rstack := by unfold Thread.wp; split <;> rfl
@[simp] theorem lost_wp (t : Thread) (d : BitVec 3) (w : Bool) : (t.wp d w).lost = t.lost := by unfold Thread.wp; split <;> rfl
@[simp] theorem mons_wp (t : Thread) (d : BitVec 3) (w : Bool) : (t.wp d w).mons = t.mons := by unfold Thread.wp; split <;> rfl
@[simp] theorem intr_wp (t : Thread) (d : BitVec 3) (w : Bool) : (t.wp d w).intr = t.intr := by unfold Thread.wp; split <;> rfl
@[simp] theorem barSt_wp (t : Thread) (d : BitVec 3) (w : Bool) : (t.wp d w).barSt = t.barSt := by unfold Thread.wp; split <;> rfl
@[simp] theorem defStop_wp (t : Thread) (d : BitVec 3) (w : Bool) : (t.wp d w).defStop = t.defStop := by unfold Thread.wp; split <;> rfl
@[simp] theorem trap_wp (t : Thread) (d : BitVec 3) (w : Bool) : (t.wp d w).trap = t.trap := by unfold Thread.wp; split <;> rfl
@[simp] theorem kpend_wp (t : Thread) (d : BitVec 3) (w : Bool) : (t.wp d w).kpend = t.kpend := by unfold Thread.wp; split <;> rfl
@[simp] theorem exitv_wp (t : Thread) (d : BitVec 3) (w : Bool) : (t.wp d w).exitv = t.exitv := by unfold Thread.wp; split <;> rfl
@[simp] theorem killed_wp (t : Thread) (d : BitVec 3) (w : Bool) : (t.wp d w).killed = t.killed := by unfold Thread.wp; split <;> rfl
@[simp] theorem sentTo_wp (t : Thread) (d : BitVec 3) (w : Bool) : (t.wp d w).sentTo = t.sentTo := by unfold Thread.wp; split <;> rfl
@[simp] theorem rel_wp (t : Thread) (d : BitVec 3) (w : Bool) : (t.wp d w).rel = t.rel := by unfold Thread.wp; split <;> rfl
@[simp] theorem desc_wp (t : Thread) (d : BitVec 3) (w : Bool) : (t.wp d w).desc = t.desc := by unfold Thread.wp; split <;> rfl
@[simp] theorem live_flag (t : Thread) (w : BitVec 5) : (t.flag w).live = t.live := rfl
@[simp] theorem task_flag (t : Thread) (w : BitVec 5) : (t.flag w).task = t.task := rfl
@[simp] theorem notBefore_flag (t : Thread) (w : BitVec 5) : (t.flag w).notBefore = t.notBefore := rfl
@[simp] theorem x_flag (t : Thread) (w : BitVec 5) : (t.flag w).x = t.x := rfl
@[simp] theorem f_flag (t : Thread) (w : BitVec 5) : (t.flag w).f = t.f := rfl
@[simp] theorem v_flag (t : Thread) (w : BitVec 5) : (t.flag w).v = t.v := rfl
@[simp] theorem k_flag (t : Thread) (w : BitVec 5) : (t.flag w).k = t.k := rfl
@[simp] theorem p_flag (t : Thread) (w : BitVec 5) : (t.flag w).p = t.p := rfl
@[simp] theorem pc_flag (t : Thread) (w : BitVec 5) : (t.flag w).pc = t.pc := rfl
@[simp] theorem ir_flag (t : Thread) (w : BitVec 5) : (t.flag w).ir = t.ir := rfl
@[simp] theorem instret_flag (t : Thread) (w : BitVec 5) : (t.flag w).instret = t.instret := rfl
@[simp] theorem hintdrop_flag (t : Thread) (w : BitVec 5) : (t.flag w).hintdrop = t.hintdrop := rfl
@[simp] theorem sciss_flag (t : Thread) (w : BitVec 5) : (t.flag w).sciss = t.sciss := rfl
@[simp] theorem scmem_flag (t : Thread) (w : BitVec 5) : (t.flag w).scmem = t.scmem := rfl
@[simp] theorem scmsg_flag (t : Thread) (w : BitVec 5) : (t.flag w).scmsg = t.scmsg := rfl
@[simp] theorem scvac_flag (t : Thread) (w : BitVec 5) : (t.flag w).scvac = t.scvac := rfl
@[simp] theorem wait_flag (t : Thread) (w : BitVec 5) : (t.flag w).wait = t.wait := rfl
@[simp] theorem pend_flag (t : Thread) (w : BitVec 5) : (t.flag w).pend = t.pend := rfl
@[simp] theorem got_flag (t : Thread) (w : BitVec 5) : (t.flag w).got = t.got := rfl
@[simp] theorem gotSig_flag (t : Thread) (w : BitVec 5) : (t.flag w).gotSig = t.gotSig := rfl
@[simp] theorem snap_flag (t : Thread) (w : BitVec 5) : (t.flag w).snap = t.snap := rfl
@[simp] theorem snapSig_flag (t : Thread) (w : BitVec 5) : (t.flag w).snapSig = t.snapSig := rfl
@[simp] theorem ready_flag (t : Thread) (w : BitVec 5) : (t.flag w).ready = t.ready := rfl
@[simp] theorem walked_flag (t : Thread) (w : BitVec 5) : (t.flag w).walked = t.walked := rfl
@[simp] theorem cont_flag (t : Thread) (w : BitVec 5) : (t.flag w).cont = t.cont := rfl
@[simp] theorem amo_flag (t : Thread) (w : BitVec 5) : (t.flag w).amo = t.amo := rfl
@[simp] theorem storeQ_flag (t : Thread) (w : BitVec 5) : (t.flag w).storeQ = t.storeQ := rfl
@[simp] theorem frame_flag (t : Thread) (w : BitVec 5) : (t.flag w).frame = t.frame := rfl
@[simp] theorem rstack_flag (t : Thread) (w : BitVec 5) : (t.flag w).rstack = t.rstack := rfl
@[simp] theorem lost_flag (t : Thread) (w : BitVec 5) : (t.flag w).lost = t.lost := rfl
@[simp] theorem mons_flag (t : Thread) (w : BitVec 5) : (t.flag w).mons = t.mons := rfl
@[simp] theorem intr_flag (t : Thread) (w : BitVec 5) : (t.flag w).intr = t.intr := rfl
@[simp] theorem barSt_flag (t : Thread) (w : BitVec 5) : (t.flag w).barSt = t.barSt := rfl
@[simp] theorem defStop_flag (t : Thread) (w : BitVec 5) : (t.flag w).defStop = t.defStop := rfl
@[simp] theorem trap_flag (t : Thread) (w : BitVec 5) : (t.flag w).trap = t.trap := rfl
@[simp] theorem kpend_flag (t : Thread) (w : BitVec 5) : (t.flag w).kpend = t.kpend := rfl
@[simp] theorem exitv_flag (t : Thread) (w : BitVec 5) : (t.flag w).exitv = t.exitv := rfl
@[simp] theorem killed_flag (t : Thread) (w : BitVec 5) : (t.flag w).killed = t.killed := rfl
@[simp] theorem sentTo_flag (t : Thread) (w : BitVec 5) : (t.flag w).sentTo = t.sentTo := rfl
@[simp] theorem rel_flag (t : Thread) (w : BitVec 5) : (t.flag w).rel = t.rel := rfl
@[simp] theorem desc_flag (t : Thread) (w : BitVec 5) : (t.flag w).desc = t.desc := rfl
@[simp] theorem live_issued (t : Thread) : t.issued.live = t.live := rfl
@[simp] theorem task_issued (t : Thread) : t.issued.task = t.task := rfl
@[simp] theorem notBefore_issued (t : Thread) : t.issued.notBefore = t.notBefore := rfl
@[simp] theorem x_issued (t : Thread) : t.issued.x = t.x := rfl
@[simp] theorem f_issued (t : Thread) : t.issued.f = t.f := rfl
@[simp] theorem v_issued (t : Thread) : t.issued.v = t.v := rfl
@[simp] theorem k_issued (t : Thread) : t.issued.k = t.k := rfl
@[simp] theorem p_issued (t : Thread) : t.issued.p = t.p := rfl
@[simp] theorem pc_issued (t : Thread) : t.issued.pc = t.pc := rfl
@[simp] theorem ir_issued (t : Thread) : t.issued.ir = t.ir := rfl
@[simp] theorem fpctl_issued (t : Thread) : t.issued.fpctl = t.fpctl := rfl
@[simp] theorem hintdrop_issued (t : Thread) : t.issued.hintdrop = t.hintdrop := rfl
@[simp] theorem scmem_issued (t : Thread) : t.issued.scmem = t.scmem := rfl
@[simp] theorem scmsg_issued (t : Thread) : t.issued.scmsg = t.scmsg := rfl
@[simp] theorem scvac_issued (t : Thread) : t.issued.scvac = t.scvac := rfl
@[simp] theorem wait_issued (t : Thread) : t.issued.wait = t.wait := rfl
@[simp] theorem pend_issued (t : Thread) : t.issued.pend = t.pend := rfl
@[simp] theorem gotSig_issued (t : Thread) : t.issued.gotSig = t.gotSig := rfl
@[simp] theorem snap_issued (t : Thread) : t.issued.snap = t.snap := rfl
@[simp] theorem snapSig_issued (t : Thread) : t.issued.snapSig = t.snapSig := rfl
@[simp] theorem cont_issued (t : Thread) : t.issued.cont = t.cont := rfl
@[simp] theorem amo_issued (t : Thread) : t.issued.amo = t.amo := rfl
@[simp] theorem storeQ_issued (t : Thread) : t.issued.storeQ = t.storeQ := rfl
@[simp] theorem frame_issued (t : Thread) : t.issued.frame = t.frame := rfl
@[simp] theorem rstack_issued (t : Thread) : t.issued.rstack = t.rstack := rfl
@[simp] theorem lost_issued (t : Thread) : t.issued.lost = t.lost := rfl
@[simp] theorem mons_issued (t : Thread) : t.issued.mons = t.mons := rfl
@[simp] theorem intr_issued (t : Thread) : t.issued.intr = t.intr := rfl
@[simp] theorem barSt_issued (t : Thread) : t.issued.barSt = t.barSt := rfl
@[simp] theorem defStop_issued (t : Thread) : t.issued.defStop = t.defStop := rfl
@[simp] theorem trap_issued (t : Thread) : t.issued.trap = t.trap := rfl
@[simp] theorem kpend_issued (t : Thread) : t.issued.kpend = t.kpend := rfl
@[simp] theorem exitv_issued (t : Thread) : t.issued.exitv = t.exitv := rfl
@[simp] theorem killed_issued (t : Thread) : t.issued.killed = t.killed := rfl
@[simp] theorem sentTo_issued (t : Thread) : t.issued.sentTo = t.sentTo := rfl
theorem advance_form (t : Thread) : ∃ pc fr, t.advance = { t with pc := pc, frame := fr } := by
  unfold Thread.advance
  split
  · exact ⟨_, _, rfl⟩
  · split
    · exact ⟨_, _, rfl⟩
    · split <;> exact ⟨_, _, rfl⟩
@[simp] theorem live_advance (t : Thread) : t.advance.live = t.live := (advance_form t).elim (fun _ h => h.elim (fun _ h => by rw [h]))
@[simp] theorem task_advance (t : Thread) : t.advance.task = t.task := (advance_form t).elim (fun _ h => h.elim (fun _ h => by rw [h]))
@[simp] theorem notBefore_advance (t : Thread) : t.advance.notBefore = t.notBefore := (advance_form t).elim (fun _ h => h.elim (fun _ h => by rw [h]))
@[simp] theorem x_advance (t : Thread) : t.advance.x = t.x := (advance_form t).elim (fun _ h => h.elim (fun _ h => by rw [h]))
@[simp] theorem f_advance (t : Thread) : t.advance.f = t.f := (advance_form t).elim (fun _ h => h.elim (fun _ h => by rw [h]))
@[simp] theorem v_advance (t : Thread) : t.advance.v = t.v := (advance_form t).elim (fun _ h => h.elim (fun _ h => by rw [h]))
@[simp] theorem k_advance (t : Thread) : t.advance.k = t.k := (advance_form t).elim (fun _ h => h.elim (fun _ h => by rw [h]))
@[simp] theorem p_advance (t : Thread) : t.advance.p = t.p := (advance_form t).elim (fun _ h => h.elim (fun _ h => by rw [h]))
@[simp] theorem ir_advance (t : Thread) : t.advance.ir = t.ir := (advance_form t).elim (fun _ h => h.elim (fun _ h => by rw [h]))
@[simp] theorem fpctl_advance (t : Thread) : t.advance.fpctl = t.fpctl := (advance_form t).elim (fun _ h => h.elim (fun _ h => by rw [h]))
@[simp] theorem instret_advance (t : Thread) : t.advance.instret = t.instret := (advance_form t).elim (fun _ h => h.elim (fun _ h => by rw [h]))
@[simp] theorem hintdrop_advance (t : Thread) : t.advance.hintdrop = t.hintdrop := (advance_form t).elim (fun _ h => h.elim (fun _ h => by rw [h]))
@[simp] theorem sciss_advance (t : Thread) : t.advance.sciss = t.sciss := (advance_form t).elim (fun _ h => h.elim (fun _ h => by rw [h]))
@[simp] theorem scmem_advance (t : Thread) : t.advance.scmem = t.scmem := (advance_form t).elim (fun _ h => h.elim (fun _ h => by rw [h]))
@[simp] theorem scmsg_advance (t : Thread) : t.advance.scmsg = t.scmsg := (advance_form t).elim (fun _ h => h.elim (fun _ h => by rw [h]))
@[simp] theorem scvac_advance (t : Thread) : t.advance.scvac = t.scvac := (advance_form t).elim (fun _ h => h.elim (fun _ h => by rw [h]))
@[simp] theorem wait_advance (t : Thread) : t.advance.wait = t.wait := (advance_form t).elim (fun _ h => h.elim (fun _ h => by rw [h]))
@[simp] theorem pend_advance (t : Thread) : t.advance.pend = t.pend := (advance_form t).elim (fun _ h => h.elim (fun _ h => by rw [h]))
@[simp] theorem got_advance (t : Thread) : t.advance.got = t.got := (advance_form t).elim (fun _ h => h.elim (fun _ h => by rw [h]))
@[simp] theorem gotSig_advance (t : Thread) : t.advance.gotSig = t.gotSig := (advance_form t).elim (fun _ h => h.elim (fun _ h => by rw [h]))
@[simp] theorem snap_advance (t : Thread) : t.advance.snap = t.snap := (advance_form t).elim (fun _ h => h.elim (fun _ h => by rw [h]))
@[simp] theorem snapSig_advance (t : Thread) : t.advance.snapSig = t.snapSig := (advance_form t).elim (fun _ h => h.elim (fun _ h => by rw [h]))
@[simp] theorem ready_advance (t : Thread) : t.advance.ready = t.ready := (advance_form t).elim (fun _ h => h.elim (fun _ h => by rw [h]))
@[simp] theorem walked_advance (t : Thread) : t.advance.walked = t.walked := (advance_form t).elim (fun _ h => h.elim (fun _ h => by rw [h]))
@[simp] theorem cont_advance (t : Thread) : t.advance.cont = t.cont := (advance_form t).elim (fun _ h => h.elim (fun _ h => by rw [h]))
@[simp] theorem amo_advance (t : Thread) : t.advance.amo = t.amo := (advance_form t).elim (fun _ h => h.elim (fun _ h => by rw [h]))
@[simp] theorem storeQ_advance (t : Thread) : t.advance.storeQ = t.storeQ := (advance_form t).elim (fun _ h => h.elim (fun _ h => by rw [h]))
@[simp] theorem rstack_advance (t : Thread) : t.advance.rstack = t.rstack := (advance_form t).elim (fun _ h => h.elim (fun _ h => by rw [h]))
@[simp] theorem lost_advance (t : Thread) : t.advance.lost = t.lost := (advance_form t).elim (fun _ h => h.elim (fun _ h => by rw [h]))
@[simp] theorem mons_advance (t : Thread) : t.advance.mons = t.mons := (advance_form t).elim (fun _ h => h.elim (fun _ h => by rw [h]))
@[simp] theorem intr_advance (t : Thread) : t.advance.intr = t.intr := (advance_form t).elim (fun _ h => h.elim (fun _ h => by rw [h]))
@[simp] theorem barSt_advance (t : Thread) : t.advance.barSt = t.barSt := (advance_form t).elim (fun _ h => h.elim (fun _ h => by rw [h]))
@[simp] theorem defStop_advance (t : Thread) : t.advance.defStop = t.defStop := (advance_form t).elim (fun _ h => h.elim (fun _ h => by rw [h]))
@[simp] theorem trap_advance (t : Thread) : t.advance.trap = t.trap := (advance_form t).elim (fun _ h => h.elim (fun _ h => by rw [h]))
@[simp] theorem kpend_advance (t : Thread) : t.advance.kpend = t.kpend := (advance_form t).elim (fun _ h => h.elim (fun _ h => by rw [h]))
@[simp] theorem exitv_advance (t : Thread) : t.advance.exitv = t.exitv := (advance_form t).elim (fun _ h => h.elim (fun _ h => by rw [h]))
@[simp] theorem killed_advance (t : Thread) : t.advance.killed = t.killed := (advance_form t).elim (fun _ h => h.elim (fun _ h => by rw [h]))
@[simp] theorem sentTo_advance (t : Thread) : t.advance.sentTo = t.sentTo := (advance_form t).elim (fun _ h => h.elim (fun _ h => by rw [h]))
@[simp] theorem rel_advance (t : Thread) : t.advance.rel = t.rel := (advance_form t).elim (fun _ h => h.elim (fun _ h => by rw [h]))
@[simp] theorem desc_advance (t : Thread) : t.advance.desc = t.desc := (advance_form t).elim (fun _ h => h.elim (fun _ h => by rw [h]))

@[simp] theorem core_seeking_setProc (s : State) (p : Proc) : (s.setProc p).core.seeking = s.core.seeking := rfl
@[simp] theorem core_replies_setProc (s : State) (p : Proc) : (s.setProc p).core.replies = s.core.replies := rfl
@[simp] theorem core_broke_setProc (s : State) (p : Proc) : (s.setProc p).core.broke = s.core.broke := rfl
@[simp] theorem core_seeking_setThr (s : State) (t : Thread) : (s.setThr t).core.seeking = s.core.seeking := rfl
@[simp] theorem core_replies_setThr (s : State) (t : Thread) : (s.setThr t).core.replies = s.core.replies := rfl
@[simp] theorem core_broke_setThr (s : State) (t : Thread) : (s.setThr t).core.broke = s.core.broke := rfl
@[simp] theorem hold_setHold (p : Proc) (h : Option Hold) (c : Nat) : (p.setHold h c).hold = h := rfl
@[simp] theorem holdAt_setHold (p : Proc) (h : Option Hold) (c : Nat) : (p.setHold h c).holdAt = c := rfl
@[simp] theorem gid_setHold (p : Proc) (h : Option Hold) (c : Nat) : (p.setHold h c).gid = p.gid := rfl
@[simp] theorem lid_setHold (p : Proc) (h : Option Hold) (c : Nat) : (p.setHold h c).lid = p.lid := rfl
@[simp] theorem win_setHold (p : Proc) (h : Option Hold) (c : Nat) : (p.setHold h c).win = p.win := rfl
@[simp] theorem winsize_setHold (p : Proc) (h : Option Hold) (c : Nat) : (p.setHold h c).winsize = p.winsize := rfl
@[simp] theorem gsize_setHold (p : Proc) (h : Option Hold) (c : Nat) : (p.setHold h c).gsize = p.gsize := rfl
@[simp] theorem empty_setHold (p : Proc) (h : Option Hold) (c : Nat) : (p.setHold h c).empty = p.empty := rfl
@[simp] theorem handles_setHold (p : Proc) (h : Option Hold) (c : Nat) : (p.setHold h c).handles = p.handles := rfl
@[simp] theorem inb_setHold (p : Proc) (h : Option Hold) (c : Nat) : (p.setHold h c).inb = p.inb := rfl
@[simp] theorem posted_setHold (p : Proc) (h : Option Hold) (c : Nat) : (p.setHold h c).posted = p.posted := rfl
@[simp] theorem uq_setHold (p : Proc) (h : Option Hold) (c : Nat) : (p.setHold h c).uq = p.uq := rfl
@[simp] theorem fifo_setHold (p : Proc) (h : Option Hold) (c : Nat) : (p.setHold h c).fifo = p.fifo := rfl
@[simp] theorem mq_setHold (p : Proc) (h : Option Hold) (c : Nat) : (p.setHold h c).mq = p.mq := rfl
@[simp] theorem latch_setHold (p : Proc) (h : Option Hold) (c : Nat) : (p.setHold h c).latch = p.latch := rfl
@[simp] theorem acc_setHold (p : Proc) (h : Option Hold) (c : Nat) : (p.setHold h c).acc = p.acc := rfl
@[simp] theorem ctr_setHold (p : Proc) (h : Option Hold) (c : Nat) : (p.setHold h c).ctr = p.ctr := rfl
@[simp] theorem rq_setHold (p : Proc) (h : Option Hold) (c : Nat) : (p.setHold h c).rq = p.rq := rfl
@[simp] theorem mc_setHold (p : Proc) (h : Option Hold) (c : Nat) : (p.setHold h c).mc = p.mc := rfl
@[simp] theorem anch_setHold (p : Proc) (h : Option Hold) (c : Nat) : (p.setHold h c).anch = p.anch := rfl
@[simp] theorem migp_setHold (p : Proc) (h : Option Hold) (c : Nat) : (p.setHold h c).migp = p.migp := rfl
@[simp] theorem ended_setHold (p : Proc) (h : Option Hold) (c : Nat) : (p.setHold h c).ended = p.ended := rfl
@[simp] theorem held_setHold (p : Proc) (h : Option Hold) (c : Nat) : (p.setHold h c).held = p.held := rfl
@[simp] theorem spilled_setHold (p : Proc) (h : Option Hold) (c : Nat) : (p.setHold h c).spilled = p.spilled := rfl
@[simp] theorem wakes_setThr (s : State) (t : Thread) : (s.setThr t).wakes = s.wakes := rfl
@[simp] theorem wakes_setProc (s : State) (p : Proc) : (s.setProc p).wakes = s.wakes := rfl
@[simp] theorem wakes_after (s : State) (n : Nat) (e : Instr) : (s.after n e).wakes = s.wakes := rfl
@[simp] theorem wakes_raise (s : State) (c : Nat) (r : TrapRec) : (s.raise c r).wakes = s.wakes := rfl
@[simp] theorem core_haltAt_setThr (s : State) (t : Thread) : (s.setThr t).core.haltAt = s.core.haltAt := rfl
@[simp] theorem core_haltAt_setProc (s : State) (p : Proc) : (s.setProc p).core.haltAt = s.core.haltAt := rfl
@[simp] theorem rx_setHold (p : Proc) (h : Option Hold) (c : Nat) : (p.setHold h c).rx = p.rx := rfl
@[simp] theorem ry_setHold (p : Proc) (h : Option Hold) (c : Nat) : (p.setHold h c).ry = p.ry := rfl
@[simp] theorem rw_setHold (p : Proc) (h : Option Hold) (c : Nat) : (p.setHold h c).rw = p.rw := rfl
@[simp] theorem rh_setHold (p : Proc) (h : Option Hold) (c : Nat) : (p.setHold h c).rh = p.rh := rfl
@[simp] theorem fm_setHold (p : Proc) (h : Option Hold) (c : Nat) : (p.setHold h c).fm = p.fm := rfl
@[simp] theorem accBad_setHold (p : Proc) (h : Option Hold) (c : Nat) : (p.setHold h c).accBad = p.accBad := rfl
@[simp] theorem nextLatch_setHold (p : Proc) (h : Option Hold) (c : Nat) : (p.setHold h c).nextLatch = p.nextLatch := rfl
@[simp] theorem blocked_setHold (p : Proc) (h : Option Hold) (c : Nat) : (p.setHold h c).blocked = p.blocked := rfl
@[simp] theorem blockedBy_setHold (p : Proc) (h : Option Hold) (c : Nat) : (p.setHold h c).blockedBy = p.blockedBy := rfl
@[simp] theorem landFault_setHold (p : Proc) (h : Option Hold) (c : Nat) : (p.setHold h c).landFault = p.landFault := rfl
@[simp] theorem stream_setHold (p : Proc) (h : Option Hold) (c : Nat) : (p.setHold h c).stream = p.stream := rfl
@[simp] theorem landUntil_setHold (p : Proc) (h : Option Hold) (c : Nat) : (p.setHold h c).landUntil = p.landUntil := rfl
@[simp] theorem copies_setHold (p : Proc) (h : Option Hold) (c : Nat) : (p.setHold h c).copies = p.copies := rfl
@[simp] theorem nextOrder_setHold (p : Proc) (h : Option Hold) (c : Nat) : (p.setHold h c).nextOrder = p.nextOrder := rfl
@[simp] theorem taken_setHold (p : Proc) (h : Option Hold) (c : Nat) : (p.setHold h c).taken = p.taken := rfl
@[simp] theorem uqbase_setHold (p : Proc) (h : Option Hold) (c : Nat) : (p.setHold h c).uqbase = p.uqbase := rfl
@[simp] theorem uqsize_setHold (p : Proc) (h : Option Hold) (c : Nat) : (p.setHold h c).uqsize = p.uqsize := rfl
@[simp] theorem uqtail_setHold (p : Proc) (h : Option Hold) (c : Nat) : (p.setHold h c).uqtail = p.uqtail := rfl
@[simp] theorem hdrs_setHold (p : Proc) (h : Option Hold) (c : Nat) : (p.setHold h c).hdrs = p.hdrs := rfl
@[simp] theorem tt_setHold (p : Proc) (h : Option Hold) (c : Nat) : (p.setHold h c).tt = p.tt := rfl
@[simp] theorem rqRes_setHold (p : Proc) (h : Option Hold) (c : Nat) : (p.setHold h c).rqRes = p.rqRes := rfl
@[simp] theorem bars_setHold (p : Proc) (h : Option Hold) (c : Nat) : (p.setHold h c).bars = p.bars := rfl
@[simp] theorem defs_setHold (p : Proc) (h : Option Hold) (c : Nat) : (p.setHold h c).defs = p.defs := rfl
@[simp] theorem cycSkew_setHold (p : Proc) (h : Option Hold) (c : Nat) : (p.setHold h c).cycSkew = p.cycSkew := rfl
@[simp] theorem dqbase_setHold (p : Proc) (h : Option Hold) (c : Nat) : (p.setHold h c).dqbase = p.dqbase := rfl
@[simp] theorem trip_setHold (p : Proc) (h : Option Hold) (c : Nat) : (p.setHold h c).trip = p.trip := rfl
@[simp] theorem armed_setHold (p : Proc) (h : Option Hold) (c : Nat) : (p.setHold h c).armed = p.armed := rfl
@[simp] theorem didx_setHold (p : Proc) (h : Option Hold) (c : Nat) : (p.setHold h c).didx = p.didx := rfl
@[simp] theorem unit_setHold (p : Proc) (h : Option Hold) (c : Nat) : (p.setHold h c).unit = p.unit := rfl
@[simp] theorem sigW_setHold (p : Proc) (h : Option Hold) (c : Nat) : (p.setHold h c).sigW = p.sigW := rfl
@[simp] theorem sigWAll_setHold (p : Proc) (h : Option Hold) (c : Nat) : (p.setHold h c).sigWAll = p.sigWAll := rfl
@[simp] theorem fabW_setHold (p : Proc) (h : Option Hold) (c : Nat) : (p.setHold h c).fabW = p.fabW := rfl
@[simp] theorem wStamp_setHold (p : Proc) (h : Option Hold) (c : Nat) : (p.setHold h c).wStamp = p.wStamp := rfl
@[simp] theorem sigR_setHold (p : Proc) (h : Option Hold) (c : Nat) : (p.setHold h c).sigR = p.sigR := rfl
@[simp] theorem pushQ_setHold (p : Proc) (h : Option Hold) (c : Nat) : (p.setHold h c).pushQ = p.pushQ := rfl
@[simp] theorem done_setHold (p : Proc) (h : Option Hold) (c : Nat) : (p.setHold h c).done = p.done := rfl
@[simp] theorem nextId_setHold (p : Proc) (h : Option Hold) (c : Nat) : (p.setHold h c).nextId = p.nextId := rfl
@[simp] theorem lastId_setHold (p : Proc) (h : Option Hold) (c : Nat) : (p.setHold h c).lastId = p.lastId := rfl
@[simp] theorem lastRet_setHold (p : Proc) (h : Option Hold) (c : Nat) : (p.setHold h c).lastRet = p.lastRet := rfl
@[simp] theorem ctlEnded_setHold (p : Proc) (h : Option Hold) (c : Nat) : (p.setHold h c).ctlEnded = p.ctlEnded := rfl
@[simp] theorem ptroot_setHold (p : Proc) (h : Option Hold) (c : Nat) : (p.setHold h c).ptroot = p.ptroot := rfl
@[simp] theorem plbase_setHold (p : Proc) (h : Option Hold) (c : Nat) : (p.setHold h c).plbase = p.plbase := rfl
@[simp] theorem spill_setHold (p : Proc) (h : Option Hold) (c : Nat) : (p.setHold h c).spill = p.spill := rfl
@[simp] theorem remoteStores_setHold (p : Proc) (h : Option Hold) (c : Nat) : (p.setHold h c).remoteStores = p.remoteStores := rfl
@[simp] theorem savedRecs_setHold (p : Proc) (h : Option Hold) (c : Nat) : (p.setHold h c).savedRecs = p.savedRecs := rfl
@[simp] theorem savedWaiters_setHold (p : Proc) (h : Option Hold) (c : Nat) : (p.setHold h c).savedWaiters = p.savedWaiters := rfl
@[simp] theorem walkRoot_wx (t : Thread) (d : BitVec 5) (w : Word) : (t.wx d w).walkRoot = t.walkRoot := by unfold Thread.wx; split <;> rfl
@[simp] theorem walkRoot_wf (t : Thread) (d : BitVec 5) (w : Word) : (t.wf d w).walkRoot = t.walkRoot := rfl
@[simp] theorem walkRoot_wv (t : Thread) (d : BitVec 4) (w : BitVec 256) : (t.wv d w).walkRoot = t.walkRoot := rfl
@[simp] theorem walkRoot_wk (t : Thread) (d : BitVec 3) (w : BitVec 32) : (t.wk d w).walkRoot = t.walkRoot := by unfold Thread.wk; split <;> rfl
@[simp] theorem walkRoot_wp (t : Thread) (d : BitVec 3) (w : Bool) : (t.wp d w).walkRoot = t.walkRoot := by unfold Thread.wp; split <;> rfl
@[simp] theorem walkRoot_flag (t : Thread) (w : BitVec 5) : (t.flag w).walkRoot = t.walkRoot := rfl
@[simp] theorem walkRoot_advance (t : Thread) : t.advance.walkRoot = t.walkRoot := (advance_form t).elim (fun _ h => h.elim (fun _ h => by rw [h]))
@[simp] theorem walkRoot_issued (t : Thread) : t.issued.walkRoot = t.walkRoot := rfl
@[simp] theorem fms_wx (t : Thread) (d : BitVec 5) (w : Word) : (t.wx d w).fms = t.fms := by unfold Thread.wx; split <;> rfl
@[simp] theorem fms_wf (t : Thread) (d : BitVec 5) (w : Word) : (t.wf d w).fms = t.fms := rfl
@[simp] theorem fms_wv (t : Thread) (d : BitVec 4) (w : BitVec 256) : (t.wv d w).fms = t.fms := rfl
@[simp] theorem fms_wk (t : Thread) (d : BitVec 3) (w : BitVec 32) : (t.wk d w).fms = t.fms := by unfold Thread.wk; split <;> rfl
@[simp] theorem fms_wp (t : Thread) (d : BitVec 3) (w : Bool) : (t.wp d w).fms = t.fms := by unfold Thread.wp; split <;> rfl
@[simp] theorem fms_flag (t : Thread) (w : BitVec 5) : (t.flag w).fms = t.fms := rfl
@[simp] theorem fms_advance (t : Thread) : t.advance.fms = t.fms := (advance_form t).elim (fun _ h => h.elim (fun _ h => by rw [h]))

end Sys2Proof.Machine
end

