-- ==== Sys2Proof/Laws/Ops.lean ====
section
/-! SUPPORT. What each shared operation does: registers, retiring, taking a trap and returning, cores and clusters, the agenda,
and the parts of a step. -/

namespace Sys2Proof.Machine

/-! ### Registers (Table 2.4) -/

theorem rx_wx (t : Thread) (d a : BitVec 5) (v : Word) : (t.wx d v).rx a = if a = d ∧ d ≠ 0#5 then v else t.rx a := by
  unfold Thread.wx Thread.rx
  by_cases hd : d = 0#5
  · simp [hd]
  · by_cases ha : a = d
    · subst ha; simp [hd]
    · have : d.toNat ≠ a.toNat := fun h => ha (BitVec.eq_of_toNat_eq h.symm)
      simp [hd, ha, this]

theorem rf_wf (t : Thread) (d a : BitVec 5) (v : Word) : (t.wf d v).rf a = if a = d then v else t.rf a := by
  unfold Thread.wf Thread.rf
  by_cases ha : a = d
  · subst ha; simp
  · have : d.toNat ≠ a.toNat := fun h => ha (BitVec.eq_of_toNat_eq h.symm)
    simp [ha, this]

theorem rv_wv (t : Thread) (d a : BitVec 4) (v : BitVec 256) : (t.wv d v).rv a = if a = d then v else t.rv a := by
  unfold Thread.wv Thread.rv
  by_cases ha : a = d
  · subst ha; simp
  · have : d.toNat ≠ a.toNat := fun h => ha (BitVec.eq_of_toNat_eq h.symm)
    simp [ha, this]

theorem rk_wk (t : Thread) (d a : BitVec 3) (v : BitVec 32) : (t.wk d v).rk a = if a = d ∧ d ≠ 0#3 then v else t.rk a := by
  unfold Thread.wk Thread.rk
  by_cases hd : d = 0#3
  · simp [hd]
  · by_cases ha : a = d
    · subst ha; simp [hd]
    · have : d.toNat ≠ a.toNat := fun h => ha (BitVec.eq_of_toNat_eq h.symm)
      simp [hd, ha, this]

theorem rp_wp (t : Thread) (d a : BitVec 3) (v : Bool) : (t.wp d v).rp a = if a = d ∧ d ≠ 0#3 then v else t.rp a := by
  unfold Thread.wp Thread.rp
  by_cases hd : d = 0#3
  · simp [hd]
  · by_cases ha : a = d
    · subst ha; simp [hd]
    · have : d.toNat ≠ a.toNat := fun h => ha (BitVec.eq_of_toNat_eq h.symm)
      simp [hd, ha, this]

/-- A thread whose vectors agree has the same registers. -/
theorem rx_congr {t u : Thread} (h : t.x = u.x) (a : BitVec 5) : t.rx a = u.rx a := by simp only [Thread.rx, h]
theorem rp_congr {t u : Thread} (h : t.p = u.p) (a : BitVec 3) : t.rp a = u.rp a := by simp only [Thread.rp, h]
theorem rk_congr {t u : Thread} (h : t.k = u.k) (a : BitVec 3) : t.rk a = u.rk a := by simp only [Thread.rk, h]

@[simp] theorem rx_zero (t : Thread) : t.rx 0#5 = 0 := rfl
@[simp] theorem rk_zero (t : Thread) : t.rk 0#3 = 0xFFFFFFFF#32 := rfl
@[simp] theorem rp_zero (t : Thread) : t.rp 0#3 = true := rfl

/-! ### Retiring (R58, R60, R91, R104) -/

theorem guarded_true {q : BitVec 3} {s : State} (h : s.rp q = true) (b : State → Out) : guarded q s b = b s := by simp [guarded, h]
theorem guarded_false {q : BitVec 3} {s : State} (h : s.rp q = false) (b : State → Out) : guarded q s b = .next (s.setThr s.thr.retired) := by
  simp [guarded, h, State.retire]

/-- A body that changes its thread by `f` and retires, under its guard. -/
theorem guarded_ran (q : BitVec 3) (s : State) (f : Thread → Thread) (b : State → Out) (h : b s = .next (s.setThr (f s.thr).retired)) :
    guarded q s b = .next (s.ran q f) := by
  unfold guarded State.ran; split <;> simp_all [State.retire]

theorem toX_ran (q : BitVec 3) (d : BitVec 5) (f : Thread → Word) (s : State) : toX q d f s = .next (s.ran q (fun t => t.wx d (f s.thr))) := by
  apply guarded_ran; simp [State.wx, State.retire]
theorem toP_ran (q d : BitVec 3) (f : Thread → Bool) (s : State) : toP q d f s = .next (s.ran q (fun t => t.wp d (f s.thr))) := by
  apply guarded_ran; simp [State.wp, State.retire]
theorem toK_ran (q d : BitVec 3) (f : Thread → BitVec 32) (s : State) : toK q d f s = .next (s.ran q (fun t => t.wk d (f s.thr))) := by
  apply guarded_ran; simp [State.wk, State.retire]
theorem toF_ran (q : BitVec 3) (d : BitVec 5) (f : Thread → Nat × FFlags) (s : State) :
    toF q d f s = .next (s.ran q (fun t => (t.wf d (BitVec.ofNat 64 (f s.thr).1)).flag (f s.thr).2)) := by
  apply guarded_ran; simp [State.retire]

theorem ran_congr {q : BitVec 3} {d : BitVec 5} {s : State} {v w : Word} (h : v = w) :
    Host.Outcome.next (φ := Fault) (ρ := Refusal) (s.ran q (fun t => t.wx d v)) = .next (s.ran q (fun t => t.wx d w)) := by rw [h]

theorem ran_true {q : BitVec 3} {s : State} (h : s.rp q = true) (f : Thread → Thread) : s.ran q f = s.setThr (f s.thr).retired := by simp [State.ran, h]
theorem ran_false {q : BitVec 3} {s : State} (h : s.rp q = false) (f : Thread → Thread) : s.ran q f = s.setThr s.thr.retired := by simp [State.ran, h]

theorem advance_plain {t : Thread} (h : t.frame = none) : t.advance = { t with pc := t.pc + 4 } := by simp [Thread.advance, h]

/-! ### Taking a trap and returning (R378, R379, R384) -/

/-- A trap in its turn: the record goes to slot 11 four cycles later, the thread waits for TRET, and nothing else changes. -/
theorem takeTrap_raises (s : State) (k : Trap) (addr : Word) (h : s.slot.val ≠ 11) :
    ∃ r, r = (s.thr.bubble .vac).record s.slot.val k.code addr 0 ∧
      s.takeTrap k addr = .next ((s.setThr ((s.thr.bubble .vac).trapped r)).raise s.here r) := by
  refine ⟨_, rfl, ?_⟩; simp [State.takeTrap, State.trapWith, h]

/-- A trap of slot 11 halts its core (R376, R386). -/
theorem takeTrap_halts (s : State) (k : Trap) (addr : Word) (h : s.slot.val = 11) :
    ∃ r, r = (s.thr.bubble .vac).record s.slot.val k.code addr 0 ∧
      s.takeTrap k addr = .next ((s.setThr ((s.thr.bubble .vac).trapped r)).haltCore (some r)) := by
  refine ⟨_, rfl, ?_⟩; simp [State.takeTrap, State.trapWith, h]

@[simp] theorem x_trapped (t : Thread) (r : TrapRec) : (t.trapped r).x = t.x := rfl
@[simp] theorem pc_trapped (t : Thread) (r : TrapRec) : (t.trapped r).pc = t.pc := rfl
@[simp] theorem wait_trapped (t : Thread) (r : TrapRec) : (t.trapped r).wait = some .trap := rfl
@[simp] theorem trap_trapped (t : Thread) (r : TrapRec) : (t.trapped r).trap = some r := rfl

/-- A thread that has returned waits for nothing and has no trap outstanding. -/
theorem returned_goes (t : Thread) (a : Return) : (t.returned a).trap = none ∧ (t.returned a).wait = none ∧ (t.returned a).x = t.x := by
  cases a <;> simp [Thread.returned]; split <;> simp

/-! ### Cores and clusters -/

theorem kvGet_kvPut {α : Type} (l : List (Nat × α)) (k c : Nat) (v : α) : kvGet (kvPut l k v) c = if c = k then some v else kvGet l c := by
  induction l with
  | nil => simp [kvPut, kvGet, eq_comm]
  | cons e t ih =>
    obtain ⟨j, w⟩ := e
    unfold kvPut
    split
    · simp [kvGet, eq_comm]
    · split
      · subst_vars; by_cases h : c = j <;> simp [kvGet, h, eq_comm]
      · simp only [kvGet, ih]
        by_cases h : j = c <;> by_cases h2 : c = k <;> simp_all

theorem coreAt_setCoreAt (s : State) (c d : Nat) (k : Core) : (s.setCoreAt c k).coreAt d = if d = c then k else s.coreAt d := by
  unfold State.setCoreAt State.coreAt
  by_cases h : c = s.here <;> by_cases h2 : d = s.here <;> simp_all [kvGet_kvPut]
  · intro h3; exact absurd (h3 ▸ h2) (by omega)
  · split <;> simp_all

@[simp] theorem mem_setCoreAt (s : State) (c : Nat) (k : Core) : (s.setCoreAt c k).mem = s.mem := by unfold State.setCoreAt; split <;> rfl
@[simp] theorem agenda_setCoreAt (s : State) (c : Nat) (k : Core) : (s.setCoreAt c k).agenda = s.agenda := by unfold State.setCoreAt; split <;> rfl
@[simp] theorem cycle_setCoreAt (s : State) (c : Nat) (k : Core) : (s.setCoreAt c k).cycle = s.cycle := by unfold State.setCoreAt; split <;> rfl

theorem clusterAt_setCluster (s : State) (c d : Nat) (k : Cluster) : (s.setCluster c k).clusterAt d = if d = c then k else s.clusterAt d := by
  unfold State.setCluster State.clusterAt
  simp only [kvGet_kvPut]; split <;> rfl

/-- The core in focus is the one asked for, and nothing that belongs to the machine as a whole changes. -/
theorem focus_core (s : State) (c : Nat) : (s.focus c).core = s.coreAt c ∧ (s.focus c).here = c := by
  unfold State.focus State.coreAt; split <;> simp_all

@[simp] theorem mem_focus (s : State) (c : Nat) : (s.focus c).mem = s.mem := by unfold State.focus; split <;> rfl
@[simp] theorem agenda_focus (s : State) (c : Nat) : (s.focus c).agenda = s.agenda := by unfold State.focus; split <;> rfl
@[simp] theorem cycle_focus (s : State) (c : Nat) : (s.focus c).cycle = s.cycle := by unfold State.focus; split <;> rfl
@[simp] theorem clusters_focus (s : State) (c : Nat) : (s.focus c).clusters = s.clusters := by unfold State.focus; split <;> rfl
@[simp] theorem groups_focus (s : State) (c : Nat) : (s.focus c).groups = s.groups := by unfold State.focus; split <;> rfl
@[simp] theorem units_focus (s : State) (c : Nat) : (s.focus c).units = s.units := by unfold State.focus; split <;> rfl
@[simp] theorem module_focus (s : State) (c : Nat) : (s.focus c).module = s.module := by unfold State.focus; split <;> rfl
@[simp] theorem moves_focus (s : State) (c : Nat) : (s.focus c).moves = s.moves := by unfold State.focus; split <;> rfl
theorem focus_here (s : State) : s.focus s.here = s := by simp [State.focus]

/-! ### The agenda -/

theorem mem_agendaPut (l : List (Nat × Instr)) (c : Nat) (e : Instr) (x : Nat × Instr) : x ∈ agendaPut l c e ↔ x = (c, e) ∨ x ∈ l := by
  induction l with
  | nil => simp [agendaPut]
  | cons y t ih =>
    unfold agendaPut; split
    · simp
    · simp only [List.mem_cons, ih]; tauto

theorem mem_agenda_after (s : State) (n : Nat) (e : Instr) (x : Nat × Instr) : x ∈ (s.after n e).agenda ↔ x = (s.cycle + n, e) ∨ x ∈ s.agenda :=
  mem_agendaPut _ _ _ _

theorem mem_recordPut (l : List (Nat × Instr)) (n c : Nat) (r : TrapRec) (x : Nat × Instr) :
    x ∈ recordPut l n c r ↔ x = (n, .trapRecordEnqueue c r) ∨ x ∈ l := by
  induction l with
  | nil => simp [recordPut]
  | cons y t ih =>
    unfold recordPut
    dsimp only
    generalize hb : (decide (n < y.1) || _ : Bool) = b
    cases b
    · simp only [Bool.false_eq_true, if_false, List.mem_cons, ih]; tauto
    · simp

theorem mem_agenda_raise (s : State) (c : Nat) (r : TrapRec) (x : Nat × Instr) :
    x ∈ (s.raise c r).agenda ↔ x = (s.cycle + 4, .trapRecordEnqueue c r) ∨ x ∈ s.agenda   := mem_recordPut _ _ _ _ _

/-! ### Addresses and writes at home (R24, R151, R371) -/

/-- An address of the own window (Table 1.2). -/
theorem space_own (s : State) (va : Word) (ho : s.core.occupied = true) (h1 : va.toNat / 2 ^ 48 = 0xFFFF)
    (h2 : va.toNat % 2 ^ 48 < s.proc.winsize) : s.space va = .own (va.toNat % 2 ^ 48) := by
  unfold State.space; simp only [h1, ho]; rw [show s.core.proc = s.proc from rfl, if_pos h2]; rfl

theorem space_window (s : State) (va : Word) (h1 : va.toNat / 2 ^ 48 = 0xFFFF) (h2 : s.proc.winsize ≤ va.toNat % 2 ^ 48) :
    s.space va = .bad .window := by
  unfold State.space; simp only [h1]; rw [show s.core.proc = s.proc from rfl, if_neg (Nat.not_lt.mpr h2)]; split <;> rfl

theorem resolve_own (s : State) (need : Need) (n : Nat) (va : Word) (fifo : Bool) (i : Nat) (ho : s.core.occupied = true)
    (h1 : va.toNat / 2 ^ 48 = 0xFFFF) (h2 : va.toNat % 2 ^ 48 < s.proc.winsize) :
    s.resolve need n va fifo i = .ok (.win s.proc.gid s.proc.lid (va.toNat % 2 ^ 48)) false 0 16 := by
  unfold State.resolve; rw [space_own s va ho h1 h2]

/-- A whole write where nothing watches and no unit is marked is the write of its bytes. -/
theorem homeWrite_plain (s : State) (p : Place) (n v : Nat) (hw : (s.poke p n v).watches = []) (hb : (s.poke p n v).bad = []) :
    s.homeWrite p n v (2 ^ n - 1) = s.poke p n v := by
  have hm : (2 ^ n - 1) % 2 ^ n = 2 ^ n - 1 := Nat.mod_eq_of_lt (by have := Nat.two_pow_pos n; omega)
  simp [State.homeWrite, hm, hb, State.fireWatches, hw]

theorem poke_phys (s : State) (a n v : Nat) : s.poke (.phys a) n v = { s with mem := Memory.write s.mem a n v } := rfl

/-! ### The parts of a step (R20) -/

/-- Where no thread goes on and no event is due, a step is the clock's. -/
theorem step_clock (s : State) (hr : s.redo = []) (ha : ∀ e ∈ s.agenda.head?, s.cycle < e.1) : step s = stepClock s := by
  unfold step
  split
  · rename_i h; rw [hr] at h; cases h
  · split
    · rename_i k e l h
      have hk : s.cycle < k := ha (k, e) (by simp [h])
      rw [if_neg (Nat.not_le.mpr hk)]
    · rfl

/-- Where no thread goes on and no event is due, the next core has its turn. -/
theorem step_turn (s : State) (c : Nat) (rest : List Nat) (hr : s.redo = []) (ha : ∀ e ∈ s.agenda.head?, s.cycle < e.1) (ht : s.todo = c :: rest) :
    step s = stepTurn c { s with todo := rest } := by
  rw [step_clock s hr ha]; unfold stepClock; rw [ht]

/-- An event that is due is performed before any turn. -/
theorem step_event (s : State) (k : Nat) (e : Instr) (rest : List (Nat × Instr)) (hr : s.redo = []) (ha : s.agenda = (k, e) :: rest) (hk : k ≤ s.cycle) :
    step s = andThen (exec e { s with agenda := rest, event := some e }) (fun t => .next (State.farSpent { t with event := none } e).settled.spent) := by
  simp [step, hr, ha, hk, stepEvent]

theorem andThen_next {o : Out} {f : State → State} {t : State} (h : andThen o (fun s => .next (f s)) = .next t) : ∃ u, o = .next u ∧ f u = t := by
  cases o with
  | next u => exact ⟨u, rfl, by simpa [andThen] using h⟩
  | fault r => exact nomatch r
  | refused r => simp [andThen] at h

/-- A next state of `Yields` read back. -/
theorem yields_of_eq {o : Out} {t : State} {P : State → Prop} (h : o = .next t) (hp : P t) : Yields o P := ⟨t, h, hp⟩

end Sys2Proof.Machine
end

