-- ==== Sys2Proof/Laws/PerInstr.lean ====
section
/-! SUPPORT. The decoder reads back the word of every well-formed instruction: one lemma for each constructor. -/

namespace Sys2Proof

set_option linter.unusedSimpArgs false

/-- The decoder gives back the instruction whose word it is given. A step of the machine has no word. -/
def Laws.EncodeRoundTrip.Statement (i : Instr) : Prop := i.isWord = true → i.wf = true → decodeWord (encode i) = some i

theorem Laws.EncodeRoundTrip.of_raw {i : Instr} {w : IWord} (he : encode i = w) (hr : decodeRaw w = some i) :
    Laws.EncodeRoundTrip.Statement i := by
  intro _ hw
  simp [decodeWord, he, hr, keepWf, hw]

theorem Laws.EncodeRoundTrip.of_step {i : Instr} (h : i.isWord = false) : Laws.EncodeRoundTrip.Statement i :=
  fun hw => absurd (h.symm.trans hw) (by decide)

/-! ### Small fields -/

theorem isK_wide : ∀ x : BitVec 3, isK (x.setWidth 5) = true := by decide
theorem isV_wide : ∀ x : BitVec 4, isV (x.setWidth 5) = true := by decide
theorem isV_lowHalf : ∀ x : BitVec 4, isV (0#1 ++ x) = true := by decide
theorem isV_highHalf : ∀ x : BitVec 4, isV (1#1 ++ x) = false := by decide
theorem half_low : ∀ (h : BitVec 1) (x : BitVec 4), (h ++ x).setWidth 4 = x := by decide
theorem half_high : ∀ (h : BitVec 1) (x : BitVec 4), (h ++ x).extractLsb' 4 1 = h := by decide
theorem isJ_pairFld : ∀ j : BitVec 3, isJ (pairFld j) = true := by decide
theorem pairOf_pairFld : ∀ j : BitVec 3, pairOf (pairFld j) = j := by decide
theorem setWidth_3_5 : ∀ x : BitVec 3, (x.setWidth 5).setWidth 3 = x := by decide
theorem setWidth_4_5 : ∀ x : BitVec 4, (x.setWidth 5).setWidth 4 = x := by decide
theorem setWidth_2_5 : ∀ x : BitVec 2, (x.setWidth 5).setWidth 2 = x := by decide
theorem setWidth_3_4 : ∀ x : BitVec 3, (x.setWidth 4).setWidth 3 = x := by decide
theorem wide3_lt : ∀ x : BitVec 3, ¬ 8 ≤ (x.setWidth 4).toNat := by decide
theorem setWidth_6_10 : ∀ x : BitVec 6, (x.setWidth 10).setWidth 6 = x := by decide
theorem setWidth_5_10 : ∀ x : BitVec 5, (x.setWidth 10).setWidth 5 = x := by decide
theorem evenFld_half : ∀ x : BitVec 4, (evenFld x).extractLsb' 1 4 = x := by decide
theorem lane_type : ∀ t : BitVec 3, t.extractLsb' 2 1 ++ t.extractLsb' 1 1 ++ t.extractLsb' 0 1 = t := by decide
theorem group_high : ∀ (g : BitVec 2) (f : BitVec 3), (g ++ f).extractLsb' 3 2 = g := by decide
theorem group_low : ∀ (g : BitVec 2) (f : BitVec 3), (g ++ f).setWidth 3 = f := by decide
theorem acc_high : ∀ (f : BitVec 3) (g : BitVec 2), (f ++ g).extractLsb' 2 3 = f := by decide
theorem acc_low : ∀ (f : BitVec 3) (g : BitVec 2), (f ++ g).setWidth 2 = g := by decide
theorem cmp_low : ∀ b : BitVec 5, (b ++ 0#1).extractLsb' 0 1 = 0#1 := by decide
theorem cmp_high : ∀ b : BitVec 5, (b ++ 0#1).extractLsb' 1 5 = b := by decide
theorem lt64 : ∀ x : BitVec 6, decide ((x.setWidth 10).toNat < 64) = true := by decide
theorem lt32 : ∀ x : BitVec 5, decide ((x.setWidth 10).toNat < 32) = true := by decide
theorem lt4 : ∀ x : BitVec 2, decide ((x.setWidth 5).toNat < 4) = true := by decide
theorem evenFld_ok : ∀ x : BitVec 4, ((evenFld x).toNat % 2 == 0) = true := by decide
theorem f26_hi : ∀ (x : BitVec 2) (y : BitVec 6), (x ++ y).extractLsb' 6 2 = x := by decide
theorem f26_lo : ∀ (x : BitVec 2) (y : BitVec 6), (x ++ y).extractLsb' 0 6 = y := by decide
theorem f17_hi : ∀ (x : BitVec 1) (y : BitVec 7), (x ++ y).extractLsb' 7 1 = x := by decide
theorem f17_lo : ∀ (x : BitVec 1) (y : BitVec 7), (x ++ y).extractLsb' 0 7 = y := by decide
theorem f53_hi : ∀ (x : BitVec 5) (y : BitVec 3), (x ++ y).extractLsb' 3 5 = x := by decide
theorem f53_lo : ∀ (x : BitVec 5) (y : BitVec 3), (x ++ y).setWidth 3 = y := by decide
theorem f2213_hi : ∀ (x y : BitVec 2) (w : BitVec 1) (z : BitVec 3), (x ++ y ++ w ++ z).extractLsb' 6 2 = x := by decide
theorem f2213_mid : ∀ (x y : BitVec 2) (w : BitVec 1) (z : BitVec 3), (x ++ y ++ w ++ z).extractLsb' 3 3 = y ++ w := by decide
theorem f2213_lo : ∀ (x y : BitVec 2) (w : BitVec 1) (z : BitVec 3), (x ++ y ++ w ++ z).extractLsb' 0 3 = z := by decide
theorem f323_hi : ∀ (x : BitVec 3) (y : BitVec 2) (z : BitVec 3), (x ++ y ++ z).extractLsb' 5 3 = x := by decide
theorem f323_mid : ∀ (x : BitVec 3) (y : BitVec 2) (z : BitVec 3), (x ++ y ++ z).extractLsb' 3 2 = y := by decide
theorem f323_lo : ∀ (x : BitVec 3) (y : BitVec 2) (z : BitVec 3), (x ++ y ++ z).extractLsb' 0 3 = z := by decide
theorem f323_low : ∀ (x : BitVec 3) (y : BitVec 2) (z : BitVec 3), (x ++ y ++ z).setWidth 3 = z := by decide
theorem f3113_hi : ∀ (x : BitVec 3) (y w : BitVec 1) (z : BitVec 3), (x ++ y ++ w ++ z).extractLsb' 5 3 = x := by decide
theorem f3113_mid : ∀ (x : BitVec 3) (y w : BitVec 1) (z : BitVec 3), (x ++ y ++ w ++ z).extractLsb' 3 2 = y ++ w := by decide
theorem f3113_lo : ∀ (x : BitVec 3) (y w : BitVec 1) (z : BitVec 3), (x ++ y ++ w ++ z).extractLsb' 0 3 = z := by decide
theorem f332_hi : ∀ (x y : BitVec 3) (z : BitVec 2), (x ++ y ++ z).extractLsb' 5 3 = x := by decide
theorem f332_mid : ∀ (x y : BitVec 3) (z : BitVec 2), (x ++ y ++ z).extractLsb' 2 3 = y := by decide
theorem f332_lo : ∀ (x y : BitVec 3) (z : BitVec 2), (x ++ y ++ z).extractLsb' 0 2 = z := by decide
theorem f4121_a : ∀ (x : BitVec 4) (y : BitVec 1) (z : BitVec 2) (w : BitVec 1), (x ++ y ++ z ++ w).extractLsb' 4 4 = x := by decide
theorem f4121_b : ∀ (x : BitVec 4) (y : BitVec 1) (z : BitVec 2) (w : BitVec 1), (x ++ y ++ z ++ w).extractLsb' 3 1 = y := by decide
theorem f4121_c : ∀ (x : BitVec 4) (y : BitVec 1) (z : BitVec 2) (w : BitVec 1), (x ++ y ++ z ++ w).extractLsb' 1 2 = z := by decide
theorem f4121_d : ∀ (x : BitVec 4) (y : BitVec 1) (z : BitVec 2) (w : BitVec 1), (x ++ y ++ z ++ w).extractLsb' 0 1 = w := by decide
theorem vext_var : ∀ w : BitVec 1, decide ((0#1 ++ w).toNat < 2) = true := by decide
theorem vext_zx : ∀ w : BitVec 1, (0#1 ++ w).setWidth 1 = w := by decide
theorem strided_ok : ∀ (y : BitVec 2) (z : BitVec 3), (4 ≤ ((0#3 ++ y ++ z).extractLsb' 3 5).toNat) = False := by decide
theorem num_top (x : BitVec 1) (n : BitVec 12) : (x ++ n).extractLsb' 12 1 = x := by
  apply BitVec.eq_of_toNat_eq
  simp only [BitVec.extractLsb'_toNat, toNat_join, Nat.shiftRight_eq_div_pow]
  have := x.isLt; have := n.isLt; omega
theorem num_low (x : BitVec 1) (n : BitVec 12) : (x ++ n).setWidth 12 = n := by
  apply BitVec.eq_of_toNat_eq
  simp only [BitVec.toNat_setWidth, toNat_join]
  have := x.isLt; have := n.isLt; omega

theorem raw_01 (q : BitVec 3) (d : BitVec 5) (a : BitVec 5) (b : BitVec 5) (fn : BitVec 8) : decodeRaw (joinR q 1#6 d a b fn) = dec01 q d a b fn := by
  unfold decodeRaw frameMajor decodeFrameRaw
  simp only [joinR_op, joinR_q, joinR_d, joinR_a, joinR_b, joinR_fn]
  rfl

theorem raw_02 (q : BitVec 3) (d : BitVec 5) (a : BitVec 5) (b : BitVec 5) (fn : BitVec 8) : decodeRaw (joinR q 2#6 d a b fn) = dec02 q d a b fn := by
  unfold decodeRaw frameMajor decodeFrameRaw
  simp only [joinR_op, joinR_q, joinR_d, joinR_a, joinR_b, joinR_fn]
  rfl

theorem raw_03 (q : BitVec 3) (d : BitVec 5) (a : BitVec 5) (b : BitVec 5) (fn : BitVec 8) : decodeRaw (joinR q 3#6 d a b fn) = dec03 q d a b fn := by
  unfold decodeRaw frameMajor decodeFrameRaw
  simp only [joinR_op, joinR_q, joinR_d, joinR_a, joinR_b, joinR_fn]
  rfl

theorem raw_04 (q : BitVec 3) (d : BitVec 5) (a : BitVec 5) (b : BitVec 5) (fn : BitVec 8) : decodeRaw (joinR q 4#6 d a b fn) = dec04 q d a b fn := by
  unfold decodeRaw frameMajor decodeFrameRaw
  simp only [joinR_op, joinR_q, joinR_d, joinR_a, joinR_b, joinR_fn]
  rfl

theorem raw_05 (q : BitVec 3) (d : BitVec 5) (a : BitVec 5) (imm : BitVec 13) : decodeRaw (joinI q 5#6 d a imm) = dec05 q d a imm := by
  unfold decodeRaw frameMajor decodeFrameRaw
  simp only [joinI_op, joinI_q, joinI_d, joinI_a, joinI_imm]
  rfl

theorem raw_06 (q : BitVec 3) (d : BitVec 5) (a : BitVec 5) (imm : BitVec 13) : decodeRaw (joinI q 6#6 d a imm) = dec06 q d a imm := by
  unfold decodeRaw frameMajor decodeFrameRaw
  simp only [joinI_op, joinI_q, joinI_d, joinI_a, joinI_imm]
  rfl

theorem raw_07 (q : BitVec 3) (d : BitVec 5) (a : BitVec 5) (imm : BitVec 13) : decodeRaw (joinI q 7#6 d a imm) = dec07 q d a imm := by
  unfold decodeRaw frameMajor decodeFrameRaw
  simp only [joinI_op, joinI_q, joinI_d, joinI_a, joinI_imm]
  rfl

theorem raw_08 (q : BitVec 3) (d : BitVec 5) (a : BitVec 5) (imm : BitVec 13) : decodeRaw (joinI q 8#6 d a imm) = dec08 q d a imm := by
  unfold decodeRaw frameMajor decodeFrameRaw
  simp only [joinI_op, joinI_q, joinI_d, joinI_a, joinI_imm]
  rfl

theorem raw_09 (q : BitVec 3) (d : BitVec 5) (a : BitVec 5) (sz : BitVec 3) (imm : BitVec 10) : decodeRaw (joinM q 9#6 d a sz imm) = dec09 q d a sz imm := by
  unfold decodeRaw frameMajor decodeFrameRaw
  simp only [joinM_op, joinM_q, joinM_d, joinM_a, joinM_sz, joinM_imm]
  rfl

theorem raw_0A (q : BitVec 3) (d : BitVec 5) (imm : BitVec 18) : decodeRaw (joinL q 10#6 d imm) = dec0A q d imm := by
  unfold decodeRaw frameMajor decodeFrameRaw
  simp only [joinL_op, joinL_q, joinL_d, joinL_imm]
  rfl

theorem raw_0B (q : BitVec 3) (d : BitVec 5) (hw : BitVec 2) (imm : BitVec 16) : decodeRaw (joinK q 11#6 d hw imm) = dec0B q d hw imm := by
  unfold decodeRaw frameMajor decodeFrameRaw
  simp only [joinK_op, joinK_q, joinK_d, joinK_hw, joinK_imm]
  rfl

theorem raw_0C (q : BitVec 3) (pd1 : BitVec 3) (pd2 : BitVec 3) (ty : BitVec 3) (cnd : BitVec 3) (a : BitVec 5) (lo : BitVec 6) : decodeRaw (joinC q 12#6 pd1 pd2 ty cnd a lo) = dec0C q pd1 pd2 ty cnd a lo := by
  unfold decodeRaw frameMajor decodeRestRaw
  simp only [joinC_op, joinC_q, joinC_pd1, joinC_pd2, joinC_ty, joinC_cnd, joinC_a, joinC_lo]
  rfl

theorem raw_0D (q : BitVec 3) (pd1 : BitVec 3) (pd2 : BitVec 3) (ty : BitVec 3) (cnd : BitVec 3) (a : BitVec 5) (lo : BitVec 6) : decodeRaw (joinC q 13#6 pd1 pd2 ty cnd a lo) = dec0D q pd1 pd2 ty cnd a lo := by
  unfold decodeRaw frameMajor decodeRestRaw
  simp only [joinC_op, joinC_q, joinC_pd1, joinC_pd2, joinC_ty, joinC_cnd, joinC_a, joinC_lo]
  rfl

theorem raw_0E (q : BitVec 3) (d : BitVec 5) (a : BitVec 5) (imm : BitVec 13) : decodeRaw (joinI q 14#6 d a imm) = dec0E q d a imm := by
  unfold decodeRaw frameMajor decodeRestRaw
  simp only [joinI_op, joinI_q, joinI_d, joinI_a, joinI_imm]
  rfl

theorem raw_10 (q : BitVec 3) (h : BitVec 1) (disp : BitVec 22) : decodeRaw (joinB q 16#6 h disp) = dec10 q h disp := by
  unfold decodeRaw frameMajor decodeRestRaw
  simp only [joinB_op, joinB_q, joinB_h, joinB_disp]
  rfl

theorem raw_11 (q : BitVec 3) (h : BitVec 1) (disp : BitVec 22) : decodeRaw (joinB q 17#6 h disp) = dec11 q h disp := by
  unfold decodeRaw frameMajor decodeRestRaw
  simp only [joinB_op, joinB_q, joinB_h, joinB_disp]
  rfl

theorem raw_12 (q : BitVec 3) (d : BitVec 5) (a : BitVec 5) (b : BitVec 5) (fn : BitVec 8) : decodeRaw (joinR q 18#6 d a b fn) = dec12 q d a b fn := by
  unfold decodeRaw frameMajor decodeRestRaw
  simp only [joinR_op, joinR_q, joinR_d, joinR_a, joinR_b, joinR_fn]
  rfl

theorem raw_13 (q : BitVec 3) (d : BitVec 5) (a : BitVec 5) (imm : BitVec 13) : decodeRaw (joinI q 19#6 d a imm) = dec13 q d a imm := by
  unfold decodeRaw frameMajor decodeRestRaw
  simp only [joinI_op, joinI_q, joinI_d, joinI_a, joinI_imm]
  rfl

theorem raw_14 (q : BitVec 3) (n : BitVec 6) (len : BitVec 4) (stag : BitVec 3) (mask : BitVec 3) (z : BitVec 7) : decodeRaw (joinP q 20#6 n len stag mask z) = dec14 q n len stag mask z := by
  unfold decodeRaw frameMajor decodeRestRaw
  simp only [joinP_op, joinP_q, joinP_n, joinP_len, joinP_stag, joinP_mask, joinP_z]
  rfl

theorem raw_15 (q : BitVec 3) (d : BitVec 5) (a : BitVec 5) (b : BitVec 5) (fn : BitVec 8) : decodeRaw (joinR q 21#6 d a b fn) = dec15 q d a b fn := by
  unfold decodeRaw frameMajor decodeRestRaw
  simp only [joinR_op, joinR_q, joinR_d, joinR_a, joinR_b, joinR_fn]
  rfl

theorem raw_16 (q : BitVec 3) (d : BitVec 5) (a : BitVec 5) (b : BitVec 5) (fn : BitVec 8) : decodeRaw (joinR q 22#6 d a b fn) = dec16 q d a b fn := by
  unfold decodeRaw frameMajor decodeRestRaw
  simp only [joinR_op, joinR_q, joinR_d, joinR_a, joinR_b, joinR_fn]
  rfl

theorem raw_18 (q : BitVec 3) (d : BitVec 5) (a : BitVec 5) (b : BitVec 5) (fn : BitVec 8) : decodeRaw (joinR q 24#6 d a b fn) = dec18 q d a b fn := by
  unfold decodeRaw frameMajor decodeFrameRaw
  simp only [joinR_op, joinR_q, joinR_d, joinR_a, joinR_b, joinR_fn]
  rfl

theorem raw_19 (q : BitVec 3) (d : BitVec 5) (a : BitVec 5) (b : BitVec 5) (fn : BitVec 8) : decodeRaw (joinR q 25#6 d a b fn) = dec19 q d a b fn := by
  unfold decodeRaw frameMajor decodeFrameRaw
  simp only [joinR_op, joinR_q, joinR_d, joinR_a, joinR_b, joinR_fn]
  rfl

theorem raw_1A (q : BitVec 3) (pd1 : BitVec 3) (pd2 : BitVec 3) (ty : BitVec 3) (cnd : BitVec 3) (a : BitVec 5) (lo : BitVec 6) : decodeRaw (joinC q 26#6 pd1 pd2 ty cnd a lo) = dec1A q pd1 pd2 ty cnd a lo := by
  unfold decodeRaw frameMajor decodeFrameRaw
  simp only [joinC_op, joinC_q, joinC_pd1, joinC_pd2, joinC_ty, joinC_cnd, joinC_a, joinC_lo]
  rfl

theorem raw_1B (q : BitVec 3) (pd1 : BitVec 3) (pd2 : BitVec 3) (ty : BitVec 3) (cnd : BitVec 3) (a : BitVec 5) (lo : BitVec 6) : decodeRaw (joinC q 27#6 pd1 pd2 ty cnd a lo) = dec1B q pd1 pd2 ty cnd a lo := by
  unfold decodeRaw frameMajor decodeFrameRaw
  simp only [joinC_op, joinC_q, joinC_pd1, joinC_pd2, joinC_ty, joinC_cnd, joinC_a, joinC_lo]
  rfl

theorem raw_1C (q : BitVec 3) (d : BitVec 5) (a : BitVec 5) (b : BitVec 5) (fn : BitVec 8) : decodeRaw (joinR q 28#6 d a b fn) = dec1C q d a b fn := by
  unfold decodeRaw frameMajor decodeFrameRaw
  simp only [joinR_op, joinR_q, joinR_d, joinR_a, joinR_b, joinR_fn]
  rfl

theorem raw_1D (q : BitVec 3) (d : BitVec 5) (a : BitVec 5) (b : BitVec 5) (fn : BitVec 8) : decodeRaw (joinR q 29#6 d a b fn) = dec1D q d a b fn := by
  unfold decodeRaw frameMajor decodeFrameRaw
  simp only [joinR_op, joinR_q, joinR_d, joinR_a, joinR_b, joinR_fn]
  rfl

theorem raw_1E (q : BitVec 3) (d : BitVec 5) (a : BitVec 5) (b : BitVec 5) (fn : BitVec 8) : decodeRaw (joinR q 30#6 d a b fn) = dec1E q d a b fn := by
  unfold decodeRaw frameMajor decodeFrameRaw
  simp only [joinR_op, joinR_q, joinR_d, joinR_a, joinR_b, joinR_fn]
  rfl

theorem raw_20 (q : BitVec 3) (d : BitVec 5) (a : BitVec 5) (b : BitVec 5) (fn : BitVec 8) : decodeRaw (joinR q 32#6 d a b fn) = dec20 q d a b fn := by
  unfold decodeRaw frameMajor decodeFrameRaw
  simp only [joinR_op, joinR_q, joinR_d, joinR_a, joinR_b, joinR_fn]
  rfl

theorem raw_21 (q : BitVec 3) (d : BitVec 5) (a : BitVec 5) (b : BitVec 5) (fn : BitVec 8) : decodeRaw (joinR q 33#6 d a b fn) = dec21 q d a b fn := by
  unfold decodeRaw frameMajor decodeFrameRaw
  simp only [joinR_op, joinR_q, joinR_d, joinR_a, joinR_b, joinR_fn]
  rfl

theorem raw_22 (q : BitVec 3) (kd : BitVec 3) (a : BitVec 4) (b : BitVec 4) (t : BitVec 3) (cnd : BitVec 3) (kg : BitVec 3) (z : BitVec 3) : decodeRaw (joinVC q 34#6 kd a b t cnd kg z) = dec22 q kd a b t cnd kg z := by
  unfold decodeRaw frameMajor decodeFrameRaw
  simp only [joinVC_op, joinVC_q, joinVC_kd, joinVC_a, joinVC_b, joinVC_t, joinVC_cnd, joinVC_kg, joinVC_z]
  rfl

theorem raw_23 (q : BitVec 3) (d : BitVec 5) (a : BitVec 5) (b : BitVec 5) (fn : BitVec 8) : decodeRaw (joinR q 35#6 d a b fn) = dec23 q d a b fn := by
  unfold decodeRaw frameMajor decodeFrameRaw
  simp only [joinR_op, joinR_q, joinR_d, joinR_a, joinR_b, joinR_fn]
  rfl

theorem raw_24 (q : BitVec 3) (d : BitVec 5) (a : BitVec 5) (b : BitVec 5) (fn : BitVec 8) : decodeRaw (joinR q 36#6 d a b fn) = dec24 q d a b fn := by
  unfold decodeRaw frameMajor decodeFrameRaw
  simp only [joinR_op, joinR_q, joinR_d, joinR_a, joinR_b, joinR_fn]
  rfl

theorem raw_28 (q : BitVec 3) (d : BitVec 5) (a : BitVec 5) (sz : BitVec 3) (imm : BitVec 10) : decodeRaw (joinM q 40#6 d a sz imm) = dec28 q d a sz imm := by
  unfold decodeRaw frameMajor decodeRestRaw
  simp only [joinM_op, joinM_q, joinM_d, joinM_a, joinM_sz, joinM_imm]
  rfl

theorem raw_29 (q : BitVec 3) (d : BitVec 5) (a : BitVec 5) (sz : BitVec 3) (imm : BitVec 10) : decodeRaw (joinM q 41#6 d a sz imm) = dec29 q d a sz imm := by
  unfold decodeRaw frameMajor decodeRestRaw
  simp only [joinM_op, joinM_q, joinM_d, joinM_a, joinM_sz, joinM_imm]
  rfl

theorem raw_2A (q : BitVec 3) (d : BitVec 5) (a : BitVec 5) (sz : BitVec 3) (imm : BitVec 10) : decodeRaw (joinM q 42#6 d a sz imm) = dec2A q d a sz imm := by
  unfold decodeRaw frameMajor decodeRestRaw
  simp only [joinM_op, joinM_q, joinM_d, joinM_a, joinM_sz, joinM_imm]
  rfl

theorem raw_2B (q : BitVec 3) (d : BitVec 5) (a : BitVec 5) (sz : BitVec 3) (imm : BitVec 10) : decodeRaw (joinM q 43#6 d a sz imm) = dec2B q d a sz imm := by
  unfold decodeRaw frameMajor decodeRestRaw
  simp only [joinM_op, joinM_q, joinM_d, joinM_a, joinM_sz, joinM_imm]
  rfl

theorem raw_2C (q : BitVec 3) (d : BitVec 5) (a : BitVec 5) (sz : BitVec 3) (imm : BitVec 10) : decodeRaw (joinM q 44#6 d a sz imm) = dec2C q d a sz imm := by
  unfold decodeRaw frameMajor decodeRestRaw
  simp only [joinM_op, joinM_q, joinM_d, joinM_a, joinM_sz, joinM_imm]
  rfl

theorem raw_2D (q : BitVec 3) (d : BitVec 5) (a : BitVec 5) (sz : BitVec 3) (imm : BitVec 10) : decodeRaw (joinM q 45#6 d a sz imm) = dec2D q d a sz imm := by
  unfold decodeRaw frameMajor decodeRestRaw
  simp only [joinM_op, joinM_q, joinM_d, joinM_a, joinM_sz, joinM_imm]
  rfl

theorem raw_2E (q : BitVec 3) (d : BitVec 5) (a : BitVec 5) (b : BitVec 5) (fn : BitVec 8) : decodeRaw (joinR q 46#6 d a b fn) = dec2E q d a b fn := by
  unfold decodeRaw frameMajor decodeRestRaw
  simp only [joinR_op, joinR_q, joinR_d, joinR_a, joinR_b, joinR_fn]
  rfl

theorem raw_30 (q : BitVec 3) (d : BitVec 5) (a : BitVec 5) (b : BitVec 5) (fn : BitVec 8) : decodeRaw (joinR q 48#6 d a b fn) = dec30 q d a b fn := by
  unfold decodeRaw frameMajor decodeRestRaw
  simp only [joinR_op, joinR_q, joinR_d, joinR_a, joinR_b, joinR_fn]
  rfl

theorem raw_31 (q : BitVec 3) (d : BitVec 5) (a : BitVec 5) (b : BitVec 5) (fn : BitVec 8) : decodeRaw (joinR q 49#6 d a b fn) = dec31 q d a b fn := by
  unfold decodeRaw frameMajor decodeRestRaw
  simp only [joinR_op, joinR_q, joinR_d, joinR_a, joinR_b, joinR_fn]
  rfl

theorem raw_32 (q : BitVec 3) (d : BitVec 5) (a : BitVec 5) (b : BitVec 5) (fn : BitVec 8) : decodeRaw (joinR q 50#6 d a b fn) = dec32 q d a b fn := by
  unfold decodeRaw frameMajor decodeRestRaw
  simp only [joinR_op, joinR_q, joinR_d, joinR_a, joinR_b, joinR_fn]
  rfl

theorem raw_34 (q : BitVec 3) (d : BitVec 5) (a : BitVec 5) (b : BitVec 5) (fn : BitVec 8) : decodeRaw (joinR q 52#6 d a b fn) = dec34 q d a b fn := by
  unfold decodeRaw frameMajor decodeRestRaw
  simp only [joinR_op, joinR_q, joinR_d, joinR_a, joinR_b, joinR_fn]
  rfl

theorem raw_35 (q : BitVec 3) (d : BitVec 5) (a : BitVec 5) (b : BitVec 5) (fn : BitVec 8) : decodeRaw (joinR q 53#6 d a b fn) = dec35 q d a b fn := by
  unfold decodeRaw frameMajor decodeRestRaw
  simp only [joinR_op, joinR_q, joinR_d, joinR_a, joinR_b, joinR_fn]
  rfl

theorem raw_36 (q : BitVec 3) (d : BitVec 5) (a : BitVec 5) (b : BitVec 5) (fn : BitVec 8) : decodeRaw (joinR q 54#6 d a b fn) = dec36 q d a b fn := by
  unfold decodeRaw frameMajor decodeRestRaw
  simp only [joinR_op, joinR_q, joinR_d, joinR_a, joinR_b, joinR_fn]
  rfl

theorem raw_37 (q : BitVec 3) (d : BitVec 5) (a : BitVec 5) (b : BitVec 5) (fn : BitVec 8) : decodeRaw (joinR q 55#6 d a b fn) = dec37 q d a b fn := by
  unfold decodeRaw frameMajor decodeRestRaw
  simp only [joinR_op, joinR_q, joinR_d, joinR_a, joinR_b, joinR_fn]
  rfl

theorem raw_38 (q : BitVec 3) (d : BitVec 5) (a : BitVec 5) (b : BitVec 5) (fn : BitVec 8) : decodeRaw (joinR q 56#6 d a b fn) = dec38 q d a b fn := by
  unfold decodeRaw frameMajor decodeRestRaw
  simp only [joinR_op, joinR_q, joinR_d, joinR_a, joinR_b, joinR_fn]
  rfl

theorem raw_3A (q : BitVec 3) (acc : BitVec 2) (a : BitVec 5) (m : BitVec 5) (fA : BitVec 3) (fB : BitVec 3) (s : BitVec 4) (z : BitVec 1) : decodeRaw (joinX q 58#6 acc a m fA fB s z) = dec3A q acc a m fA fB s z := by
  unfold decodeRaw frameMajor decodeFrameRaw
  simp only [joinX_op, joinX_q, joinX_acc, joinX_a, joinX_m, joinX_fA, joinX_fB, joinX_s, joinX_z]
  rfl

theorem raw_3B (q : BitVec 3) (d : BitVec 5) (a : BitVec 5) (b : BitVec 5) (fn : BitVec 8) : decodeRaw (joinR q 59#6 d a b fn) = dec3B q d a b fn := by
  unfold decodeRaw frameMajor decodeRestRaw
  simp only [joinR_op, joinR_q, joinR_d, joinR_a, joinR_b, joinR_fn]
  rfl

theorem raw_3C (q : BitVec 3) (d : BitVec 5) (a : BitVec 5) (b : BitVec 5) (fn : BitVec 8) : decodeRaw (joinR q 60#6 d a b fn) = dec3C q d a b fn := by
  unfold decodeRaw frameMajor decodeRestRaw
  simp only [joinR_op, joinR_q, joinR_d, joinR_a, joinR_b, joinR_fn]
  rfl

theorem raw_3D (q : BitVec 3) (d : BitVec 5) (a : BitVec 5) (b : BitVec 5) (fn : BitVec 8) : decodeRaw (joinR q 61#6 d a b fn) = dec3D q d a b fn := by
  unfold decodeRaw frameMajor decodeRestRaw
  simp only [joinR_op, joinR_q, joinR_d, joinR_a, joinR_b, joinR_fn]
  rfl

theorem raw_3E (q : BitVec 3) (d : BitVec 5) (a : BitVec 5) (b : BitVec 5) (fn : BitVec 8) : decodeRaw (joinR q 62#6 d a b fn) = dec3E q d a b fn := by
  unfold decodeRaw frameMajor decodeRestRaw
  simp only [joinR_op, joinR_q, joinR_d, joinR_a, joinR_b, joinR_fn]
  rfl

/-! ### The constructors -/

namespace Laws.EncodeRoundTrip

theorem threadResume (core slot : Nat) : Statement (.threadResume core slot) := of_step rfl
theorem nonlocalReply (core slot val fault : Nat) (sig : Machine.Sig) : Statement (.nonlocalReply core slot val fault sig) := of_step rfl
theorem storeQueueSend (core slot : Nat) : Statement (.storeQueueSend core slot) := of_step rfl
theorem remoteAccessAtHome (core slot : Nat) : Statement (.remoteAccessAtHome core slot) := of_step rfl
theorem releaseAtHome (core slot : Nat) : Statement (.releaseAtHome core slot) := of_step rfl
theorem pageWalk (core slot : Nat) : Statement (.pageWalk core slot) := of_step rfl
theorem capacityEviction (cluster line : Nat) : Statement (.capacityEviction cluster line) := of_step rfl
theorem eccSoftError (core : Nat) (at_ : Machine.EccAt) (corrected : Bool) : Statement (.eccSoftError core at_ corrected) := of_step rfl
theorem fifoPortServe (cluster bank : Nat) : Statement (.fifoPortServe cluster bank) := of_step rfl
theorem bankModeSwitch (cluster bank : Nat) : Statement (.bankModeSwitch cluster bank) := of_step rfl
theorem atomicRequestAtHome (core slot : Nat) : Statement (.atomicRequestAtHome core slot) := of_step rfl
theorem atomicUnitArrival (core slot : Nat) : Statement (.atomicUnitArrival core slot) := of_step rfl
theorem forwardNotice (unit : Machine.Place) (holderCore holderSlot core slot : Nat) : Statement (.forwardNotice unit holderCore holderSlot core slot) := of_step rfl
theorem atomicUnitReturn (unit : Machine.Place) : Statement (.atomicUnitReturn unit) := of_step rfl
theorem monitorArmAtHome (core slot : Nat) : Statement (.monitorArmAtHome core slot) := of_step rfl
theorem monitorCancelAtHome (gid lid slot mon gen : Nat) : Statement (.monitorCancelAtHome gid lid slot mon gen) := of_step rfl
theorem monitorWake (gid lid slot mon gen : Nat) : Statement (.monitorWake gid lid slot mon gen) := of_step rfl
theorem waitmTimeout (gid lid slot : Nat) : Statement (.waitmTimeout gid lid slot) := of_step rfl
theorem barrierArrival (core slot : Nat) : Statement (.barrierArrival core slot) := of_step rfl
theorem deferredArrival (gid lid slot : Nat) : Statement (.deferredArrival gid lid slot) := of_step rfl
theorem chopenRequest (core slot : Nat) : Statement (.chopenRequest core slot) := of_step rfl
theorem packetInject (gid lid handle : Nat) : Statement (.packetInject gid lid handle) := of_step rfl
theorem channelPacketArrival (core : Nat) (pkt : Machine.Packet) : Statement (.channelPacketArrival core pkt) := of_step rfl
theorem messageLanded (gid lid record : Nat) : Statement (.messageLanded gid lid record) := of_step rfl
theorem ackTimer (gid lid src ch : Nat) : Statement (.ackTimer gid lid src ch) := of_step rfl
theorem ackArrival (core : Nat) (ack : Machine.Ack) : Statement (.ackArrival core ack) := of_step rfl
theorem movedNoticeArrival (core : Nat) (ent : Machine.LocEnt) : Statement (.movedNoticeArrival core ent) := of_step rfl
theorem locationLookupReply (core gid lid : Nat) : Statement (.locationLookupReply core gid lid) := of_step rfl
theorem multicastReplicate (gid lid : Nat) : Statement (.multicastReplicate gid lid) := of_step rfl
theorem copyRequestStart (gid lid : Nat) : Statement (.copyRequestStart gid lid) := of_step rfl
theorem engineAccessReply (gid lid id : Nat) : Statement (.engineAccessReply gid lid id) := of_step rfl
theorem engineAccessAck (gid lid id bytes : Nat) : Statement (.engineAccessAck gid lid id bytes) := of_step rfl
theorem putCounterAdd (gid lid id bytes : Nat) : Statement (.putCounterAdd gid lid id bytes) := of_step rfl
theorem matrixOpStart (gid lid : Nat) : Statement (.matrixOpStart gid lid) := of_step rfl
theorem matrixOpComplete (gid lid : Nat) : Statement (.matrixOpComplete gid lid) := of_step rfl
theorem latchEntryAppend (gid lid entry : Nat) : Statement (.latchEntryAppend gid lid entry) := of_step rfl
theorem engineCold (gid lid : Nat) : Statement (.engineCold gid lid) := of_step rfl
theorem readyQueueEnter (gid lid : Nat) : Statement (.readyQueueEnter gid lid) := of_step rfl
theorem taskDispatch (gid lid : Nat) : Statement (.taskDispatch gid lid) := of_step rfl
theorem processEnd (gid lid : Nat) : Statement (.processEnd gid lid) := of_step rfl
theorem proposalTimer (die unit : Nat) : Statement (.proposalTimer die unit) := of_step rfl
theorem proposal (die unit : Nat) : Statement (.proposal die unit) := of_step rfl
theorem foldEnd (die unit : Nat) : Statement (.foldEnd die unit) := of_step rfl
theorem swapProposalArrival (move core : Nat) : Statement (.swapProposalArrival move core) := of_step rfl
theorem swapTransfer (move : Nat) : Statement (.swapTransfer move) := of_step rfl
theorem swapResume (move : Nat) : Statement (.swapResume move) := of_step rfl
theorem swapTimeout (move core : Nat) : Statement (.swapTimeout move core) := of_step rfl
theorem sensorUpdate (core : Nat) (temp : Word) : Statement (.sensorUpdate core temp) := of_step rfl
theorem slotWithholdStep (core : Nat) : Statement (.slotWithholdStep core) := of_step rfl
theorem thermalRetryTimer (gid lid : Nat) : Statement (.thermalRetryTimer gid lid) := of_step rfl
theorem migrationRequestService (core slot : Nat) : Statement (.migrationRequestService core slot) := of_step rfl
theorem trapRecordEnqueue (core : Nat) (rcd : Machine.TrapRec) : Statement (.trapRecordEnqueue core rcd) := of_step rfl
theorem trgetTimeout (core : Nat) : Statement (.trgetTimeout core) := of_step rfl
theorem coreRepair (core target : Nat) (restart : Bool) : Statement (.coreRepair core target restart) := of_step rfl
theorem preempt (gid inbox entries timeout core : Nat) : Statement (.preempt gid inbox entries timeout core) := of_step rfl
theorem preemptHoldTimeout (gid : Nat) : Statement (.preemptHoldTimeout gid) := of_step rfl
theorem preemptDrained (gid : Nat) : Statement (.preemptDrained gid) := of_step rfl
theorem saved (gid lid : Nat) : Statement (.saved gid lid) := of_step rfl
theorem loaded (gid lid : Nat) : Statement (.loaded gid lid) := of_step rfl
theorem groupResume (gid : Nat) : Statement (.groupResume gid) := of_step rfl
theorem tripWrite (core : Nat) (val : Word) : Statement (.tripWrite core val) := of_step rfl
theorem uqcfgWrite (core : Nat) (val : Word) : Statement (.uqcfgWrite core val) := of_step rfl
theorem intpostWrite (core : Nat) (val : Word) : Statement (.intpostWrite core val) := of_step rfl
theorem txvalWrite (core : Nat) (val : Word) : Statement (.txvalWrite core val) := of_step rfl
theorem rhselClr (core : Nat) : Statement (.rhselClr core) := of_step rfl
theorem propose (die unit : Nat) : Statement (.propose die unit) := of_step rfl
theorem fold (die unit : Nat) : Statement (.fold die unit) := of_step rfl
theorem tposWrite (die unit : Nat) (val : Word) : Statement (.tposWrite die unit val) := of_step rfl
theorem weightWrite (die unit i j : Nat) (val : Word) : Statement (.weightWrite die unit i j val) := of_step rfl
theorem registerWrite (reg : Machine.RegName) (val : Word) : Statement (.registerWrite reg val) := of_step rfl
theorem mailboxWrite (off : Nat) (bytes : List Byte) : Statement (.mailboxWrite off bytes) := of_step rfl
theorem mailboxTake : Statement (.mailboxTake) := of_step rfl
theorem edgeQueueSend : Statement (.edgeQueueSend) := of_step rfl
theorem hostRingWrite (gid lid ch : Nat) : Statement (.hostRingWrite gid lid ch) := of_step rfl
theorem hrheadWrite (val : Word) : Statement (.hrheadWrite val) := of_step rfl
theorem hrbaseWrite (val : Word) : Statement (.hrbaseWrite val) := of_step rfl
theorem hrsizeWrite (val : Word) : Statement (.hrsizeWrite val) := of_step rfl
theorem slotcapWrite (val : Word) : Statement (.slotcapWrite val) := of_step rfl
theorem attctlWrite (val : Word) : Statement (.attctlWrite val) := of_step rfl
theorem attestationReport : Statement (.attestationReport) := of_step rfl
theorem linkFlitReceive (port seq : Nat) (crcOk : Bool) (item : Machine.LinkItem) : Statement (.linkFlitReceive port seq crcOk item) := of_step rfl
theorem linkResendTimeout (port : Nat) : Statement (.linkResendTimeout port) := of_step rfl
theorem reset : Statement (.reset) := of_step rfl
theorem firmwareVerified : Statement .firmwareVerified := of_step rfl
theorem vaultTrained : Statement .vaultTrained := of_step rfl
theorem droopDetect (cluster : Nat) : Statement (.droopDetect cluster) := of_step rfl
theorem droopHoldEnd (cluster : Nat) : Statement (.droopHoldEnd cluster) := of_step rfl
theorem debugHalt (cluster : Nat) : Statement (.debugHalt cluster) := of_step rfl
theorem debugResume (cluster : Nat) : Statement (.debugResume cluster) := of_step rfl
theorem undefinedWord (word : IWord) : Statement (.undefinedWord word) := of_step rfl
theorem instructionFetchFault (code : Nat) (addr : Word) : Statement (.instructionFetchFault code addr) := of_step rfl
theorem msiXVectorUnmask : Statement (.msiXVectorUnmask) := of_step rfl
theorem add (q : BitVec 3) (d a b : BitVec 5) : Statement (.add q d a b) := of_raw rfl (raw_01 q d a b 0#8)
theorem sub (q : BitVec 3) (d a b : BitVec 5) : Statement (.sub q d a b) := of_raw rfl (raw_01 q d a b 1#8)
theorem and (q : BitVec 3) (d a b : BitVec 5) : Statement (.and q d a b) := of_raw rfl (raw_01 q d a b 2#8)
theorem or (q : BitVec 3) (d a b : BitVec 5) : Statement (.or q d a b) := of_raw rfl (raw_01 q d a b 3#8)
theorem xor (q : BitVec 3) (d a b : BitVec 5) : Statement (.xor q d a b) := of_raw rfl (raw_01 q d a b 4#8)
theorem andn (q : BitVec 3) (d a b : BitVec 5) : Statement (.andn q d a b) := of_raw rfl (raw_01 q d a b 5#8)
theorem sll (q : BitVec 3) (d a b : BitVec 5) : Statement (.sll q d a b) := of_raw rfl (raw_01 q d a b 6#8)
theorem srl (q : BitVec 3) (d a b : BitVec 5) : Statement (.srl q d a b) := of_raw rfl (raw_01 q d a b 7#8)
theorem sra (q : BitVec 3) (d a b : BitVec 5) : Statement (.sra q d a b) := of_raw rfl (raw_01 q d a b 8#8)
theorem rotr (q : BitVec 3) (d a b : BitVec 5) : Statement (.rotr q d a b) := of_raw rfl (raw_01 q d a b 9#8)
theorem addw (q : BitVec 3) (d a b : BitVec 5) : Statement (.addw q d a b) := of_raw rfl (raw_01 q d a b 10#8)
theorem subw (q : BitVec 3) (d a b : BitVec 5) : Statement (.subw q d a b) := of_raw rfl (raw_01 q d a b 11#8)
theorem sllw (q : BitVec 3) (d a b : BitVec 5) : Statement (.sllw q d a b) := of_raw rfl (raw_01 q d a b 12#8)
theorem srlw (q : BitVec 3) (d a b : BitVec 5) : Statement (.srlw q d a b) := of_raw rfl (raw_01 q d a b 13#8)
theorem sraw (q : BitVec 3) (d a b : BitVec 5) : Statement (.sraw q d a b) := of_raw rfl (raw_01 q d a b 14#8)
theorem min (q : BitVec 3) (d a b : BitVec 5) : Statement (.min q d a b) := of_raw rfl (raw_01 q d a b 15#8)
theorem max (q : BitVec 3) (d a b : BitVec 5) : Statement (.max q d a b) := of_raw rfl (raw_01 q d a b 16#8)
theorem minu (q : BitVec 3) (d a b : BitVec 5) : Statement (.minu q d a b) := of_raw rfl (raw_01 q d a b 17#8)
theorem maxu (q : BitVec 3) (d a b : BitVec 5) : Statement (.maxu q d a b) := of_raw rfl (raw_01 q d a b 18#8)
theorem lea1 (q : BitVec 3) (d a b : BitVec 5) : Statement (.lea1 q d a b) := of_raw rfl (raw_01 q d a b 19#8)
theorem lea2 (q : BitVec 3) (d a b : BitVec 5) : Statement (.lea2 q d a b) := of_raw rfl (raw_01 q d a b 20#8)
theorem lea3 (q : BitVec 3) (d a b : BitVec 5) : Statement (.lea3 q d a b) := of_raw rfl (raw_01 q d a b 21#8)
theorem mul (q : BitVec 3) (d a b : BitVec 5) : Statement (.mul q d a b) := of_raw rfl (raw_02 q d a b 0#8)
theorem mulh (q : BitVec 3) (d a b : BitVec 5) : Statement (.mulh q d a b) := of_raw rfl (raw_02 q d a b 1#8)
theorem mulhu (q : BitVec 3) (d a b : BitVec 5) : Statement (.mulhu q d a b) := of_raw rfl (raw_02 q d a b 2#8)
theorem mulw (q : BitVec 3) (d a b : BitVec 5) : Statement (.mulw q d a b) := of_raw rfl (raw_02 q d a b 3#8)
theorem div (q : BitVec 3) (d a b : BitVec 5) : Statement (.div q d a b) := of_raw rfl (raw_02 q d a b 4#8)
theorem divu (q : BitVec 3) (d a b : BitVec 5) : Statement (.divu q d a b) := of_raw rfl (raw_02 q d a b 5#8)
theorem rem (q : BitVec 3) (d a b : BitVec 5) : Statement (.rem q d a b) := of_raw rfl (raw_02 q d a b 6#8)
theorem remu (q : BitVec 3) (d a b : BitVec 5) : Statement (.remu q d a b) := of_raw rfl (raw_02 q d a b 7#8)
theorem divw (q : BitVec 3) (d a b : BitVec 5) : Statement (.divw q d a b) := of_raw rfl (raw_02 q d a b 8#8)
theorem divuw (q : BitVec 3) (d a b : BitVec 5) : Statement (.divuw q d a b) := of_raw rfl (raw_02 q d a b 9#8)
theorem remw (q : BitVec 3) (d a b : BitVec 5) : Statement (.remw q d a b) := of_raw rfl (raw_02 q d a b 10#8)
theorem remuw (q : BitVec 3) (d a b : BitVec 5) : Statement (.remuw q d a b) := of_raw rfl (raw_02 q d a b 11#8)
theorem clz (q : BitVec 3) (d a : BitVec 5) : Statement (.clz q d a) := of_raw rfl (raw_03 q d a 0#5 0#8)
theorem ctz (q : BitVec 3) (d a : BitVec 5) : Statement (.ctz q d a) := of_raw rfl (raw_03 q d a 0#5 1#8)
theorem popc (q : BitVec 3) (d a : BitVec 5) : Statement (.popc q d a) := of_raw rfl (raw_03 q d a 0#5 2#8)
theorem brev (q : BitVec 3) (d a : BitVec 5) : Statement (.brev q d a) := of_raw rfl (raw_03 q d a 0#5 3#8)
theorem bswap (q : BitVec 3) (d a : BitVec 5) : Statement (.bswap q d a) := of_raw rfl (raw_03 q d a 0#5 4#8)
theorem sextb (q : BitVec 3) (d a : BitVec 5) : Statement (.sextb q d a) := of_raw rfl (raw_03 q d a 0#5 5#8)
theorem sexth (q : BitVec 3) (d a : BitVec 5) : Statement (.sexth q d a) := of_raw rfl (raw_03 q d a 0#5 6#8)
theorem sextw (q : BitVec 3) (d a : BitVec 5) : Statement (.sextw q d a) := of_raw rfl (raw_03 q d a 0#5 7#8)
theorem zextb (q : BitVec 3) (d a : BitVec 5) : Statement (.zextb q d a) := of_raw rfl (raw_03 q d a 0#5 8#8)
theorem zexth (q : BitVec 3) (d a : BitVec 5) : Statement (.zexth q d a) := of_raw rfl (raw_03 q d a 0#5 9#8)
theorem zextw (q : BitVec 3) (d a : BitVec 5) : Statement (.zextw q d a) := of_raw rfl (raw_03 q d a 0#5 10#8)
theorem exts (q : BitVec 3) (d a b : BitVec 5) : Statement (.exts q d a b) := of_raw rfl (raw_03 q d a b 11#8)
theorem extu (q : BitVec 3) (d a b : BitVec 5) : Statement (.extu q d a b) := of_raw rfl (raw_03 q d a b 12#8)
theorem insb (q : BitVec 3) (d a b : BitVec 5) : Statement (.insb q d a b) := of_raw rfl (raw_03 q d a b 13#8)
theorem sel (q : BitVec 3) (d a b : BitVec 5) : Statement (.sel q d a b) := of_raw rfl (raw_04 q d a b 0#8)
theorem pand (q d a b : BitVec 3) : Statement (.pand q d a b) :=
  of_raw rfl ((raw_04 q (d.setWidth 5) (a.setWidth 5) (b.setWidth 5) 1#8).trans (by
    simp only [dec04, isK_wide, setWidth_3_5]
    rfl))
theorem por (q d a b : BitVec 3) : Statement (.por q d a b) :=
  of_raw rfl ((raw_04 q (d.setWidth 5) (a.setWidth 5) (b.setWidth 5) 2#8).trans (by
    simp only [dec04, isK_wide, setWidth_3_5]
    rfl))
theorem pxor (q d a b : BitVec 3) : Statement (.pxor q d a b) :=
  of_raw rfl ((raw_04 q (d.setWidth 5) (a.setWidth 5) (b.setWidth 5) 3#8).trans (by
    simp only [dec04, isK_wide, setWidth_3_5]
    rfl))
theorem pandn (q d a b : BitVec 3) : Statement (.pandn q d a b) :=
  of_raw rfl ((raw_04 q (d.setWidth 5) (a.setWidth 5) (b.setWidth 5) 4#8).trans (by
    simp only [dec04, isK_wide, setWidth_3_5]
    rfl))
theorem pmovx (q : BitVec 3) (d : BitVec 5) : Statement (.pmovx q d) := of_raw rfl (raw_04 q d 0#5 0#5 5#8)
theorem xmovp (q : BitVec 3) (a : BitVec 5) : Statement (.xmovp q a) := of_raw rfl (raw_04 q 0#5 a 0#5 6#8)
theorem addi (q : BitVec 3) (d a : BitVec 5) (imm : BitVec 13) : Statement (.addi q d a imm) := of_raw rfl (raw_05 q d a imm)
theorem andi (q : BitVec 3) (d a : BitVec 5) (imm : BitVec 13) : Statement (.andi q d a imm) := of_raw rfl (raw_06 q d a imm)
theorem ori (q : BitVec 3) (d a : BitVec 5) (imm : BitVec 13) : Statement (.ori q d a imm) := of_raw rfl (raw_07 q d a imm)
theorem xori (q : BitVec 3) (d a : BitVec 5) (imm : BitVec 13) : Statement (.xori q d a imm) := of_raw rfl (raw_08 q d a imm)
theorem slli (q : BitVec 3) (d a : BitVec 5) (sh : BitVec 6) : Statement (.slli q d a sh) :=
  of_raw rfl ((raw_09 q d a 0#3 (sh.setWidth 10)).trans (by
    simp only [dec09, lt64, lt32, setWidth_6_10, setWidth_5_10]
    rfl))
theorem srli (q : BitVec 3) (d a : BitVec 5) (sh : BitVec 6) : Statement (.srli q d a sh) :=
  of_raw rfl ((raw_09 q d a 1#3 (sh.setWidth 10)).trans (by
    simp only [dec09, lt64, lt32, setWidth_6_10, setWidth_5_10]
    rfl))
theorem srai (q : BitVec 3) (d a : BitVec 5) (sh : BitVec 6) : Statement (.srai q d a sh) :=
  of_raw rfl ((raw_09 q d a 2#3 (sh.setWidth 10)).trans (by
    simp only [dec09, lt64, lt32, setWidth_6_10, setWidth_5_10]
    rfl))
theorem rotri (q : BitVec 3) (d a : BitVec 5) (sh : BitVec 6) : Statement (.rotri q d a sh) :=
  of_raw rfl ((raw_09 q d a 3#3 (sh.setWidth 10)).trans (by
    simp only [dec09, lt64, lt32, setWidth_6_10, setWidth_5_10]
    rfl))
theorem slliw (q : BitVec 3) (d a sh : BitVec 5) : Statement (.slliw q d a sh) :=
  of_raw rfl ((raw_09 q d a 4#3 (sh.setWidth 10)).trans (by
    simp only [dec09, lt64, lt32, setWidth_6_10, setWidth_5_10]
    rfl))
theorem srliw (q : BitVec 3) (d a sh : BitVec 5) : Statement (.srliw q d a sh) :=
  of_raw rfl ((raw_09 q d a 5#3 (sh.setWidth 10)).trans (by
    simp only [dec09, lt64, lt32, setWidth_6_10, setWidth_5_10]
    rfl))
theorem sraiw (q : BitVec 3) (d a sh : BitVec 5) : Statement (.sraiw q d a sh) :=
  of_raw rfl ((raw_09 q d a 6#3 (sh.setWidth 10)).trans (by
    simp only [dec09, lt64, lt32, setWidth_6_10, setWidth_5_10]
    rfl))
theorem movi (q : BitVec 3) (d : BitVec 5) (imm : BitVec 18) : Statement (.movi q d imm) := of_raw rfl (raw_0A q d imm)
theorem movk (q : BitVec 3) (d : BitVec 5) (hw : BitVec 2) (imm : BitVec 16) : Statement (.movk q d hw imm) := of_raw rfl (raw_0B q d hw imm)
theorem fadd (q : BitVec 3) (fmt : BitVec 2) (d a b : BitVec 5) : Statement (.fadd q fmt d a b) :=
  of_raw rfl ((raw_18 q d a b (fmt ++ 0#6)).trans (by
    simp only [dec18, f26_hi, f26_lo]
    rfl))
theorem fsub (q : BitVec 3) (fmt : BitVec 2) (d a b : BitVec 5) : Statement (.fsub q fmt d a b) :=
  of_raw rfl ((raw_18 q d a b (fmt ++ 1#6)).trans (by
    simp only [dec18, f26_hi, f26_lo]
    rfl))
theorem fmul (q : BitVec 3) (fmt : BitVec 2) (d a b : BitVec 5) : Statement (.fmul q fmt d a b) :=
  of_raw rfl ((raw_18 q d a b (fmt ++ 2#6)).trans (by
    simp only [dec18, f26_hi, f26_lo]
    rfl))
theorem fdiv (q : BitVec 3) (fmt : BitVec 2) (d a b : BitVec 5) : Statement (.fdiv q fmt d a b) :=
  of_raw rfl ((raw_18 q d a b (fmt ++ 3#6)).trans (by
    simp only [dec18, f26_hi, f26_lo]
    rfl))
theorem fsqrt (q : BitVec 3) (fmt : BitVec 2) (d a : BitVec 5) : Statement (.fsqrt q fmt d a) :=
  of_raw rfl ((raw_18 q d a 0#5 (fmt ++ 4#6)).trans (by
    simp only [dec18, f26_hi, f26_lo]
    rfl))
theorem fmin (q : BitVec 3) (fmt : BitVec 2) (d a b : BitVec 5) : Statement (.fmin q fmt d a b) :=
  of_raw rfl ((raw_18 q d a b (fmt ++ 5#6)).trans (by
    simp only [dec18, f26_hi, f26_lo]
    rfl))
theorem fmax (q : BitVec 3) (fmt : BitVec 2) (d a b : BitVec 5) : Statement (.fmax q fmt d a b) :=
  of_raw rfl ((raw_18 q d a b (fmt ++ 6#6)).trans (by
    simp only [dec18, f26_hi, f26_lo]
    rfl))
theorem fminn (q : BitVec 3) (fmt : BitVec 2) (d a b : BitVec 5) : Statement (.fminn q fmt d a b) :=
  of_raw rfl ((raw_18 q d a b (fmt ++ 7#6)).trans (by
    simp only [dec18, f26_hi, f26_lo]
    rfl))
theorem fmaxn (q : BitVec 3) (fmt : BitVec 2) (d a b : BitVec 5) : Statement (.fmaxn q fmt d a b) :=
  of_raw rfl ((raw_18 q d a b (fmt ++ 8#6)).trans (by
    simp only [dec18, f26_hi, f26_lo]
    rfl))
theorem fabs (q : BitVec 3) (fmt : BitVec 2) (d a : BitVec 5) : Statement (.fabs q fmt d a) :=
  of_raw rfl ((raw_18 q d a 0#5 (fmt ++ 9#6)).trans (by
    simp only [dec18, f26_hi, f26_lo]
    rfl))
theorem fneg (q : BitVec 3) (fmt : BitVec 2) (d a : BitVec 5) : Statement (.fneg q fmt d a) :=
  of_raw rfl ((raw_18 q d a 0#5 (fmt ++ 10#6)).trans (by
    simp only [dec18, f26_hi, f26_lo]
    rfl))
theorem fcpys (q : BitVec 3) (fmt : BitVec 2) (d a b : BitVec 5) : Statement (.fcpys q fmt d a b) :=
  of_raw rfl ((raw_18 q d a b (fmt ++ 11#6)).trans (by
    simp only [dec18, f26_hi, f26_lo]
    rfl))
theorem fclass (q : BitVec 3) (fmt : BitVec 2) (d a : BitVec 5) : Statement (.fclass q fmt d a) :=
  of_raw rfl ((raw_18 q d a 0#5 (fmt ++ 12#6)).trans (by
    simp only [dec18, f26_hi, f26_lo]
    rfl))
theorem fmvxf (q : BitVec 3) (fmt : BitVec 2) (d a : BitVec 5) : Statement (.fmvxf q fmt d a) :=
  of_raw rfl ((raw_18 q d a 0#5 (fmt ++ 13#6)).trans (by
    simp only [dec18, f26_hi, f26_lo]
    rfl))
theorem fmvfx (q : BitVec 3) (fmt : BitVec 2) (d a : BitVec 5) : Statement (.fmvfx q fmt d a) :=
  of_raw rfl ((raw_18 q d a 0#5 (fmt ++ 14#6)).trans (by
    simp only [dec18, f26_hi, f26_lo]
    rfl))
theorem fma (q : BitVec 3) (fmt : BitVec 2) (rnd : BitVec 3) (d a b : BitVec 5) : Statement (.fma q fmt rnd d a b) :=
  of_raw rfl ((raw_19 q d a b (fmt ++ 0#2 ++ 0#1 ++ rnd)).trans (by
    simp only [dec19, f2213_hi, f2213_mid, f2213_lo]
    rfl))
theorem fms (q : BitVec 3) (fmt : BitVec 2) (rnd : BitVec 3) (d a b : BitVec 5) : Statement (.fms q fmt rnd d a b) :=
  of_raw rfl ((raw_19 q d a b (fmt ++ 1#2 ++ 0#1 ++ rnd)).trans (by
    simp only [dec19, f2213_hi, f2213_mid, f2213_lo]
    rfl))
theorem fnma (q : BitVec 3) (fmt : BitVec 2) (rnd : BitVec 3) (d a b : BitVec 5) : Statement (.fnma q fmt rnd d a b) :=
  of_raw rfl ((raw_19 q d a b (fmt ++ 2#2 ++ 0#1 ++ rnd)).trans (by
    simp only [dec19, f2213_hi, f2213_mid, f2213_lo]
    rfl))
theorem fnms (q : BitVec 3) (fmt : BitVec 2) (rnd : BitVec 3) (d a b : BitVec 5) : Statement (.fnms q fmt rnd d a b) :=
  of_raw rfl ((raw_19 q d a b (fmt ++ 3#2 ++ 0#1 ++ rnd)).trans (by
    simp only [dec19, f2213_hi, f2213_mid, f2213_lo]
    rfl))
theorem fcmpd (q pd1 pd2 ty cnd : BitVec 3) (a b : BitVec 5) : Statement (.fcmpd q pd1 pd2 ty cnd a b) :=
  of_raw rfl ((raw_1A q pd1 pd2 ty cnd a (b ++ 0#1)).trans (by
    simp only [dec1A, cmp_low, cmp_high]
    rfl))
theorem fcmps (q pd1 pd2 ty cnd : BitVec 3) (a b : BitVec 5) : Statement (.fcmps q pd1 pd2 ty cnd a b) :=
  of_raw rfl ((raw_1B q pd1 pd2 ty cnd a (b ++ 0#1)).trans (by
    simp only [dec1B, cmp_low, cmp_high]
    rfl))
theorem fcvt (q dst src rnd : BitVec 3) (d a : BitVec 5) : Statement (.fcvt q dst src rnd d a) :=
  of_raw rfl ((raw_1C q d a (rnd.setWidth 5) (src ++ dst ++ 0#2)).trans (by
    simp only [dec1C, f332_hi, f332_mid, f332_lo, isK_wide, setWidth_3_5]
    rfl))
theorem fexp2 (q : BitVec 3) (c : BitVec 1) (d a : BitVec 5) : Statement (.fexp2 q c d a) :=
  of_raw rfl ((raw_1D q d a 0#5 (c ++ 0#7)).trans (by
    simp only [dec1D, f17_hi, f17_lo]
    rfl))
theorem flog2 (q : BitVec 3) (c : BitVec 1) (d a : BitVec 5) : Statement (.flog2 q c d a) :=
  of_raw rfl ((raw_1D q d a 0#5 (c ++ 1#7)).trans (by
    simp only [dec1D, f17_hi, f17_lo]
    rfl))
theorem fsinp (q : BitVec 3) (c : BitVec 1) (d a : BitVec 5) : Statement (.fsinp q c d a) :=
  of_raw rfl ((raw_1D q d a 0#5 (c ++ 2#7)).trans (by
    simp only [dec1D, f17_hi, f17_lo]
    rfl))
theorem fcosp (q : BitVec 3) (c : BitVec 1) (d a : BitVec 5) : Statement (.fcosp q c d a) :=
  of_raw rfl ((raw_1D q d a 0#5 (c ++ 3#7)).trans (by
    simp only [dec1D, f17_hi, f17_lo]
    rfl))
theorem frsq (q : BitVec 3) (c : BitVec 1) (d a : BitVec 5) : Statement (.frsq q c d a) :=
  of_raw rfl ((raw_1D q d a 0#5 (c ++ 4#7)).trans (by
    simp only [dec1D, f17_hi, f17_lo]
    rfl))
theorem frcp (q : BitVec 3) (c : BitVec 1) (d a : BitVec 5) : Statement (.frcp q c d a) :=
  of_raw rfl ((raw_1D q d a 0#5 (c ++ 5#7)).trans (by
    simp only [dec1D, f17_hi, f17_lo]
    rfl))
theorem ftanh (q : BitVec 3) (c : BitVec 1) (d a : BitVec 5) : Statement (.ftanh q c d a) :=
  of_raw rfl ((raw_1D q d a 0#5 (c ++ 6#7)).trans (by
    simp only [dec1D, f17_hi, f17_lo]
    rfl))
theorem xclr (q d : BitVec 3) : Statement (.xclr q d) :=
  of_raw rfl ((raw_1E q (pairFld d) 0#5 0#5 0#8).trans (by
    simp only [dec1E, isJ_pairFld, isK_wide, isV_wide, pairOf_pairFld, setWidth_3_5, setWidth_4_5]
    rfl))
theorem xaddv (q d : BitVec 3) (a : BitVec 4) (b : BitVec 3) : Statement (.xaddv q d a b) :=
  of_raw rfl ((raw_1E q (pairFld d) (a.setWidth 5) (b.setWidth 5) 1#8).trans (by
    simp only [dec1E, isJ_pairFld, isK_wide, isV_wide, pairOf_pairFld, setWidth_3_5, setWidth_4_5]
    rfl))
theorem xadds (q d : BitVec 3) (a : BitVec 5) (b : BitVec 3) : Statement (.xadds q d a b) :=
  of_raw rfl ((raw_1E q (pairFld d) a (b.setWidth 5) 2#8).trans (by
    simp only [dec1E, isJ_pairFld, isK_wide, isV_wide, pairOf_pairFld, setWidth_3_5, setWidth_4_5]
    rfl))
theorem xaddx (q d a : BitVec 3) : Statement (.xaddx q d a) :=
  of_raw rfl ((raw_1E q (pairFld d) (pairFld a) 0#5 3#8).trans (by
    simp only [dec1E, isJ_pairFld, isK_wide, isV_wide, pairOf_pairFld, setWidth_3_5, setWidth_4_5]
    rfl))
theorem xrnd (q : BitVec 3) (d : BitVec 5) (a b : BitVec 3) : Statement (.xrnd q d a b) :=
  of_raw rfl ((raw_1E q d (pairFld a) (b.setWidth 5) 4#8).trans (by
    simp only [dec1E, isJ_pairFld, isK_wide, isV_wide, pairOf_pairFld, setWidth_3_5, setWidth_4_5]
    rfl))
theorem xneg (q d a : BitVec 3) : Statement (.xneg q d a) :=
  of_raw rfl ((raw_1E q (pairFld d) (pairFld a) 0#5 5#8).trans (by
    simp only [dec1E, isJ_pairFld, isK_wide, isV_wide, pairOf_pairFld, setWidth_3_5, setWidth_4_5]
    rfl))
theorem vadd (q t : BitVec 3) (d a b : BitVec 4) (k : BitVec 3) : Statement (.vadd q t d a b k) :=
  of_raw rfl ((raw_20 q (t.extractLsb' 2 1 ++ d) (t.extractLsb' 1 1 ++ a) (t.extractLsb' 0 1 ++ b) (0#5 ++ k)).trans (by
    simp only [dec20, half_low, half_high, lane_type, f53_hi, f53_lo]
    rfl))
theorem vsub (q t : BitVec 3) (d a b : BitVec 4) (k : BitVec 3) : Statement (.vsub q t d a b k) :=
  of_raw rfl ((raw_20 q (t.extractLsb' 2 1 ++ d) (t.extractLsb' 1 1 ++ a) (t.extractLsb' 0 1 ++ b) (1#5 ++ k)).trans (by
    simp only [dec20, half_low, half_high, lane_type, f53_hi, f53_lo]
    rfl))
theorem vmul (q t : BitVec 3) (d a b : BitVec 4) (k : BitVec 3) : Statement (.vmul q t d a b k) :=
  of_raw rfl ((raw_20 q (t.extractLsb' 2 1 ++ d) (t.extractLsb' 1 1 ++ a) (t.extractLsb' 0 1 ++ b) (2#5 ++ k)).trans (by
    simp only [dec20, half_low, half_high, lane_type, f53_hi, f53_lo]
    rfl))
theorem vfma (q t : BitVec 3) (d a b : BitVec 4) (k : BitVec 3) : Statement (.vfma q t d a b k) :=
  of_raw rfl ((raw_20 q (t.extractLsb' 2 1 ++ d) (t.extractLsb' 1 1 ++ a) (t.extractLsb' 0 1 ++ b) (3#5 ++ k)).trans (by
    simp only [dec20, half_low, half_high, lane_type, f53_hi, f53_lo]
    rfl))
theorem vdiv (q t : BitVec 3) (d a b : BitVec 4) (k : BitVec 3) : Statement (.vdiv q t d a b k) :=
  of_raw rfl ((raw_20 q (t.extractLsb' 2 1 ++ d) (t.extractLsb' 1 1 ++ a) (t.extractLsb' 0 1 ++ b) (4#5 ++ k)).trans (by
    simp only [dec20, half_low, half_high, lane_type, f53_hi, f53_lo]
    rfl))
theorem vsqrt (q t : BitVec 3) (d a : BitVec 4) (k : BitVec 3) : Statement (.vsqrt q t d a k) :=
  of_raw rfl ((raw_20 q (t.extractLsb' 2 1 ++ d) (t.extractLsb' 1 1 ++ a) (t.extractLsb' 0 1 ++ 0#4) (5#5 ++ k)).trans (by
    simp only [dec20, half_low, half_high, lane_type, f53_hi, f53_lo]
    rfl))
theorem vmin (q t : BitVec 3) (d a b : BitVec 4) (k : BitVec 3) : Statement (.vmin q t d a b k) :=
  of_raw rfl ((raw_20 q (t.extractLsb' 2 1 ++ d) (t.extractLsb' 1 1 ++ a) (t.extractLsb' 0 1 ++ b) (6#5 ++ k)).trans (by
    simp only [dec20, half_low, half_high, lane_type, f53_hi, f53_lo]
    rfl))
theorem vmax (q t : BitVec 3) (d a b : BitVec 4) (k : BitVec 3) : Statement (.vmax q t d a b k) :=
  of_raw rfl ((raw_20 q (t.extractLsb' 2 1 ++ d) (t.extractLsb' 1 1 ++ a) (t.extractLsb' 0 1 ++ b) (7#5 ++ k)).trans (by
    simp only [dec20, half_low, half_high, lane_type, f53_hi, f53_lo]
    rfl))
theorem vminu (q t : BitVec 3) (d a b : BitVec 4) (k : BitVec 3) : Statement (.vminu q t d a b k) :=
  of_raw rfl ((raw_20 q (t.extractLsb' 2 1 ++ d) (t.extractLsb' 1 1 ++ a) (t.extractLsb' 0 1 ++ b) (8#5 ++ k)).trans (by
    simp only [dec20, half_low, half_high, lane_type, f53_hi, f53_lo]
    rfl))
theorem vmaxu (q t : BitVec 3) (d a b : BitVec 4) (k : BitVec 3) : Statement (.vmaxu q t d a b k) :=
  of_raw rfl ((raw_20 q (t.extractLsb' 2 1 ++ d) (t.extractLsb' 1 1 ++ a) (t.extractLsb' 0 1 ++ b) (9#5 ++ k)).trans (by
    simp only [dec20, half_low, half_high, lane_type, f53_hi, f53_lo]
    rfl))
theorem vabs (q t : BitVec 3) (d a : BitVec 4) (k : BitVec 3) : Statement (.vabs q t d a k) :=
  of_raw rfl ((raw_20 q (t.extractLsb' 2 1 ++ d) (t.extractLsb' 1 1 ++ a) (t.extractLsb' 0 1 ++ 0#4) (10#5 ++ k)).trans (by
    simp only [dec20, half_low, half_high, lane_type, f53_hi, f53_lo]
    rfl))
theorem vneg (q t : BitVec 3) (d a : BitVec 4) (k : BitVec 3) : Statement (.vneg q t d a k) :=
  of_raw rfl ((raw_20 q (t.extractLsb' 2 1 ++ d) (t.extractLsb' 1 1 ++ a) (t.extractLsb' 0 1 ++ 0#4) (11#5 ++ k)).trans (by
    simp only [dec20, half_low, half_high, lane_type, f53_hi, f53_lo]
    rfl))
theorem vand (q t : BitVec 3) (d a b : BitVec 4) (k : BitVec 3) : Statement (.vand q t d a b k) :=
  of_raw rfl ((raw_20 q (t.extractLsb' 2 1 ++ d) (t.extractLsb' 1 1 ++ a) (t.extractLsb' 0 1 ++ b) (12#5 ++ k)).trans (by
    simp only [dec20, half_low, half_high, lane_type, f53_hi, f53_lo]
    rfl))
theorem vor (q t : BitVec 3) (d a b : BitVec 4) (k : BitVec 3) : Statement (.vor q t d a b k) :=
  of_raw rfl ((raw_20 q (t.extractLsb' 2 1 ++ d) (t.extractLsb' 1 1 ++ a) (t.extractLsb' 0 1 ++ b) (13#5 ++ k)).trans (by
    simp only [dec20, half_low, half_high, lane_type, f53_hi, f53_lo]
    rfl))
theorem vxor (q t : BitVec 3) (d a b : BitVec 4) (k : BitVec 3) : Statement (.vxor q t d a b k) :=
  of_raw rfl ((raw_20 q (t.extractLsb' 2 1 ++ d) (t.extractLsb' 1 1 ++ a) (t.extractLsb' 0 1 ++ b) (14#5 ++ k)).trans (by
    simp only [dec20, half_low, half_high, lane_type, f53_hi, f53_lo]
    rfl))
theorem vshl (q t : BitVec 3) (d a b : BitVec 4) (k : BitVec 3) : Statement (.vshl q t d a b k) :=
  of_raw rfl ((raw_20 q (t.extractLsb' 2 1 ++ d) (t.extractLsb' 1 1 ++ a) (t.extractLsb' 0 1 ++ b) (15#5 ++ k)).trans (by
    simp only [dec20, half_low, half_high, lane_type, f53_hi, f53_lo]
    rfl))
theorem vshra (q t : BitVec 3) (d a b : BitVec 4) (k : BitVec 3) : Statement (.vshra q t d a b k) :=
  of_raw rfl ((raw_20 q (t.extractLsb' 2 1 ++ d) (t.extractLsb' 1 1 ++ a) (t.extractLsb' 0 1 ++ b) (16#5 ++ k)).trans (by
    simp only [dec20, half_low, half_high, lane_type, f53_hi, f53_lo]
    rfl))
theorem vshrl (q t : BitVec 3) (d a b : BitVec 4) (k : BitVec 3) : Statement (.vshrl q t d a b k) :=
  of_raw rfl ((raw_20 q (t.extractLsb' 2 1 ++ d) (t.extractLsb' 1 1 ++ a) (t.extractLsb' 0 1 ++ b) (17#5 ++ k)).trans (by
    simp only [dec20, half_low, half_high, lane_type, f53_hi, f53_lo]
    rfl))
theorem vsel (q t : BitVec 3) (d a b : BitVec 4) (k : BitVec 3) : Statement (.vsel q t d a b k) :=
  of_raw rfl ((raw_20 q (t.extractLsb' 2 1 ++ d) (t.extractLsb' 1 1 ++ a) (t.extractLsb' 0 1 ++ b) (18#5 ++ k)).trans (by
    simp only [dec20, half_low, half_high, lane_type, f53_hi, f53_lo]
    rfl))
theorem vmov (q t : BitVec 3) (d a : BitVec 4) (k : BitVec 3) : Statement (.vmov q t d a k) :=
  of_raw rfl ((raw_20 q (t.extractLsb' 2 1 ++ d) (t.extractLsb' 1 1 ++ a) (t.extractLsb' 0 1 ++ 0#4) (19#5 ++ k)).trans (by
    simp only [dec20, half_low, half_high, lane_type, f53_hi, f53_lo]
    rfl))
theorem vbcast (q t : BitVec 3) (d : BitVec 4) (a : BitVec 5) (k : BitVec 3) : Statement (.vbcast q t d a k) :=
  of_raw rfl ((raw_21 q (d.setWidth 5) a (k.setWidth 5) (t ++ 0#2 ++ 0#3)).trans (by
    simp only [dec21, f323_hi, f323_mid, f323_lo, f3113_hi, f3113_mid, f3113_lo, vext_var, vext_zx, isV_wide, isK_wide, isJ_pairFld, pairOf_pairFld, setWidth_3_5, setWidth_4_5]
    rfl))
theorem vext (q t : BitVec 3) (zx : BitVec 1) (d : BitVec 5) (a : BitVec 4) (b : BitVec 5) : Statement (.vext q t zx d a b) :=
  of_raw rfl ((raw_21 q d (a.setWidth 5) b (t ++ 0#1 ++ zx ++ 1#3)).trans (by
    simp only [dec21, f323_hi, f323_mid, f323_lo, f3113_hi, f3113_mid, f3113_lo, vext_var, vext_zx, isV_wide, isK_wide, isJ_pairFld, pairOf_pairFld, setWidth_3_5, setWidth_4_5]
    rfl))
theorem vins (q t : BitVec 3) (d : BitVec 4) (a b : BitVec 5) : Statement (.vins q t d a b) :=
  of_raw rfl ((raw_21 q (d.setWidth 5) a b (t ++ 0#2 ++ 2#3)).trans (by
    simp only [dec21, f323_hi, f323_mid, f323_lo, f3113_hi, f3113_mid, f3113_lo, vext_var, vext_zx, isV_wide, isK_wide, isJ_pairFld, pairOf_pairFld, setWidth_3_5, setWidth_4_5]
    rfl))
theorem vperm (q t : BitVec 3) (d a b : BitVec 4) : Statement (.vperm q t d a b) :=
  of_raw rfl ((raw_21 q (d.setWidth 5) (a.setWidth 5) (b.setWidth 5) (t ++ 0#2 ++ 3#3)).trans (by
    simp only [dec21, f323_hi, f323_mid, f323_lo, f3113_hi, f3113_mid, f3113_lo, vext_var, vext_zx, isV_wide, isK_wide, isJ_pairFld, pairOf_pairFld, setWidth_3_5, setWidth_4_5]
    rfl))
theorem vreds (q t : BitVec 3) (d : BitVec 5) (a : BitVec 4) (k : BitVec 3) : Statement (.vreds q t d a k) :=
  of_raw rfl ((raw_21 q d (a.setWidth 5) (k.setWidth 5) (t ++ 0#2 ++ 4#3)).trans (by
    simp only [dec21, f323_hi, f323_mid, f323_lo, f3113_hi, f3113_mid, f3113_lo, vext_var, vext_zx, isV_wide, isK_wide, isJ_pairFld, pairOf_pairFld, setWidth_3_5, setWidth_4_5]
    rfl))
theorem vredn (q t : BitVec 3) (var : BitVec 2) (d : BitVec 5) (a : BitVec 4) (k : BitVec 3) : Statement (.vredn q t var d a k) :=
  of_raw rfl ((raw_21 q d (a.setWidth 5) (k.setWidth 5) (t ++ var ++ 5#3)).trans (by
    simp only [dec21, f323_hi, f323_mid, f323_lo, f3113_hi, f3113_mid, f3113_lo, vext_var, vext_zx, isV_wide, isK_wide, isJ_pairFld, pairOf_pairFld, setWidth_3_5, setWidth_4_5]
    rfl))
theorem vredx (q t d : BitVec 3) (a : BitVec 4) (k : BitVec 3) : Statement (.vredx q t d a k) :=
  of_raw rfl ((raw_21 q (pairFld d) (a.setWidth 5) (k.setWidth 5) (t ++ 0#2 ++ 6#3)).trans (by
    simp only [dec21, f323_hi, f323_mid, f323_lo, f3113_hi, f3113_mid, f3113_lo, vext_var, vext_zx, isV_wide, isK_wide, isJ_pairFld, pairOf_pairFld, setWidth_3_5, setWidth_4_5]
    rfl))
theorem vcvt (q dst : BitVec 3) (part : BitVec 2) (src : BitVec 3) (d a : BitVec 4) : Statement (.vcvt q dst part src d a) :=
  of_raw rfl ((raw_21 q (d.setWidth 5) (a.setWidth 5) (src.setWidth 5) (dst ++ part ++ 7#3)).trans (by
    simp only [dec21, f323_hi, f323_mid, f323_lo, f3113_hi, f3113_mid, f3113_lo, vext_var, vext_zx, isV_wide, isK_wide, isJ_pairFld, pairOf_pairFld, setWidth_3_5, setWidth_4_5]
    rfl))
theorem vcmp (q kd : BitVec 3) (a b : BitVec 4) (t cnd kg : BitVec 3) : Statement (.vcmp q kd a b t cnd kg) := of_raw rfl (raw_22 q kd a b t cnd kg 0#3)
theorem kand (q d a b : BitVec 3) : Statement (.kand q d a b) :=
  of_raw rfl ((raw_23 q (d.setWidth 5) (a.setWidth 5) (b.setWidth 5) 0#8).trans (by
    simp only [dec23, isK_wide, setWidth_3_5]
    rfl))
theorem kor (q d a b : BitVec 3) : Statement (.kor q d a b) :=
  of_raw rfl ((raw_23 q (d.setWidth 5) (a.setWidth 5) (b.setWidth 5) 1#8).trans (by
    simp only [dec23, isK_wide, setWidth_3_5]
    rfl))
theorem kxor (q d a b : BitVec 3) : Statement (.kxor q d a b) :=
  of_raw rfl ((raw_23 q (d.setWidth 5) (a.setWidth 5) (b.setWidth 5) 2#8).trans (by
    simp only [dec23, isK_wide, setWidth_3_5]
    rfl))
theorem knot (q d a : BitVec 3) : Statement (.knot q d a) :=
  of_raw rfl ((raw_23 q (d.setWidth 5) (a.setWidth 5) 0#5 3#8).trans (by
    simp only [dec23, isK_wide, setWidth_3_5]
    rfl))
theorem kset (q d : BitVec 3) (a : BitVec 5) : Statement (.kset q d a) :=
  of_raw rfl ((raw_23 q (d.setWidth 5) a 0#5 4#8).trans (by
    simp only [dec23, isK_wide, setWidth_3_5]
    rfl))
theorem kget (q : BitVec 3) (d : BitVec 5) (a : BitVec 3) : Statement (.kget q d a) :=
  of_raw rfl ((raw_23 q d (a.setWidth 5) 0#5 5#8).trans (by
    simp only [dec23, isK_wide, setWidth_3_5]
    rfl))
theorem kpop (q : BitVec 3) (d : BitVec 5) (a : BitVec 3) : Statement (.kpop q d a) :=
  of_raw rfl ((raw_23 q d (a.setWidth 5) 0#5 6#8).trans (by
    simp only [dec23, isK_wide, setWidth_3_5]
    rfl))
theorem ktest (q d a b : BitVec 3) : Statement (.ktest q d a b) :=
  of_raw rfl ((raw_23 q (d.setWidth 5) (a.setWidth 5) (b.setWidth 5) 7#8).trans (by
    simp only [dec23, isK_wide, setWidth_3_5]
    rfl))
theorem vqnt (q : BitVec 3) (d : BitVec 4) (g : BitVec 2) (fm : BitVec 3) (b : BitVec 5) : Statement (.vqnt q d g fm b) :=
  of_raw rfl ((raw_24 q (d.setWidth 5) (g ++ fm) b 0#8).trans (by
    simp only [dec24, isV_wide, setWidth_4_5, group_high, group_low]
    rfl))
theorem vdqnt (q : BitVec 3) (g : BitVec 2) (fm : BitVec 3) (a : BitVec 4) (b : BitVec 5) : Statement (.vdqnt q g fm a b) :=
  of_raw rfl ((raw_24 q (g ++ fm) (a.setWidth 5) b 1#8).trans (by
    simp only [dec24, isV_wide, setWidth_4_5, group_high, group_low]
    rfl))
theorem mma (q : BitVec 3) (acc : BitVec 2) (a m : BitVec 5) (fA fB s : BitVec 3) : Statement (.mma q acc a m fA fB s) :=
  of_raw rfl ((raw_3A q acc a m fA fB (s.setWidth 4) 0#1).trans (by
    simp only [dec3A, wide3_lt, setWidth_3_4]
    rfl))
theorem mmaz (q : BitVec 3) (acc : BitVec 2) (a m : BitVec 5) (fA fB s : BitVec 3) : Statement (.mmaz q acc a m fA fB s) :=
  of_raw rfl ((raw_3A q acc a m fA fB (s.setWidth 4) 1#1).trans (by
    simp only [dec3A, wide3_lt, setWidth_3_4]
    rfl))
theorem cmp (q pd1 pd2 ty cnd : BitVec 3) (a b : BitVec 5) : Statement (.cmp q pd1 pd2 ty cnd a b) :=
  of_raw rfl ((raw_0C q pd1 pd2 ty cnd a (b ++ 0#1)).trans (by
    simp only [dec0C, cmp_low, cmp_high]
    rfl))
theorem cmpi (q pd1 pd2 ty cnd : BitVec 3) (a : BitVec 5) (imm : BitVec 6) : Statement (.cmpi q pd1 pd2 ty cnd a imm) := of_raw rfl (raw_0D q pd1 pd2 ty cnd a imm)
theorem gets (q : BitVec 3) (d : BitVec 5) (num : BitVec 12) : Statement (.gets q d num) :=
  of_raw rfl ((raw_0E q d 0#5 (0#1 ++ num)).trans (by
    simp only [dec0E, num_top, num_low]
    rfl))
theorem puts (q : BitVec 3) (num : BitVec 12) (a : BitVec 5) : Statement (.puts q num a) :=
  of_raw rfl ((raw_0E q 0#5 a (1#1 ++ num)).trans (by
    simp only [dec0E, num_top, num_low]
    rfl))
theorem br (q : BitVec 3) (h : BitVec 1) (disp : BitVec 22) : Statement (.br q h disp) := of_raw rfl (raw_10 q h disp)
theorem brl (q : BitVec 3) (h : BitVec 1) (disp : BitVec 22) : Statement (.brl q h disp) := of_raw rfl (raw_11 q h disp)
theorem jr (q : BitVec 3) (h : BitVec 1) (a : BitVec 5) : Statement (.jr q h a) :=
  of_raw rfl ((raw_12 q 0#5 a 0#5 (h ++ 0#7)).trans (by
    simp only [dec12, f17_hi, f17_lo]
    rfl))
theorem jrl (q : BitVec 3) (h : BitVec 1) (d a : BitVec 5) : Statement (.jrl q h d a) :=
  of_raw rfl ((raw_12 q d a 0#5 (h ++ 1#7)).trans (by
    simp only [dec12, f17_hi, f17_lo]
    rfl))
theorem bdec (q : BitVec 3) (d : BitVec 5) (imm : BitVec 13) : Statement (.bdec q d imm) := of_raw rfl (raw_13 q d 0#5 imm)
theorem rpt (q : BitVec 3) (n : BitVec 6) (len : BitVec 4) (stag mask : BitVec 3) : Statement (.rpt q n len stag mask) := of_raw rfl (raw_14 q n len stag mask 0#7)
theorem hstart (q : BitVec 3) (d a b : BitVec 5) : Statement (.hstart q d a b) := of_raw rfl (raw_15 q d a b 0#8)
theorem hend (q : BitVec 3) (a : BitVec 5) : Statement (.hend q a) := of_raw rfl (raw_15 q 0#5 a 0#5 1#8)
theorem hjoin (q : BitVec 3) (d a : BitVec 5) : Statement (.hjoin q d a) := of_raw rfl (raw_15 q d a 0#5 2#8)
theorem hstat (q : BitVec 3) (d a : BitVec 5) : Statement (.hstat q d a) := of_raw rfl (raw_15 q d a 0#5 3#8)
theorem hkill (q : BitVec 3) (d a : BitVec 5) : Statement (.hkill q d a) := of_raw rfl (raw_15 q d a 0#5 4#8)
theorem iflush (q : BitVec 3) : Statement (.iflush q) := of_raw rfl (raw_16 q 0#5 0#5 0#5 0#8)
theorem ldb (q : BitVec 3) (d a : BitVec 5) (imm : BitVec 10) : Statement (.ldb q d a imm) := of_raw rfl (raw_28 q d a 0#3 imm)
theorem ldh (q : BitVec 3) (d a : BitVec 5) (imm : BitVec 10) : Statement (.ldh q d a imm) := of_raw rfl (raw_28 q d a 1#3 imm)
theorem ldw (q : BitVec 3) (d a : BitVec 5) (imm : BitVec 10) : Statement (.ldw q d a imm) := of_raw rfl (raw_28 q d a 2#3 imm)
theorem ldd (q : BitVec 3) (d a : BitVec 5) (imm : BitVec 10) : Statement (.ldd q d a imm) := of_raw rfl (raw_28 q d a 3#3 imm)
theorem ldbu (q : BitVec 3) (d a : BitVec 5) (imm : BitVec 10) : Statement (.ldbu q d a imm) := of_raw rfl (raw_28 q d a 4#3 imm)
theorem ldhu (q : BitVec 3) (d a : BitVec 5) (imm : BitVec 10) : Statement (.ldhu q d a imm) := of_raw rfl (raw_28 q d a 5#3 imm)
theorem ldwu (q : BitVec 3) (d a : BitVec 5) (imm : BitVec 10) : Statement (.ldwu q d a imm) := of_raw rfl (raw_28 q d a 6#3 imm)
theorem stb (q : BitVec 3) (d a : BitVec 5) (imm : BitVec 10) : Statement (.stb q d a imm) := of_raw rfl (raw_29 q d a 0#3 imm)
theorem sth (q : BitVec 3) (d a : BitVec 5) (imm : BitVec 10) : Statement (.sth q d a imm) := of_raw rfl (raw_29 q d a 1#3 imm)
theorem stw (q : BitVec 3) (d a : BitVec 5) (imm : BitVec 10) : Statement (.stw q d a imm) := of_raw rfl (raw_29 q d a 2#3 imm)
theorem std (q : BitVec 3) (d a : BitVec 5) (imm : BitVec 10) : Statement (.std q d a imm) := of_raw rfl (raw_29 q d a 3#3 imm)
theorem fldh (q : BitVec 3) (d a : BitVec 5) (imm : BitVec 10) : Statement (.fldh q d a imm) := of_raw rfl (raw_2A q d a 0#3 imm)
theorem fldw (q : BitVec 3) (d a : BitVec 5) (imm : BitVec 10) : Statement (.fldw q d a imm) := of_raw rfl (raw_2A q d a 1#3 imm)
theorem fldd (q : BitVec 3) (d a : BitVec 5) (imm : BitVec 10) : Statement (.fldd q d a imm) := of_raw rfl (raw_2A q d a 2#3 imm)
theorem fsth (q : BitVec 3) (d a : BitVec 5) (imm : BitVec 10) : Statement (.fsth q d a imm) := of_raw rfl (raw_2A q d a 4#3 imm)
theorem fstw (q : BitVec 3) (d a : BitVec 5) (imm : BitVec 10) : Statement (.fstw q d a imm) := of_raw rfl (raw_2A q d a 5#3 imm)
theorem fstd (q : BitVec 3) (d a : BitVec 5) (imm : BitVec 10) : Statement (.fstd q d a imm) := of_raw rfl (raw_2A q d a 6#3 imm)
theorem vld (q : BitVec 3) (d : BitVec 4) (a : BitVec 5) (k : BitVec 3) (imm : BitVec 10) : Statement (.vld q d a k imm) :=
  of_raw rfl ((raw_2B q (0#1 ++ d) a k imm).trans (by
    simp only [dec2B, isV_lowHalf, isV_highHalf, half_low]
    rfl))
theorem vst (q : BitVec 3) (d : BitVec 4) (a : BitVec 5) (k : BitVec 3) (imm : BitVec 10) : Statement (.vst q d a k imm) :=
  of_raw rfl ((raw_2B q (1#1 ++ d) a k imm).trans (by
    simp only [dec2B, isV_lowHalf, isV_highHalf, half_low]
    rfl))
theorem ldf (q : BitVec 3) (d a : BitVec 5) (imm : BitVec 10) : Statement (.ldf q d a imm) := of_raw rfl (raw_2C q d a 0#3 imm)
theorem ldfc (q : BitVec 3) (d a : BitVec 5) (imm : BitVec 10) : Statement (.ldfc q d a imm) := of_raw rfl (raw_2C q d a 1#3 imm)
theorem stf (q : BitVec 3) (d a : BitVec 5) (imm : BitVec 10) : Statement (.stf q d a imm) := of_raw rfl (raw_2C q d a 2#3 imm)
theorem fesete (q : BitVec 3) (a : BitVec 5) (imm : BitVec 10) : Statement (.fesete q a imm) := of_raw rfl (raw_2C q 0#5 a 3#3 imm)
theorem fesetf (q : BitVec 3) (a : BitVec 5) (imm : BitVec 10) : Statement (.fesetf q a imm) := of_raw rfl (raw_2C q 0#5 a 4#3 imm)
theorem feget (q : BitVec 3) (d a : BitVec 5) (imm : BitVec 10) : Statement (.feget q d a imm) := of_raw rfl (raw_2C q d a 5#3 imm)
theorem lda (q : BitVec 3) (d a : BitVec 5) (imm : BitVec 10) : Statement (.lda q d a imm) := of_raw rfl (raw_2D q d a 0#3 imm)
theorem stl (q : BitVec 3) (d a : BitVec 5) (imm : BitVec 10) : Statement (.stl q d a imm) := of_raw rfl (raw_2D q d a 1#3 imm)
theorem fence (q : BitVec 3) : Statement (.fence q) := of_raw rfl (raw_2D q 0#5 0#5 2#3 0#10)
theorem pref (q : BitVec 3) (d : BitVec 2) (a : BitVec 5) (imm : BitVec 10) : Statement (.pref q d a imm) :=
  of_raw rfl ((raw_2D q (d.setWidth 5) a 3#3 imm).trans (by
    simp only [dec2D, lt4, setWidth_2_5]
    rfl))
theorem cwb (q : BitVec 3) (a : BitVec 5) (imm : BitVec 10) : Statement (.cwb q a imm) := of_raw rfl (raw_2D q 0#5 a 4#3 imm)
theorem cinv (q : BitVec 3) (a : BitVec 5) (imm : BitVec 10) : Statement (.cinv q a imm) := of_raw rfl (raw_2D q 0#5 a 5#3 imm)
theorem vlds (q : BitVec 3) (d : BitVec 4) (a b : BitVec 5) (sz : BitVec 2) (k : BitVec 3) : Statement (.vlds q d a b sz k) :=
  of_raw rfl ((raw_2E q (0#1 ++ d) a b (0#3 ++ sz ++ k)).trans (by
    simp only [dec2E, isV_lowHalf, isV_highHalf, half_low, strided_ok, f323_mid, f323_low]
    rfl))
theorem vsts (q : BitVec 3) (d : BitVec 4) (a b : BitVec 5) (sz : BitVec 2) (k : BitVec 3) : Statement (.vsts q d a b sz k) :=
  of_raw rfl ((raw_2E q (1#1 ++ d) a b (0#3 ++ sz ++ k)).trans (by
    simp only [dec2E, isV_lowHalf, isV_highHalf, half_low, strided_ok, f323_mid, f323_low]
    rfl))
theorem aadd (q : BitVec 3) (sz : BitVec 1) (ord : BitVec 2) (d a b : BitVec 5) : Statement (.aadd q sz ord d a b) :=
  of_raw rfl ((raw_30 q d a b (0#4 ++ sz ++ ord ++ 0#1)).trans (by
    simp only [dec30, f4121_a, f4121_b, f4121_c, f4121_d, evenFld_ok, evenFld_half]
    rfl))
theorem aand (q : BitVec 3) (sz : BitVec 1) (ord : BitVec 2) (d a b : BitVec 5) : Statement (.aand q sz ord d a b) :=
  of_raw rfl ((raw_30 q d a b (1#4 ++ sz ++ ord ++ 0#1)).trans (by
    simp only [dec30, f4121_a, f4121_b, f4121_c, f4121_d, evenFld_ok, evenFld_half]
    rfl))
theorem aor (q : BitVec 3) (sz : BitVec 1) (ord : BitVec 2) (d a b : BitVec 5) : Statement (.aor q sz ord d a b) :=
  of_raw rfl ((raw_30 q d a b (2#4 ++ sz ++ ord ++ 0#1)).trans (by
    simp only [dec30, f4121_a, f4121_b, f4121_c, f4121_d, evenFld_ok, evenFld_half]
    rfl))
theorem axor (q : BitVec 3) (sz : BitVec 1) (ord : BitVec 2) (d a b : BitVec 5) : Statement (.axor q sz ord d a b) :=
  of_raw rfl ((raw_30 q d a b (3#4 ++ sz ++ ord ++ 0#1)).trans (by
    simp only [dec30, f4121_a, f4121_b, f4121_c, f4121_d, evenFld_ok, evenFld_half]
    rfl))
theorem amin (q : BitVec 3) (sz : BitVec 1) (ord : BitVec 2) (d a b : BitVec 5) : Statement (.amin q sz ord d a b) :=
  of_raw rfl ((raw_30 q d a b (4#4 ++ sz ++ ord ++ 0#1)).trans (by
    simp only [dec30, f4121_a, f4121_b, f4121_c, f4121_d, evenFld_ok, evenFld_half]
    rfl))
theorem amax (q : BitVec 3) (sz : BitVec 1) (ord : BitVec 2) (d a b : BitVec 5) : Statement (.amax q sz ord d a b) :=
  of_raw rfl ((raw_30 q d a b (5#4 ++ sz ++ ord ++ 0#1)).trans (by
    simp only [dec30, f4121_a, f4121_b, f4121_c, f4121_d, evenFld_ok, evenFld_half]
    rfl))
theorem aminu (q : BitVec 3) (sz : BitVec 1) (ord : BitVec 2) (d a b : BitVec 5) : Statement (.aminu q sz ord d a b) :=
  of_raw rfl ((raw_30 q d a b (6#4 ++ sz ++ ord ++ 0#1)).trans (by
    simp only [dec30, f4121_a, f4121_b, f4121_c, f4121_d, evenFld_ok, evenFld_half]
    rfl))
theorem amaxu (q : BitVec 3) (sz : BitVec 1) (ord : BitVec 2) (d a b : BitVec 5) : Statement (.amaxu q sz ord d a b) :=
  of_raw rfl ((raw_30 q d a b (7#4 ++ sz ++ ord ++ 0#1)).trans (by
    simp only [dec30, f4121_a, f4121_b, f4121_c, f4121_d, evenFld_ok, evenFld_half]
    rfl))
theorem aswp (q : BitVec 3) (sz : BitVec 1) (ord : BitVec 2) (d a b : BitVec 5) : Statement (.aswp q sz ord d a b) :=
  of_raw rfl ((raw_30 q d a b (8#4 ++ sz ++ ord ++ 0#1)).trans (by
    simp only [dec30, f4121_a, f4121_b, f4121_c, f4121_d, evenFld_ok, evenFld_half]
    rfl))
theorem afadd (q : BitVec 3) (sz : BitVec 1) (ord : BitVec 2) (d a b : BitVec 5) : Statement (.afadd q sz ord d a b) :=
  of_raw rfl ((raw_30 q d a b (9#4 ++ sz ++ ord ++ 0#1)).trans (by
    simp only [dec30, f4121_a, f4121_b, f4121_c, f4121_d, evenFld_ok, evenFld_half]
    rfl))
theorem acas (q : BitVec 3) (sz : BitVec 1) (ord : BitVec 2) (d a b : BitVec 5) : Statement (.acas q sz ord d a b) :=
  of_raw rfl ((raw_30 q d a b (10#4 ++ sz ++ ord ++ 0#1)).trans (by
    simp only [dec30, f4121_a, f4121_b, f4121_c, f4121_d, evenFld_ok, evenFld_half]
    rfl))
theorem acas2 (q : BitVec 3) (ord : BitVec 2) (d : BitVec 4) (a : BitVec 5) (b : BitVec 4) : Statement (.acas2 q ord d a b) :=
  of_raw rfl ((raw_30 q (evenFld d) a (evenFld b) (11#4 ++ 1#1 ++ ord ++ 0#1)).trans (by
    simp only [dec30, f4121_a, f4121_b, f4121_c, f4121_d, evenFld_ok, evenFld_half]
    rfl))
theorem monarm (q : BitVec 3) (d a : BitVec 5) (idx : BitVec 2) : Statement (.monarm q d a idx) :=
  of_raw rfl ((raw_31 q d a (idx.setWidth 5) 0#8).trans (by
    simp only [dec31, lt4, setWidth_2_5, isK_wide, setWidth_3_5]
    rfl))
theorem mondis (q idx : BitVec 3) : Statement (.mondis q idx) :=
  of_raw rfl ((raw_31 q 0#5 0#5 (idx.setWidth 5) 1#8).trans (by
    simp only [dec31, lt4, setWidth_2_5, isK_wide, setWidth_3_5]
    rfl))
theorem waitm (q : BitVec 3) (d a : BitVec 5) : Statement (.waitm q d a) := of_raw rfl (raw_31 q d a 0#5 2#8)
theorem monst (q : BitVec 3) (d : BitVec 5) : Statement (.monst q d) := of_raw rfl (raw_31 q d 0#5 0#5 3#8)
theorem bararr (q : BitVec 3) (a b : BitVec 5) : Statement (.bararr q a b) := of_raw rfl (raw_32 q 0#5 a b 0#8)
theorem barwait (q : BitVec 3) (b : BitVec 5) : Statement (.barwait q b) := of_raw rfl (raw_32 q 0#5 0#5 b 1#8)
theorem barsync (q : BitVec 3) (a b : BitVec 5) : Statement (.barsync q a b) := of_raw rfl (raw_32 q 0#5 a b 2#8)
theorem bardef (q : BitVec 3) (a b : BitVec 5) : Statement (.bardef q a b) := of_raw rfl (raw_32 q 0#5 a b 3#8)
theorem barst (q : BitVec 3) (d b : BitVec 5) : Statement (.barst q d b) := of_raw rfl (raw_32 q d 0#5 b 4#8)
theorem chopen (q : BitVec 3) (d a : BitVec 5) : Statement (.chopen q d a) := of_raw rfl (raw_34 q d a 0#5 0#8)
theorem chclose (q : BitVec 3) (a : BitVec 5) : Statement (.chclose q a) := of_raw rfl (raw_34 q 0#5 a 0#5 1#8)
theorem chinfo (q : BitVec 3) (d a : BitVec 5) : Statement (.chinfo q d a) := of_raw rfl (raw_34 q d a 0#5 2#8)
theorem send (q : BitVec 3) (d a b : BitVec 5) : Statement (.send q d a b) := of_raw rfl (raw_35 q d a b 0#8)
theorem sendr (q : BitVec 3) (d a b : BitVec 5) : Statement (.sendr q d a b) := of_raw rfl (raw_35 q d a b 1#8)
theorem sendv (q : BitVec 3) (d : BitVec 5) (b : BitVec 4) : Statement (.sendv q d b) :=
  of_raw rfl ((raw_35 q d 0#5 (b.setWidth 5) 2#8).trans (by
    simp only [dec35, isV_wide, setWidth_4_5]
    rfl))
theorem sendvr (q : BitVec 3) (d : BitVec 5) (b : BitVec 4) : Statement (.sendvr q d b) :=
  of_raw rfl ((raw_35 q d 0#5 (b.setWidth 5) 3#8).trans (by
    simp only [dec35, isV_wide, setWidth_4_5]
    rfl))
theorem sendw (q : BitVec 3) (d b : BitVec 5) : Statement (.sendw q d b) := of_raw rfl (raw_35 q d 0#5 b 4#8)
theorem sendwr (q : BitVec 3) (d b : BitVec 5) : Statement (.sendwr q d b) := of_raw rfl (raw_35 q d 0#5 b 5#8)
theorem precv (q : BitVec 3) (d a : BitVec 5) : Statement (.precv q d a) := of_raw rfl (raw_36 q d a 0#5 0#8)
theorem pcancel (q : BitVec 3) (d a : BitVec 5) : Statement (.pcancel q d a) := of_raw rfl (raw_36 q d a 0#5 1#8)
theorem probe (q : BitVec 3) (d a : BitVec 5) : Statement (.probe q d a) := of_raw rfl (raw_36 q d a 0#5 2#8)
theorem uqtake (q : BitVec 3) (d a : BitVec 5) : Statement (.uqtake q d a) := of_raw rfl (raw_36 q d a 0#5 3#8)
theorem ctrget (q : BitVec 3) (d a : BitVec 5) : Statement (.ctrget q d a) := of_raw rfl (raw_37 q d a 0#5 0#8)
theorem ctrset (q : BitVec 3) (a b : BitVec 5) : Statement (.ctrset q a b) := of_raw rfl (raw_37 q 0#5 a b 1#8)
theorem ctradd (q : BitVec 3) (d a b : BitVec 5) : Statement (.ctradd q d a b) := of_raw rfl (raw_37 q d a b 2#8)
theorem ctrwait (q : BitVec 3) (d a b : BitVec 5) : Statement (.ctrwait q d a b) := of_raw rfl (raw_37 q d a b 3#8)
theorem ttset (q : BitVec 3) (d a : BitVec 5) : Statement (.ttset q d a) := of_raw rfl (raw_37 q d a 0#5 4#8)
theorem ttclr (q : BitVec 3) (d a : BitVec 5) : Statement (.ttclr q d a) := of_raw rfl (raw_37 q d a 0#5 5#8)
theorem spawn (q : BitVec 3) (d a b : BitVec 5) : Statement (.spawn q d a b) := of_raw rfl (raw_38 q d a b 0#8)
theorem spawnw (q : BitVec 3) (d a b : BitVec 5) : Statement (.spawnw q d a b) := of_raw rfl (raw_38 q d a b 1#8)
theorem take (q : BitVec 3) (d : BitVec 5) : Statement (.take q d) := of_raw rfl (raw_38 q d 0#5 0#5 2#8)
theorem steal (q : BitVec 3) (d a : BitVec 5) : Statement (.steal q d a) := of_raw rfl (raw_38 q d a 0#5 3#8)
theorem trun (q : BitVec 3) (d a : BitVec 5) : Statement (.trun q d a) := of_raw rfl (raw_38 q d a 0#5 4#8)
theorem tprio (q : BitVec 3) (d a b : BitVec 5) : Statement (.tprio q d a b) := of_raw rfl (raw_38 q d a b 5#8)
theorem mldb (q : BitVec 3) (a : BitVec 5) : Statement (.mldb q a) := of_raw rfl (raw_3B q 0#5 a 0#5 0#8)
theorem mpass (q : BitVec 3) (a : BitVec 5) : Statement (.mpass q a) := of_raw rfl (raw_3B q 0#5 a 0#5 1#8)
theorem mpop (q : BitVec 3) (d : BitVec 5) : Statement (.mpop q d) := of_raw rfl (raw_3B q d 0#5 0#5 2#8)
theorem mlda (q : BitVec 3) (d : BitVec 2) (a : BitVec 5) : Statement (.mlda q d a) :=
  of_raw rfl ((raw_3B q (d.setWidth 5) a 0#5 3#8).trans (by
    simp only [dec3B, lt4, setWidth_2_5, acc_high, acc_low]
    rfl))
theorem msta (q fm : BitVec 3) (acc : BitVec 2) (a b : BitVec 5) : Statement (.msta q fm acc a b) :=
  of_raw rfl ((raw_3B q (fm ++ acc) a b 4#8).trans (by
    simp only [dec3B, lt4, setWidth_2_5, acc_high, acc_low]
    rfl))
theorem mclr (q : BitVec 3) (d : BitVec 2) : Statement (.mclr q d) :=
  of_raw rfl ((raw_3B q (d.setWidth 5) 0#5 0#5 5#8).trans (by
    simp only [dec3B, lt4, setWidth_2_5, acc_high, acc_low]
    rfl))
theorem mburst (q : BitVec 3) (a : BitVec 5) : Statement (.mburst q a) := of_raw rfl (raw_3B q 0#5 a 0#5 6#8)
theorem mstat (q : BitVec 3) (d : BitVec 5) : Statement (.mstat q d) := of_raw rfl (raw_3B q d 0#5 0#5 7#8)
theorem cppush (q : BitVec 3) (d a : BitVec 5) : Statement (.cppush q d a) := of_raw rfl (raw_3C q d a 0#5 0#8)
theorem cppushb (q : BitVec 3) (d a : BitVec 5) : Statement (.cppushb q d a) := of_raw rfl (raw_3C q d a 0#5 1#8)
theorem cpwait (q : BitVec 3) (d a : BitVec 5) : Statement (.cpwait q d a) := of_raw rfl (raw_3C q d a 0#5 2#8)
theorem cpstat (q : BitVec 3) (d a : BitVec 5) : Statement (.cpstat q d a) := of_raw rfl (raw_3C q d a 0#5 3#8)
theorem cpabort (q : BitVec 3) (d a : BitVec 5) : Statement (.cpabort q d a) := of_raw rfl (raw_3C q d a 0#5 4#8)
theorem posget (q : BitVec 3) (d : BitVec 5) : Statement (.posget q d) := of_raw rfl (raw_3D q d 0#5 0#5 0#8)
theorem lidget (q : BitVec 3) (d a : BitVec 5) : Statement (.lidget q d a) := of_raw rfl (raw_3D q d a 0#5 1#8)
theorem whereLid (q : BitVec 3) (d a : BitVec 5) : Statement (.whereLid q d a) := of_raw rfl (raw_3D q d a 0#5 2#8)
theorem anchor (q : BitVec 3) (d : BitVec 5) : Statement (.anchor q d) := of_raw rfl (raw_3D q d 0#5 0#5 3#8)
theorem unanchor (q : BitVec 3) (d : BitVec 5) : Statement (.unanchor q d) := of_raw rfl (raw_3D q d 0#5 0#5 4#8)
theorem migreq (q : BitVec 3) (d a : BitVec 5) : Statement (.migreq q d a) := of_raw rfl (raw_3D q d a 0#5 5#8)
theorem chtraf (q : BitVec 3) (d a : BitVec 5) : Statement (.chtraf q d a) := of_raw rfl (raw_3D q d a 0#5 6#8)
theorem annget (q : BitVec 3) (d a : BitVec 5) : Statement (.annget q d a) := of_raw rfl (raw_3D q d a 0#5 7#8)
theorem annset (q : BitVec 3) (d a b : BitVec 5) : Statement (.annset q d a b) := of_raw rfl (raw_3D q d a b 8#8)
theorem sysc (q : BitVec 3) (a : BitVec 5) : Statement (.sysc q a) := of_raw rfl (raw_3E q 0#5 a 0#5 0#8)
theorem brk (q : BitVec 3) (b : BitVec 5) : Statement (.brk q b) := of_raw rfl (raw_3E q 0#5 0#5 b 1#8)
theorem tret (q : BitVec 3) (d a b : BitVec 5) : Statement (.tret q d a b) := of_raw rfl (raw_3E q d a b 2#8)
theorem trget (q : BitVec 3) (d a : BitVec 5) : Statement (.trget q d a) := of_raw rfl (raw_3E q d a 0#5 3#8)
theorem ctxsave (q : BitVec 3) (d a : BitVec 5) : Statement (.ctxsave q d a) := of_raw rfl (raw_3E q d a 0#5 4#8)
theorem ctxload (q : BitVec 3) (d a : BitVec 5) : Statement (.ctxload q d a) := of_raw rfl (raw_3E q d a 0#5 5#8)
theorem glaunch (q : BitVec 3) (d a : BitVec 5) : Statement (.glaunch q d a) := of_raw rfl (raw_3E q d a 0#5 6#8)
theorem bankcfg (q : BitVec 3) (d a : BitVec 5) : Statement (.bankcfg q d a) := of_raw rfl (raw_3E q d a 0#5 7#8)
theorem tlbinv (q : BitVec 3) (d a b : BitVec 5) : Statement (.tlbinv q d a b) := of_raw rfl (raw_3E q d a b 8#8)
theorem dump (q : BitVec 3) (d a b : BitVec 5) : Statement (.dump q d a b) := of_raw rfl (raw_3E q d a b 9#8)
theorem halt (q : BitVec 3) : Statement (.halt q) := of_raw rfl (raw_3E q 0#5 0#5 0#5 10#8)
theorem svsend (q : BitVec 3) (d a : BitVec 5) : Statement (.svsend q d a) := of_raw rfl (raw_3E q d a 0#5 11#8)

end Laws.EncodeRoundTrip

end Sys2Proof
end

