-- ==== Sys2Proof/Tests/Slice0.lean ====
section
/-! SUPPORT. Tests: an ill-formed instruction for each check of well-formedness, words of every family written out from the
encodings of the spec, a small state for the hypotheses of every statement, and one-step values of the spec's own examples. -/

namespace Sys2Proof
open Machine

/-! ### Well-formedness: an ill-formed term for each check (R54, R66, R95, R121, R125, R140, R146, R198, R294, R383) -/

theorem test_wf_smoke : (Instr.add 0 5 6 7).wf = true ∧ (Instr.cmp 0 1 2 0 0 3 4).wf = true ∧ (Instr.trget 0 28 6).wf = true := by decide

theorem test_wf_rounding : [Instr.fma 0 0 5 1 2 3, .fms 0 1 6 1 2 3, .fnma 0 2 5 1 2 3, .fnms 0 3 6 1 2 3, .fcvt 0 0 4 5 1 2].all
    (fun i => !i.wf) = true := by decide

theorem test_wf_same_predicates : [Instr.cmp 0 3 3 0 0 1 2, .cmpi 0 3 3 1 0 1 2, .fcmpd 0 3 3 1 0 1 2, .fcmps 0 3 3 0 0 1 2,
    .fcmpd 0 1 2 0 7 1 2, .fcmps 0 1 2 0 7 1 2, .fcvt 0 4 5 0 1 2, .ktest 0 2 1 2].all (fun i => !i.wf) = true := by decide

theorem test_wf_lanes : [Instr.vsqrt 0 2 1 2 0, .vminu 0 6 1 2 3 0, .vmaxu 0 4 1 2 3 0, .vshl 0 7 1 2 3 0, .vshra 0 5 1 2 3 0,
    .vshrl 0 6 1 2 3 0, .vext 0 6 1 1 2 3, .vredn 0 6 2 1 2 0, .vredx 0 7 1 2 0, .vcvt 0 0 0 3 1 2, .vcvt 0 0 2 1 1 2,
    .vcmp 0 1 2 3 6 4 0, .vcmp 0 1 2 3 2 6 0].all (fun i => !i.wf) = true := by decide

theorem test_wf_numbers : [Instr.gets 0 5 0x001, .puts 0 0x018 5, .mondis 0 5, .cppush 0 1 0, .cppush 0 1 29, .cppushb 0 1 0, .trget 0 0 1,
    .trget 0 29 1].all (fun i => !i.wf) = true := by decide

theorem test_wf_cores : [Instr.threadResume 3072 0, .threadResume 0 12, .tripWrite 3072 0, .sensorUpdate 3072 0,
    .waitmTimeout 0 0 12].all (fun i => !i.wf) = true := by decide

/-! ### Decoding words that the spec writes out, family by family (the examples of the tables of spec 02 to 19; where a table has no
example, the fields of Table 2.10 in place) -/

theorem test_decode_alu : decodeWord 0x0094C700#32 = some (.add 0 5 6 7) ∧ decodeWord 0x0094C715#32 = some (.lea3 0 5 6 7) ∧
    decodeWord 0x00F3830F#32 = some (.min 0 28 28 3) := by decide

theorem test_decode_muldiv_bits : decodeWord 0x01454900#32 = some (.mul 0 17 10 9) ∧ decodeWord 0x0194C70C#32 = some (.extu 0 5 6 7) := by decide

theorem test_decode_immediates : decodeWord 0x6294DFFC#32 = some (.addi 3 5 6 0x1FFC) ∧ decodeWord 0x0314BFF0#32 = some (.andi 0 5 5 0x1FF0) ∧
    decodeWord 0x04DAA430#32 = some (.srli 0 22 21 48) ∧ decodeWord 0x0514DEF0#32 = some (.movi 0 5 0xDEF0) ∧
    decodeWord 0x05A10007#32 = some (.movk 0 8 1 7) := by decide

theorem test_decode_compares : decodeWord 0x061010C8#32 = some (.cmp 0 1 0 0 2 3 4) ∧ decodeWord 0x0694417F#32 = some (.cmpi 0 1 2 1 0 5 0x3F) ∧
    decodeWord 0x06D03704#32 = some (.cmpi 0 5 0 0 6 28 4) := by decide

theorem test_decode_status : decodeWord 0x07140005#32 = some (.gets 0 5 0x005) ∧ decodeWord 0x07013000#32 = some (.puts 0 0x000 9) := by decide

theorem test_decode_branches : decodeWord 0x087FFFFD#32 = some (.br 0 1 0x3FFFFD) ∧ decodeWord 0x0880000A#32 = some (.brl 0 0 10) ∧
    decodeWord 0x09002000#32 = some (.jr 0 0 1) ∧ decodeWord 0x09002080#32 = some (.jr 0 1 1) ∧ decodeWord 0x0904A001#32 = some (.jrl 0 0 1 5) ∧
    decodeWord 0x09A81FFE#32 = some (.bdec 0 10 0x1FFE) := by decide

/-- RPT with n 7, len 0, stag 1, mask 0b001: 0x14 << 23, 7 << 17, 1 << 10, 1 << 7 (Table 2.10). -/
theorem test_decode_rpt : decodeWord 0x0A0E0480#32 = some (.rpt 0 7 0 1 1) ∧ decodeWord 0x0B000000#32 = some (.iflush 0) := by decide

theorem test_decode_threads : decodeWord 0x0A94C700#32 = some (.hstart 0 5 6 7) ∧ decodeWord 0x0A814001#32 = some (.hend 0 10) ∧
    decodeWord 0x0A94C002#32 = some (.hjoin 0 5 6) ∧ decodeWord 0x0A94C003#32 = some (.hstat 0 5 6) ∧ decodeWord 0x0A94C004#32 = some (.hkill 0 5 6) := by decide

theorem test_decode_float : decodeWord 0x0C044300#32 = some (.fadd 0 0 1 2 3) ∧ decodeWord 0x0C10A643#32 = some (.fdiv 0 1 4 5 6) ∧
    decodeWord 0x0C04A04D#32 = some (.fmvxf 0 1 1 5) ∧ decodeWord 0x0C844347#32 = some (.fma 0 1 7 1 2 3) ∧
    decodeWord 0x0C9D0931#32 = some (.fnms 0 0 1 7 8 9) ∧ decodeWord 0x0E14C130#32 = some (.fcvt 0 4 1 1 5 6) ∧
    decodeWord 0x0E844085#32 = some (.frcp 0 1 1 2) := by decide

/-- FCMPD p1, p2 of f3 and f4: 0x1A << 23, 1 << 20, 2 << 17, 3 << 6, 4 << 1; XADDV of the pair 1 with v2 and fm3: 0x1E << 23, pair 1 at
bit 19, 2 << 13, 3 << 8, minor 1. -/
theorem test_decode_fcmp_xacc : decodeWord 0x0D1400C8#32 = some (.fcmpd 0 1 2 0 0 3 4) ∧ decodeWord 0x0F084301#32 = some (.xaddv 0 1 2 3) := by decide

theorem test_decode_vector : decodeWord 0x10464300#32 = some (.vadd 0 6 1 2 3 0) ∧ decodeWord 0x1050A61A#32 = some (.vfma 0 4 4 5 6 2) ∧
    decodeWord 0x101F0993#32 = some (.vsel 0 2 7 8 9 3) ∧ decodeWord 0x15848001#32 = some (.vld 0 1 4 0 1) ∧
    decodeWord 0x15C48800#32 = some (.vst 0 1 4 2 0) := by decide

/-- VCMP kd 1, v2, v3, type 2, cnd 1, kg 4: 0x22 << 23, 1 << 20, 2 << 16, 3 << 12, 2 << 9, 1 << 6, 4 << 3; KAND k1, k2, k3: 0x23 << 23, 1 << 18,
2 << 13, 3 << 8; VBCAST v1, x5, type 3, k2: 0x21 << 23, 1 << 18, 5 << 13, 2 << 8, 3 << 5; VQNT v1 from pair 2, group 1, fm3: 0x24 << 23. -/
theorem test_decode_vector_fields : decodeWord 0x11123460#32 = some (.vcmp 0 1 2 3 2 1 4) ∧ decodeWord 0x11844300#32 = some (.kand 0 1 2 3) ∧
    decodeWord 0x1084A260#32 = some (.vbcast 0 3 1 5 2) ∧ decodeWord 0x12056200#32 = some (.vqnt 0 1 1 3 2) := by decide

theorem test_decode_memory : decodeWord 0x14204C10#32 = some (.ldd 0 8 2 16) ∧ decodeWord 0x14149BFC#32 = some (.ldwu 0 5 4 0x3FC) ∧
    decodeWord 0x14A44C08#32 = some (.std 0 9 2 8) ∧ decodeWord 0x14968804#32 = some (.stw 0 5 20 4) ∧ decodeWord 0x150C8818#32 = some (.fldd 0 3 4 24) ∧
    decodeWord 0x1694C000#32 = some (.lda 0 5 6 0) ∧ decodeWord 0x169CC400#32 = some (.stl 0 7 6 0) ∧ decodeWord 0x16800800#32 = some (.fence 0) ∧
    decodeWord 0x1684CD00#32 = some (.pref 0 1 6 0x100) ∧ decodeWord 0x1680D000#32 = some (.cwb 0 6 0) ∧ decodeWord 0x1680D400#32 = some (.cinv 0 6 0) := by decide

/-- VLDS v1, x2, x3, size 2, k1: 0x2E << 23, 1 << 18, 2 << 13, 3 << 8, 2 << 3, 1; STF x5, [x6]: 0x2C << 23, 5 << 18, 6 << 13, 2 << 10. -/
theorem test_decode_strided_tags : decodeWord 0x17044311#32 = some (.vlds 0 1 2 3 2 1) ∧ decodeWord 0x1614C800#32 = some (.stf 0 5 6 0) := by decide

theorem test_decode_atomics : decodeWord 0x1814C70A#32 = some (.aadd 0 1 1 5 6 7) ∧ decodeWord 0x1814C78C#32 = some (.aswp 0 1 2 5 6 7) ∧
    decodeWord 0x1814C790#32 = some (.afadd 0 0 0 5 6 7) ∧ decodeWord 0x1814C7A8#32 = some (.acas 0 1 0 5 6 7) ∧
    decodeWord 0x18288CBE#32 = some (.acas2 0 3 5 4 6) ∧ decodeWord 0x1894C200#32 = some (.monarm 0 5 6 2) ∧
    decodeWord 0x18800201#32 = some (.mondis 0 2) ∧ decodeWord 0x389D2002#32 = some (.waitm 1 7 9) ∧ decodeWord 0x18940003#32 = some (.monst 0 5) := by decide

theorem test_decode_barriers : decodeWord 0x1900A300#32 = some (.bararr 0 5 3) ∧ decodeWord 0x19000301#32 = some (.barwait 0 3) ∧
    decodeWord 0x19030102#32 = some (.barsync 0 24 1) ∧ decodeWord 0x1900A703#32 = some (.bardef 0 5 7) ∧ decodeWord 0x19180304#32 = some (.barst 0 6 3) := by decide

theorem test_decode_channels : decodeWord 0x1A14C000#32 = some (.chopen 0 5 6) ∧ decodeWord 0x1A022001#32 = some (.chclose 0 17) ∧
    decodeWord 0x1A1CA002#32 = some (.chinfo 0 7 5) ∧ decodeWord 0x1AA08700#32 = some (.send 0 8 4 7) ∧ decodeWord 0x1A94C701#32 = some (.sendr 0 5 6 7) ∧
    decodeWord 0x1A940302#32 = some (.sendv 0 5 3) ∧ decodeWord 0x1AC81C04#32 = some (.sendw 0 18 28) := by decide

theorem test_decode_receives : decodeWord 0x1B1CC000#32 = some (.precv 0 7 6) ∧ decodeWord 0x1B14C001#32 = some (.pcancel 0 5 6) ∧
    decodeWord 0x1B14C002#32 = some (.probe 0 5 6) ∧ decodeWord 0x1B14C003#32 = some (.uqtake 0 5 6) := by decide

theorem test_decode_counters_tasks : decodeWord 0x1B80C701#32 = some (.ctrset 0 6 7) ∧ decodeWord 0x1B812902#32 = some (.ctradd 0 0 9 9) ∧
    decodeWord 0x1B94C703#32 = some (.ctrwait 0 5 6 7) ∧ decodeWord 0x1B94C004#32 = some (.ttset 0 5 6) ∧ decodeWord 0x1C1F2C00#32 = some (.spawn 0 7 25 12) ∧
    decodeWord 0x1C1C0002#32 = some (.take 0 7) ∧ decodeWord 0x1C1EE003#32 = some (.steal 0 7 23) ∧ decodeWord 0x1C14C004#32 = some (.trun 0 5 6) := by decide

theorem test_decode_matrix : decodeWord 0x1D463B86#32 = some (.mma 0 2 6 7 3 4 3) ∧ decodeWord 0x1D242A41#32 = some (.mmaz 0 1 4 5 2 2 0) ∧
    decodeWord 0x1D80C000#32 = some (.mldb 0 6) ∧ decodeWord 0x1D84C003#32 = some (.mlda 0 1 6) ∧ decodeWord 0x5DA50904#32 = some (.msta 2 2 1 8 9) ∧
    decodeWord 0x7D880005#32 = some (.mclr 3 2) := by decide

theorem test_decode_copy_placement : decodeWord 0x1E268000#32 = some (.cppush 0 9 20) ∧ decodeWord 0x1E18A002#32 = some (.cpwait 0 6 5) ∧
    decodeWord 0x1ED40000#32 = some (.posget 0 21) ∧ decodeWord 0x1EA56002#32 = some (.whereLid 0 9 11) ∧ decodeWord 0x7EA40003#32 = some (.anchor 3 9) ∧
    decodeWord 0x1EA4A708#32 = some (.annset 0 9 5 7) := by decide

theorem test_decode_system : decodeWord 0x1F014000#32 = some (.sysc 0 10) ∧ decodeWord 0x1F000301#32 = some (.brk 0 3) ∧
    decodeWord 0x1F14C702#32 = some (.tret 0 5 6 7) ∧ decodeWord 0x1F50C003#32 = some (.trget 0 20 6) ∧ decodeWord 0x1F14C004#32 = some (.ctxsave 0 5 6) ∧
    decodeWord 0x1F14C006#32 = some (.glaunch 0 5 6) ∧ decodeWord 0x1F14C708#32 = some (.tlbinv 0 5 6 7) ∧ decodeWord 0x1F00000A#32 = some (.halt 0) ∧
    decodeWord 0x1F14C00B#32 = some (.svsend 0 5 6) := by decide

/-- Words that are not defined: zeros, a major that is not there, a field that must be zero, a reserved rounding code (R66). -/
theorem test_decode_undefined : decodeWord 0#32 = none ∧ decodeWord 0x07800000#32 = none ∧ decodeWord 0x0A000001#32 = none ∧
    decodeWord 0x0C844345#32 = none := by decide

/-! ### Small states -/

/-- Process 0 of group 1 on core 0, its control thread in focus at 0x1000. -/
def w0 : State :=
  let t : Thread := { live := true, pc := 0x1000 }
  let p : Proc := { gid := 1, lid := 0, gsize := 4, rw := 2, rh := 2, winsize := 16384 }
  { State.reset with core := { occupied := true, proc := p, slots := (Vector.replicate 12 {}).set 0 t } }

/-- The same, its thread changed. -/
def wT (f : Thread → Thread) : State := w0.setThr (f w0.thr)

/-- The same, with a value in x6 and one in x7. -/
def wX (a b : Word) : State := wT (fun t => (t.wx 6 a).wx 7 b)

/-- The same, its process changed. -/
def wP (s : State) (f : Proc → Proc) : State := s.setProc (f s.proc)

/-- Slot 11 in focus, with a value in x6 and one in x7. -/
def w11 (a b : Word) : State :=
  let s : State := { w0 with slot := 11 }
  s.setThr ((({ live := true, pc := 0x1000 } : Thread).wx 6 a).wx 7 b)

/-- Every slot of slots 1 to 10 taken by a thread. -/
def wFull : State := { w0 with core := { w0.core with slots := vmap (fun t => { t with live := true, pc := 0x1000 }) w0.core.slots } }

/-- A word at the place of the next fetch, and one behind it. -/
def wCode (w v : IWord) : State :=
  let s := State.reset.withFetchWord 32 w.toNat
  { s with mem := Memory.write s.mem 0x40004 4 v.toNat }

/-- A helper in slot 3 with a trap outstanding. -/
def trapRec : TrapRec := ({ pc := 0x2000 } : Thread).record 3 0x01 0 0

/-- Slot 11 in focus, slot 3 trapped. -/
def wTrapped (a b : Word) (fr : Option Frame) : State :=
  (w11 a b).setThrAt 0 3 { live := true, pc := 0x2000, trap := some trapRec, wait := some .trap, frame := fr }

/-- A frame of two words, open at the second. -/
def fr2 : Frame := { base := 0x1000, pass := 1, posn := 1, n := 3, len := 1, stag := 0, mask := 0, words := [0x0094C700#32, 0x0094A800#32], retest := false }

/-! ### Witnesses: each statement with hypotheses, the hypotheses of its clauses met by small states, at the ends of their ranges -/

theorem wit_DecodeOfEncode : (Instr.add 7 31 31 31).isWord = true ∧ (Instr.add 7 31 31 31).wf = true ∧ (Instr.trget 0 28 31).wf = true := by decide

theorem wit_EncodeOfDecode : decodeWord 0xFFFFFC15#32 = none ∧ decodeWord 0xE0FFFF00#32 = some (.add 7 31 31 31) := by decide

theorem wit_StepRunsDecoded :
    let s := wCode 0x0094C700#32 0#32
    s.redo = [] ∧ s.agenda = [] ∧ s.todo = [0] ∧ ∃ s0, s0 = ({ s with todo := [] } : State).focusSlot 0 (s.cycle % 12) ∧ s0.turnOf = .issue ∧
      s0.issue = .word 0x0094C700#32 (some 0x40000) ∧ s0.stopNow = none ∧
      (vectorMajor 0x0094C700#32 && (s0.withWord 0x0094C700#32 (some 0x40000)).vectorHeld) = false ∧ decodeWord 0x0094C700#32 = some (.add 0 5 6 7) := by
  exact ⟨rfl, rfl, rfl, _, rfl, by decide +kernel⟩

theorem wit_BranchesAndJumps : w0.rp 0 = true ∧ w0.rp 1 = false ∧ (w0.rx 5).toNat % 4 = 0 ∧ ((wX 0x1002 0).rx 6).toNat % 4 = 2 := by decide

theorem wit_RepeatFrames : w0.rp 1 = false ∧ w0.rp 0 = true ∧ (decodeFrameWord 0x0094A800#32).isSome = true ∧
    (wCode 0x0A000000#32 0x0094A800#32).fetch false 4 1 = .word 0x0094A800#32 0x40004 ∧
    (wCode 0x0A000000#32 0#32).fetch false 4 1 = .word 0#32 0x40004 ∧ decodeFrameWord 0#32 = none ∧
    w0.fetch false (0xFFFF000000000000 + 4) 1 = .fault .protect := by decide +kernel

theorem wit_FrameCursor : w0.thr.frame = none ∧ ({ fr2 with posn := 0 } : Frame).posn < fr2.len ∧ (fr2.len ≤ fr2.posn ∧ fr2.pass < fr2.n) ∧
    (fr2.len ≤ ({ fr2 with pass := 3 } : Frame).posn ∧ fr2.n ≤ ({ fr2 with pass := 3 } : Frame).pass) := by decide

theorem wit_StatusReads : w0.core.occupied = true ∧ w0.proc.rx ≤ coreX w0.here ∧ w0.proc.ry ≤ coreY w0.here ∧ coreY w0.here < 256 ∧
    (w11 0 0).slot.val = 11 ∧ (w11 0 0).core.occupied = true ∧ w0.core.rhsel = (0 : Fin 13).val ∧ w0.proc.uqbase < 2 ^ 18 ∧
    w0.proc.uqsize < 2 ^ 18 ∧ w0.proc.uq.length < 2 ^ 12 := by decide

/-- A state whose histogram selector names no bucket, and one of slot 11 whose TXSEL selects a thread with a trap outstanding. -/
theorem wit_StatusReads2 :
    13 ≤ ({ w0 with core := { w0.core with rhsel := 13 } } : State).core.rhsel ∧
    (let s := (w11 0 0).setThrAt (w11 0 0).here 0 { (w11 0 0).core.thr 0 with trap := some default }
     s.slot.val = 11 ∧ s.core.occupied = true ∧ s.core.txsel.toNat % 16 < 12 ∧ (s.core.thr (s.core.txsel.toNat % 16)).trap.isSome = true) ∧
    ((w11 0 0).core.thr ((w11 0 0).core.txsel.toNat % 16)).trap = none := by decide

theorem wit_StatusWrites : w0.core.occupied = true ∧ w0.rp 0 = true ∧ (w11 5 0).slot.val = 11 ∧ (w11 5 0).rp 0 = true ∧
    (0x045#12).toNat ∈ [0x002, 0x045] ∧ (0x830#12).toNat ∈ [0x800, 0x813, 0x821, 0x830] := by decide

theorem wit_WhereWordsTrap : (0x001#12).toNat < 0x800 ∧ ¬ (2 ≤ (0x001#12).toNat) ∧ 0x7FF < (0x800#12).toNat ∧ w0.slot.val ≠ 11 ∧ (w11 0 0).slot.val = 11 ∧
    (0xFFF#12).toNat ∉ [0x800, 0x830] ∧ w0.rp 0 = true ∧ (w0.rx 6).toNat = 0 ∧ 10 < ((wX 11 0).rx 6).toNat ∧ (w11 0 0).rp 0 = true ∧
    (wT (fun t => { t with task := true })).thr.task = true ∧ 11 < ((wX 12 0).rx 6).toNat ∧
    ((wP (wX 2 0) (fun p => { p with bars := p.bars.set 3 { tgt := 4, arr := 1 } })).proc.bar 3).tgt = 4 := by decide

theorem wit_TakingATrap : w0.thr.frame = none ∧ (wT (fun t => { t with frame := some fr2 })).thr.frame = some fr2 ∧ (w11 0 0).slot.val = 11 := by decide

theorem wit_SystemCalls : w0.rp 1 = false ∧ w0.rp 0 = true ∧ w0.slot.val ≠ 11 ∧ (w11 0 0).slot.val = 11 ∧ (w11 0 0).rp 0 = true := by decide

theorem wit_TrapRecords :
    let s := w11 5 0
    (s.slot.val = 11 ∧ s.rp 0 = true ∧ s.core.trapQ = [] ∧ s.rx 6 ≠ 0 ∧ s.rx 6 ≠ BitVec.allOnes 64 ∧ s.thr.intr = false) ∧
    (w11 0 0).rx 6 = 0 ∧ (w11 (BitVec.allOnes 64) 0).rx 6 = BitVec.allOnes 64 ∧
    ({ s with core := { s.core with trapQ := [trapRec] } } : State).core.trapQ = trapRec :: [] ∧
    (1 ≤ (1#5).toNat ∧ (28#5).toNat ≤ 28) ∧ trapRec.code < 256 ∧ trapRec.slot < 16 ∧ trapRec.src < 8 ∧ trapRec.pass < 64 ∧ trapRec.posn < 16 ∧
    trapRec.cause < 256 ∧ (0#5).toNat < (1#5).toNat ∧ (28#5).toNat + 3 = (31#5).toNat ∧ (1#5).toNat + 3 < (5#5).toNat := by decide

theorem wit_TrapsAreAnswered :
    ((wTrapped 3 0 none).slot.val = 11 ∧ (wTrapped 3 0 none).rp 0 = true ∧ ((wTrapped 3 0 none).rx 6).toNat = 3 ∧
      ((wTrapped 3 0 none).core.thr 3).trap = some trapRec ∧ ((wTrapped 3 0 none).core.thr 3).kpend = false) ∧
    (((w11 10 0).rx 6).toNat = 10 ∧ ((w11 10 0).core.thr 10).trap = none) ∧
    (((wTrapped 67 0 (some fr2)).rx 6).toNat = 64 + 3 ∧ ((wTrapped 67 0 (some fr2)).core.thr 3).frame = some fr2) ∧
    (((wTrapped 195 0x2004 none).rx 6).toNat = 192 + 3 ∧ ((wTrapped 195 0x2004 none).rx 7).toNat % 4 = 0) ∧
    10 < ((w11 11 0).rx 6).toNat % 16 ∧ ((w11 48 0).rx 6).toNat / 16 % 4 = 3 ∧ ((w11 256 0).rx 6).toNat / 2 ^ 8 % 2 ^ 24 ≠ 0 := by decide

/-- The hypotheses of `OwnData`, checked. -/
def ownOk (s : State) (ea : Word) (n : Nat) : Bool :=
  s.core.occupied && !s.proc.ended && ea.toNat / 2 ^ 48 == 0xFFFF && decide (ea.toNat % 2 ^ 48 + n ≤ s.proc.winsize) && decide (0 < n) &&
  ea.toNat % n == 0 && s.thr.storeQ.isEmpty && (s.awayIn (s.ownPlace ea) n).isNone && !s.isBad (s.ownPlace ea) n

theorem own_of {s : State} {ea : Word} {n : Nat} (h : ownOk s ea n = true) : OwnData s ea n := by
  simp only [ownOk, Bool.and_eq_true, Bool.not_eq_true', decide_eq_true_eq, beq_iff_eq, List.isEmpty_iff, Option.isNone_iff_eq_none] at h
  obtain ⟨⟨⟨⟨⟨⟨⟨⟨h1, h2⟩, h3⟩, h4⟩, h5⟩, h6⟩, h7⟩, h8⟩, h9⟩ := h
  exact ⟨h1, h2, h3, h4, h5, h6, h7, h8, h9⟩

theorem can_of {s : State} (h : (s.proc.win.wf && s.others.all (fun e => e.1 != s.here)) = true) : Canonical s := by
  simp only [Bool.and_eq_true, List.all_eq_true, bne_iff_ne] at h
  exact ⟨h.1, h.2⟩

/-- The first and the last dword of the own window of `w0`. -/
abbrev adr0 : Word := 0xFFFF000000000000
abbrev adrL : Word := 0xFFFF000000003FF8

theorem wit_HelpersStart :
    (w0.rp 0 = true ∧ w0.slot.val = 0 ∧ ((wX 0x1004 0).rx 6).toNat % 4 = 0 ∧ w0.slotFree w0.cycle 1 = true) ∧
    (∀ j, 1 ≤ j → j < 1 → w0.slotFree w0.cycle j = false) ∧
    ((List.range 11).all (fun j => j == 0 || !(wFull.slotFree wFull.cycle j)) = true ∧ wFull.slot.val = 0 ∧ wFull.rp 0 = true) ∧
    ((wX 0x1003 0).rx 6).toNat % 4 ≠ 0 ∧ (w11 0 0).slot.val ≠ 0 ∧ (w11 0 0).rp 0 = true :=
  ⟨by decide, fun j h k => by omega, by decide⟩

theorem wit_ThreadsEnd :
    (w0.slot.val ≠ 11 ∧ w0.thr.storeQ = [] ∧ w0.thr.wait = none) ∧ (wT (fun t => { t with storeQ := [{}] })).thr.storeQ ≠ [] ∧
    ((w0.setThrAt 0 10 { live := true, wait := some (.hjoin 5 0) }).core.slots[(10 : Fin 12)].wait = some (.hjoin 5 w0.slot.val)) ∧
    (w0.rp 0 = true ∧ (wX 10 0).rx 6 = BitVec.ofNat 64 10 ∧ ((wX 10 0).core.thr 10).live = false ∧ ((wX 10 0).core.thr 10).trap = none) ∧
    (((wX 1 0).setThrAt 0 1 { live := true }).core.thr 1).live = true ∧ (((wX 1 0).setThrAt 0 1 { live := true }).core.thr 1).wait = none := by decide

theorem wit_Barriers :
    (((wX 11 0).rx 6).toNat = 11 ∧ ((wX 11 0).proc.bar 31).tgt = 0 ∧ ((wX 11 0).proc.bar 31).arr + 1 ≠ 11 ∧ (wX 11 0).thr.storeQ = []) ∧
    (((wX 1 0).rx 6).toNat = 1 ∧ ((wX 1 0).proc.bar 0).arr + 1 = 1 ∧ (wX 1 0).proc.hold = none ∧ (wX 1 0).thr.wait = none ∧ (wX 1 0).thr.task = false) ∧
    ((wP (wX 3 0) (fun p => { p with bars := p.bars.set 2 { tgt := 3, arr := 2 } })).proc.bar 2 = { tgt := 3, arr := 2 }) ∧
    (w0.thr.bar 3 = .none ∧ (wT (fun t => t.setBar 3 .passed)).thr.bar 3 = .passed ∧ (wT (fun t => t.setBar 3 .arrived)).thr.bar 3 = .arrived) ∧
    ((wT (fun t => { t.wx 6 4 with storeQ := [{}] })).thr.storeQ ≠ [] ∧ w0.proc.defs = []) := by decide

theorem wit_Counters :
    (w0.rp 0 = true ∧ w0.thr.wait = none ∧ w0.proc.hold = none) ∧
    (w0.setThrAt 0 2 { live := true, wait := some (.ctrwait 5 63 4) }).core.slots[(2 : Fin 12)].wait = some (.ctrwait 5 63 4) ∧
    (w0.ctr 63 = 1#32 + BitVec.ofNat 32 (2 ^ 32 - 1) ∧ w0.ctr 63 = BitVec.ofNat 32 (2 ^ 31) + BitVec.ofNat 32 (2 ^ 31)) ∧
    w0.ctr 0 = BitVec.ofNat 32 (2 ^ 31 + 1) + BitVec.ofNat 32 (2 ^ 31 - 1) := by decide

/-- A record at the last 32 bytes of the own window: PC 0x40, counter 63, priority 3. -/
def wRec : State :=
  let m := Memory.write (Memory.write (Memory.write [] 0x3FE0 8 0x40) 0x3FF4 1 63) 0x3FF5 1 3
  wP (wX 0xFFFF000000003FE0 3) (fun p => { p with win := m })

theorem wit_TaskTable :
    OwnData wRec (wRec.rx 6) 32 ∧ (wRec.rp 0 = true ∧ wRec.thr.ready = 0 ∧ wRec.thr.got = []) ∧
    (Memory.read wRec.proc.win 0x3FE0 8 % 4 = 0 ∧ Memory.read wRec.proc.win 0x3FF4 1 ≤ 63 ∧ Memory.read wRec.proc.win 0x3FF5 1 ≤ 3 ∧
      Memory.read wRec.proc.win 0x3FF6 10 = 0) ∧
    wRec.proc.ttEnt 0 = none ∧
    (let e : TtEnt := { pc := 0, arg := 0, thr := 0, ctr := 0, prio := 0 }
     (List.range 16).all (fun j => (wP wRec (fun p => { p with tt := Vector.replicate 16 (some e) })).proc.ttEnt j != none) = true) ∧
    wRec.proc.rq.length + wRec.proc.rqRes < 16 ∧ 16 ≤ (wP wRec (fun p => { p with rqRes := 16 })).proc.rqRes ∧
    ((wX 15 3).rx 6).toNat ≤ 15 ∧ ((wX 15 3).rx 7).toNat ≤ 3 ∧ (wX 15 3).proc.ttEnt 15 = none :=
  ⟨own_of (by decide), by decide, by decide +kernel, by decide⟩

/-- An own deque at 0x100 of the window: TOP 0, BOTTOM `n`, base 0x1000, 16 entries, priority 2. -/
def wDeque (n : Nat) : State :=
  let m := Memory.write (Memory.write [] 0x110 8 n) 0x118 8 (0x1000 + 4 * 2 ^ 20 + 2 * 2 ^ 24)
  wP (wX 0x40 3) (fun p => { p with dqbase := 0x100, win := m })

/-- It as the instructions read it. -/
def deq (n : Nat) : Deque := { dq := 0x100, top := 0, bottom := n, base := 0x1000, cap := 16, prio := 2 }

theorem wit_Deques :
    ((wDeque 1).ownDeque 0x100 = some (deq 1) ∧ (1 + 2 ^ 64 - 0) % 2 ^ 64 = 1 ∧ (deq 1).base + 16 * 0 + 16 ≤ 2 ^ 62 ∧ (deq 1).dq + 32 ≤ (deq 1).base + 16 * (0 % 16) ∧
      (wDeque 1).proc.tt.toList.all (fun x => (x.bind (·.trig)).isNone) = true ∧ (wDeque 1).others = [] ∧ (wDeque 0).proc.win.wf = true ∧
      (List.range 12).all (fun j => ((wDeque 1).core.thr j).amo.isNone) = true) ∧
    (let e : Deque := { deq 0 with bottom := 5 }
     e.base + 16 * (5 % e.cap) + 16 ≤ 2 ^ 62 ∧ e.dq + 32 ≤ e.base + 16 * (5 % e.cap) ∧ Memory.read (wDeque 1).proc.win e.dq 8 ≠ 5 ∧
      Memory.read (wP (wDeque 1) (fun p => { p with win := Memory.write p.win 0x100 8 5 })).proc.win e.dq 8 = 5) ∧
    ((wDeque 0).ownDeque 0x100 = some (deq 0) ∧ (wDeque 16).ownDeque 0x100 = some (deq 16) ∧ (wDeque 2).ownDeque 0x100 = some (deq 2)) ∧
    ((wDeque 0).rp 0 = true ∧ (wDeque 0).thr.ready = 0 ∧ (wDeque 0).thr.got = [] ∧ (wDeque 0).thr.storeQ = [] ∧ (wDeque 0).thr.desc = none ∧ (wDeque 0).units = [] ∧
      (wDeque 0).bad = [] ∧ (wDeque 0).watches = [] ∧ (wDeque 0).core.occupied = true ∧ (deq 0).dq = (wDeque 0).proc.dqbase.toNat) ∧
    (((wDeque 0).rx 6).toNat % 4 = 0 ∧ (deq 16).bottom - (deq 16).top = (deq 16).cap ∧ 0x100 + 32 ≤ (deq 2).base + 16 * 1) ∧
    ((wDeque 0).proc.rq.length + (wDeque 0).proc.rqRes < 16) ∧
    ((wX 4 0).proc.gsize ≤ ((wX 4 0).rx 6).toNat ∧ ((wX 3 0).rx 6).toNat < (wX 3 0).proc.gsize ∧ ((wX 3 0).rx 6).toNat ≠ (wX 3 0).proc.lid) ∧
    (let v := 2 ^ 64 * (3 * 2 ^ 128 + (0x1000 + 4 * 2 ^ 20) * 2 ^ 192) + 0x100
     (readDeque 16384 (v % 2 ^ 64) (v / 2 ^ 64)).isSome = true ∧ faultIn [v, 0x40, 0] 0 = none ∧ readDeque 16384 0 0 = none) := by
  decide +kernel

theorem wit_Monitors :
    OwnData (wX adrL 0) adrL 8 ∧ (w0.rp 0 = true ∧ (w0.thr.mon 3).armed = false ∧ w0.thr.intr = false ∧ (wX (BitVec.allOnes 64) 0).rx 6 = BitVec.allOnes 64) ∧
    (w0.rx 6 == 0) = true ∧
    (let s := wT (fun t => { t.wx 6 5 with mons := t.mons.set 0 { armed := true } })
     s.rx 6 ≠ 0 ∧ (s.thr.mon 0).armed = true ∧ (List.range 4).all (fun j => !((s.thr.mon j).armed && (s.thr.mon j).trig)) = true) :=
  ⟨own_of (by decide), by decide⟩

theorem wit_WindowData :
    OwnData (wX 0xFFFF000000003FFF 0) 0xFFFF000000003FFF 1 ∧ OwnData (wX 0xFFFF000000003FFE 0) 0xFFFF000000003FFE 2 ∧
    OwnData (wX 0xFFFF000000003FFC 0) 0xFFFF000000003FFC 4 ∧ OwnData (wX adrL 0) adrL 8 ∧ OwnData (wX adr0 0) adr0 8 ∧
    PlainWrites (wX adrL 0) ∧ (wX adrL 0).rp 0 = true ∧ (wX adrL 0).rx 6 + (0#10).signExtend 64 = adrL :=
  ⟨own_of (by decide), own_of (by decide), own_of (by decide), own_of (by decide), own_of (by decide), ⟨rfl, rfl⟩, by decide⟩

theorem wit_StoresTouchTheirBytes : OwnData w0 adrL 8 ∧ OwnData w0 adr0 16 ∧ Canonical w0 := ⟨own_of (by decide), own_of (by decide), can_of (by decide)⟩

theorem wit_AddressTraps :
    w0.rp 0 = true ∧ ((wX (adr0 + 7) 0).rx 6 + (0#10).signExtend 64).toNat % 8 ≠ 0 ∧
    (((wX 0xFFFF000000004000 0).rx 6).toNat / 2 ^ 48 = 0xFFFF ∧ w0.proc.winsize ≤ ((wX 0xFFFF000000004000 0).rx 6).toNat % 2 ^ 48) ∧
    (((wX 0x1000000000000 0).rx 6).toNat / 2 ^ 48 = 1 ∧ ((wX 0xFFFDFFFFFFFFFFF8 0).rx 6).toNat / 2 ^ 48 = 0xFFFD) := by decide

/-- The code word's state with an address in x6: page 0 is a page of the vault of core 0. -/
def wVault (a : Word) : State := let s := wCode 0x1498C000#32 0#32; s.setThr (s.thr.wx 6 a)

/-- A translation of page 0 to the vault of core 0 of module 1, and its address in x6. -/
def wFar : State :=
  let s := wP (wX 8 0) (fun p => { p with ptroot := 0x100000 })
  { s.setThr { s.thr with walked := [0], walkRoot := 0x100000 } with
    mem := Memory.write (Memory.write [] 0x100000 8 0x110001) 0x110000 8 (5 * 2 ^ 56 + 2 ^ 40 + 7) }

theorem wit_NonLocalAccesses :
    let s := wVault 0x8
    s.rp 0 = true ∧ ((s.rx 6 + (0#10).signExtend 64).toNat % 8 = 0) ∧
    (∃ p ca sc, s.resolve .w 8 0x8 false 0 = .ok p ca sc 0 ∧ s.resolve .r 8 0x8 false 0 = .ok p ca sc 0 ∧ s.isLocal p = false) ∧
    s.thr.storeQ.length = 0 ∧ 4 ≤ ({ s.thr with storeQ := [{}, {}, {}, {}] } : Thread).storeQ.length ∧
    (let w := wX (0xFFFE000000000000 + 3 * 2 ^ 18) 0
     w.resolve .r 8 (w.rx 6 + (0#10).signExtend 64) false 0 = .ok (.win 1 3 0) false 0 16 ∧ w.isLocal (.win 1 3 0) = false ∧ w.coreOf 1 3 ≠ some w.here ∧
     w.thr.storeQ = [] ∧ findLoc w.core.loc 1 3 = none ∧ findLoc [{ gid := 1, lid := 3, core := 65, mc := 0 }] 1 3 ≠ none) ∧
    (wFar.rp 0 = true ∧ wFar.resolve .r 8 (wFar.rx 6 + (0#10).signExtend 64) false 0 = .ok (.phys (5 * 2 ^ 56 + 2 ^ 40 + 8)) false 0 5 ∧
     farPlace (.phys (5 * 2 ^ 56 + 2 ^ 40 + 8)) = true ∧ wFar.isLocal (.phys (5 * 2 ^ 56 + 2 ^ 40 + 8)) = false ∧ wFar.thr.storeQ = [] ∧ wFar.here < 3072) := by
  refine ⟨by decide +kernel, by decide +kernel, ⟨.phys 0x40008, false, 0, ?_⟩, by decide +kernel, by decide +kernel, by decide +kernel, by decide +kernel⟩
  decide +kernel

theorem wit_VectorAccesses :
    (w0.rp 0 = true ∧ w0.rk 1 = 0 ∧ w0.rk 0 ≠ 0) ∧ OwnData (wX 0xFFFF000000003FE0 0) 0xFFFF000000003FE0 32 ∧ Canonical (wX 0xFFFF000000003FE0 0) ∧ PlainWrites (wX adr0 8) ∧
    (∀ i ∈ (List.range 4).filter (fun i => ((wX adr0 8).rk 0).getLsbD i), OwnData (wX adr0 8) ((wX adr0 8).rx 6 + BitVec.ofNat 64 i * (wX adr0 8).rx 7) 8) := by
  refine ⟨by decide, own_of (by decide), can_of (by decide), ⟨rfl, rfl⟩, fun i hi => ?_⟩
  have h : i < 4 := by simpa using (List.mem_filter.mp hi).1
  have : i = 0 ∨ i = 1 ∨ i = 2 ∨ i = 3 := by omega
  rcases this with rfl | rfl | rfl | rfl <;> exact own_of (by decide)

theorem wit_FullEmpty :
    OwnData (wX adrL 0) adrL 8 ∧ PlainWrites (wX adrL 0) ∧ (wX adrL 0).waiters = [] ∧ (!(wX adrL 0).proc.empty.contains 1023) = true ∧
    (!(wP (wX adrL 0) (fun p => { p with empty := [1023] })).proc.empty.contains 1023) = false :=
  ⟨own_of (by decide), ⟨rfl, rfl⟩, by decide⟩

theorem wit_Synchronization :
    OwnData (wX adrL 0) adrL 8 ∧ OwnData (wX 0xFFFF000000003FFF 0) 0xFFFF000000003FFF 1 ∧ PlainWrites (wX adrL 0) ∧ Canonical (wX adrL 0) ∧
    (w0.rp 0 = true ∧ w0.thr.storeQ = [] ∧ w0.thr.ready = 0 ∧ (w0.clusterAt (clusterOf w0.here)).lines = [] ∧ w0.proc.remoteStores = 0 ∧ w0.thr.rel = none) ∧
    (w0.sigSlots.find? (fun e => e.word == .win 1 0 0x3FF8) = none ∧
      (let s : State := { w0 with sigSlots := [{ word := .win 1 0 0x3FF8, home := 0, sig := { lines := [0x100] } }] }
       s.sigSlots.find? (fun e => e.word == .win 1 0 0x3FF8) ≠ none)) ∧
    (wT (fun t => { t with storeQ := [{}] })).thr.storeQ ≠ [] ∧ adrL.toNat / 2 ^ 48 = 0xFFFF ∧
    ((0xFFFE000000000000 : Word).toNat / 2 ^ 48 = 0xFFFE ∧ (0x1000000000000 : Word).toNat / 2 ^ 48 = 1) :=
  ⟨own_of (by decide), own_of (by decide), ⟨rfl, rfl⟩, can_of (by decide), by decide⟩

theorem wit_Atomics :
    OwnData (wX adrL 0) adrL 8 ∧ OwnData (wX 0xFFFF000000003FFC 0) 0xFFFF000000003FFC 4 ∧ OwnData (wX 0xFFFF000000003FF0 0) 0xFFFF000000003FF0 16 ∧
    PlainWrites (wX adrL 0) ∧ Canonical (wX adrL 0) ∧ (wX adrL 0).rp 0 = true ∧ (wX adrL 0).thr.ready = 0 ∧ ((wX adrL 0).clusterAt (clusterOf 0)).lines = [] ∧
    (wX adrL 0).proc.remoteStores = 0 :=
  ⟨own_of (by decide), own_of (by decide), own_of (by decide), ⟨rfl, rfl⟩, can_of (by decide), by decide⟩

theorem wit_FloatConversions : w0.rp 0 = true ∧ (3#3).toNat < 4 ∧ (4#3 : BitVec 3) ≠ 5#3 := by decide

theorem wit_RoundingIsExact : 0x7C00 < 2 ^ (fmtOf 2).width ∧ ((fmtOf 2).val 0x7C00).isNan = false ∧ ((fmtOf 1).val 0x80000001).isNan = false ∧
    0x80000001 < 2 ^ (fmtOf 1).width := by decide

theorem wit_VectorLanes : laneFp 3#3 = false ∧ laneFp 4#3 = true ∧ 31 < 256 / laneWidth 0#3 := by decide

theorem wit_LanesMasksReductions : laneFp 0#3 = false ∧ laneFp 7#3 = true ∧ (List.range 32).filter (fun j => (w0.rk 1).getLsbD j) = [] := by decide

/-- Format registers: fm0 FP64, fm1 FP32, fm2 an illegal descriptor, fm3 an 8-bit narrow format. -/
def wFm : State := wP w0 (fun p => { p with fm := #v[0x0, 0x1, 0xF, 0x384, 0, 0, 0, 0] })

theorem wit_ExactAccumulator :
    (w0.rp 0 = true ∧ w0.thr.xacc 1 = 0 ∧ (0 : Nat) ≠ poison) ∧
    ((fmDesc (wFm.fmReg 0)).map (fun f => f.kind) = some 0 ∧ (fmDesc (wFm.fmReg 1)).map (fun f => (f.kind, f.bs)) = some (1, false) ∧
      (fmDesc (wFm.fmReg 3)).map (fun f => f.kind) = some 4 ∧ fmDesc (wFm.fmReg 2) = none) ∧
    0 < (wT (fun t => t.wv 2 1)).thr.xacc 1 := by decide +kernel

/-- An open handle 31 to lid 3, channel 7. -/
def wOpen (o : OutCh) : State := wP (wX 31 31) (fun p => { p with handles := p.handles.set 31 (some o) })

/-- A channel to lid 3. -/
def chan : OutCh := { lid := 3, ch := 7, latch := false }

theorem wit_ChannelCalls :
    (((wX (2 ^ 20) 0).rx 6).toNat = 2 ^ 20 ∧ ((wX (4 * 8) 0).rx 6).toNat / 8 % 2 ^ 16 = w0.proc.gsize) ∧
    ((wOpen chan).rp 0 = true ∧ (wOpen chan).proc.handle 31 = some chan ∧ chan.closing = false ∧ chan.unack < 32 ∧ chan.cur = none ∧
      chan.closeSent = false ∧ (wOpen chan).core.occupied = true ∧ (wOpen chan).proc.handle 30 = none) ∧
    ((wOpen { chan with closing := true }).proc.handle 31 = some { chan with closing := true }) ∧
    32 ≤ ((wX 32 0).rx 6).toNat ∧ ((wX (3 * 8 + 7) 0).rx 6).toNat < 2 ^ 20 ∧
    (List.range 32).all (fun h => ((wP w0 (fun p => { p with handles := Vector.replicate 32 (some chan) })).proc.handle h).isSome) = true := by decide

theorem wit_Sends :
    let s := wOpen chan
    (s.rp 0 = true ∧ s.core.occupied = true ∧ s.proc.ended = false ∧ s.proc.winsize ≤ 2 ^ 18 ∧ s.thr.got = []) ∧
    ((s.rx 6).toNat % 32 = 31 ∧ (s.rx 6).toNat / 32 % 2 ^ 11 = 0 ∧ (s.rx 6).toNat < 2 ^ 32 ∧ s.proc.handle 31 = some chan) ∧
    (s.thr.storeQ = [] ∧ s.thr.rel = none ∧ chan.cur = none ∧ chan.unack < 32 ∧ s.units = [] ∧ s.bad = [] ∧ s.far = [] ∧ (s.clusterAt (clusterOf s.here)).lines = []) ∧
    (((wX adrL 8).rx 6).toNat / 2 ^ 48 = 0xFFFF ∧ ((wX adrL 8).rx 6).toNat % 2 ^ 48 + ((wX adrL 8).rx 7).toNat ≤ w0.proc.winsize) ∧
    ((wX 32 0).rx 6).toNat / 32 % 2 ^ 11 ≠ 0 ∧ (wOpen { chan with closing := true }).proc.handle 31 = some { chan with closing := true } := by decide

/-- A receive record at the end of the window: any source, mode 0 to offset 0 of the own window, `len` bytes, channel 7, counter 63. -/
def wRecv (len : Nat) : State :=
  let m := Memory.write (Memory.write (Memory.write (Memory.write [] 0x3FE0 8 0xFFFF00000000FFFF) 0x3FE8 8 (0xFFFF * 2 ^ 48)) 0x3FF0 8 len) 0x3FF8 8
    (7 * 8 + 63 * 256 + 1023 * 2 ^ 16)
  wP (wX 0xFFFF000000003FE0 0) (fun p => { p with win := m })

/-- An entry of the unexpected queue. -/
def ent : UqEnt := { off := 0x40, size := 64, src := 3, tag := 5, len := 8, complete := true }

/-- A posted record. -/
def posted0 : Posted := { rcd := readRecv 0, order := 0 }

theorem wit_Receives :
    OwnData (wRecv 256) ((wRecv 256).rx 6) 32 ∧
    ((wRecv 256).rp 0 = true ∧ (wRecv 256).thr.ready = 0 ∧ (wRecv 256).thr.got = [] ∧ (wRecv 256).proc.uq = [] ∧ (wRecv 256).proc.blocked = false ∧
      (wRecv 256).proc.held = [] ∧ (((wRecv 256).proc.posted.toList[0]?).getD none).isNone = true) ∧
    (Memory.read (wRecv 16384).proc.win 0x3FF0 8 % 2 ^ 17 = 16384 ∧ Memory.read (wRecv 16385).proc.win 0x3FF0 8 % 2 ^ 17 = 16385 ∧
      Memory.read (wRecv 0).proc.win 0x3FF8 8 % 8 = 0 ∧ Memory.read (wRecv 0).proc.win 0x3FF8 8 / 2 ^ 16 % 2 ^ 16 = 1023 ∧
      Memory.read (wRecv 0).proc.win 0x3FE8 8 / 2 ^ 48 = 0xFFFF ∧ Memory.read (wRecv 0).proc.win 0x3FE8 8 % 2 ^ 48 = 0) ∧
    (63 < ((wX 64 0).rx 6).toNat ∧ ((wX 63 0).rx 6).toNat ≤ 63 ∧
      (((wP w0 (fun p => { p with posted := p.posted.set 63 (some posted0) })).proc.posted.toList[63]?).getD none).isSome = true ∧
      posted0.landing = false) ∧
    ((wP (wX 0x40 0) (fun p => { p with uq := [ent] })).proc.uq = [] ++ ent :: [] ∧ ent.pad = false ∧ ent.taken = false ∧
      ent.off = ((wX 0x40 0).rx 6).toNat) ∧ PlainWrites w0 :=
  ⟨own_of (by decide), by decide, by decide +kernel, by decide, by decide, ⟨rfl, rfl⟩⟩

/-- A latch entry whose data has arrived. -/
def latch1 : LatchEnt := { id := 1, ready := true }

theorem wit_MatrixIssue :
    let s := wP (wX 0xFFFF000000003E00 0) (fun p => { p with fm := wFm.proc.fm, latch := [latch1], nextLatch := 1 })
    (s.rp 0 = true ∧ s.core.occupied = true ∧ s.proc.ended = false ∧ s.proc.winsize ≤ 2 ^ 18 ∧ s.thr.got = [] ∧ s.thr.storeQ = [] ∧ s.units = [] ∧ s.bad = [] ∧ s.far = []) ∧
    (s.inTransfer s.here = false ∧ (let m : State := { s with moves := [{ id := 4, kind := .requested, a := 0, b := 1, swto := 500, transfer := true }] }; m.inTransfer m.here = true)) ∧
    (s.proc.mq.waiting = [] ∧ s.proc.mq.queue.length + s.proc.mq.granted.length < 2 ∧ s.slot.val ∉ s.proc.mq.granted ∧ s.slot.val ∉ s.proc.mq.latchGrant) ∧
    ((s.rx 6).toNat / 2 ^ 48 = 0xFFFF ∧ (s.rx 6).toNat % 32 = 0 ∧ (s.rx 6).toNat % 2 ^ 48 + 512 ≤ s.proc.winsize) ∧
    (s.proc.latch = [] ++ latch1 :: [] ∧ latch1.popped = false ∧ latch1.ready = true ∧ latch1.id ≤ s.proc.nextLatch ∧
      s.proc.latch.length + s.proc.mq.latchGrant.length < 2 ∧ s.proc.mq.latchWait = []) ∧
    ((fmDesc (s.fmReg 3)).map (fun f => f.kind) = some 4 ∧ fmDesc (s.fmReg 2) = none ∧ (fmDesc (s.fmReg 0)).map (fun f => f.kind) = some 0) ∧
    ((wOpen { chan with latch := true }).proc.handle 31 = some { chan with latch := true }) ∧
    2 ≤ [latch1, { latch1 with id := 2 }].length ∧ ¬ ([0, 1].length + 0 < 2) := by decide

theorem wit_MatrixProducts :
    (15 : Nat) < 16 ∧ ({ bad := false, val := .fin false 3 (-1000) } : Term).bad = false ∧ ({ bad := true, val := .fin false 3 (-1000) } : Term).bad = true := by decide

/-- Request 9 at the head of the FIFO: a COPY of 64 bytes from offset 0x1000 of the own window to offset 0x2000. -/
def req9 : CopyReq :=
  { id := 9, w0 := 0x40 <<< 40, w1 := 0xFFFF000000001000, w2 := 0xFFFF000000002000, w3 := 0, slot := 0, fms := Vector.replicate 8 0 }

/-- The state with `l` in the FIFO. -/
def wFifo (s : State) (l : List CopyReq) : State := wP s (fun p => { p with fifo := l, nextId := 10, lastId := 9 })

theorem wit_CopyWords :
    let s := wX (0x40 <<< 40) 0xFFFF000000001000
    (s.rp 0 = true ∧ s.thr.fms = none ∧ (s.rx 6).toNat % 8 = 0 ∧ s.rx 9 = 0 ∧ s.thr.storeQ = [] ∧ s.proc.fifo.length < 8) ∧
    ((wX 7 0).rx 6).toNat % 8 = 7 ∧ ((wX (5 + 32) 0).rx 6).toNat / 2 ^ 5 % 2 = 1 ∧
    ((w0.setThr (w0.thr.wx 9 0xFFFF000000003FC0)).rx 9).toNat % 2 ^ 48 + 64 ≤ w0.proc.winsize ∧ (wT (fun t => { t with storeQ := [{}] })).thr.storeQ ≠ [] ∧
    8 ≤ (wFifo s (List.replicate 8 req9)).proc.fifo.length ∧
    ((wFifo w0 [req9]).proc.idIssued 9 = true ∧ (wFifo w0 [req9]).proc.idRetired 9 = false ∧ (wFifo w0 [req9]).proc.idIssued 0 = false) ∧
    ((wFifo w0 []).proc.idIssued 9 = true ∧ (wP (wFifo w0 []) (fun p => { p with lastRet := 9 })).proc.idRetired 9 = true) ∧
    (((wFifo w0 [req9]).proc.fifo ++ (wFifo w0 [req9]).proc.done).find? (fun r => r.id == 9) = some req9 ∧ req9.oor < 2 ^ 24 ∧ req9.state ≠ 0) ∧
    (({ req9 with issued := 64 } : CopyReq).issued ≠ req9.acked ∧ req9.aborted = false ∧ req9.state ≠ 4 ∧ req9.lastIssued = false ∧ w0.proc.defs = []) := by decide

/-- Group 1 with four processes in the region of cores (0, 0) to (1, 1). -/
def g1 : Group :=
  { gid := 1, n := 4, rx := 0, ry := 0, rw := 2, rh := 2, winsize := 16384, entry := 0x1000, ptroot := 0, plbase := 0x2000, spillbase := 0,
    wimg := [], tsr := [], args := [], phase := .running, landed := 4 }

/-- The same with its group. -/
def wG (s : State) (g : Group) : State := { s with groups := [g] }

theorem wit_PlacementWords :
    (w0.core.occupied = true ∧ w0.here < 3072 ∧ w0.proc.mc < 2 ^ 16 ∧ w0.proc.rx ≤ coreX w0.here ∧ w0.proc.ry ≤ coreY w0.here ∧ w0.rp 0 = true) ∧
    (w0.proc.rw ≤ ((wX 2 0).rx 6).toNat % 256 ∧ w0.proc.rh ≤ ((wX 0x200 0).rx 6).toNat / 256) ∧
    (((wX 0x101 0).rx 6).toNat % 256 < w0.proc.rw ∧ ((wX 0x101 0).rx 6).toNat / 256 < w0.proc.rh) ∧
    (w0.proc.gsize ≤ ((wX 4 0).rx 6).toNat ∧ ((wX 3 0).rx 6).toNat < w0.proc.gsize ∧ (wX 3 0).thr.ready = 0 ∧ (wX 3 0).thr.storeQ = []) ∧
    (wT (fun t => { t with ready := 1, got := [2 ^ 30 + 65] })).thr.got = [2 ^ 30 + 65] ∧ w0.proc.rx ≤ coreX ((2 ^ 30 + 65) % 2 ^ 12) ∧
    (w0.moves = [] ∧ (wT (fun t => { t with storeQ := [{}] })).thr.storeQ ≠ []) ∧
    (let o : State := { wX 3 0 with module := { (wX 3 0).module with phase := 1 } }
     o.module.phase = 1 ∧ paType (o.proc.plbase.toNat + 8 * 3) = 0 ∧ w0.module.phase ≠ 1) := by decide

/-- The bytes of a descriptor (Table 19.5) for group 7 of one process, its region the four cores from (4, 0) on. -/
def desc7 : Nat := 7 + 256 ^ 4 + 4 * 256 ^ 8 + 2 * 256 ^ 10 + 2 * 256 ^ 11 + 16384 * 256 ^ 12

theorem wit_RuntimeWords :
    let s := w11 0x2000 0x40
    let park := wG (wP s (fun p => { p with hold := some .preempt })) { g1 with phase := .parking }
    let empty : State := { s with core := { s.core with occupied := false } }
    (s.rp 0 = true ∧ s.slot.val = 11 ∧ ((w11 0x80 0).rx 6).toNat % 256 ≠ 0 ∧ (s.rx 6).toNat % 256 = 0 ∧ s.proc.hold ≠ some .preempt ∧ s.core.occupied = true) ∧
    (park.proc.hold = some .preempt ∧ park.phaseOf park.proc.gid = .parking ∧ (park.clusterAt 0).lines = []) ∧
    (empty.core.occupied = false ∧ empty.core.reserved = false ∧ 64 ≤ (empty.rx 7).toNat ∧ ¬ 64 ≤ ((w11 0 63).rx 7).toNat ∧ ((w11 32 0).rx 6).toNat % 64 ≠ 0) ∧
    ((w11 0x1FFFF 0).rx 6).toNat < 2 ^ 17 ∧ 2 ^ 17 ≤ ((w11 0x20000 0).rx 6).toNat ∧ s.thr.ready = 0 ∧ s.bad = [] ∧
    (((w11 0x17 0).rx 6).toNat % 8 = 7 ∧ ((w11 0x17 0).rx 6).toNat / 16 % 4 < 3 ∧ modeOf 1 = some .scratchpad ∧ s.bankMode 0 7 ≠ .scratchpad ∧
      s.bankChanging 0 7 = false ∧ modeOf 0 = some .cache ∧ ¬ ((w11 0x30 0).rx 6).toNat / 16 % 4 < 3) ∧
    (descriptorOk 2 desc7 = true ∧ desc7 < 2 ^ 128 ∧ descriptorOk 2 0 = false ∧ s.groupOf 7 = none ∧ (s.coreAt 4).occupied = false ∧ (s.coreAt 0).occupied = true) ∧
    (let g := readDescriptor desc7
     let o : State := { s with module := { s.module with phase := 1 } }
     let reads : List (Nat × Nat) := [(g.plbase, 8 * g.n), (g.wimg, g.wlen), (g.tsr, if g.tsr = 0 then 0 else 64)]
     s.units = [] ∧ reads = [(0, 8), (0, 0), (0, 0)] ∧ o.groupOf 7 = none ∧ descriptorOk o.module.phase desc7 = true ∧ paType 0 ≠ 1 ∧
     ((List.range (g.rw * g.rh)).all fun i => let c := o.coreAt (coreId (g.rx + i % g.rw) (g.ry + i / g.rw))
       !c.occupied && !c.reserved && !c.oos) = true ∧
     (let d := readDescriptor (desc7 + 2 ^ 56 * 256 ^ 32)
      descriptorOk 1 (desc7 + 2 ^ 56 * 256 ^ 32) = true ∧ paType d.plbase = 1 ∧ clusterOf (paCore d.plbase) = 0 ∧ paBank d.plbase = 0 ∧
      ({ o with clusters := [(0, { modes := (o.clusterAt 0).modes.set 0 .scratchpad })] } : State).bankMode 0 0 = .scratchpad)) := by decide

/-- The outcome of an area access is not a fault or a wait. -/
def areaOk : AreaRes → Bool
  | .ok _ _ => true
  | _ => false

/-- Memory with translation tables at 0x100000 and 0x110000 that map the first 64 MB to themselves. -/
def wTables : Memory := Memory.write (Memory.write (Memory.write [] 0x100000 8 0x110001) 0x110000 8 0xF) 0x110008 1 1

/-- Slot 11 in focus with a translation of its first page, the process parked for a preempt and without a window. -/
def wPark : State :=
  let s := wG (wP (w11 0x200000 0x40) (fun p => { p with hold := some .preempt, winsize := 0 })) { g1 with phase := .parking }
  { s with core := { s.core with svroot := 0x100000 }, mem := wTables }


/-- The same core empty, with the size of a dump buffer in x7. -/
def wDumps (n : Word) : State :=
  let s : State := { wPark with core := { wPark.core with occupied := false } }
  s.setThr (s.thr.wx 7 n)

/-- What DUMP writes into a buffer of `n` bytes. -/
def dumpArea (n : Word) : AreaRes :=
  let s := wDumps n
  let f := fitSections n.toNat 64 s.dumpSections
  match writeArea 0x200000 f.flatten.length 64 f.flatten s.asStep with
  | .ok s1 _ => writeArea 0x200000 4 0 (s.dumpHeader f.length (64 + (s.dumpSections.map List.length).sum) (s.dumpSections.map List.length)) s1
  | r => r

/-- The core empty, the group parked with lid 2 in its store, and the head of a save area of lid 2 in memory. -/
def wLoad : State :=
  let s : State := { wPark with core := { wPark.core with occupied := false } }
  let g : Group := { g1 with phase := .parked, store := [(2, { lid := 2, gid := 1 }, Vector.replicate 12 {})] }
  { wG s g with mem := Memory.write (Memory.write wTables 0x200000 8 (1 + 2 * 2 ^ 32)) 0x200008 2 1 }

/-- The hypotheses of a CTXLOAD that loads, checked. -/
def loadOk (s : State) : Bool :=
  (s.rx 6).toNat % 256 == 0 && !s.core.occupied && !s.core.reserved &&
  s.thr.storeQ.isEmpty && match readArea (s.rx 6) 16 0 s.asStep with
  | .ok s1 h => numAt h 0 4 == 1 && (match s1.groupOf (numAt h 8 2) with
     | some g => g.phase == .parked && g.cores.contains s.here && (match g.store.find? (fun e => e.1 == numAt h 4 4) with
        | some e => areaOk (readArea (s.rx 6) ((24576 + e.2.1.winsize + e.2.1.winsize / 128) / 16) 0 s1)
        | none => false)
     | none => false)
  | _ => false

/-- The state of `wPark` with other bytes in memory. -/
def wParkM (m : Memory) : State := { wPark.asStep with mem := m }

theorem wit_page (m : Memory) (h1 : m.read 0x100000 8 = 0x110001) (h2 : m.read 0x110000 8 = 0xF) (va : Nat) (hv : va < 2 ^ 26) :
    (wParkM m).walk true va = .ok (0xF#64, true) := by
  have e1 : vaIndex va 1 = 0 := by simp only [vaIndex]; omega
  have e2 : vaIndex va 2 = 0 := by simp only [vaIndex]; omega
  have b1 : (wParkM m).isBad (.phys 0x100000) 8 = false := rfl
  have b2 : (wParkM m).isBad (.phys 0x110000) 8 = false := rfl
  have p1 : placeOf (wParkM m) 0x100000 = .phys 0x100000 := rfl
  have p2 : placeOf (wParkM m) 0x110000 = .phys 0x110000 := rfl
  have t1 : (wParkM m).tableReadable (.phys 0x100000) = true := rfl
  have t2 : (wParkM m).tableReadable (.phys 0x110000) = true := rfl
  have d1 : (wParkM m).delivered (.phys 0x100000) 8 1 = m.read 0x100000 8 := rfl
  have d2 : (wParkM m).delivered (.phys 0x110000) 8 2 = m.read 0x110000 8 := rfl
  have r1 : (wParkM m).rootFor true = 0x100000 := rfl
  have hp : (wParkM m).module.phase = 0 := rfl
  simp [State.walk, walkFrom, r1, e1, e2, b1, b2, p1, p2, t1, t2, d1, d2, h1, h2, hp]

theorem wit_write (m : Memory) (h1 : m.read 0x100000 8 = 0x110001) (h2 : m.read 0x110000 8 = 0xF) (va n v : Nat)
    (hv : va + n < 2 ^ 25) : ∃ t,
    (wParkM m).engWrite true (BitVec.ofNat 64 va) n v 0 false true = .ok (wParkM (m.write va n v)) 0 t := by
  have hva : (BitVec.ofNat 64 va).toNat = va := by simp; omega
  have hw := wit_page m h1 h2 va (by omega)
  have hs : (wParkM m).space (BitVec.ofNat 64 va) = .global := by
    unfold State.space; simp only [hva]; rw [show va / 2 ^ 48 = 0 by omega]; rfl
  have hl : leafPa 0xF#64 true va = va := by simp [leafPa]; omega
  have ht : paType va = 0 := by unfold paType; omega
  have hf : frameValid va n true = true := by
    have h3 : paCore va = 0 := by unfold paCore; omega
    have h4 : paMid va = 0 := by unfold paMid; omega
    have h5 : va / 2 ^ 60 = 0 := by omega
    have h6 : paOff va + n ≤ vaultSize := by unfold paOff vaultSize; omega
    simp only [frameValid, ht, h3, h4, h5, h6]; decide
  have hp : (wParkM m).module.phase = 0 := rfl
  have hc : checkLeaf (wParkM m) true .w n va 0xF#64 true = .ok va 0xF#64 := by simp [checkLeaf, hl, hf, hp]
  have hx : (wParkM m).xlate true .w n (BitVec.ofNat 64 va) 0 = .miss := rfl
  have hbank (p : Place) : (wParkM m).bankBusy p = none := by
    unfold State.bankBusy; cases bankOf p <;> rfl
  have hb : walkBusy (wParkM m) va 3 ((wParkM m).rootFor true) = none := by
    simp only [walkBusy, hbank]; split_ifs <;> rfl
  have hn' : (wParkM m).xlateNow true .w n (BitVec.ofNat 64 va) 0 = .ok va 0xF#64 := by
    unfold State.xlateNow; simp [hx, hva, hw, hc, hb]
  have hpl : placeOf (wParkM m) va = .phys va := by unfold placeOf; simp [ht]
  have hr : (wParkM m).resolveNow true .w n (BitVec.ofNat 64 va) 0 = .ok (.phys va) false 0 0 := by
    unfold State.resolveNow; simp only [hs, hn']
    have hoff : cacheable va 0xF#64 = false := by simp [cacheable]
    simp [resolvePa, ht, hpl, pteScope, Resolved.now, hoff]
  have hfar : farPlace (.phys va) = false := by simp [farPlace, ht]
  have ho (a : Acc) (hp : a.place = .phys va) : (wParkM m).obstacle a = .none := by
    have ha (k : Nat) : (wParkM m).awayIn (.phys va) k = none := by
      unfold State.awayIn; rw [List.find?_eq_none]; intro x _; exact Bool.false_ne_true
    simp [State.obstacle, hp, ha, hbank, State.farAt, hfar]
  have hq : (wParkM m).homeWrite (.phys va) n v (2 ^ n - 1) = wParkM (m.write va n v) := by
    have hmod : (2 ^ n - 1) % 2 ^ n = 2 ^ n - 1 := Nat.mod_eq_of_lt (by have := Nat.two_pow_pos n; omega)
    unfold State.homeWrite; simp only [hmod]; rfl
  have hk : (wParkM m).seek (wParkM m).here (.phys va) = (wParkM m, 0) := rfl
  have hfa : (wParkM m).farAnswer (.phys va) = none := rfl
  unfold State.engWrite
  simp only [hr, ho, hfa, hk, State.landAt, hq, ht]
  exact ⟨_, rfl⟩

theorem wit_area : ∀ (f off : Nat) (m : Memory), m.wf = true → m.read 0x100000 8 = 0x110001 → m.read 0x110000 8 = 0xF →
    off + 16 * (f + 1) < 2 ^ 24 → ∀ l : List Byte, areaOk (writeArea 0x200000 f off l (wParkM m)) = true := by
  intro f
  induction f with
  | zero => intros; rfl
  | succ f ih =>
    intro off m hm h1 h2 hf l
    by_cases hl : l.isEmpty = true
    · simp [writeArea, hl, areaOk]
    · have ha : (0x200000 : Word) + BitVec.ofNat 64 off = BitVec.ofNat 64 (0x200000 + off) := by simp [BitVec.ofNat_add]
      have hn : min 16 l.length ≤ 16 := Nat.min_le_left _ _
      obtain ⟨t, ht⟩ := wit_write m h1 h2 (0x200000 + off) (min 16 l.length) (leNat (l.take 16)) (by omega)
      simp only [writeArea, hl, ha, ht]
      refine ih (off + 16) _ (wf_write _ _ _ hm) ?_ ?_ (by omega) (l.drop 16)
      · rw [read_write_other _ _ _ _ _ hm (by omega), h1]
      · rw [read_write_other _ _ _ _ _ hm (by omega), h2]

theorem wit_RuntimeWords_contexts :
    (wPark.rp 0 = true ∧ wPark.slot.val = 11 ∧ (wPark.rx 6).toNat % 256 = 0 ∧ wPark.core.occupied = true ∧ wPark.proc.hold = some .preempt ∧
      wPark.phaseOf wPark.proc.gid = .parking ∧ (wPark.clusterAt (clusterOf wPark.here)).lines = []) ∧
    wPark.thr.storeQ = [] ∧ areaOk (writeArea (wPark.rx 6) wPark.asStep.saveBytes.length 0 wPark.asStep.saveBytes
      (wPark.proc.held.foldl State.spill wPark).asStep) = true ∧
    loadOk wLoad = true ∧
    areaOk (dumpArea 64) = true ∧ (wDumps 64).core.occupied = false ∧ (wDumps 64).rx 7 = 64 := by
  refine ⟨by decide, rfl, ?_, by decide +kernel, by decide +kernel, by decide⟩
  have hl : (wPark.asStep.saveBytes.length == 24576) = true := by decide +kernel
  have hr : wPark.rx 6 = 0x200000 := by decide
  rw [hr]
  exact wit_area _ 0 wTables (by decide) (by decide +kernel) (by decide +kernel) (by rw [beq_iff_eq.mp hl]; decide) _

/-- The thread of `w0` with an access in flight. -/
def wAcc (a : Acc) : State := wT (fun t => { t with wait := some .access, pend := [a], cont := .xreg 5 8 false })

/-- A store of a dword to vault memory. -/
def stAcc : Acc := { kind := .store, place := .phys 0x3000, size := 8, val := 7 }

theorem wit_HomeSteps :
    let f (s : State) : State := s.focusSlot 0 0
    let g : State := wG w0 g1
    ((f (wAcc {})).thr.inFlight = some {} ∧ paType 0 = 0 ∧ (f (wAcc {})).awayIn (.phys 0) 8 = none ∧ (f (wAcc {})).isBad (.phys 0) 8 = false) ∧
    ((f (wAcc stAcc)).thr.inFlight = some stAcc ∧ stAcc.mask = 0 ∧ w0.watches = [] ∧ w0.bad = []) ∧
    ((f (wAcc { stAcc with kind := .stl })).thr.inFlight.map (fun a => a.kind) = some .stl ∧
      (f (wAcc { stAcc with kind := .arm, mask := 3 })).thr.inFlight.map (fun a => (a.kind, a.mask, a.waited)) = some (.arm, 3, false) ∧ w0.watches.length < 256) ∧
    ((f (wAcc { kind := .lidget, place := .mmio 65 0 })).thr.inFlight = some { kind := .lidget, place := .mmio 65 0 } ∧
      (f (wAcc { place := .mmio 0 8192 })).thr.inFlight = some { place := .mmio 0 8192 } ∧
      (f (wAcc { place := .mmio 0 8184 })).thr.inFlight = some { place := .mmio 0 8184 } ∧ (f (wAcc {})).awayIn (.mmio 0 8184) 8 = none ∧
      (f (wAcc {})).awayIn (.mmio 65 0) 8 = none) ∧
    ((f w0).core.halted = false ∧ (let h : State := { w0 with core := { w0.core with halted := true } }; (f h).core.halted = true ∧ h.moves = []) ∧
      ({ asked := false } : Acc).asked = false ∧ (w0.coreAt 0).proc.accBad = [] ∧
      ((wP w0 (fun p => { p with latch := [{ id := 1, ready := true }] })).coreAt 0).proc.latch = [{ id := 1, ready := true }]) ∧
    ((f (wAcc { place := .win 1 3 0 })).thr.inFlight = some { place := .win 1 3 0 } ∧ g.coreOf 1 3 = none ∧ (f (wAcc { place := .win 1 3 0 })).thr.sentTo = none) ∧
    ((f (wT (fun t => { t with storeQ := [stAcc, stAcc] }))).thr.storeQ = stAcc :: stAcc :: [] ∧ w0.proc.defs = [] ∧
      (f (wT (fun t => { t with storeQ := [stAcc], wait := some .fence }))).thr.wait = some .fence) ∧
    ((f (wAcc {})).thr.storeQ = [] ∧ (f (wAcc {})).thr.pend = [{}] ∧ (f (wAcc {})).thr.cont = .xreg 5 8 false) ∧
    (f (wT (fun t => { t with wait := some (.chopen 5) }))).thr.wait = some (.chopen 5) ∧
    (let t := f (wT (fun t => { t with wait := some (.retry .walk), walked := [1] }))
     t.thr.walked = 1 :: [] ∧ (t.clusterAt 0).tlb2 = [] ∧ walkBusy t 0x10000 3 t.thr.walkRoot.toNat = none ∧ t.begunWalk 0x10000 = .error .page ∧
     (let p := wPark.setThr { wPark.thr with walkRoot := 0x100000 }
      walkBusy p 0x10000 3 p.thr.walkRoot.toNat = none ∧ (p.begunWalk 0x10000).isOk = true)) ∧
    w0.units = [] := by decide +kernel

/-- A thread's request for an atomic add. -/
def amo0 : AmoReq := { op := 0, n := 8, ord := 0, d := 5, place := .phys 0x3008, va := 0x3008, v := 1, cmp := 0, sig := {}, stamp := 0 }

/-- The unit of that request away from home, held by slot 0, slot 1 waiting. -/
def unit0 : RUnit := { unit := .phys 0x3000, bytes := 5, sig0 := none, sig1 := none, holder := some (0, 0), queue := [(0, 1)], notices := [((0, 0), (0, 1))], waiting := [] }

theorem wit_UnitsAndMonitors :
    (let s := wT (fun t => { t with wait := some .atomic, amo := some amo0 })
     let u : State := { s with units := [unit0] }
     (s.focusSlot 0 0).thr.amo = some amo0 ∧ amo0.place = .phys 0x3008 ∧ paType 0x3008 = 0 ∧ (s.focusSlot 0 0).unitAway (.phys 0x3000) = none ∧
     (s.focusSlot 0 0).isBad (.phys 0x3000) 16 = false ∧ u.unitAway (.phys 0x3000) = some unit0 ∧ unit0.queue.getLast? = some (0, 1) ∧
     unit0.notices = [((0, 0), (0, 1))] ∧ (0, 1) ∈ unit0.queue ∧ unit0.holder = some (0, 0) ∧ amo0.again = false ∧ amo0.n ≤ 16 ∧ u.watches = []) ∧
    (let w : Wait := .waitm 5 (some 0)
     let g := wG (wT (fun t => { t with wait := some w })) g1
     let m := wG (wT (fun t => { t with mons := t.mons.set 3 { armed := true, gen := 2 } })) g1
     g.coreOfKey 1 0 = some 0 ∧ g.wakes = [] ∧ g.inTransfer 0 = false ∧ ({ g with moves := [{ id := 4, kind := .requested, a := 0, b := 1, swto := 500, transfer := true }] } : State).inTransfer 0 = true ∧
     (g.focusSlot 0 0).thr.wait = some w ∧ (g.focusSlot 0 0).core.halted = false ∧ ((g.focusSlot 0 0).clusterAt 0).dbgHalted = false ∧ (g.focusSlot 0 0).proc.hold = none ∧
     (g.focusSlot 0 0).thr.trigBits = 0 ∧ ((m.focusSlot 0 0).thr.mon 3).armed = true ∧ ((m.focusSlot 0 0).thr.mon 3).gen = 2 ∧ (m.focusSlot 0 0).thr.wait = none) ∧
    (let k : Cluster := { fifos := (Vector.replicate 8 []).set 7 [1, 2, 3], fifoWait := [(7, 0, 0)], change := [(2, .fifo, 0)] }
     let s : State := { wAcc { kind := .fifoPop, size := 32 } with clusters := [(0, k)] }
     (s.clusterAt 0).fifoWait = [(7, 0, 0)] ∧ (s.focusSlot 0 0).isBad (.phys (bankBase 0 7)) 32 = false ∧ (s.focusSlot 0 0).thr.pend = [{ kind := .fifoPop, size := 32 }] ∧
     (s.clusterAt 0).fifos[7]? = some (1 :: 2 :: [3]) ∧ (s.clusterAt 0).change = (2, .fifo, 0) :: [] ∧ s.bankUnits 0 2 = [] ∧ s.bankMode 0 2 ≠ .fifo ∧
     (s.clusterAt 0).lines = []) := by decide

/-- A parked arrival at barrier 31. -/
def wArr (n : Nat) : State := wT (fun t => { t with wait := some (.barArr 31 n false) })

/-- A pending deferred arrival of slot 0. -/
def def0 : Deferred := { slot := 0, alive := true, bar := 31, count := 3, stores := 0, copies := [] }

/-- A triggered task and a ready task. -/
def tt0 : TtEnt := { pc := 0x2000, arg := 7, thr := 1, ctr := 0, prio := 3, trig := some 0 }
def rq0 : RqEnt := { pc := 0x2000, arg := 7, prio := 3, src := 15, stamp := 0 }

theorem wit_ThreadAndTaskSteps :
    let f (s : State) : State := s.focusSlot 0 0
    ((f (wT (fun t => { t with wait := some (.ftr 5 1 16) }))).thr.wait = some (.ftr 5 1 16) ∧ (f w0).thr.kpend = false ∧ (f w0).thr.live = true ∧
      (f (wT (fun t => { t with wait := some (.retry (.unitHome (.phys 0))) }))).thr.wait = some (.retry (.unitHome (.phys 0))) ∧
      (f (wT (fun t => { t with wait := some (.retry .latchFull) }))).thr.wait = some (.retry .latchFull) ∧
      (f (wT (fun t => { t with wait := some (.retry .more), ready := 3 }))).thr.wait = some (.retry .more)) ∧
    ((f (wT (fun t => { t with wait := some (.hend 3) }))).thr.storeQ = [] ∧ (f (wT (fun t => { t with wait := some (.hend 3), storeQ := [{}] }))).thr.storeQ ≠ []) ∧
    (let t := (f (wT (fun t => { t with kpend := true }))).thr
     t.live = true ∧ t.kpend = true ∧ t.wait = none ∧ t.trap = none ∧ t.ready = 0 ∧ t.rel = none ∧ t.storeQ = [] ∧ w0.moves = []) ∧
    ((f (wArr 3)).thr.wait = some (.barArr 31 3 false) ∧ ((f (wArr 3)).proc.bar 31).tgt = 0 ∧ ((f (wArr 3)).proc.bar 31).arr + 1 ≠ 3 ∧
      ((f (wArr 1)).proc.bar 31).arr + 1 = 1 ∧
      ((f (wP (wArr 3) (fun p => { p with bars := p.bars.set 31 { tgt := 2, arr := 1 } }))).proc.bar 31).tgt = 2) ∧
    (let s := wG (wP w0 (fun p => { p with defs := [def0] })) g1
     s.coreOf 1 0 = some 0 ∧ (f s).proc.defs = [def0] ∧ ((f s).proc.bar 31).tgt = 0 ∧ ((f s).proc.bar 31).arr + 1 ≠ 3) ∧
    ((w0.focus 0).core.trapQ.length < 8 ∧ (w0.focus 0).core.trapWait = [] ∧ (List.replicate 8 trapRec).length = 8 ∧ ((w0.focus 0).core.thr 11).wait = none ∧
      (((w0.setThrAt 0 11 { live := true, wait := some (.trget 4), got := [0] }).focus 0).core.thr 11).wait = some (.trget 4)) ∧
    (let s := wG (wP w0 (fun p => { p with tt := p.tt.set 15 (some tt0), rq := [rq0] })) g1
     s.coreOf 1 0 = some 0 ∧ (s.focus 0).proc.tt.toList[15]? = some (some tt0) ∧ tt0.trig = some 0 ∧ (0 : Nat) < { s with cycle := 9 }.cycle ∧
     rq0 ∈ (s.focus 0).proc.rq ∧ rq0.was = none ∧ rq0.stamp / 64 ≤ 0 ∧ (s.focus 0).proc.wasHeld 1 = false ∧ s.mem.wf = true ∧ (s.focus 0).slotFree 0 1 = true ∧ (s.focus 0).proc.rq.length + (s.focus 0).proc.rqRes < 16) ∧
    (let s := wG (wP w0 (fun p => { p with ctlEnded := true })) { g1 with ends := [1, 2, 3] }
     let e : State := s.setThr { s.thr with live := false }
     e.coreOf 1 0 = some 0 ∧ (e.focus 0).proc.ctlEnded = true ∧ (e.focus 0).helperLives = false ∧ (e.focus 0).proc.rq = [] ∧
     (e.focus 0).proc.handles.toList.all (fun h => h.isNone) = true ∧ [1, 2, 3].length + 1 = g1.n ∧ ([] : List Nat).length + 1 ≠ g1.n) ∧
    ({ g1 with phase := .launching, landed := 3 }.landed + 1 = g1.n ∧ { g1 with landed := 2 }.landed + 1 ≠ g1.n ∧ g1.launchCore 3 = 65) := by decide

/-- The state with lid 1 of the group on core 1. -/
def w2 (s : State) : State := wG { s with others := [(1, { occupied := true, proc := { s.proc with lid := 1 } })] } g1

/-- A packet of one whole message of four bytes from lid 1 to lid 0, channel 7, the number 4095. -/
def pkt0 : Packet :=
  { gid := 1, src := 1, dst := 0, ch := 7, seq := 4095, first := true, last := true, release := false, ackreq := false, close := false, abort := false,
    tag := 5, len := 4, payload := [1, 2, 3, 4], sig := {} }

/-- The inbound entry of its channel. -/
def inb0 : InCh := { src := 1, ch := 7, expect := 4095 }

/-- A receive record for any message of channel 7, to offset 0x100 of the own window, its status granule the last. -/
def recv0 : Posted :=
  { rcd := { src := 0, srcMask := 0xFFFF, tag := 0, tagMask := 0xFFFF, dest := 0xFFFF000000000100, maxlen := 4, rowlen := 0, stride := 0, mode := 0,
             ch := 7, chany := false, inc := false, ctr := 63, noctr := false, stat := 1023, cookie := 9 }, order := 0 }

/-- A send of the packet on its way. -/
def cur0 : SendCur :=
  { slot := 0, addr := none, bytes := [1, 2, 3, 4], len := 4, off := 0, tag := 5, release := false, sig := {}, latch := none, abort := false, inj := some pkt0 }

theorem wit_ChannelSteps_sender :
    (let s := w2 (wT (fun t => { t with wait := some (.chopen 5), got := [8 + 7] }))
     s.coreOf 1 0 = some 0 ∧ (s.focus 0).core.occupied = true ∧ (s.focus 0).proc.gid = 1 ∧ (s.focus 0).proc.lid = 0 ∧
     (s.focusSlot 0 0).thr.wait = some (.chopen 5) ∧ (s.focusSlot 0 0).thr.got = [15] ∧ (s.focusSlot 0 0).thr.sentTo = none ∧ (s.focus 0).proc.handle 0 = none ∧
     (s.focus 0).proc.hasChannel 1 7 = false ∧ (s.focus 0).coreOf 1 1 = some 1 ∧ s.inTransfer 1 = false ∧ (s.coreAt 1).proc.ended = false ∧
     ((s.coreAt 1).proc.inb.filter (fun i => i.src != 0xFFFE)).length < 128 ∧ 128 ≤ (List.replicate 128 inb0).length) ∧
    (let o : OutCh := { chan with cur := some cur0, unack := 32 }
     let s := w2 (wP (wT (fun t => { t with wait := some (.send 31) })) (fun p => { p with handles := p.handles.set 31 (some o) }))
     (s.focus 0).proc.handle 31 = some o ∧ o.cur = some cur0 ∧ cur0.inj = some pkt0 ∧ o.lid ≠ 0xFFFE ∧ pkt0.last = true ∧ o.closing = false ∧
     { pkt0 with last := false }.last = false ∧ 32 ≤ o.unack ∧ (s.thrAt 0 cur0.slot).wait = some (.send 31)) ∧
    (let o : OutCh := { chan with lid := 1, seq := 0, unack := 32 }
     let s := w2 (wP w0 (fun p => { p with handles := p.handles.set 31 (some o) }))
     (s.focus 0).proc.handle 31 = some o ∧ s.inTransfer 0 = false ∧ (List.range 32).all (fun i => i == 31 || ((s.focus 0).proc.handle i).isNone) = true ∧
     (4095 : Nat) = (o.seq + 4095 - 0) % 4096 ∧ (4063 : Nat) = (o.seq + 4095 - 32) % 4096 ∧ { o with closeSent := true }.closeSent = true) ∧
    (let i : InCh := { inb0 with sinceAck := 1 }
     let s0 := wP w0 (fun p => { p with inb := [i] })
     let s := w2 { s0 with core := { s0.core with loc := [{ gid := 1, lid := 1, core := 1, mc := 0xFFFF }] } }
     s.isParked 1 = false ∧ (s.focus 0).proc.inb.find? (fun x => x.src == i.src && x.ch == i.ch) = some i ∧ s.cycle < i.lastDeliver + 256 ∧
     i.lastDeliver + 256 ≤ ({ s with cycle := 256 } : State).cycle ∧ (s.focus 0).coreOf 1 1 ≠ some 0 ∧
     findLoc (s.focus 0).core.loc 1 1 = some { gid := 1, lid := 1, core := 1, mc := 0xFFFF } ∧
     (1 ≤ (0 + 65536 - 0xFFFF) % 65536 ∧ (0 + 65536 - 0xFFFF) % 65536 ≤ 32767) ∧ ¬ (1 ≤ (0xFFFF + 65536 - 0xFFFF) % 65536)) ∧
    (let k : Core := { w0.core with lookup := [{ pkt0 with dst := 1, src := 0 }] }
     (({ w0 with core := k } : State).focus 0).core = k ∧ k.halted = false ∧ k.lookup = [{ pkt0 with dst := 1, src := 0 }] ∧ k.seeking = [] ∧
      ({ w0 with core := k } : State).elsewhere 0 1 1 = false) ∧
    (w0.proc.hold = none ∧ (wP (w11 0 0) (fun p => { p with hold := some .preempt })).slot.val = 11) := by decide +kernel

theorem wit_ChannelSteps_receiver :
    let s := w2 (wP w0 (fun p => { p with inb := [inb0], posted := p.posted.set 63 (some recv0) }))
    let f := s.focus 0
    (s.inTransfer 0 = false ∧ f.proc.win.wf = true ∧ s.isParked pkt0.gid = false ∧ (wG s { g1 with phase := .parked }).isParked pkt0.gid = true ∧ f.core.occupied = true ∧ f.proc.gid = pkt0.gid ∧ f.proc.lid = pkt0.dst ∧ (w2 w0).proc.inb = [] ∧ pkt0.src ≠ 0xFFFE) ∧
    (f.proc.inb.find? (fun i => i.src == pkt0.src && i.ch == pkt0.ch) = some inb0 ∧ 32 ≤ ((31 : Nat) + 4096 - inb0.expect) % 4096 ∧
      ((30 : Nat) + 4096 - inb0.expect) % 4096 < 32 ∧ f.proc.held = [] ∧ f.proc.spilled = [] ∧ f.proc.stream = none ∧ f.proc.copies = [] ∧ f.proc.landUntil ≤ s.cycle) ∧
    (pkt0.seq = inb0.expect ∧ f.proc.blocked = false ∧ f.proc.landFault = none ∧ f.core.halted = false ∧ (f.clusterAt 0).dbgHalted = false ∧ f.core.broke = [] ∧ f.proc.hold ≠ some .loaded ∧
      f.breaksOn pkt0 = false ∧ f.searching = false ∧ s.units = [] ∧ s.waiters = [] ∧ f.proc.matchPosted pkt0.src pkt0.tag pkt0.ch = some (63, recv0) ∧
      recv0.rcd.dest.toNat / 2 ^ 48 = 0xFFFF ∧ recv0.rcd.dest.toNat % 2 ^ 48 + recv0.rcd.maxlen ≤ f.proc.winsize ∧ pkt0.payload.length ≤ recv0.rcd.maxlen) ∧
    (let e : State := w2 { w0 with core := { w0.core with departed := [{ gid := 1, lid := 3, core := 64, mc := 1 }] } }
     findLoc (e.focus 0).core.departed 1 3 = some { gid := 1, lid := 3, core := 64, mc := 1 } ∧ (64 : Nat) ≠ 0 ∧ pkt0.origin ≠ gateCore ∧ (e.focus 0).proc.lid ≠ 3) ∧
    (let e := w2 (wP w0 (fun p => { p with posted := p.posted.set 63 (some { recv0 with ends := some 0 }) }))
     e.coreOf (e.focus 0).proc.gid (e.focus 0).proc.lid = some 0 ∧ ((e.focus 0).proc.posted.toList[63]?).getD none = some { recv0 with ends := some 0 } ∧
     recv0.adds = [] ∧ (some 0).any (fun k => decide (k ≤ e.cycle)) = true ∧ recv0.rcd.stat ≠ 0) := by decide +kernel

theorem wit_ChannelSteps_piece :
    let r : Posted := { recv0 with rcd := { recv0.rcd with maxlen := 64 }, landing := true }
    let m : InMsg := { at_ := .record 63, tag := 5, len := 64, got := 32, release := false }
    let pkt : Packet := { pkt0 with len := 64, payload := List.replicate 64 7 }
    let l : Landing := { pkt := some pkt, off := 32, k := 32, due := 0 }
    let e := (w2 (wP w0 (fun p => { p with inb := [{ inb0 with msg := some m }], posted := p.posted.set 63 (some r), stream := some l }))).focus 0
    e.proc.inb.find? (fun i => i.src == pkt.src && i.ch == pkt.ch) = some { inb0 with msg := some m } ∧ m.at_ = .record 63 ∧ m.release = false ∧
    (e.proc.posted.toList[63]?).getD none = some r ∧ e.proc.stream = some l ∧ l.pkt = some pkt ∧ l.due ≤ e.cycle ∧ l.off < pkt.payload.length ∧
    pkt.last = true ∧ e.proc.hdrs = [] ∧ e.proc.copies = [] ∧ e.proc.mq.latchWait = [] ∧ e.core.slots.toList.all (fun t => !t.kpend) = true ∧
    m.got + (pkt.payload.length - l.off) ≤ r.rcd.maxlen ∧ r.rcd.dest.toNat % 2 ^ 48 + r.rcd.maxlen ≤ e.proc.winsize := by
  decide +kernel

/-- The running request, and the state with it. -/
def req2 : CopyReq := { req9 with state := 2 }
def wCopy (r : CopyReq) : State := w2 (wFifo w0 [r])

/-- A matrix op of slot 0 in the queue of a warm engine. -/
def wMat (op : MOp) : State := w2 (wP w0 (fun p => { p with mq := { cold := false, queue := [op] } }))
def op0 : MOp := { id := 0, slot := 0, kind := .mlda, acc := 3, addr := 0xFFFF000000003C00, ctl := 0 }

theorem wit_EngineSteps :
    (let s := wCopy req9
     s.coreOf 1 0 = some 0 ∧ s.inTransfer 0 = false ∧ (s.focus 0).enginesRun = true ∧ (s.focus 0).proc.fifo = [req9] ∧ req9.aborted = false ∧
     req9.state = 1 ∧ req9.kind = 0 ∧ 0 < req9.len ∧ req9.cursor = 0) ∧
    (let s := wCopy req2
     (s.focus 0).proc.fifo = [req2] ∧ req2.state = 2 ∧ req2.backward = false ∧ req2.cursor < req2.len ∧ req2.acked ≤ req2.issued ∧ req2.wr = none ∧ s.waiters = [] ∧ s.far = [] ∧ (s.focus 0).proc.win.wf = true ∧ (s.focus 0).proc.pushQ = [] ∧
     req2.w1.toNat / 2 ^ 48 = 0xFFFF ∧ req2.w1.toNat % 2 ^ 48 + req2.len ≤ (s.focus 0).proc.winsize ∧ req2.w2.toNat % 2 ^ 48 + req2.len ≤ (s.focus 0).proc.winsize) ∧
    (let r : CopyReq := { req2 with lastIssued := true, issued := 64 }
     r.acked + 64 = r.issued ∧ r.id < 2 ^ 32 ∧ req2.acked + 0 = req2.issued ∧
     ((wCopy r).setThrAt 0 0 { live := true, wait := some (.cpwait 5 9) }).core.slots[(0 : Fin 12)].wait = some (.cpwait 5 r.id)) ∧
    (let r : CopyReq := { req2 with w3 := 0x3000 }
     let s0 := wCopy r
     let s : State := { s0 with core := { s0.core with proc := { s0.proc with ptroot := 0x100000 } }, mem := wTables }
     (match (s.focus 0).resolveNow false .rw 8 r.w3 0 with | .ok (.phys pa) _ _ _ => pa == 0x3000 | _ => false) = true ∧
     (s.focus 0).awayIn (.phys 0x3000) 8 = none) ∧
    (let s := wMat op0
     let m := (s.focus 0).proc.mq
     s.coreOf 1 0 = some 0 ∧ m.running = [] ∧ m.queue = [op0] ∧ m.waiting = [] ∧ m.busyUntil ≤ s.cycle ∧ m.coldAt s.cycle = false ∧ (s.focus 0).core.hot = false ∧
     (s.focus 0).proc.ended = false ∧ op0.kind = .mlda ∧ { op0 with kind := .mclr }.kind = .mclr ∧ op0.addr.toNat / 2 ^ 48 = 0xFFFF ∧ op0.addr.toNat % 16 = 0 ∧
     op0.addr.toNat % 2 ^ 48 + 1024 ≤ (s.focus 0).proc.winsize) ∧
    (let o : MOp := { op0 with res := [(3, 1)] }
     let s := w2 (wP (wT (fun t => { t with wait := some .op })) (fun p => { p with mq := { cold := false, running := [o] } }))
     (s.focus 0).proc.mq.running = [o] ∧ (s.focus 0).proc.mq.waiting = [] ∧ (s.focus 0).proc.mq.latchWait = [] ∧ o.late = false ∧ o.doneAt ≤ s.cycle ∧ ((s.focus 0).core.thr o.slot).wait = some .op ∧
     ((s.focus 0).core.thr o.slot).kpend = false) ∧
    ((1 : Nat) ≠ 0 ∧ ((w2 w0).focus 0).proc.hdrs = [] ∧ ((w2 w0).focus 0).proc.held = [] ∧ ((w2 w0).focus 0).proc.spilled = [] ∧ ((w2 w0).focus 0).proc.mq.latchWait = [] ∧
      (wT (fun t => { t with wait := some (.mldb true), got := [1] })).thr.got = [1] ∧
      (wT (fun t => { t with wait := some (.retry .latchEmpty) })).thr.wait = some (.retry .latchEmpty)) ∧
    (let m : MatQ := { cold := false }
     m.queue = [] ∧ m.busyUntil + 256 ≤ ({ w2 w0 with cycle := 256 } : State).cycle ∧ m.burst ≤ 256) := by decide +kernel

theorem wit_EngineSteps_latch :
    let p := ((w2 w0).focus 0).proc
    p.hdrs = [] ∧ p.held = [] ∧ p.spilled = [] ∧ p.copies = [] ∧ p.stream = none ∧ p.mq.latchWait = [] ∧
    ((w2 w0).focus 0).core.slots.toList.all (fun t => !t.kpend) = true ∧ req9.wr = none ∧ req9.id < 2 ^ 32 ∧ req2.id < 2 ^ 32 := by decide

/-- The annealer unit of the group's domain, its draws at their reset values. -/
def u0 : AUnit := { die := 0, idx := 7, gid := 1, gx := 0, gy := 0, w := 2, h := 2, resolvedAt := some 0 }

/-- The group with its unit and a process on each core. -/
def wAnn (u : AUnit) : State :=
  let pr (c l : Nat) : Nat × Core := (c, { occupied := true, proc := { w0.proc with lid := l, didx := l, unit := some (0, 7) } })
  { wG (wP w0 (fun p => { p with unit := some (0, 7) })) g1 with others := [pr 1 1, pr 64 2, pr 65 3], aunits := [u], cycle := 4096 }

theorem wit_AnnealerSteps :
    let s := wAnn u0
    (s.aunitOf 0 7 = some u0 ∧ u0.ctl % 4 = 3 ∧ u0.resolvedAt = some 0 ∧ 0 + u0.pint ≤ s.cycle ∧ s.groupRuns u0.gid = true ∧ u0.inFlight = false ∧
      u0.fold = none ∧ u0.drawing = none ∧ u0.ctl / 8 % 2 = 0 ∧ { u0 with inFlight := true }.inFlight = true) ∧
    (let draw (seed : BitVec 32) (cell : Nat) : Prop := (xorshift seed).toNat / 2 ^ 16 % 4 = 1 ∧ (xorshift seed).toNat / 2 ^ 8 % 2 ^ 8 % (u0.w * u0.h) = cell
     draw 136 0 ∧ 0 % u0.w + 1 < u0.w ∧ draw 8 1 ∧ u0.w ≤ 1 % u0.w + 1) ∧
    ((s.coreAt 0).occupied = true ∧ (s.coreAt 0).proc.anch = false ∧ (s.coreAt 1).occupied = true ∧ (s.coreAt 1).proc.anch = false ∧ s.moveBusy 0 = false ∧
      s.moveBusy 1 = false ∧ s.delta { u0 with seed := 136 } 0 1 ≤ 0) ∧
    (let v : AUnit := { u0 with fold := some [], foldFrom := 3840, foldAt := 32 }
     let o : OutCh := { chan with since := 64 }
     let s1 := wAnn v
     let k := s1.coreAt 1
     let t : State := s1.setCoreAt 1 { k with proc := { k.proc with handles := k.proc.handles.set 0 (some o) } }
     t.aunitOf 0 7 = some v ∧ t.cycle = v.foldFrom + 8 * v.foldAt ∧ t.indexCore v (v.foldAt / 32) = some 1 ∧ (t.coreAt 1).proc.handle (v.foldAt % 32) = some o ∧
     v.foldAt + 1 < 32 * (v.w * v.h)) ∧
    (let v : AUnit := { u0 with fold := some [(1, 1, 2, 6400)] }
     v.foldFrom + 256 * (v.w * v.h) + 1024 ≤ (wAnn v).cycle ∧
     v.fold = some [(1, v.gid, 2, 6400)] ∧ v.ext = [] ∧ ((wAnn v).domainProcs v).any (fun x => x.2.didx == 1) = true ∧
     (((wAnn v).domainProcs v).find? (fun x => x.2.lid == 2)).map (fun e => e.2.didx) = some 2) := by decide

/-- A move of lid 0 from core 0 to core 1, asked for by its process. -/
def mv0 : Move := { id := 4, kind := .requested, a := 0, b := 1, swto := 500 }

/-- The move in flight, core 1 empty. -/
def wMove (m : Move) : State :=
  let s := wG w0 g1
  { s with core := { s.core with moving := some 4 }, moves := [m] }

theorem wit_MovesAndHeat :
    (let s := wMove mv0
     s.moves.find? (fun x => x.id == 4) = some mv0 ∧ mv0.a ≠ mv0.b ∧ clusterOf mv0.a = clusterOf mv0.b ∧ s.dbgHalted mv0.a = false ∧
     (s.coreAt 0).moving = some 4 ∧ (s.coreAt 0).occupied = true ∧ (s.coreAt 0).proc.hold = none ∧ (s.coreAt 1).occupied = false ∧ s.mem.wf = true ∧
     (s.coreAt 0).proc.held = [] ∧ (s.coreAt 0).proc.spilled = [] ∧ (s.coreAt 0).proc.stream = none ∧ (s.coreAt 0).proc.copies = [] ∧ (s.coreAt 0).proc.mc < 2 ^ 16 ∧
     s.groupOf 1 = some g1 ∧ s.units = [] ∧ paType ((s.coreAt 0).proc.plbase.toNat + 8 * (s.coreAt 0).proc.lid) = 0) ∧
    (let s := wMove { mv0 with arrA := true, arrB := true }
     let h : State := s.setCoreAt 0 { s.coreAt 0 with proc := { (s.coreAt 0).proc with hold := some (.move 4) } }
     let k : State := h.setCoreAt 1 { h.coreAt 1 with moving := some 4 }
     k.sideReady 0 = true ∧ k.sideReady 1 = true) ∧
    (let m : Move := { mv0 with kind := .swap 0 7 }
     m.kind = .swap 0 7 ∧ m.transfer = false ∧ (wAnn u0).aunitOf 0 7 = some u0 ∧ { m with transfer := true }.transfer = true) ∧
    (let q (f : Proc → Proc) (t : Word) : State := wG (wP (wT (fun u => { u with wait := some (.migreq 5 t) })) f) g1
     ((q id 1).focusSlot 0 0).thr.wait = some (.migreq 5 1) ∧ ((q (fun p => { p with anch := true }) 1).focusSlot 0 0).proc.anch = true ∧
     ((q (fun p => { p with migp := true }) 1).focusSlot 0 0).proc.migp = true ∧ ((q id 1).focusSlot 0 0).proc.anch = false ∧
     (q id 1).groupRuns 1 = true ∧ ((q id 1).focusSlot 0 0).proc.regionCore 1 = some 1 ∧ ((q id 1).focusSlot 0 0).eligible none 1 = true ∧
     (1 : Word) ≠ BitVec.allOnes 64) ∧
    (let hot (t : Word) : State := wG { w0 with core := { w0.core with temp := t, thermRun := true, thermWithheld := 1, proc := { w0.proc with anch := true } } } g1
     (1520 ≤ ((hot 1520).focus 0).core.temp.toInt ∧ ((hot 1439).focus 0).core.temp.toInt < 1520 - 80 ∧ ¬ ((hot 1440).focus 0).core.temp.toInt < 1520 - 80 ∧
      0 < ((hot 1439).focus 0).core.thermWithheld ∧ ((hot 1520).focus 0).core.thermRun = true ∧
      (let c : State := { w0 with core := { w0.core with thermWithheld := 2 } }; (c.focus 0).core.thermRun = false ∧ 1 < (c.focus 0).core.thermWithheld) ∧ (hot 1520).coreOf 1 0 = some 0 ∧
      ((hot 1520).focus 0).core.proc.migp = false ∧ ((hot 1520).focus 0).core.proc.trip.toInt ≤ ((hot 1520).focus 0).core.temp.toInt ∧
      ((hot 1519).focus 0).core.temp.toInt < ((hot 1519).focus 0).core.proc.trip.toInt)) := by decide

theorem wit_GroupSteps :
    let s := wG (w0.setThrAt 0 11 { live := true, wait := some (.svsend 5), got := [2, 1, 3] }) { g1 with phase := .parking, store := [(3, w0.proc, Vector.replicate 12 {})] }
    let l := w2 (w0.setThrAt 0 11 { live := true, wait := some (.svsend 5), got := [3, 1, 1] })
    ((wG w0 g1).groupOf 1 = some g1 ∧ g1.phase = .running ∧ (s.thrAt 0 11).wait = some (.svsend 5) ∧ (s.groupOf 1).map (fun g => g.phase) ≠ some .running) ∧
    (let h := wG (wT (fun t => { t with frame := some fr2 })) { g1 with phase := .holding, held := [1] }
     0 ∈ h.groupCores 1 ∧ h.atSwapPoint 0 = false ∧ (h.groupOf 1).map (fun g => g.held) = some [1]) ∧
    ((s.thrAt 0 11).got = [2, 1, 3] ∧ (s.groupOf 1).map (fun g => (g.phase, g.store.map (fun e => e.1), g.savedL)) = some (.parking, [3], [])) ∧
    (let k : State := { wG l { g1 with phase := .parked } with others := [(1, { occupied := true, proc := { w0.proc with lid := 1, hold := some .loaded } })] }
     (k.thrAt 0 11).got = [3, 1, 1] ∧ k.coreOf 1 1 = some 1 ∧ (k.coreAt 1).proc.hold = some .loaded ∧ k.coreOf 1 2 = none ∧ k.coreOf 1 0 = some 0 ∧ (k.coreAt 0).proc.hold ≠ some .loaded ∧
     (k.groupOf 1).map (fun g => g.loadedL) = some [] ∧ [2, 3, 0].length + 1 = g1.n - g1.ends.length) ∧
    ([0, 1, 2, 3].length = g1.n - g1.ends.length ∧ ([] : List Nat).length ≠ g1.n - g1.ends.length) := by decide

theorem wit_RegisterSteps :
    ((w0.focus 0).core.proc.uq = [] ∧ (w0.focus 0).core.proc.held = [] ∧ (w0.focus 0).core.proc.spilled = [] ∧ ¬ (w0.focus 0).core.proc.winsize < 0x3F00 + 256 ∧
      (w0.focus 0).core.proc.winsize < 0x3F00 + 512 ∧ 0x3F00 + 256 ≤ (w0.focus 0).core.proc.winsize ∧ ent ∈ [ent] ∧ ent.pad = false) ∧
    ((0x801 : Word).getLsbD 11 = true ∧ (0x801 : Word).getLsbD 0 = true ∧ (w0.focus 0).core.slots[(0 : Fin 12)].live = true ∧
      (w0.focus 0).core.slots[(11 : Fin 12)].live = false ∧ (w0.focus 0).core.slots[(0 : Fin 12)].wait = none ∧
      ((w0.setThrAt 0 11 { live := true, wait := some (.trget 4) }).focus 0).core.slots[(11 : Fin 12)].wait = some (.trget 4) ∧
      ((wT (fun t => { t with wait := some (.waitm 4 none) })).focus 0).core.slots[(0 : Fin 12)].wait = some (.waitm 4 none) ∧ (w0.focus 0).core.proc.hold = none ∧
      0x800 ≤ (0x800 : Nat) ∧ (10 : Fin 12).val ≠ 11) ∧
    (let s := wTrapped 0 0 none
     let k : State := { s with core := { s.core with txsel := 3 } }
     (k.focus 0).core.txsel.toNat % 16 = 3 ∧ (k.focus 0).core.slots[(3 : Fin 12)].trap.isSome = true ∧ (s.focus 0).core.slots[(0 : Fin 12)].trap = none) ∧
    (let s := wG w0 g1
     let h : State := { s with core := { s.core with halted := true } }
     (s.focus 0).core.halted = false ∧ (h.focus 0).core.halted = true ∧ (h.focus 0).core.occupied = true ∧ (h.focus 0).eligible none 1 = true ∧
     1 ∈ (h.focus 0).proc.regionCores ∧ (h.focus 0).core.moving = none) := by decide

/-- A whole message for the host in the gateway. -/
def gate0 : GateCh := { gid := 1, lid := 0, ch := 7, full := [(5, 4, [1, 2, 3, 4], false)] }

/-- A message for lid 3. -/
def mail0 : HostMsg := { gid := 1, lid := 3, tag := 5, len := 0, payload := [] }

/-- Group 1 with the module changed. -/
def wMod (m : Module) : State := { wG w0 g1 with module := m }

theorem wit_HostSide :
    ((128 : Nat) % 64 = 0 ∧ 128 < 4096 ∧ (0 + 4096 - 4032) % 4096 ≤ (128 + 4096 - 4032) % 4096 ∧ (128 + 4096 - 4032) % 4096 < (192 + 4096 - 4032) % 4096 ∧
      ({ hrsize := 4096, hrtail := 128, hrhead := 4032 } : Module).hrtail ≠ 4032 ∧ (2 ^ 30 : Nat) = 2 ^ (12 + 18) ∧ w0.module.attctl = false ∧ w0.module.modid < 2 ^ 16) ∧
    (let m : Module := { hrsize := 4096, hrtail := 4032, hrhead := 0, gate := [gate0] }
     m.gate.find? (fun x => x.gid == gate0.gid && x.lid == gate0.lid && x.ch == gate0.ch) = some gate0 ∧ gate0.full = [(5, 4, [1, 2, 3, 4], false)] ∧
     m.hrtail + (16 + 4 + 63) / 64 * 64 ≤ m.hrsize ∧ ({ m with hrtail := 0 }.hrtail + m.hrsize - m.hrhead) % m.hrsize + 64 < m.hrsize ∧ w0.mem.wf = true ∧
     { gate0 with full := [] }.full = [] ∧ { m with hrsize := 0 }.hrsize = 0) ∧
    (let s := wMod { phase := 1, mbind := Memory.write [] 8190 2 1 }
     (4095 : Nat) < 4096 ∧ Memory.read s.module.mbind (2 * 4095) 2 = 1 ∧ s.groupOf 1 = some g1 ∧ g1.phase = .running ∧ s.module.mbox.wf = true ∧
     s.module.mbBusy = [] ∧ s.module.edgeQ.length < 8192 ∧ 56 * 2 ^ 32 + 3 < 2 ^ 38 ∧ (56 * 2 ^ 32 + 3) / 2 ^ 32 ≤ 56 ∧ (56 * 2 ^ 32 + 3) % 2 ^ 16 < g1.n ∧
     s.module.phase ≠ 0 ∧ 56 < (57 * 2 ^ 32 + 3) / 2 ^ 32 ∧ g1.n ≤ (4 : Nat) % 2 ^ 16) ∧
    (let s := wMod { mbBusy := [(4095, 1)], mbox := Memory.write [] (64 * 4095) 8 (5 * 2 ^ 16 + 3) }
     s.module.mbBusy = [(4095, 1)] ∧ s.mailOf 4095 1 = some mail0 ∧ s.groupOf mail0.gid = some g1) ∧
    (let s : State := { w2 w0 with module := { edgeQ := [mail0, { mail0 with lid := 1 }], hostCh := [{ gid := 1, lid := 3, unack := 32 }] } }
     s.module.edgeQ = [mail0] ++ { mail0 with lid := 1 } :: [] ∧ s.canSend mail0 = false ∧ s.canSend { mail0 with lid := 1 } = true ∧ s.coreOf 1 1 = some 1) := by
  decide

theorem wit_ModuleSteps :
    (let p : LinkPort := { rxSeq := 4095, failed := 63 }
     let s : State := { w2 w0 with module := { ports := (Vector.replicate 12 {}).set 11 p } }
     s.module.ports[(11 : Fin 12)] = p ∧ p.failed = 63 ∧ p.stopped = false ∧ s.coreOf pkt0.gid pkt0.dst = some 0 ∧ (4094 : Nat) ≠ p.rxSeq ∧ p.unacked = []) ∧
    (let r : LinkReq := { (default : LinkReq) with kind := .load, place := .phys 0x3000, tag := { modid := 1, core := 0, who := 11 } }
     r.place = .phys 0x3000 ∧ paType 0x3000 = 0 ∧ w0.units = [] ∧ w0.bad = [] ∧ w0.watches = [] ∧ r.kind = .load ∧ { r with kind := .store }.mask = 0 ∧
     r.tag.who < 12 ∧ (w0.thrAt 0 11).wait = none ∧ (4095 : Nat) < 4096) ∧
    (let p : LinkPort := { unacked := [(0, 0, .ack default)], failed := 62 }
     p.unacked = (0, 0, .ack default) :: [] ∧ 0 + 8192 ≤ ({ w0 with cycle := 8192 } : State).cycle ∧ p.failed < 63) ∧
    (w0.module.phase = 0 ∧ (wMod { phase := 1 }).module.phase ≠ 0 ∧ w0.mem.wf = true ∧ 0 < w0.module.droophold ∧ (wMod { droophold := 0 }).module.droophold = 0) ∧
    (let s (k : Cluster) : State := { w0 with clusters := [(767, k)] }
     ((s {}).clusterAt 767).droopUntil ≤ w0.cycle ∧ w0.cycle < ((s { droopUntil := 1 }).clusterAt 767).droopUntil ∧ ((s {}).clusterAt 767).dbgHalted = false ∧
     ((s { dbgHalted := true, paused := [(3, .droopHoldEnd 767)] }).clusterAt 767).dbgHalted = true ∧
     (List.range 4).all (fun i => !(s {}).inTransfer (clusterCore 767 i)) = true) := by decide

theorem wit_TurnsKeepInv :
    let s := wCode 0x0094C700#32 0#32
    s.Inv ∧ (s.redo = [] ∧ s.agenda = [] ∧ s.todo = [0] ∧
      (({ s with todo := [] } : State).focusSlot 0 (s.cycle % 12)).issue = .word 0x0094C700#32 (some 0x40000) ∧ registerMajor 0x0094C700#32 = true) ∧
    registerMajor 0x38000000#32 = false :=
  ⟨⟨by decide +kernel, by decide +kernel, by decide +kernel, by decide +kernel, by decide +kernel, by decide +kernel, by decide +kernel, by decide +kernel, by decide +kernel⟩, by decide +kernel, by decide⟩

/-! ### One step each: values from the spec's own tables and worked examples -/

/-- The value of an x register after an instruction. -/
def xAfter (i : Instr) (s : State) (r : BitVec 5) : Option Word := match exec i s with | .next t => some (t.rx r) | _ => none
def fAfter (i : Instr) (s : State) (r : BitVec 5) : Option Word := match exec i s with | .next t => some (t.rf r) | _ => none

/-- Table 3.3: shift edges. -/
theorem test_shift_edges :
    let s (b : Word) : State := wX 0x8000000080000001 b
    xAfter (.srl 0 5 6 7) (s 0x41) 5 = some 0x4000000040000000 ∧ xAfter (.sra 0 5 6 7) (s 63) 5 = some 0xFFFFFFFFFFFFFFFF ∧
    xAfter (.rotr 0 5 6 7) (s 1) 5 = some 0xC000000040000000 ∧ xAfter (.srlw 0 5 6 7) (s 0) 5 = some 0xFFFFFFFF80000001 ∧
    xAfter (.srlw 0 5 6 7) (s 1) 5 = some 0x40000000 ∧ xAfter (.sraw 0 5 6 7) (s 1) 5 = some 0xFFFFFFFFC0000000 ∧
    xAfter (.addw 0 5 6 7) (s 0x7FFFFFFF) 5 = some 0 := by decide

/-- Table 3.5: division edges. -/
theorem test_division_edges :
    xAfter (.div 0 5 6 7) (wX 7 (-2)) 5 = some (-3) ∧ xAfter (.rem 0 5 6 7) (wX 7 (-2)) 5 = some 1 ∧ xAfter (.div 0 5 6 7) (wX (-7) 2) 5 = some (-3) ∧
    xAfter (.rem 0 5 6 7) (wX (-7) 2) 5 = some (-1) ∧ xAfter (.div 0 5 6 7) (wX 5 0) 5 = some (-1) ∧ xAfter (.remu 0 5 6 7) (wX 5 0) 5 = some 5 ∧
    xAfter (.div 0 5 6 7) (wX 0x8000000000000000 (-1)) 5 = some 0x8000000000000000 ∧ xAfter (.rem 0 5 6 7) (wX 0x8000000000000000 (-1)) 5 = some 0 ∧
    xAfter (.divw 0 5 6 7) (wX 0x180000000 (-1)) 5 = some 0xFFFFFFFF80000000 ∧ xAfter (.divuw 0 5 6 7) (wX 0xFFFFFFFF 0) 5 = some (-1) ∧
    xAfter (.remuw 0 5 6 7) (wX 0xFFFFFFFF 0) 5 = some (-1) ∧ xAfter (.divuw 0 5 6 7) (wX 0xFFFFFFFF 1) 5 = some (-1) := by decide

/-- The worked example of R81. -/
theorem test_bitfields :
    xAfter (.extu 0 5 6 7) (wX 0xABCD00 0xC08) 5 = some 0xBCD ∧ xAfter (.exts 0 5 6 7) (wX 0xABCD00 0xC08) 5 = some 0xFFFFFFFFFFFFFBCD ∧
    xAfter (.insb 0 5 6 7) ((wX 0x123 0xC08).setThr ((wX 0x123 0xC08).thr.wx 5 (-1))) 5 = some 0xFFFFFFFFFFF123FF ∧
    xAfter (.extu 0 5 6 7) (wX 0xA000000000000000 0x83C) 5 = some 0xA ∧ xAfter (.exts 0 5 6 7) (wX 0xA000000000000000 0x83C) 5 = some 0xFFFFFFFFFFFFFFFA ∧
    xAfter (.insb 0 5 6 7) (wX 0xFF 0x83C) 5 = some 0xF000000000000000 := by decide

/-- The worked example of MOVI and MOVK, its first two words; x0 keeps reading 0 (R54). -/
theorem test_movi_movk :
    xAfter (.movi 0 5 0xDEF0) w0 5 = some 0xDEF0 ∧ xAfter (.movk 0 5 1 0x9ABC) (w0.setThr (w0.thr.wx 5 0xDEF0)) 5 = some 0x9ABCDEF0 ∧
    xAfter (.movi 0 0 7) w0 0 = some 0 := by decide

/-- The worked example of two orders: 1.0 + 2^24 rounds to even, and 2^24 - 2^24 is +0. -/
theorem test_fadd_orders :
    let s (a b : Word) : State := wT (fun t => (t.wf 1 a).wf 2 b)
    fAfter (.fadd 0 1 4 1 2) (s 0x3F800000 0x4B800000) 4 = some 0x4B800000 ∧ fAfter (.fadd 0 1 4 1 2) (s 0x4B800000 0xCB800000) 4 = some 0 := by decide +kernel

/-- Table 5.4: codes of the narrow family. -/
theorem test_narrow_codes :
    (fmDesc 0x00030474).map (fun f => (f.fmt.val 0xB5, f.fmt.val 3)) = some (FV.fin true 21 (-4), FV.fin false 3 (-6)) ∧ (fmDesc 0x00FD0404).map (fun f => f.fmt.val 0xB) = some (FV.fin false 11 0) := by
  decide +kernel

/-- R12: the places of cores A at (3, 5) and B at (40, 30). -/
theorem test_core_places :
    coreId 3 5 = 323 ∧ coreId 40 30 = 1960 ∧ dieOf 323 = 0 ∧ dieOf 1960 = 3 ∧ clusterOf 323 = 65 ∧ clusterOf 1960 = 500 ∧ coreIndex 323 = 3 ∧ coreIndex 1960 = 0 := by
  decide

end Sys2Proof
end

section
/-! Integer and address instructions (spec 03): what each word writes, told of the machine words themselves, and the statements
about them. -/

namespace Sys2Proof.Machine

/-- A word that computes one x register writes the value that it computes, in any form that equals it. -/
theorem toX_writes {q : BitVec 3} {d : BitVec 5} {f : Thread → Word} {s : State} {v : Word} (h : f s.thr = v) :
    toX q d f s = .next (s.ran q (fun t => t.wx d v)) := (toX_ran q d f s).trans (ran_congr h)

/-! ### Digit loops of the bit words (R79)

`ctzN`, `popN` and `revN` look at `fuel` digits of a number; their lemmas speak of the bits of that number. -/

/-- The bit that `ctzN` stops at is the lowest one that is set. -/
theorem ctzN_spec (f v : Nat) :
    ctzN f v ≤ f ∧ (∀ i < ctzN f v, v.testBit i = false) ∧ (ctzN f v < f → v.testBit (ctzN f v) = true) := by
  induction f generalizing v with
  | zero => simp [ctzN]
  | succ f ih =>
    obtain ⟨hle, hlow, htop⟩ := ih (v / 2)
    by_cases hv : v % 2 = 1
    · simp [ctzN, hv, Nat.testBit_zero]
    · rw [ctzN, if_neg hv, Nat.add_comm 1]
      refine ⟨by omega, fun i hi => ?_, fun h => ?_⟩
      · cases i with
        | zero => simpa [Nat.testBit_zero] using hv
        | succ i => rw [Nat.testBit_succ]; exact hlow i (by omega)
      · rw [Nat.testBit_succ]; exact htop (by omega)

/-- `popN` counts the places of the set bits. -/
theorem popN_eq_count (f v : Nat) : popN f v = ((List.range f).filter v.testBit).length := by
  induction f generalizing v with
  | zero => rfl
  | succ f ih =>
    have hshift : v.testBit ∘ Nat.succ = (v / 2).testBit := funext fun i => Nat.testBit_succ v i
    rw [popN, ih, List.range_succ_eq_map, List.filter_cons, List.filter_map, hshift, Nat.testBit_zero]
    rcases Nat.mod_two_eq_zero_or_one v with h | h <;> simp [h, Nat.add_comm]

/-- `revN` in base 2^k moves digit `i` of the first `f` to place `f - 1 - i`, below the digits gathered before. -/
theorem testBit_revN (k f v acc i j : Nat) (hj : j < k) :
    (revN (2 ^ k) f v acc).testBit (k * i + j) = if i < f then v.testBit (k * (f - 1 - i) + j) else acc.testBit (k * (i - f) + j) := by
  induction f generalizing v acc with
  | zero => simp [revN]
  | succ f ih =>
    rw [revN, ih]
    by_cases hi : i < f
    · have hplace : k * (f - i) + j = k * (f - 1 - i) + j + k := by
        rw [show f - i = f - 1 - i + 1 by omega, Nat.mul_add]; omega
      rw [if_pos hi, if_pos (by omega), Nat.testBit_div_two_pow, Nat.add_sub_cancel, hplace, Nat.add_comm]
    · rw [if_neg hi, Nat.mul_comm acc, Nat.testBit_two_pow_mul_add _ (Nat.mod_lt _ (Nat.two_pow_pos k))]
      obtain rfl | hlt : i = f ∨ f < i := by omega
      · simp [hj, Nat.testBit_mod_two_pow]
      · have hplace : k * (i - f) + j = k * (i - (f + 1)) + j + k := by
          rw [show i - f = i - (f + 1) + 1 by omega, Nat.mul_add]; omega
        rw [if_neg (by omega), if_neg (by omega), hplace, Nat.add_sub_cancel]

/-! ### Counts and reversals, bit by bit (R79) -/

/-- Above the highest set bit of a word stand `clz64` zeros. -/
theorem clz64_spec (x : Word) :
    clz64 x ≤ 64 ∧ (∀ i, 64 - clz64 x ≤ i → x.getLsbD i = false) ∧ (clz64 x < 64 → x.getLsbD (63 - clz64 x) = true) := by
  by_cases hx : x = 0
  · simp [clz64, hx]
  · have hn : x.toNat ≠ 0 := fun h => hx (BitVec.eq_of_toNat_eq h)
    have hlog : x.toNat.log2 < 64 := (Nat.log2_lt hn).2 x.isLt
    rw [clz64, if_neg hx]
    refine ⟨by omega, fun i hi => ?_, fun _ => ?_⟩
    · rw [← BitVec.testBit_toNat]
      exact Nat.testBit_lt_two_pow ((Nat.log2_lt hn).1 (by omega))
    · rw [← BitVec.testBit_toNat, show 63 - (63 - x.toNat.log2) = x.toNat.log2 by omega]
      exact Nat.testBit_log2 hn

theorem ctz_spec (x : Word) :
    ctzN 64 x.toNat ≤ 64 ∧ (∀ i < ctzN 64 x.toNat, x.getLsbD i = false) ∧
      (ctzN 64 x.toNat < 64 → x.getLsbD (ctzN 64 x.toNat) = true) := ctzN_spec 64 x.toNat

theorem getLsbD_brev (x : Word) (i : Nat) (hi : i < 64) :
    (BitVec.ofNat 64 (revN 2 64 x.toNat 0)).getLsbD i = x.getLsbD (63 - i) := by
  have h := testBit_revN 1 64 x.toNat 0 i 0 (by decide)
  rw [BitVec.getLsbD_ofNat, ← BitVec.testBit_toNat]
  simpa [hi] using h

theorem getLsbD_bswap (x : Word) (i j : Nat) (hi : i < 8) (hj : j < 8) :
    (BitVec.ofNat 64 (revN 256 8 x.toNat 0)).getLsbD (8 * i + j) = x.getLsbD (8 * (7 - i) + j) := by
  have h := testBit_revN 8 8 x.toNat 0 i j hj
  have hlt : 8 * i + j < 64 := by omega
  rw [BitVec.getLsbD_ofNat, ← BitVec.testBit_toNat]
  simpa [hi, hlt] using h

/-! ### Bit fields (R80, R81) -/

/-- A length of 0 means 64, so no field is empty. -/
theorem fieldLen_pos (b : Word) : 0 < fieldLen b := by
  unfold fieldLen; dsimp only; split <;> omega

/-- SignExtend repeats the bit `n - 1` upward. -/
theorem getLsbD_sext (v : Word) (n i : Nat) (hn : 0 < n) (hi : i < 64) : (sext v n).getLsbD i = v.getLsbD (min i (n - 1)) := by
  rw [sext, BitVec.getLsbD_signExtend, BitVec.msb_setWidth, BitVec.getLsbD_setWidth]
  by_cases h : i < n
  · rw [if_pos h, Nat.min_eq_left (by omega)]; simp [hi, h]
  · rw [if_neg h, Nat.min_eq_right (by omega)]; simp [hi, hn]

theorem getLsbD_zext (v : Word) (n i : Nat) (hi : i < 64) : (zext v n).getLsbD i = (decide (i < n) && v.getLsbD i) := by
  simp [zext, BitVec.getLsbD_setWidth, hi]

/-- An arithmetic shift repeats bit 63. -/
theorem getLsbD_sshiftRight_min (x : Word) (p i : Nat) (hi : i < 64) : (x.sshiftRight p).getLsbD i = x.getLsbD (min 63 (p + i)) := by
  rw [BitVec.getLsbD_sshiftRight]
  by_cases h : p + i < 64
  · rw [if_pos h, Nat.min_eq_right (by omega)]; simp [hi]
  · rw [if_neg h, Nat.min_eq_left (by omega), BitVec.msb_eq_getLsbD_last]; simp [hi]

/-- The field of EXTS, cut at bit 63 and sign-extended. -/
theorem getLsbD_exts (x b : Word) (i : Nat) (hi : i < 64) :
    (sext (x.sshiftRight (fieldPos b)) (fieldLen b)).getLsbD i = x.getLsbD (min 63 (fieldPos b + min i (fieldLen b - 1))) := by
  rw [getLsbD_sext _ _ _ (fieldLen_pos b) hi, getLsbD_sshiftRight_min _ _ _ (by omega)]

/-- The field of EXTU, cut at bit 63 and zero-extended. -/
theorem getLsbD_extu (x b : Word) (i : Nat) (hi : i < 64) :
    (zext (x >>> fieldPos b) (fieldLen b)).getLsbD i = (decide (i < fieldLen b) && x.getLsbD (fieldPos b + i)) := by
  rw [getLsbD_zext _ _ _ hi, BitVec.getLsbD_ushiftRight]

theorem getLsbD_insbMask (b : Word) (i : Nat) (hi : i < 64) :
    (insbMask b).getLsbD i = decide (fieldPos b ≤ i ∧ i < fieldPos b + fieldLen b) := by
  rw [insbMask, BitVec.getLsbD_ofNat, Nat.testBit_shiftLeft, Nat.testBit_two_pow_sub_one, Bool.eq_iff_iff]
  simp [hi]; omega

/-- INSB replaces the bits of the field and keeps the others. -/
theorem getLsbD_insb (o x b : Word) (i : Nat) (hi : i < 64) :
    ((o &&& ~~~ (insbMask b)) ||| ((x <<< fieldPos b) &&& insbMask b)).getLsbD i =
      if fieldPos b ≤ i ∧ i < fieldPos b + fieldLen b then x.getLsbD (i - fieldPos b) else o.getLsbD i := by
  rw [BitVec.getLsbD_or, BitVec.getLsbD_and, BitVec.getLsbD_and, BitVec.getLsbD_not, BitVec.getLsbD_shiftLeft, getLsbD_insbMask b i hi]
  by_cases h : fieldPos b ≤ i ∧ i < fieldPos b + fieldLen b
  · simp [h, hi]
  · rw [decide_eq_false h, if_neg h]; simp [hi]

/-! ### The statement about the bit words -/

/-- Settles O6: each word writes what it computes, whose bits the lemmas above give. -/
theorem integerBits : Obligations.IntegerBits := by
  intro q d a b s
  show (∃ n, _ ∧ execClz q d a s = _ ∧ _) ∧ (∃ n, _ ∧ execCtz q d a s = _ ∧ _) ∧ execPopc q d a s = _ ∧
    (∃ v, execBrev q d a s = _ ∧ _) ∧ (∃ v, execBswap q d a s = _ ∧ _) ∧
    execSextb q d a s = _ ∧ execSexth q d a s = _ ∧ execSextw q d a s = _ ∧
    execZextb q d a s = _ ∧ execZexth q d a s = _ ∧ execZextw q d a s = _ ∧
    (∃ v, execExts q d a b s = _ ∧ _) ∧ (∃ v, execExtu q d a b s = _ ∧ _) ∧ (∃ v, execInsb q d a b s = _ ∧ _)
  obtain ⟨hclz, hclzBits⟩ := clz64_spec (s.rx a)
  obtain ⟨hctz, hctzBits⟩ := ctz_spec (s.rx a)
  exact ⟨⟨_, hclz, toX_writes rfl, hclzBits⟩, ⟨_, hctz, toX_writes rfl, hctzBits⟩,
    toX_writes (congrArg (BitVec.ofNat 64) (popN_eq_count 64 _)),
    ⟨_, toX_writes rfl, getLsbD_brev _⟩, ⟨_, toX_writes rfl, getLsbD_bswap _⟩,
    toX_writes rfl, toX_writes rfl, toX_writes rfl, toX_writes rfl, toX_writes rfl, toX_writes rfl,
    ⟨_, toX_writes rfl, getLsbD_exts _ _⟩, ⟨_, toX_writes rfl, getLsbD_extu _ _⟩, ⟨_, toX_writes rfl, getLsbD_insb _ _ _⟩⟩

/-! ### Products and quotients as those of the integers (R77, R78) -/

/-- The high half of the signed product: `ofInt` carries products, so the 128-bit product is the exact one. -/
theorem mulh_eq_ofInt (x y : Word) :
    (((x.signExtend 128 * y.signExtend 128) >>> 64).setWidth 64) = BitVec.ofInt 64 (x.toInt * y.toInt / 2 ^ 64) := by
  have hprod : x.signExtend 128 * y.signExtend 128 = BitVec.ofInt 128 (x.toInt * y.toInt) := (BitVec.ofInt_mul ..).symm
  apply BitVec.eq_of_toNat_eq
  rw [hprod, BitVec.toNat_setWidth, BitVec.toNat_ushiftRight, BitVec.toNat_ofInt, BitVec.toNat_ofInt, Nat.shiftRight_eq_div_pow]
  generalize x.toInt * y.toInt = p
  omega

/-- The high half of the unsigned product, which does not wrap in 128 bits. -/
theorem mulhu_eq_ofNat (x y : Word) :
    (((x.setWidth 128 * y.setWidth 128) >>> 64).setWidth 64) = BitVec.ofNat 64 (x.toNat * y.toNat / 2 ^ 64) := by
  have hprod : x.setWidth 128 * y.setWidth 128 = BitVec.ofNat 128 (x.toNat * y.toNat) := by
    rw [BitVec.ofNat_mul, BitVec.ofNat_toNat, BitVec.ofNat_toNat]
  apply BitVec.eq_of_toNat_eq
  rw [hprod, BitVec.toNat_setWidth, BitVec.toNat_ushiftRight, BitVec.toNat_ofNat, BitVec.toNat_ofNat, Nat.shiftRight_eq_div_pow]
  generalize x.toNat * y.toNat = p
  omega

/-- Wrapping the quotient covers the most negative dividend over -1. -/
theorem divS_eq_ofInt {n : Nat} (x y : BitVec n) : divS x y = if y = 0 then BitVec.allOnes n else BitVec.ofInt n (x.toInt.tdiv y.toInt) :=
  if_congr Iff.rfl rfl (BitVec.eq_of_toInt_eq (by rw [BitVec.toInt_sdiv, BitVec.toInt_ofInt]))

theorem remS_eq_ofInt {n : Nat} (x y : BitVec n) : remS x y = if y = 0 then x else BitVec.ofInt n (x.toInt.tmod y.toInt) :=
  if_congr Iff.rfl rfl (by rw [← BitVec.toInt_srem, BitVec.ofInt_toInt])

theorem divU_eq_ofNat {n : Nat} (x y : BitVec n) : divU x y = if y = 0 then BitVec.allOnes n else BitVec.ofNat n (x.toNat / y.toNat) :=
  if_congr Iff.rfl rfl (by rw [← BitVec.toNat_udiv, BitVec.ofNat_toNat, BitVec.setWidth_eq])

theorem remU_eq_ofNat {n : Nat} (x y : BitVec n) : remU x y = if y = 0 then x else BitVec.ofNat n (x.toNat % y.toNat) :=
  if_congr Iff.rfl rfl (by rw [← BitVec.toNat_umod, BitVec.ofNat_toNat, BitVec.setWidth_eq])

/-- A W form sign-extends either result of a division; all ones stay all ones. -/
theorem wRes_quotient (y v : BitVec 32) :
    wRes (if y = 0 then BitVec.allOnes 32 else v) = if y = 0 then BitVec.allOnes 64 else wRes v := apply_ite wRes _ _ _

/-- An index scaled by a shift is one scaled by a product. -/
theorem shiftLeft_eq_mul (x : Word) (k : Nat) : x <<< k = BitVec.twoPow 64 k * x := by
  rw [BitVec.shiftLeft_eq_mul_twoPow, BitVec.mul_comm]

/-! ### The statement about the ALU, multiply and divide words -/

/-- Settles O5: each word writes what it computes; for the high products and the divisions that is the value of the integers. -/
theorem integerArithmetic : Obligations.IntegerArithmetic := by
  refine ⟨fun q d a b s => ?_, fun q d a b s => ?_⟩
  · show execAdd q d a b s = _ ∧ execSub q d a b s = _ ∧ execAnd q d a b s = _ ∧ execOr q d a b s = _ ∧ execXor q d a b s = _ ∧
      execAndn q d a b s = _ ∧ execSll q d a b s = _ ∧ execSrl q d a b s = _ ∧ execSra q d a b s = _ ∧ execRotr q d a b s = _ ∧
      execAddw q d a b s = _ ∧ execSubw q d a b s = _ ∧ execSllw q d a b s = _ ∧ execSrlw q d a b s = _ ∧ execSraw q d a b s = _ ∧
      execMin q d a b s = _ ∧ execMax q d a b s = _ ∧ execMinu q d a b s = _ ∧ execMaxu q d a b s = _ ∧
      execLea1 q d a b s = _ ∧ execLea2 q d a b s = _ ∧ execLea3 q d a b s = _
    exact ⟨toX_writes rfl, toX_writes rfl, toX_writes rfl, toX_writes rfl, toX_writes rfl, toX_writes rfl, toX_writes rfl,
      toX_writes rfl, toX_writes rfl, toX_writes rfl, toX_writes rfl, toX_writes rfl, toX_writes rfl, toX_writes rfl, toX_writes rfl,
      toX_writes (if_congr BitVec.slt_iff_toInt_lt rfl rfl), toX_writes (if_congr BitVec.slt_iff_toInt_lt rfl rfl),
      toX_writes (if_congr BitVec.lt_def rfl rfl), toX_writes (if_congr BitVec.lt_def rfl rfl),
      toX_writes (congrArg _ (shiftLeft_eq_mul _ 1)), toX_writes (congrArg _ (shiftLeft_eq_mul _ 2)),
      toX_writes (congrArg _ (shiftLeft_eq_mul _ 3))⟩
  · show execMul q d a b s = _ ∧ execMulh q d a b s = _ ∧ execMulhu q d a b s = _ ∧ execMulw q d a b s = _ ∧
      execDiv q d a b s = _ ∧ execDivu q d a b s = _ ∧ execRem q d a b s = _ ∧ execRemu q d a b s = _ ∧
      execDivw q d a b s = _ ∧ execDivuw q d a b s = _ ∧ execRemw q d a b s = _ ∧ execRemuw q d a b s = _
    exact ⟨toX_writes rfl, toX_writes (mulh_eq_ofInt _ _), toX_writes (mulhu_eq_ofNat _ _), toX_writes rfl,
      toX_writes (divS_eq_ofInt _ _), toX_writes (divU_eq_ofNat _ _), toX_writes (remS_eq_ofInt _ _), toX_writes (remU_eq_ofNat _ _),
      toX_writes ((congrArg wRes (divS_eq_ofInt _ _)).trans (wRes_quotient ..)),
      toX_writes ((congrArg wRes (divU_eq_ofNat _ _)).trans (wRes_quotient ..)),
      toX_writes ((congrArg wRes (remS_eq_ofInt _ _)).trans (apply_ite wRes _ _ _)),
      toX_writes ((congrArg wRes (remU_eq_ofNat _ _)).trans (apply_ite wRes _ _ _))⟩

/-! ### Halfwords and predicates as bits (R82, R85) -/

/-- MOVK replaces the bits of one halfword and keeps the others. -/
theorem getLsbD_movk (o : Word) (hw : BitVec 2) (imm : BitVec 16) (j : Nat) (hj : j < 64) :
    ((o &&& ~~~ (0xFFFF#64 <<< (16 * hw.toNat))) ||| (imm.setWidth 64 <<< (16 * hw.toNat))).getLsbD j =
      if j / 16 = hw.toNat then imm.getLsbD (j % 16) else o.getLsbD j := by
  have hmask (i : Nat) : (0xFFFF#64).getLsbD i = decide (i < 16) := by
    rw [show 0xFFFF#64 = BitVec.ofNat 64 (2 ^ 16 - 1) from rfl, BitVec.getLsbD_ofNat, Nat.testBit_two_pow_sub_one, Bool.eq_iff_iff]
    simp; omega
  rw [BitVec.getLsbD_or, BitVec.getLsbD_and, BitVec.getLsbD_not, BitVec.getLsbD_shiftLeft, BitVec.getLsbD_shiftLeft, hmask,
    BitVec.getLsbD_setWidth]
  by_cases hin : j / 16 = hw.toNat
  · have hlow : ¬ j < 16 * hw.toNat := by omega
    have hoff : j - 16 * hw.toNat = j % 16 := by omega
    have hmod : j % 16 < 16 := Nat.mod_lt _ (by decide)
    simp [hin, hj, hlow, hoff, hmod, Nat.lt_trans hmod]
  · have hout : j < 16 * hw.toNat ∨ 16 ≤ j - 16 * hw.toNat := by omega
    rw [if_neg hin]
    rcases hout with h | h
    · simp [hj, h]
    · simp [hj, Nat.not_lt.mpr h, BitVec.getLsbD_of_ge imm _ h]

/-- A sum of distinct powers of two has the bits that it was made from. -/
theorem sumBits_spec (g : Nat → Bool) (n : Nat) :
    let v := (List.range n).foldl (fun acc i => acc + (if g i then 2 ^ i else 0)) 0
    v < 2 ^ n ∧ ∀ i, v.testBit i = (decide (i < n) && g i) := by
  induction n with
  | zero => simp
  | succ n ih =>
    obtain ⟨hlt, hbits⟩ := ih
    rw [List.range_succ, List.foldl_append, List.foldl_cons, List.foldl_nil]
    generalize List.foldl _ 0 (List.range n) = v at hlt hbits ⊢
    have hform : v + (if g n then 2 ^ n else 0) = 2 ^ n * (g n).toNat + v := by cases g n <;> simp [Nat.add_comm]
    dsimp only
    rw [hform]
    refine ⟨?_, fun i => ?_⟩
    · rw [Nat.pow_succ]
      exact (Nat.add_lt_add_left hlt _).trans_le (Nat.mul_le_mul_left _ (Nat.succ_le_succ (Bool.toNat_le (g n))))
    · rw [Nat.testBit_two_pow_mul_add _ hlt, Nat.testBit_bool_toNat, hbits]
      obtain h | rfl | h := Nat.lt_trichotomy i n
      · simp [h, Nat.lt_succ_of_lt h]
      · simp
      · simp [Nat.not_lt.mpr h.le, show ¬ i < n + 1 by omega, show i - n ≠ 0 by omega]

/-- PMOVX packs p0 to p7 in bits 7:0. -/
theorem getLsbD_predBits (t : Thread) (i : Nat) (hi : i < 64) :
    (BitVec.ofNat 64 (predBits t)).getLsbD i = (decide (i < 8) && t.rp (BitVec.ofNat 3 i)) := by
  rw [BitVec.getLsbD_ofNat, predBits, (sumBits_spec (fun i => t.rp (BitVec.ofNat 3 i)) 8).2]
  simp [hi]

/-- A write of a predicate changes the predicates alone. -/
theorem wp_preds (t : Thread) (d : BitVec 3) (v : Bool) : ∃ p, t.wp d v = { t with p := p } := by
  unfold Thread.wp; split
  · exact ⟨t.p, rfl⟩
  · exact ⟨_, rfl⟩

/-- Writes of p1 to `n` from the bits of a word: nothing but the predicates changes, and those above `n` stay. -/
theorem foldl_wp_spec (t : Thread) (v : Word) (n : Nat) (hn : n ≤ 7) :
    let u := (List.range n).foldl (fun t i => t.wp (BitVec.ofNat 3 (i + 1)) (v.getLsbD (i + 1))) t
    (∃ p, u = { t with p := p }) ∧
      ∀ r : BitVec 3, r ≠ 0#3 → u.rp r = if r.toNat ≤ n then v.getLsbD r.toNat else t.rp r := by
  induction n with
  | zero => exact ⟨⟨t.p, rfl⟩, fun r hr => by simp_all [← BitVec.toNat_inj]⟩
  | succ n ih =>
    obtain ⟨⟨p, hp⟩, hread⟩ := ih (by omega)
    rw [List.range_succ, List.foldl_append, List.foldl_cons, List.foldl_nil]
    refine ⟨?_, fun r hr => ?_⟩
    · exact (wp_preds _ _ _).imp fun p' hp' => by rw [hp', hp]
    · have hnum : (BitVec.ofNat 3 (n + 1)).toNat = n + 1 := by rw [BitVec.toNat_ofNat]; omega
      have hne : BitVec.ofNat 3 (n + 1) ≠ 0#3 := fun h => by rw [h] at hnum; simp at hnum
      rw [rp_wp, hread r hr]
      by_cases h : r = BitVec.ofNat 3 (n + 1)
      · rw [if_pos ⟨h, hne⟩, h, hnum, if_pos (Nat.le_refl _)]
      · have : r.toNat ≠ n + 1 := fun e => h (BitVec.eq_of_toNat_eq (e.trans hnum.symm))
        rw [if_neg fun e => h e.1]
        exact if_congr (by omega) rfl rfl

/-- XMOVP writes p1 to p7, and nothing but predicates. -/
theorem setPreds_spec (t : Thread) (v : Word) :
    (∃ p, setPreds t v = { t with p := p }) ∧ ∀ r : BitVec 3, r ≠ 0#3 → (setPreds t v).rp r = v.getLsbD r.toNat := by
  obtain ⟨hpreds, hread⟩ := foldl_wp_spec t v 7 (Nat.le_refl _)
  exact ⟨hpreds, fun r hr => (hread r hr).trans (if_pos (by have := r.isLt; omega))⟩

theorem execXmovp_ran (q : BitVec 3) (a : BitVec 5) (s : State) :
    execXmovp q a s = .next (s.ran q (fun _ => setPreds s.thr (s.rx a))) := by
  apply guarded_ran; simp [State.retire]

theorem execSel_writes (q : BitVec 3) (d a b : BitVec 5) (s : State) :
    execSel q d a b s = .next (s.setThr (s.thr.wx d (if s.rp q then s.rx a else s.rx b)).retired) := by
  simp [execSel, State.wx, State.retire]

/-! ### The statement about the immediate and predicate words -/

/-- Settles O7: each word writes what it computes; MOVK, PMOVX and XMOVP are told by bits. -/
theorem immediatesAndPredicates : Obligations.ImmediatesAndPredicates := by
  refine ⟨fun q d a imm sh sw i18 hw i16 s => ?_, fun q d a b pd pa pb s => ?_⟩
  · show execAddi q d a imm s = _ ∧ execAndi q d a imm s = _ ∧ execOri q d a imm s = _ ∧ execXori q d a imm s = _ ∧
      execSlli q d a sh s = _ ∧ execSrli q d a sh s = _ ∧ execSrai q d a sh s = _ ∧ execRotri q d a sh s = _ ∧
      execSlliw q d a sw s = _ ∧ execSrliw q d a sw s = _ ∧ execSraiw q d a sw s = _ ∧ execMovi q d i18 s = _ ∧
      (∃ v, execMovk q d hw i16 s = _ ∧ _)
    exact ⟨toX_writes rfl, toX_writes rfl, toX_writes rfl, toX_writes rfl, toX_writes rfl, toX_writes rfl, toX_writes rfl, toX_writes rfl,
      toX_writes rfl, toX_writes rfl, toX_writes rfl, toX_writes rfl, ⟨_, toX_writes rfl, getLsbD_movk _ _ _⟩⟩
  · show execSel q d a b s = _ ∧ execPand q pd pa pb s = _ ∧ execPor q pd pa pb s = _ ∧ execPxor q pd pa pb s = _ ∧
      execPandn q pd pa pb s = _ ∧ (∃ v, execPmovx q d s = _ ∧ _) ∧ (∃ u, execXmovp q a s = _ ∧ _ ∧ _)
    obtain ⟨hpreds, hread⟩ := setPreds_spec s.thr (s.rx a)
    exact ⟨execSel_writes q d a b s, toP_ran .., toP_ran .., toP_ran .., toP_ran .., ⟨_, toX_writes rfl, getLsbD_predBits _⟩,
      ⟨_, execXmovp_ran q a s, hpreds, hread⟩⟩

end Sys2Proof.Machine
end

section
/-! Integer compares (spec 04): the condition told of integers, the two values that a combine type leaves in the predicates, and the
statement about CMP and CMPI. -/

namespace Sys2Proof.Machine

/-! ### Conditions (R93) -/

/-- Table 4.2, with the orders those of the integers and of the natural numbers. -/
def condHolds (cnd : BitVec 3) (x y : Word) : Bool :=
  match cnd.toNat with
  | 0 => decide (x = y)
  | 1 => decide (x ≠ y)
  | 2 => decide (x.toInt < y.toInt)
  | 3 => decide (y.toInt ≤ x.toInt)
  | 4 => decide (x.toNat < y.toNat)
  | 5 => decide (y.toNat ≤ x.toNat)
  | 6 => decide (x &&& y ≠ 0)
  | _ => decide (x &&& y = 0)

theorem intCond_eq_condHolds (cnd : BitVec 3) (x y : Word) : intCond cnd x y = condHolds cnd x y := by
  have hnslt : (!x.slt y) = decide (y.toInt ≤ x.toInt) := by simp [BitVec.slt, ← decide_not]
  have hnult : (!x.ult y) = decide (y.toNat ≤ x.toNat) := by simp [BitVec.ult, ← decide_not]
  unfold intCond condHolds
  generalize cnd.toNat = n
  match n with
  | 0 | _ + 7 => exact beq_eq_decide ..
  | 1 | 6 => exact (congrArg not (beq_eq_decide ..)).trans (decide_not ..).symm
  | 2 | 4 => rfl
  | 3 => exact hnslt
  | 5 => exact hnult

/-! ### Combine types (R94) -/

/-- What pd1 is left with, from the guard, the condition and its old value: the old value where the type writes nothing. -/
def combinedFst (ty : BitVec 3) (g c o : Bool) : Bool :=
  match ty.toNat with
  | 0 => if g then c else o
  | 1 => g && c
  | 2 => o && (!g || c)
  | 3 => o || (g && c)
  | 4 => o && !(g && c)
  | 5 => o || (g && !c)
  | 6 => if g then o && c else o
  | _ => if g then o || c else o

/-- What pd2 is left with. -/
def combinedSnd (ty : BitVec 3) (g c o : Bool) : Bool :=
  match ty.toNat with
  | 0 => if g then !c else o
  | 1 => g && !c
  | 2 => o && (!g || c)
  | 3 => o || (g && c)
  | 4 => o && !(g && c)
  | 5 => o || (g && !c)
  | 6 => if g then o || c else o
  | _ => if g then o != c else o

/-- To write nothing is to leave both old values. -/
theorem combine_getD (ty : BitVec 3) (g c o1 o2 : Bool) :
    (combine ty g c o1 o2).getD (o1, o2) = (combinedFst ty g c o1, combinedSnd ty g c o2) := by
  unfold combine combinedFst combinedSnd
  generalize ty.toNat = n
  match n with
  | 0 | 1 | 2 | 3 | 4 | 5 | 6 | _ + 7 => cases g <;> cases c <;> simp

/-- A compare changes predicates alone. -/
theorem combined_preds (t : Thread) (q pd1 pd2 ty : BitVec 3) (c : Bool) : ∃ p, t.combined q pd1 pd2 ty c = { t with p := p } := by
  unfold Thread.combined
  split
  next n1 n2 _ =>
    obtain ⟨p1, h1⟩ := wp_preds t pd1 n1
    obtain ⟨p2, h2⟩ := wp_preds (t.wp pd1 n1) pd2 n2
    exact ⟨p2, by rw [h2, h1]⟩
  next => exact ⟨t.p, rfl⟩

/-- A predicate after a compare: the value for pd2 stands over that for pd1, and p0 keeps reading 1. -/
theorem rp_combined (t : Thread) (q pd1 pd2 ty : BitVec 3) (c : Bool) (r : BitVec 3) :
    (t.combined q pd1 pd2 ty c).rp r =
      if r = 0#3 then true else if r = pd2 then combinedSnd ty (t.rp q) c (t.rp pd2)
      else if r = pd1 then combinedFst ty (t.rp q) c (t.rp pd1) else t.rp r := by
  have hleft := combine_getD ty (t.rp q) c (t.rp pd1) (t.rp pd2)
  by_cases hr : r = 0#3
  · rw [hr, rp_zero, if_pos rfl]
  rw [if_neg hr, Thread.combined]
  cases hw : combine ty (t.rp q) c (t.rp pd1) (t.rp pd2) with
  | none =>
    obtain ⟨h1, h2⟩ : t.rp pd1 = _ ∧ t.rp pd2 = _ := by simpa [hw] using hleft
    rw [← h1, ← h2]
    split_ifs with h2 h1
    · rw [h2]
    · rw [h1]
    · rfl
  | some n =>
    obtain ⟨n1, n2⟩ := n
    obtain ⟨rfl, rfl⟩ : n1 = _ ∧ n2 = _ := by simpa [hw] using hleft
    have hwritten (d : BitVec 3) : r = d ∧ d ≠ 0#3 ↔ r = d := and_iff_left_of_imp fun h => h ▸ hr
    simp only [rp_wp, hwritten]

/-- What a compare does, its condition given: it retires with the predicates of `rp_combined` and nothing else changed. -/
theorem compare_spec (s : State) (q pd1 pd2 ty : BitVec 3) {c c' : Bool} (hc : c = c') :
    ∃ p : Vector Bool 8, s.compare q pd1 pd2 ty c = .next (s.setThr ({ s.thr with p := p } : Thread).retired) ∧
      ∀ r : BitVec 3, ({ s.thr with p := p } : Thread).rp r =
        if r = 0#3 then true else if r = pd2 then combinedSnd ty (s.rp q) c' (s.rp pd2)
        else if r = pd1 then combinedFst ty (s.rp q) c' (s.rp pd1) else s.rp r := by
  subst hc
  obtain ⟨p, hp⟩ := combined_preds s.thr q pd1 pd2 ty c
  refine ⟨p, ?_, fun r => ?_⟩
  · simp [State.compare, State.retire, hp]
  · rw [← hp]; exact rp_combined ..

/-! ### The statement about CMP and CMPI -/

/-- Settles O8: both words are a compare under the condition of Table 4.2. -/
theorem integerCompares : Obligations.IntegerCompares := fun q pd1 pd2 ty _ _ _ _ s =>
  ⟨compare_spec s q pd1 pd2 ty (intCond_eq_condHolds ..), compare_spec s q pd1 pd2 ty (intCond_eq_condHolds ..)⟩

end Sys2Proof.Machine
end

section
/-! The system words (spec 19): SYSC, BRK, words that are not defined and HALT, and the statement about them. -/

namespace Sys2Proof.Machine

/-! ### Words that trap (R66, R382) -/

theorem guarded_of_true {q : BitVec 3} {s : State} (h : s.rp q = true) (body : State → Out) : guarded q s body = body s := if_pos h

theorem guarded_of_false {q : BitVec 3} {s : State} (h : s.rp q = false) (body : State → Out) :
    guarded q s body = .next (s.setThr s.thr.retired) := if_neg (by simp [h])

/-- BREAK is taken as every trap is, with the literal in INFO. -/
theorem execBrk_of_true {q : BitVec 3} {s : State} (h : s.rp q = true) (b : BitVec 5) :
    execBrk q b s = .next ((s.setThr (s.thr.bubble .vac)).trapWith 0x09 0 (b.setWidth 32)) := guarded_of_true h _

/-- The record of an undefined word holds the word: it stands in the thread when the trap is taken. -/
theorem execUndefinedWord_raises (w : IWord) (s : State) (h : s.slot.val ≠ 11) :
    let t := { s.thr with ir := w, scvac := s.thr.scvac + 1 }
    let r := t.record s.slot.val 0x01 0 0
    execUndefinedWord w s = .next ((s.setThr (t.trapped r)).raise s.here r) := by
  obtain ⟨r, rfl, htrap⟩ := takeTrap_raises (s.setThr { s.thr with ir := w }) .illegal 0 h
  rw [thr_setThr, setThr_setThr] at htrap
  exact htrap

/-! ### HALT (R386, R396) -/

theorem execHalt_of_true {q : BitVec 3} {s : State} (hslot : s.slot.val = 11) (h : s.rp q = true) :
    execHalt q s = .next ((s.setThr s.thr.retired).haltCore none) := (if_neg (not_not_intro hslot)).trans (guarded_of_true h _)

/-- A halt keeps `haltAt` only where that field holds the present cycle already. -/
theorem haltCore_keeps_haltAt_iff (s : State) (r : Option TrapRec) :
    s.haltCore r = { s with core := { s.core with halted := true },
                            module := { s.module with reports := s.module.reports ++ [.halt s.here r] } } ↔ s.core.haltAt = s.cycle := by
  constructor
  · intro h
    exact (congrArg (·.core.haltAt) h).symm
  · intro h
    rw [State.haltCore, ← h]

/-- With its guard true, HALT leaves `haltAt` as it was only where that field holds the present cycle already. -/
theorem execHalt_keeps_haltAt_iff {q : BitVec 3} {s : State} (hslot : s.slot.val = 11) (h : s.rp q = true) :
    let s1 := s.setThr s.thr.retired
    execHalt q s = .next { s1 with core := { s1.core with halted := true },
                                   module := { s.module with reports := s.module.reports ++ [.halt s.here none] } } ↔
      s.core.haltAt = s.cycle := by
  intro s1
  rw [execHalt_of_true hslot h, Host.Outcome.next.injEq]
  exact haltCore_keeps_haltAt_iff (s.setThr s.thr.retired) none

/-! ### The statement about the system words -/

/-- Its clauses on SYSC, BRK and undefined words hold; the one on HALT forgets that a halt stamps the core with its cycle. -/
theorem systemCalls_iff :
    Obligations.SystemCalls ↔ ∀ (q : BitVec 3) (s : State), s.slot.val = 11 → s.rp q = true → s.core.haltAt = s.cycle := by
  constructor
  · rintro ⟨-, -, hhalt⟩ q s hslot hq
    exact (execHalt_keeps_haltAt_iff hslot hq).1 (hhalt q s hslot hq)
  · intro hstamp
    refine ⟨fun q a b s => ?_, fun s w => ?_, fun q s hslot hq => ?_⟩
    · show (_ → execSysc q a s = _ ∧ execBrk q b s = _) ∧ (_ → execSysc q a s = _ ∧ execBrk q b s = _)
      exact ⟨fun hq => ⟨guarded_of_false hq _, guarded_of_false hq _⟩, fun hq => ⟨guarded_of_true hq _, execBrk_of_true hq b⟩⟩
    · exact execUndefinedWord_raises w s
    · exact (execHalt_keeps_haltAt_iff hslot hq).2 (hstamp q s hslot hq)

/-- Refutes O16: in slot 11 in cycle 1, HALT leaves `haltAt` 1 where the statement keeps the old value 0. Everything else it says holds
(`systemCalls_iff`). -/
theorem not_systemCalls : ¬ Obligations.SystemCalls := by
  rw [systemCalls_iff]
  intro hstamp
  have hnow := hstamp 0 { w11 0 0 with cycle := 1 } (by decide) (by decide)
  exact absurd hnow (by decide)

end Sys2Proof.Machine
end

section
/-! Numbers that are packed from fields of given widths, as the words of the spec's tables are. -/

namespace Sys2Proof

/-- The number whose fields, lowest first, have given widths and values. -/
def packed : List (Nat × Nat) → Nat
  | [] => 0
  | f :: l => f.2 + 2 ^ f.1 * packed l

/-- The bit at which field `i` begins. -/
def fieldPos : List (Nat × Nat) → Nat → Nat
  | _, 0 => 0
  | [], _ => 0
  | f :: l, i + 1 => f.1 + fieldPos l i

/-- Every value fits its field. -/
def Fits : List (Nat × Nat) → Prop
  | [] => True
  | f :: l => f.2 < 2 ^ f.1 ∧ Fits l

theorem packed_lt {l : List (Nat × Nat)} (h : Fits l) : packed l < 2 ^ fieldPos l l.length := by
  induction l with
  | nil => exact Nat.one_pos
  | cons f l ih =>
    obtain ⟨hf, hl⟩ := h
    calc f.2 + 2 ^ f.1 * packed l < 2 ^ f.1 * (packed l + 1) := by rw [Nat.mul_add_one]; lia
      _ ≤ 2 ^ f.1 * 2 ^ fieldPos l l.length := Nat.mul_le_mul_left _ (ih hl)
      _ = _ := (Nat.pow_add ..).symm

/-- Each field holds its value. -/
theorem packed_field {l : List (Nat × Nat)} (h : Fits l) (i : Nat) {f : Nat × Nat} (hi : l[i]? = some f) : packed l / 2 ^ fieldPos l i % 2 ^ f.1 = f.2 := by
  induction l generalizing i with
  | nil => exact absurd hi (by simp)
  | cons g l ih =>
    obtain ⟨hg, hl⟩ := h
    cases i with
    | zero =>
      obtain rfl : g = f := by simpa using hi
      rw [fieldPos, Nat.pow_zero, Nat.div_one, packed, Nat.add_mul_mod_self_left, Nat.mod_eq_of_lt hg]
    | succ i =>
      rw [packed, fieldPos, Nat.pow_add, ← Nat.div_div_eq_div_mul, Nat.add_mul_div_left _ _ (Nat.two_pow_pos _), Nat.div_eq_of_lt hg, Nat.zero_add]
      exact ih hl i (by simpa using hi)

section
variable {n : Nat} {l : List (Nat × Nat)} (hn : n = packed l) (h : Fits l)
include hn h

/-- The fields of a number that is packed from them. -/
theorem field_of_packed (i : Nat) (f : Nat × Nat) (hi : l[i]? = some f) : n / 2 ^ fieldPos l i % 2 ^ f.1 = f.2 := by
  rw [hn]
  exact packed_field h i hi

theorem low_of_packed (f : Nat × Nat) (hi : l[0]? = some f) : n % 2 ^ f.1 = f.2 := by
  have hfield := field_of_packed hn h 0 f hi
  rwa [fieldPos, Nat.pow_zero, Nat.div_one] at hfield

/-- Nothing is above the last field. -/
theorem top_of_packed : n / 2 ^ fieldPos l l.length = 0 := by
  rw [hn]
  exact Nat.div_eq_of_lt (packed_lt h)

/-- The last field is all that is at its place and above. -/
theorem last_of_packed (i : Nat) (f : Nat × Nat) (hi : l[i]? = some f) (hlast : fieldPos l l.length = fieldPos l i + f.1) :
    n / 2 ^ fieldPos l i = f.2 := by
  rw [← field_of_packed hn h i f hi, Nat.mod_eq_of_lt]
  rw [Nat.div_lt_iff_lt_mul (Nat.two_pow_pos _), ← Nat.pow_add, Nat.add_comm, ← hlast, hn]
  exact packed_lt h

/-- A one-bit field as a flag. -/
theorem bit_of_packed (i : Nat) (c : Bool) (hi : l[i]? = some (1, c.toNat)) :
    n.testBit (fieldPos l i) = c := by
  have hfield := field_of_packed hn h i _ hi
  rw [Nat.testBit_eq_decide_div_mod_eq, show n / 2 ^ fieldPos l i % 2 = c.toNat from hfield]
  cases c <;> rfl

end

/-- A word of a packed number holds all of it. -/
theorem toNat_ofNat_packed {w n : Nat} {l : List (Nat × Nat)} (hn : n = packed l) (h : Fits l) (hw : fieldPos l l.length ≤ w) :
    (BitVec.ofNat w n).toNat = packed l := by
  rw [BitVec.toNat_ofNat, hn]
  exact Nat.mod_eq_of_lt ((packed_lt h).trans_le (Nat.pow_le_pow_right Nat.two_pos hw))

end Sys2Proof
end

section
/-! The round trips of the decoder and the encoder (spec 02, R61-R66). -/

namespace Sys2Proof

/-- The law of every constructor: a word of Table 2.14 has one of its own, a step of the machine has no word. -/
theorem Laws.EncodeRoundTrip.all (i : Instr) : Laws.EncodeRoundTrip.Statement i := by
  cases i with
  | add => apply add | sub => apply sub | and => apply and | or => apply or | xor => apply xor | andn => apply andn | sll => apply sll
  | srl => apply srl | sra => apply sra | rotr => apply rotr | addw => apply addw | subw => apply subw | sllw => apply sllw
  | srlw => apply srlw | sraw => apply sraw | min => apply min | max => apply max | minu => apply minu | maxu => apply maxu
  | lea1 => apply lea1 | lea2 => apply lea2 | lea3 => apply lea3 | mul => apply mul | mulh => apply mulh | mulhu => apply mulhu
  | mulw => apply mulw | div => apply div | divu => apply divu | rem => apply rem | remu => apply remu | divw => apply divw
  | divuw => apply divuw | remw => apply remw | remuw => apply remuw | clz => apply clz | ctz => apply ctz | popc => apply popc
  | brev => apply brev | bswap => apply bswap | sextb => apply sextb | sexth => apply sexth | sextw => apply sextw | zextb => apply zextb
  | zexth => apply zexth | zextw => apply zextw | exts => apply exts | extu => apply extu | insb => apply insb | sel => apply sel
  | pand => apply pand | por => apply por | pxor => apply pxor | pandn => apply pandn | pmovx => apply pmovx | xmovp => apply xmovp
  | addi => apply addi | andi => apply andi | ori => apply ori | xori => apply xori | slli => apply slli | srli => apply srli
  | srai => apply srai | rotri => apply rotri | slliw => apply slliw | srliw => apply srliw | sraiw => apply sraiw | movi => apply movi
  | movk => apply movk | fadd => apply fadd | fsub => apply fsub | fmul => apply fmul | fdiv => apply fdiv | fsqrt => apply fsqrt
  | fmin => apply fmin | fmax => apply fmax | fminn => apply fminn | fmaxn => apply fmaxn | fabs => apply fabs | fneg => apply fneg
  | fcpys => apply fcpys | fclass => apply fclass | fmvxf => apply fmvxf | fmvfx => apply fmvfx | fma => apply fma | fms => apply fms
  | fnma => apply fnma | fnms => apply fnms | fcmpd => apply fcmpd | fcmps => apply fcmps | fcvt => apply fcvt | fexp2 => apply fexp2
  | flog2 => apply flog2 | fsinp => apply fsinp | fcosp => apply fcosp | frsq => apply frsq | frcp => apply frcp | ftanh => apply ftanh
  | xclr => apply xclr | xaddv => apply xaddv | xadds => apply xadds | xaddx => apply xaddx | xrnd => apply xrnd | xneg => apply xneg
  | vadd => apply vadd | vsub => apply vsub | vmul => apply vmul | vfma => apply vfma | vdiv => apply vdiv | vsqrt => apply vsqrt
  | vmin => apply vmin | vmax => apply vmax | vminu => apply vminu | vmaxu => apply vmaxu | vabs => apply vabs | vneg => apply vneg
  | vand => apply vand | vor => apply vor | vxor => apply vxor | vshl => apply vshl | vshra => apply vshra | vshrl => apply vshrl
  | vsel => apply vsel | vmov => apply vmov | vbcast => apply vbcast | vext => apply vext | vins => apply vins | vperm => apply vperm
  | vreds => apply vreds | vredn => apply vredn | vredx => apply vredx | vcvt => apply vcvt | vcmp => apply vcmp | kand => apply kand
  | kor => apply kor | kxor => apply kxor | knot => apply knot | kset => apply kset | kget => apply kget | kpop => apply kpop
  | ktest => apply ktest | vqnt => apply vqnt | vdqnt => apply vdqnt | mma => apply mma | mmaz => apply mmaz | cmp => apply cmp
  | cmpi => apply cmpi | gets => apply gets | puts => apply puts | br => apply br | brl => apply brl | jr => apply jr | jrl => apply jrl
  | bdec => apply bdec | rpt => apply rpt | hstart => apply hstart | hend => apply hend | hjoin => apply hjoin | hstat => apply hstat
  | hkill => apply hkill | iflush => apply iflush | ldb => apply ldb | ldh => apply ldh | ldw => apply ldw | ldd => apply ldd
  | ldbu => apply ldbu | ldhu => apply ldhu | ldwu => apply ldwu | stb => apply stb | sth => apply sth | stw => apply stw
  | std => apply std | fldh => apply fldh | fldw => apply fldw | fldd => apply fldd | fsth => apply fsth | fstw => apply fstw
  | fstd => apply fstd | vld => apply vld | vst => apply vst | ldf => apply ldf | ldfc => apply ldfc | stf => apply stf
  | fesete => apply fesete | fesetf => apply fesetf | feget => apply feget | lda => apply lda | stl => apply stl | fence => apply fence
  | pref => apply pref | cwb => apply cwb | cinv => apply cinv | vlds => apply vlds | vsts => apply vsts | aadd => apply aadd
  | aand => apply aand | aor => apply aor | axor => apply axor | amin => apply amin | amax => apply amax | aminu => apply aminu
  | amaxu => apply amaxu | aswp => apply aswp | afadd => apply afadd | acas => apply acas | acas2 => apply acas2 | monarm => apply monarm
  | mondis => apply mondis | waitm => apply waitm | monst => apply monst | bararr => apply bararr | barwait => apply barwait
  | barsync => apply barsync | bardef => apply bardef | barst => apply barst | chopen => apply chopen | chclose => apply chclose
  | chinfo => apply chinfo | send => apply send | sendr => apply sendr | sendv => apply sendv | sendvr => apply sendvr
  | sendw => apply sendw | sendwr => apply sendwr | precv => apply precv | pcancel => apply pcancel | probe => apply probe
  | uqtake => apply uqtake | ctrget => apply ctrget | ctrset => apply ctrset | ctradd => apply ctradd | ctrwait => apply ctrwait
  | ttset => apply ttset | ttclr => apply ttclr | spawn => apply spawn | spawnw => apply spawnw | take => apply take | steal => apply steal
  | trun => apply trun | tprio => apply tprio | mldb => apply mldb | mpass => apply mpass | mpop => apply mpop | mlda => apply mlda
  | msta => apply msta | mclr => apply mclr | mburst => apply mburst | mstat => apply mstat | cppush => apply cppush
  | cppushb => apply cppushb | cpwait => apply cpwait | cpstat => apply cpstat | cpabort => apply cpabort | posget => apply posget
  | lidget => apply lidget | whereLid => apply whereLid | anchor => apply anchor | unanchor => apply unanchor | migreq => apply migreq
  | chtraf => apply chtraf | annget => apply annget | annset => apply annset | sysc => apply sysc | brk => apply brk | tret => apply tret
  | trget => apply trget | ctxsave => apply ctxsave | ctxload => apply ctxload | glaunch => apply glaunch | bankcfg => apply bankcfg
  | tlbinv => apply tlbinv | dump => apply dump | halt => apply halt | svsend => apply svsend
  | _ => exact of_step rfl

/-- Settles O1: each constructor has its own law. -/
theorem decodeOfEncode : Obligations.DecodeOfEncode := Laws.EncodeRoundTrip.all

/-! ### What it is to decode to instructions that a word encodes -/

/-- Every instruction that `o` may be is a word of the machine, and `w` is its encoding. -/
structure Encodes (o : Option Instr) (w : IWord) : Prop where
  spec : ∀ i, o = some i → encode i = w ∧ i.isWord = true

theorem Encodes.none {w : IWord} : Encodes none w := ⟨fun _ h => nomatch h⟩

theorem Encodes.some {i : Instr} {w : IWord} (hw : i.isWord = true) (h : encode i = w) : Encodes (some i) w :=
  ⟨fun _ hi => Option.some.inj hi ▸ ⟨h, hw⟩⟩

theorem Encodes.need {c : Bool} {i : Instr} {w : IWord} (hw : i.isWord = true) (h : c = true → encode i = w) : Encodes (need c i) w := by
  unfold Sys2Proof.need
  split
  · exact .some hw (h ‹_›)
  · exact .none

theorem Encodes.needR {c : Bool} {i : Instr} {q : BitVec 3} {op : BitVec 6} {d a b d' a' b' : BitVec 5} {fn fn' : BitVec 8}
    (hw : i.isWord = true) (he : encode i = joinR q op d' a' b' fn') (h : c = true → d' = d ∧ a' = a ∧ b' = b ∧ fn' = fn) :
    Encodes (Sys2Proof.need c i) (joinR q op d a b fn) := by
  refine .need hw fun hc => ?_
  obtain ⟨rfl, rfl, rfl, rfl⟩ := h hc
  exact he

theorem Encodes.someR {i : Instr} {q : BitVec 3} {op : BitVec 6} {d a b d' a' b' : BitVec 5} {fn fn' : BitVec 8}
    (hw : i.isWord = true) (he : encode i = joinR q op d' a' b' fn') (h : d' = d ∧ a' = a ∧ b' = b ∧ fn' = fn) :
    Encodes (.some i) (joinR q op d a b fn) :=
  Encodes.needR (c := true) hw he fun _ => h

theorem Encodes.needM {c : Bool} {i : Instr} {q : BitVec 3} {op : BitVec 6} {d a d' a' : BitVec 5} {sz : BitVec 3} {imm imm' : BitVec 10}
    (hw : i.isWord = true) (he : encode i = joinM q op d' a' sz imm') (h : c = true → d' = d ∧ a' = a ∧ imm' = imm) :
    Encodes (Sys2Proof.need c i) (joinM q op d a sz imm) := by
  refine .need hw fun hc => ?_
  obtain ⟨rfl, rfl, rfl⟩ := h hc
  exact he

/-! ### Fields put together from their parts -/

theorem eq_ofNat_of_toNat {n : Nat} {x : BitVec n} {k : Nat} (h : x.toNat = k) : x = BitVec.ofNat n k := by
  rw [← h, BitVec.ofNat_toNat, BitVec.setWidth_eq]

theorem setWidth_of_isK : ∀ x : BitVec 5, isK x = true → (x.setWidth 3).setWidth 5 = x := by decide
theorem setWidth_of_isV : ∀ x : BitVec 5, isV x = true → (x.setWidth 4).setWidth 5 = x := by decide
theorem setWidth_of_lt4 : ∀ x : BitVec 5, x.toNat < 4 → (x.setWidth 2).setWidth 5 = x := by decide
theorem setWidth_of_lt8 : ∀ x : BitVec 4, ¬ 8 ≤ x.toNat → (x.setWidth 3).setWidth 4 = x := by decide
theorem setWidth_of_lt {m n : Nat} (x : BitVec n) (h : x.toNat < 2 ^ m) : (x.setWidth m).setWidth n = x :=
  BitVec.eq_of_toNat_eq (by rw [BitVec.toNat_setWidth, BitVec.toNat_setWidth, Nat.mod_eq_of_lt h, Nat.mod_eq_of_lt x.isLt])
theorem setWidth_of_lt64 (x : BitVec 10) (h : x.toNat < 64) : (x.setWidth 6).setWidth 10 = x := setWidth_of_lt x h
theorem setWidth_of_lt32 (x : BitVec 10) (h : x.toNat < 32) : (x.setWidth 5).setWidth 10 = x := setWidth_of_lt x h
theorem pairFld_pairOf : ∀ x : BitVec 5, isJ x = true → pairFld (pairOf x) = x := by decide
theorem evenFld_of_even : ∀ x : BitVec 5, x.toNat % 2 = 0 → evenFld (x.extractLsb' 1 4) = x := by decide
theorem bit_of_ne_zero : ∀ x : BitVec 1, ¬ (x == 0#1) = true → x = 1#1 := by decide
theorem reg_of_isV : ∀ x : BitVec 5, isV x = true → 0#1 ++ x.setWidth 4 = x := by decide
theorem reg_of_not_isV : ∀ x : BitVec 5, ¬ isV x = true → 1#1 ++ x.setWidth 4 = x := by decide
theorem reg_1_4 : ∀ x : BitVec 5, x.extractLsb' 4 1 ++ x.setWidth 4 = x := by decide
theorem reg_2_3 : ∀ x : BitVec 5, x.extractLsb' 3 2 ++ x.setWidth 3 = x := by decide
theorem reg_3_2 : ∀ x : BitVec 5, x.extractLsb' 2 3 ++ x.setWidth 2 = x := by decide
theorem lane_bits : ∀ x y z : BitVec 1, (x ++ y ++ z).extractLsb' 2 1 = x ∧ (x ++ y ++ z).extractLsb' 1 1 = y ∧
    (x ++ y ++ z).extractLsb' 0 1 = z := by decide
theorem lo_5_1 : ∀ x : BitVec 6, x.extractLsb' 0 1 = 0#1 → x.extractLsb' 1 5 ++ 0#1 = x := by decide
theorem imm_1_12 (x : BitVec 13) : x.extractLsb' 12 1 ++ x.setWidth 12 = x := by
  rw [BitVec.setWidth_eq_extractLsb' (by decide)]
  exact (BitVec.extractLsb'_append_extractLsb'_eq_extractLsb' rfl).trans BitVec.extractLsb'_eq_self
theorem fn_2_6 : ∀ x : BitVec 8, x.extractLsb' 6 2 ++ x.extractLsb' 0 6 = x := by decide
theorem fn_1_7 : ∀ x : BitVec 8, x.extractLsb' 7 1 ++ x.extractLsb' 0 7 = x := by decide
theorem fn_5_3 : ∀ x : BitVec 8, x.extractLsb' 3 5 ++ x.setWidth 3 = x := by decide
theorem fn_3_2_3 : ∀ x : BitVec 8, x.extractLsb' 5 3 ++ x.extractLsb' 3 2 ++ x.extractLsb' 0 3 = x := by decide
theorem fn_3_1_1_3 : ∀ x : BitVec 8, (x.extractLsb' 3 2).toNat < 2 →
    x.extractLsb' 5 3 ++ 0#1 ++ (x.extractLsb' 3 2).setWidth 1 ++ x.extractLsb' 0 3 = x := by decide
theorem fn_3_3_2 : ∀ x : BitVec 8, x.extractLsb' 0 2 = 0#2 → x.extractLsb' 5 3 ++ x.extractLsb' 2 3 ++ 0#2 = x := by decide
theorem fn_4_1_2_1 : ∀ x : BitVec 8, x.extractLsb' 4 4 ++ x.extractLsb' 3 1 ++ x.extractLsb' 1 2 ++ x.extractLsb' 0 1 = x := by decide
theorem fn_of_lt4 : ∀ x : BitVec 8, ¬ 4 ≤ (x.extractLsb' 3 5).toNat → 0#3 ++ x.extractLsb' 3 2 ++ x.setWidth 3 = x := by decide
theorem fn_2_2_1_3 : ∀ (x : BitVec 8) (g : BitVec 2), x.extractLsb' 3 3 = g ++ 0#1 →
    x.extractLsb' 6 2 ++ g ++ 0#1 ++ x.extractLsb' 0 3 = x := by decide

/-! ### Tables of cases

A table that matches on a number is a chain of tests, which its proof goes through one test at a time. -/

theorem ndrec_symm_const {α : Type} {n k : Nat} (x : α) (h : n = k) : Eq.ndrec_symm (motive := fun _ => α) x h = x := by cases h; rfl

/-- A table by a number: the case of `k`, and the rest of the table. -/
theorem Encodes.case {n k : Nat} {o : Option Instr} {e : ¬ n = k → Option Instr} {w : IWord} (h : n = k → Encodes o w)
    (h' : ∀ hk, Encodes (e hk) w) : Encodes (dite (n = k) (Eq.ndrec_symm (motive := fun _ => Option Instr) o) e) w := by
  split
  next hk => rw [ndrec_symm_const o hk]; exact h hk
  next hk => exact h' hk

/-- A table by a field, in the word that is put together with the field. -/
theorem Encodes.field {n k : Nat} {x : BitVec n} {o : Option Instr} {e : ¬ x.toNat = k → Option Instr} {w : BitVec n → IWord}
    (h : Encodes o (w (BitVec.ofNat n k))) (h' : ∀ hk, Encodes (e hk) (w x)) :
    Encodes (dite (x.toNat = k) (Eq.ndrec_symm (motive := fun _ => Option Instr) o) e) (w x) :=
  .case (fun hx => eq_ofNat_of_toNat hx ▸ h) h'

/-! ### A word is put together from its fields in each format -/

/-- Neighbouring fields make one field. -/
theorem fld_append (w : IWord) (lo m n : Nat) : fld w (lo + n) m ++ fld w lo n = fld w lo (m + n) :=
  BitVec.extractLsb'_append_extractLsb'_eq_extractLsb' rfl

theorem fld_whole (w : IWord) : fld w 0 32 = w := BitVec.extractLsb'_eq_self

theorem joinR_fld (w : IWord) : joinR (fld w 29 3) (fld w 23 6) (fld w 18 5) (fld w 13 5) (fld w 8 5) (fld w 0 8) = w := by
  rw [joinR, fld_append w 23 3 6, fld_append w 18 9 5, fld_append w 13 14 5, fld_append w 8 19 5, fld_append w 0 24 8, fld_whole]
theorem Encodes.ofR {o : Option Instr} {w : IWord} {k : Nat} (hk : (fld w 23 6).toNat = k)
    (h : Encodes o (joinR (fld w 29 3) (BitVec.ofNat 6 k) (fld w 18 5) (fld w 13 5) (fld w 8 5) (fld w 0 8))) : Encodes o w := by
  rwa [← eq_ofNat_of_toNat hk, joinR_fld] at h
theorem joinI_fld (w : IWord) : joinI (fld w 29 3) (fld w 23 6) (fld w 18 5) (fld w 13 5) (fld w 0 13) = w := by
  rw [joinI, fld_append w 23 3 6, fld_append w 18 9 5, fld_append w 13 14 5, fld_append w 0 19 13, fld_whole]
theorem Encodes.ofI {o : Option Instr} {w : IWord} {k : Nat} (hk : (fld w 23 6).toNat = k)
    (h : Encodes o (joinI (fld w 29 3) (BitVec.ofNat 6 k) (fld w 18 5) (fld w 13 5) (fld w 0 13))) : Encodes o w := by
  rwa [← eq_ofNat_of_toNat hk, joinI_fld] at h
theorem joinM_fld (w : IWord) : joinM (fld w 29 3) (fld w 23 6) (fld w 18 5) (fld w 13 5) (fld w 10 3) (fld w 0 10) = w := by
  rw [joinM, fld_append w 23 3 6, fld_append w 18 9 5, fld_append w 13 14 5, fld_append w 10 19 3, fld_append w 0 22 10, fld_whole]
theorem Encodes.ofM {o : Option Instr} {w : IWord} {k : Nat} (hk : (fld w 23 6).toNat = k)
    (h : Encodes o (joinM (fld w 29 3) (BitVec.ofNat 6 k) (fld w 18 5) (fld w 13 5) (fld w 10 3) (fld w 0 10))) : Encodes o w := by
  rwa [← eq_ofNat_of_toNat hk, joinM_fld] at h
theorem joinL_fld (w : IWord) : joinL (fld w 29 3) (fld w 23 6) (fld w 18 5) (fld w 0 18) = w := by
  rw [joinL, fld_append w 23 3 6, fld_append w 18 9 5, fld_append w 0 14 18, fld_whole]
theorem Encodes.ofL {o : Option Instr} {w : IWord} {k : Nat} (hk : (fld w 23 6).toNat = k)
    (h : Encodes o (joinL (fld w 29 3) (BitVec.ofNat 6 k) (fld w 18 5) (fld w 0 18))) : Encodes o w := by
  rwa [← eq_ofNat_of_toNat hk, joinL_fld] at h
theorem joinK_fld (w : IWord) : joinK (fld w 29 3) (fld w 23 6) (fld w 18 5) (fld w 16 2) (fld w 0 16) = w := by
  rw [joinK, fld_append w 23 3 6, fld_append w 18 9 5, fld_append w 16 14 2, fld_append w 0 16 16, fld_whole]
theorem Encodes.ofK {o : Option Instr} {w : IWord} {k : Nat} (hk : (fld w 23 6).toNat = k)
    (h : Encodes o (joinK (fld w 29 3) (BitVec.ofNat 6 k) (fld w 18 5) (fld w 16 2) (fld w 0 16))) : Encodes o w := by
  rwa [← eq_ofNat_of_toNat hk, joinK_fld] at h
theorem joinB_fld (w : IWord) : joinB (fld w 29 3) (fld w 23 6) (fld w 22 1) (fld w 0 22) = w := by
  rw [joinB, fld_append w 23 3 6, fld_append w 22 9 1, fld_append w 0 10 22, fld_whole]
theorem Encodes.ofB {o : Option Instr} {w : IWord} {k : Nat} (hk : (fld w 23 6).toNat = k)
    (h : Encodes o (joinB (fld w 29 3) (BitVec.ofNat 6 k) (fld w 22 1) (fld w 0 22))) : Encodes o w := by
  rwa [← eq_ofNat_of_toNat hk, joinB_fld] at h
theorem joinC_fld (w : IWord) : joinC (fld w 29 3) (fld w 23 6) (fld w 20 3) (fld w 17 3) (fld w 14 3) (fld w 11 3) (fld w 6 5) (fld w 0 6) = w := by
  rw [joinC, fld_append w 23 3 6, fld_append w 20 9 3, fld_append w 17 12 3, fld_append w 14 15 3, fld_append w 11 18 3, fld_append w 6 21 5, fld_append w 0 26 6, fld_whole]
theorem Encodes.ofC {o : Option Instr} {w : IWord} {k : Nat} (hk : (fld w 23 6).toNat = k)
    (h : Encodes o (joinC (fld w 29 3) (BitVec.ofNat 6 k) (fld w 20 3) (fld w 17 3) (fld w 14 3) (fld w 11 3) (fld w 6 5) (fld w 0 6))) : Encodes o w := by
  rwa [← eq_ofNat_of_toNat hk, joinC_fld] at h
theorem joinVC_fld (w : IWord) : joinVC (fld w 29 3) (fld w 23 6) (fld w 20 3) (fld w 16 4) (fld w 12 4) (fld w 9 3) (fld w 6 3) (fld w 3 3) (fld w 0 3) = w := by
  rw [joinVC, fld_append w 23 3 6, fld_append w 20 9 3, fld_append w 16 12 4, fld_append w 12 16 4, fld_append w 9 20 3, fld_append w 6 23 3, fld_append w 3 26 3, fld_append w 0 29 3, fld_whole]
theorem Encodes.ofVC {o : Option Instr} {w : IWord} {k : Nat} (hk : (fld w 23 6).toNat = k)
    (h : Encodes o (joinVC (fld w 29 3) (BitVec.ofNat 6 k) (fld w 20 3) (fld w 16 4) (fld w 12 4) (fld w 9 3) (fld w 6 3) (fld w 3 3) (fld w 0 3))) : Encodes o w := by
  rwa [← eq_ofNat_of_toNat hk, joinVC_fld] at h
theorem joinX_fld (w : IWord) : joinX (fld w 29 3) (fld w 23 6) (fld w 21 2) (fld w 16 5) (fld w 11 5) (fld w 8 3) (fld w 5 3) (fld w 1 4) (fld w 0 1) = w := by
  rw [joinX, fld_append w 23 3 6, fld_append w 21 9 2, fld_append w 16 11 5, fld_append w 11 16 5, fld_append w 8 21 3, fld_append w 5 24 3, fld_append w 1 27 4, fld_append w 0 31 1, fld_whole]
theorem Encodes.ofX {o : Option Instr} {w : IWord} {k : Nat} (hk : (fld w 23 6).toNat = k)
    (h : Encodes o (joinX (fld w 29 3) (BitVec.ofNat 6 k) (fld w 21 2) (fld w 16 5) (fld w 11 5) (fld w 8 3) (fld w 5 3) (fld w 1 4) (fld w 0 1))) : Encodes o w := by
  rwa [← eq_ofNat_of_toNat hk, joinX_fld] at h
theorem joinP_fld (w : IWord) : joinP (fld w 29 3) (fld w 23 6) (fld w 17 6) (fld w 13 4) (fld w 10 3) (fld w 7 3) (fld w 0 7) = w := by
  rw [joinP, fld_append w 23 3 6, fld_append w 17 9 6, fld_append w 13 15 4, fld_append w 10 19 3, fld_append w 7 22 3, fld_append w 0 25 7, fld_whole]
theorem Encodes.ofP {o : Option Instr} {w : IWord} {k : Nat} (hk : (fld w 23 6).toNat = k)
    (h : Encodes o (joinP (fld w 29 3) (BitVec.ofNat 6 k) (fld w 17 6) (fld w 13 4) (fld w 10 3) (fld w 7 3) (fld w 0 7))) : Encodes o w := by
  rwa [← eq_ofNat_of_toNat hk, joinP_fld] at h

/-! ### The majors that a frame may hold (R103) -/

set_option smartUnfolding false in
theorem encodes_dec01 (q : BitVec 3) (d a b : BitVec 5) (fn : BitVec 8) :
    Encodes (dec01 q d a b fn) (joinR q 1#6 d a b fn) := by
  iterate 22
    refine .field ?_ fun _ => ?_
    · exact .some rfl rfl
  exact .none

set_option smartUnfolding false in
theorem encodes_dec02 (q : BitVec 3) (d a b : BitVec 5) (fn : BitVec 8) :
    Encodes (dec02 q d a b fn) (joinR q 2#6 d a b fn) := by
  iterate 12
    refine .field ?_ fun _ => ?_
    · exact .some rfl rfl
  exact .none

set_option smartUnfolding false in
theorem encodes_dec03 (q : BitVec 3) (d a b : BitVec 5) (fn : BitVec 8) :
    Encodes (dec03 q d a b fn) (joinR q 3#6 d a b fn) := by
  iterate 11
    refine .field ?_ fun _ => ?_
    · exact .needR rfl rfl (by simp +contextual)
  iterate 3
    refine .field ?_ fun _ => ?_
    · exact .some rfl rfl
  exact .none

set_option smartUnfolding false in
theorem encodes_dec04 (q : BitVec 3) (d a b : BitVec 5) (fn : BitVec 8) :
    Encodes (dec04 q d a b fn) (joinR q 4#6 d a b fn) := by
  refine .field ?_ fun _ => ?_
  · exact .some rfl rfl
  iterate 6
    refine .field ?_ fun _ => ?_
    · exact .needR rfl rfl (by simp +contextual [setWidth_of_isK])
  exact .none

theorem encodes_dec05 (q : BitVec 3) (d a : BitVec 5) (imm : BitVec 13) :
    Encodes (dec05 q d a imm) (joinI q 5#6 d a imm) := by
  exact .some rfl rfl

theorem encodes_dec06 (q : BitVec 3) (d a : BitVec 5) (imm : BitVec 13) :
    Encodes (dec06 q d a imm) (joinI q 6#6 d a imm) := by
  exact .some rfl rfl

theorem encodes_dec07 (q : BitVec 3) (d a : BitVec 5) (imm : BitVec 13) :
    Encodes (dec07 q d a imm) (joinI q 7#6 d a imm) := by
  exact .some rfl rfl

theorem encodes_dec08 (q : BitVec 3) (d a : BitVec 5) (imm : BitVec 13) :
    Encodes (dec08 q d a imm) (joinI q 8#6 d a imm) := by
  exact .some rfl rfl

set_option smartUnfolding false in
theorem encodes_dec09 (q : BitVec 3) (d a : BitVec 5) (sz : BitVec 3) (imm : BitVec 10) :
    Encodes (dec09 q d a sz imm) (joinM q 9#6 d a sz imm) := by
  iterate 4
    refine .field (w := (joinM q _ d a · imm)) ?_ fun _ => ?_
    · exact .needM rfl rfl (by simp +contextual [setWidth_of_lt64])
  iterate 3
    refine .field (w := (joinM q _ d a · imm)) ?_ fun _ => ?_
    · exact .needM rfl rfl (by simp +contextual [setWidth_of_lt32])
  exact .none

theorem encodes_dec0A (q : BitVec 3) (d : BitVec 5) (imm : BitVec 18) :
    Encodes (dec0A q d imm) (joinL q 10#6 d imm) := by
  exact .some rfl rfl

theorem encodes_dec0B (q : BitVec 3) (d : BitVec 5) (hw : BitVec 2) (imm : BitVec 16) :
    Encodes (dec0B q d hw imm) (joinK q 11#6 d hw imm) := by
  exact .some rfl rfl

set_option smartUnfolding false in
theorem encodes_dec18 (q : BitVec 3) (d a b : BitVec 5) (fn : BitVec 8) :
    Encodes (dec18 q d a b fn) (joinR q 24#6 d a b fn) := by
  have hfn := fn_2_6 fn
  iterate 4
    refine .case (fun h => ?_) fun _ => ?_
    · exact .someR rfl rfl ⟨rfl, rfl, rfl, eq_ofNat_of_toNat h ▸ hfn⟩
  refine .case (fun h => ?_) fun _ => ?_
  · exact .needR rfl rfl fun hb => ⟨rfl, rfl, (eq_of_beq hb).symm, eq_ofNat_of_toNat h ▸ hfn⟩
  iterate 4
    refine .case (fun h => ?_) fun _ => ?_
    · exact .someR rfl rfl ⟨rfl, rfl, rfl, eq_ofNat_of_toNat h ▸ hfn⟩
  iterate 2
    refine .case (fun h => ?_) fun _ => ?_
    · exact .needR rfl rfl fun hb => ⟨rfl, rfl, (eq_of_beq hb).symm, eq_ofNat_of_toNat h ▸ hfn⟩
  refine .case (fun h => ?_) fun _ => ?_
  · exact .someR rfl rfl ⟨rfl, rfl, rfl, eq_ofNat_of_toNat h ▸ hfn⟩
  iterate 3
    refine .case (fun h => ?_) fun _ => ?_
    · exact .needR rfl rfl fun hb => ⟨rfl, rfl, (eq_of_beq hb).symm, eq_ofNat_of_toNat h ▸ hfn⟩
  exact .none

set_option smartUnfolding false in
theorem encodes_dec19 (q : BitVec 3) (d a b : BitVec 5) (fn : BitVec 8) :
    Encodes (dec19 q d a b fn) (joinR q 25#6 d a b fn) := by
  iterate 4
    refine .case (fun h => ?_) fun _ => ?_
    · exact .someR rfl rfl ⟨rfl, rfl, rfl, fn_2_2_1_3 fn _ (eq_ofNat_of_toNat h)⟩
  exact .none

theorem encodes_dec1A (q pd1 pd2 ty cnd : BitVec 3) (a : BitVec 5) (lo : BitVec 6) :
    Encodes (dec1A q pd1 pd2 ty cnd a lo) (joinC q 26#6 pd1 pd2 ty cnd a lo) := by
  exact .need rfl fun h => congrArg (joinC q _ pd1 pd2 ty cnd a) (lo_5_1 lo (eq_of_beq h))

theorem encodes_dec1B (q pd1 pd2 ty cnd : BitVec 3) (a : BitVec 5) (lo : BitVec 6) :
    Encodes (dec1B q pd1 pd2 ty cnd a lo) (joinC q 27#6 pd1 pd2 ty cnd a lo) := by
  exact .need rfl fun h => congrArg (joinC q _ pd1 pd2 ty cnd a) (lo_5_1 lo (eq_of_beq h))

theorem encodes_dec1C (q : BitVec 3) (d a b : BitVec 5) (fn : BitVec 8) :
    Encodes (dec1C q d a b fn) (joinR q 28#6 d a b fn) := by
  exact .needR rfl rfl (by simp +contextual [setWidth_of_isK, fn_3_3_2])

set_option smartUnfolding false in
theorem encodes_dec1D (q : BitVec 3) (d a b : BitVec 5) (fn : BitVec 8) :
    Encodes (dec1D q d a b fn) (joinR q 29#6 d a b fn) := by
  have hfn := fn_1_7 fn
  unfold dec1D
  dsimp only
  split
  · exact .none
  rename_i hb
  obtain rfl : b = 0#5 := by simpa using hb
  iterate 7
    refine .case (fun h => ?_) fun _ => ?_
    · exact .someR rfl rfl ⟨rfl, rfl, rfl, eq_ofNat_of_toNat h ▸ hfn⟩
  exact .none

set_option smartUnfolding false in
theorem encodes_dec1E (q : BitVec 3) (d a b : BitVec 5) (fn : BitVec 8) :
    Encodes (dec1E q d a b fn) (joinR q 30#6 d a b fn) := by
  iterate 6
    refine .field ?_ fun _ => ?_
    · exact .needR rfl rfl (by simp +contextual [setWidth_of_isK, setWidth_of_isV, pairFld_pairOf])
  exact .none

set_option smartUnfolding false in
theorem encodes_dec20 (q : BitVec 3) (d a b : BitVec 5) (fn : BitVec 8) :
    Encodes (dec20 q d a b fn) (joinR q 32#6 d a b fn) := by
  have hfn := fn_5_3 fn
  obtain ⟨hd, ha, hb⟩ := And.intro (reg_1_4 d) (And.intro (reg_1_4 a) (reg_1_4 b))
  obtain ⟨ht2, ht1, ht0⟩ := lane_bits (d.extractLsb' 4 1) (a.extractLsb' 4 1) (b.extractLsb' 4 1)
  iterate 5
    refine .case (fun h => ?_) fun _ => ?_
    · rw [eq_ofNat_of_toNat h] at hfn
      exact .someR rfl rfl (by rw [ht2, ht1, ht0]; exact ⟨hd, ha, hb, hfn⟩)
  refine .case (fun h => ?_) fun _ => ?_
  · rw [eq_ofNat_of_toNat h] at hfn
    exact .needR rfl rfl fun hv => by rw [ht2, ht1, ht0, ← eq_of_beq hv]; exact ⟨hd, ha, hb, hfn⟩
  iterate 4
    refine .case (fun h => ?_) fun _ => ?_
    · rw [eq_ofNat_of_toNat h] at hfn
      exact .someR rfl rfl (by rw [ht2, ht1, ht0]; exact ⟨hd, ha, hb, hfn⟩)
  iterate 2
    refine .case (fun h => ?_) fun _ => ?_
    · rw [eq_ofNat_of_toNat h] at hfn
      exact .needR rfl rfl fun hv => by rw [ht2, ht1, ht0, ← eq_of_beq hv]; exact ⟨hd, ha, hb, hfn⟩
  iterate 7
    refine .case (fun h => ?_) fun _ => ?_
    · rw [eq_ofNat_of_toNat h] at hfn
      exact .someR rfl rfl (by rw [ht2, ht1, ht0]; exact ⟨hd, ha, hb, hfn⟩)
  refine .case (fun h => ?_) fun _ => ?_
  · rw [eq_ofNat_of_toNat h] at hfn
    exact .needR rfl rfl fun hv => by rw [ht2, ht1, ht0, ← eq_of_beq hv]; exact ⟨hd, ha, hb, hfn⟩
  exact .none

set_option smartUnfolding false in
theorem encodes_dec21 (q : BitVec 3) (d a b : BitVec 5) (fn : BitVec 8) :
    Encodes (dec21 q d a b fn) (joinR q 33#6 d a b fn) := by
  have hfn := fn_3_2_3 fn
  refine .case (fun h => ?_) fun _ => ?_
  · rw [eq_ofNat_of_toNat h] at hfn
    refine .needR rfl rfl fun hc => ?_
    simp only [Bool.and_eq_true, beq_iff_eq] at hc
    simp_all [setWidth_of_isK, setWidth_of_isV, pairFld_pairOf]
  refine .case (fun h => ?_) fun _ => ?_
  · refine .needR rfl rfl fun hc => ?_
    simp only [Bool.and_eq_true, decide_eq_true_eq] at hc
    exact ⟨rfl, setWidth_of_isV a hc.1, rfl, eq_ofNat_of_toNat h ▸ fn_3_1_1_3 fn hc.2⟩
  iterate 6
    refine .case (fun h => ?_) fun _ => ?_
    · rw [eq_ofNat_of_toNat h] at hfn
      refine .needR rfl rfl fun hc => ?_
      simp only [Bool.and_eq_true, beq_iff_eq] at hc
      simp_all [setWidth_of_isK, setWidth_of_isV, pairFld_pairOf]
  exact .none

theorem encodes_dec22 (q kd : BitVec 3) (a b : BitVec 4) (t cnd kg z : BitVec 3) :
    Encodes (dec22 q kd a b t cnd kg z) (joinVC q 34#6 kd a b t cnd kg z) := by
  exact .need rfl fun h => by rw [eq_of_beq h]; rfl

set_option smartUnfolding false in
theorem encodes_dec23 (q : BitVec 3) (d a b : BitVec 5) (fn : BitVec 8) :
    Encodes (dec23 q d a b fn) (joinR q 35#6 d a b fn) := by
  iterate 8
    refine .field ?_ fun _ => ?_
    · exact .needR rfl rfl (by simp +contextual [setWidth_of_isK])
  exact .none

set_option smartUnfolding false in
theorem encodes_dec24 (q : BitVec 3) (d a b : BitVec 5) (fn : BitVec 8) :
    Encodes (dec24 q d a b fn) (joinR q 36#6 d a b fn) := by
  iterate 2
    refine .field ?_ fun _ => ?_
    · exact .needR rfl rfl (by simp +contextual [setWidth_of_isV, reg_2_3])
  exact .none

theorem encodes_dec3A (q : BitVec 3) (acc : BitVec 2) (a m : BitVec 5) (fA fB : BitVec 3) (s : BitVec 4) (z : BitVec 1) :
    Encodes (dec3A q acc a m fA fB s z) (joinX q 58#6 acc a m fA fB s z) := by
  unfold dec3A
  split
  · exact .none
  have hs : (s.setWidth 3).setWidth 4 = s := setWidth_of_lt8 s ‹_›
  split
  · rename_i hz
    exact .some rfl (by rw [eq_of_beq hz]; exact congrArg (joinX q _ acc a m fA fB · _) hs)
  · have hz : z = 1#1 := bit_of_ne_zero z ‹_›
    exact .some rfl (by rw [hz]; exact congrArg (joinX q _ acc a m fA fB · _) hs)

/-! ### The other majors (Table 2.14) -/

theorem encodes_dec0C (q pd1 pd2 ty cnd : BitVec 3) (a : BitVec 5) (lo : BitVec 6) :
    Encodes (dec0C q pd1 pd2 ty cnd a lo) (joinC q 12#6 pd1 pd2 ty cnd a lo) := by
  exact .need rfl fun h => congrArg (joinC q _ pd1 pd2 ty cnd a) (lo_5_1 lo (eq_of_beq h))

theorem encodes_dec0D (q pd1 pd2 ty cnd : BitVec 3) (a : BitVec 5) (lo : BitVec 6) :
    Encodes (dec0D q pd1 pd2 ty cnd a lo) (joinC q 13#6 pd1 pd2 ty cnd a lo) := by
  exact .some rfl rfl

theorem encodes_dec0E (q : BitVec 3) (d a : BitVec 5) (imm : BitVec 13) :
    Encodes (dec0E q d a imm) (joinI q 14#6 d a imm) := by
  have him := imm_1_12 imm
  unfold dec0E
  split
  · rename_i h
    rw [eq_of_beq h] at him
    exact .need rfl fun ha => by rw [eq_of_beq ha]; exact congrArg (joinI q _ d _) him
  · rename_i h
    rw [bit_of_ne_zero _ h] at him
    exact .need rfl fun hd => by rw [eq_of_beq hd]; exact congrArg (joinI q _ _ a) him

theorem encodes_dec10 (q : BitVec 3) (h : BitVec 1) (disp : BitVec 22) :
    Encodes (dec10 q h disp) (joinB q 16#6 h disp) := by
  exact .some rfl rfl

theorem encodes_dec11 (q : BitVec 3) (h : BitVec 1) (disp : BitVec 22) :
    Encodes (dec11 q h disp) (joinB q 17#6 h disp) := by
  exact .some rfl rfl

set_option smartUnfolding false in
theorem encodes_dec12 (q : BitVec 3) (d a b : BitVec 5) (fn : BitVec 8) :
    Encodes (dec12 q d a b fn) (joinR q 18#6 d a b fn) := by
  have hfn := fn_1_7 fn
  unfold dec12
  split
  · exact .none
  rename_i hb
  obtain rfl : b = 0#5 := by simpa using hb
  refine .case (fun h => ?_) fun _ => ?_
  · exact .needR rfl rfl fun hd => ⟨(eq_of_beq hd).symm, rfl, rfl, eq_ofNat_of_toNat h ▸ hfn⟩
  refine .case (fun h => ?_) fun _ => ?_
  · exact .someR rfl rfl ⟨rfl, rfl, rfl, eq_ofNat_of_toNat h ▸ hfn⟩
  exact .none

theorem encodes_dec13 (q : BitVec 3) (d a : BitVec 5) (imm : BitVec 13) :
    Encodes (dec13 q d a imm) (joinI q 19#6 d a imm) := by
  exact .need rfl fun h => by rw [eq_of_beq h]; rfl

theorem encodes_dec14 (q : BitVec 3) (n : BitVec 6) (len : BitVec 4) (stag mask : BitVec 3) (z : BitVec 7) :
    Encodes (dec14 q n len stag mask z) (joinP q 20#6 n len stag mask z) := by
  exact .need rfl fun h => by rw [eq_of_beq h]; rfl

set_option smartUnfolding false in
theorem encodes_dec15 (q : BitVec 3) (d a b : BitVec 5) (fn : BitVec 8) :
    Encodes (dec15 q d a b fn) (joinR q 21#6 d a b fn) := by
  refine .field ?_ fun _ => ?_
  · exact .some rfl rfl
  iterate 4
    refine .field ?_ fun _ => ?_
    · exact .needR rfl rfl (by simp +contextual)
  exact .none

set_option smartUnfolding false in
theorem encodes_dec16 (q : BitVec 3) (d a b : BitVec 5) (fn : BitVec 8) :
    Encodes (dec16 q d a b fn) (joinR q 22#6 d a b fn) := by
  refine .field ?_ fun _ => ?_
  · exact .needR rfl rfl (by simp +contextual)
  exact .none

set_option smartUnfolding false in
theorem encodes_dec28 (q : BitVec 3) (d a : BitVec 5) (sz : BitVec 3) (imm : BitVec 10) :
    Encodes (dec28 q d a sz imm) (joinM q 40#6 d a sz imm) := by
  iterate 7
    refine .field (w := (joinM q _ d a · imm)) ?_ fun _ => ?_
    · exact .some rfl rfl
  exact .none

set_option smartUnfolding false in
theorem encodes_dec29 (q : BitVec 3) (d a : BitVec 5) (sz : BitVec 3) (imm : BitVec 10) :
    Encodes (dec29 q d a sz imm) (joinM q 41#6 d a sz imm) := by
  iterate 4
    refine .field (w := (joinM q _ d a · imm)) ?_ fun _ => ?_
    · exact .some rfl rfl
  exact .none

set_option smartUnfolding false in
theorem encodes_dec2A (q : BitVec 3) (d a : BitVec 5) (sz : BitVec 3) (imm : BitVec 10) :
    Encodes (dec2A q d a sz imm) (joinM q 42#6 d a sz imm) := by
  iterate 6
    refine .field (w := (joinM q _ d a · imm)) ?_ fun _ => ?_
    · exact .some rfl rfl
  exact .none

theorem encodes_dec2B (q : BitVec 3) (d a : BitVec 5) (sz : BitVec 3) (imm : BitVec 10) :
    Encodes (dec2B q d a sz imm) (joinM q 43#6 d a sz imm) := by
  unfold dec2B
  split
  · exact .some rfl (congrArg (joinM q _ · a sz imm) (reg_of_isV d ‹_›))
  · exact .some rfl (congrArg (joinM q _ · a sz imm) (reg_of_not_isV d ‹_›))

set_option smartUnfolding false in
theorem encodes_dec2C (q : BitVec 3) (d a : BitVec 5) (sz : BitVec 3) (imm : BitVec 10) :
    Encodes (dec2C q d a sz imm) (joinM q 44#6 d a sz imm) := by
  iterate 3
    refine .field (w := (joinM q _ d a · imm)) ?_ fun _ => ?_
    · exact .some rfl rfl
  iterate 2
    refine .field (w := (joinM q _ d a · imm)) ?_ fun _ => ?_
    · exact .needM rfl rfl (by simp +contextual)
  refine .field (w := (joinM q _ d a · imm)) ?_ fun _ => ?_
  · exact .some rfl rfl
  exact .none

set_option smartUnfolding false in
theorem encodes_dec2D (q : BitVec 3) (d a : BitVec 5) (sz : BitVec 3) (imm : BitVec 10) :
    Encodes (dec2D q d a sz imm) (joinM q 45#6 d a sz imm) := by
  iterate 2
    refine .field (w := (joinM q _ d a · imm)) ?_ fun _ => ?_
    · exact .some rfl rfl
  iterate 4
    refine .field (w := (joinM q _ d a · imm)) ?_ fun _ => ?_
    · exact .needM rfl rfl (by simp +contextual [setWidth_of_lt4])
  exact .none

theorem encodes_dec2E (q : BitVec 3) (d a b : BitVec 5) (fn : BitVec 8) :
    Encodes (dec2E q d a b fn) (joinR q 46#6 d a b fn) := by
  unfold dec2E
  split
  · exact .none
  have hfn := fn_of_lt4 fn ‹_›
  split
  · exact .someR rfl rfl ⟨reg_of_isV d ‹_›, rfl, rfl, hfn⟩
  · exact .someR rfl rfl ⟨reg_of_not_isV d ‹_›, rfl, rfl, hfn⟩

set_option smartUnfolding false in
theorem encodes_dec30 (q : BitVec 3) (d a b : BitVec 5) (fn : BitVec 8) :
    Encodes (dec30 q d a b fn) (joinR q 48#6 d a b fn) := by
  have hfn := fn_4_1_2_1 fn
  unfold dec30
  dsimp only
  split
  · exact .none
  rename_i hz
  rw [show fn.extractLsb' 0 1 = 0#1 by simpa using hz] at hfn
  iterate 11
    refine .case (fun h => ?_) fun _ => ?_
    · exact .someR rfl rfl ⟨rfl, rfl, rfl, eq_ofNat_of_toNat h ▸ hfn⟩
  refine .case (fun h => ?_) fun _ => ?_
  · rw [eq_ofNat_of_toNat h] at hfn
    refine .needR rfl rfl fun hc => ?_
    simp only [Bool.and_eq_true, beq_iff_eq] at hc
    obtain ⟨⟨hs, hd⟩, hb⟩ := hc
    exact ⟨evenFld_of_even d hd, rfl, evenFld_of_even b hb, hs ▸ hfn⟩
  exact .none

set_option smartUnfolding false in
theorem encodes_dec31 (q : BitVec 3) (d a b : BitVec 5) (fn : BitVec 8) :
    Encodes (dec31 q d a b fn) (joinR q 49#6 d a b fn) := by
  iterate 4
    refine .field ?_ fun _ => ?_
    · exact .needR rfl rfl (by simp +contextual [setWidth_of_isK, setWidth_of_lt4])
  exact .none

set_option smartUnfolding false in
theorem encodes_dec32 (q : BitVec 3) (d a b : BitVec 5) (fn : BitVec 8) :
    Encodes (dec32 q d a b fn) (joinR q 50#6 d a b fn) := by
  iterate 5
    refine .field ?_ fun _ => ?_
    · exact .needR rfl rfl (by simp +contextual)
  exact .none

set_option smartUnfolding false in
theorem encodes_dec34 (q : BitVec 3) (d a b : BitVec 5) (fn : BitVec 8) :
    Encodes (dec34 q d a b fn) (joinR q 52#6 d a b fn) := by
  iterate 3
    refine .field ?_ fun _ => ?_
    · exact .needR rfl rfl (by simp +contextual)
  exact .none

set_option smartUnfolding false in
theorem encodes_dec35 (q : BitVec 3) (d a b : BitVec 5) (fn : BitVec 8) :
    Encodes (dec35 q d a b fn) (joinR q 53#6 d a b fn) := by
  iterate 2
    refine .field ?_ fun _ => ?_
    · exact .some rfl rfl
  iterate 4
    refine .field ?_ fun _ => ?_
    · exact .needR rfl rfl (by simp +contextual [setWidth_of_isV])
  exact .none

set_option smartUnfolding false in
theorem encodes_dec36 (q : BitVec 3) (d a b : BitVec 5) (fn : BitVec 8) :
    Encodes (dec36 q d a b fn) (joinR q 54#6 d a b fn) := by
  iterate 4
    refine .field ?_ fun _ => ?_
    · exact .needR rfl rfl (by simp +contextual)
  exact .none

set_option smartUnfolding false in
theorem encodes_dec37 (q : BitVec 3) (d a b : BitVec 5) (fn : BitVec 8) :
    Encodes (dec37 q d a b fn) (joinR q 55#6 d a b fn) := by
  iterate 2
    refine .field ?_ fun _ => ?_
    · exact .needR rfl rfl (by simp +contextual)
  iterate 2
    refine .field ?_ fun _ => ?_
    · exact .some rfl rfl
  iterate 2
    refine .field ?_ fun _ => ?_
    · exact .needR rfl rfl (by simp +contextual)
  exact .none

set_option smartUnfolding false in
theorem encodes_dec38 (q : BitVec 3) (d a b : BitVec 5) (fn : BitVec 8) :
    Encodes (dec38 q d a b fn) (joinR q 56#6 d a b fn) := by
  iterate 2
    refine .field ?_ fun _ => ?_
    · exact .some rfl rfl
  iterate 3
    refine .field ?_ fun _ => ?_
    · exact .needR rfl rfl (by simp +contextual)
  refine .field ?_ fun _ => ?_
  · exact .some rfl rfl
  exact .none

set_option smartUnfolding false in
theorem encodes_dec3B (q : BitVec 3) (d a b : BitVec 5) (fn : BitVec 8) :
    Encodes (dec3B q d a b fn) (joinR q 59#6 d a b fn) := by
  iterate 4
    refine .field ?_ fun _ => ?_
    · exact .needR rfl rfl (by simp +contextual [setWidth_of_lt4])
  refine .field ?_ fun _ => ?_
  · exact .someR rfl rfl ⟨reg_3_2 d, rfl, rfl, rfl⟩
  iterate 3
    refine .field ?_ fun _ => ?_
    · exact .needR rfl rfl (by simp +contextual [setWidth_of_lt4])
  exact .none

set_option smartUnfolding false in
theorem encodes_dec3C (q : BitVec 3) (d a b : BitVec 5) (fn : BitVec 8) :
    Encodes (dec3C q d a b fn) (joinR q 60#6 d a b fn) := by
  iterate 5
    refine .field ?_ fun _ => ?_
    · exact .needR rfl rfl (by simp +contextual)
  exact .none

set_option smartUnfolding false in
theorem encodes_dec3D (q : BitVec 3) (d a b : BitVec 5) (fn : BitVec 8) :
    Encodes (dec3D q d a b fn) (joinR q 61#6 d a b fn) := by
  iterate 8
    refine .field ?_ fun _ => ?_
    · exact .needR rfl rfl (by simp +contextual)
  refine .field ?_ fun _ => ?_
  · exact .some rfl rfl
  exact .none

set_option smartUnfolding false in
theorem encodes_dec3E (q : BitVec 3) (d a b : BitVec 5) (fn : BitVec 8) :
    Encodes (dec3E q d a b fn) (joinR q 62#6 d a b fn) := by
  iterate 2
    refine .field ?_ fun _ => ?_
    · exact .needR rfl rfl (by simp +contextual)
  refine .field ?_ fun _ => ?_
  · exact .some rfl rfl
  iterate 5
    refine .field ?_ fun _ => ?_
    · exact .needR rfl rfl (by simp +contextual)
  iterate 2
    refine .field ?_ fun _ => ?_
    · exact .some rfl rfl
  iterate 2
    refine .field ?_ fun _ => ?_
    · exact .needR rfl rfl (by simp +contextual)
  exact .none

/-! ### All majors -/

set_option smartUnfolding false in
theorem encodes_decodeFrameRaw (w : IWord) : Encodes (decodeFrameRaw w) w := by
  refine .case (fun h => .ofR h (encodes_dec01 ..)) fun _ => ?_
  refine .case (fun h => .ofR h (encodes_dec02 ..)) fun _ => ?_
  refine .case (fun h => .ofR h (encodes_dec03 ..)) fun _ => ?_
  refine .case (fun h => .ofR h (encodes_dec04 ..)) fun _ => ?_
  refine .case (fun h => .ofI h (encodes_dec05 ..)) fun _ => ?_
  refine .case (fun h => .ofI h (encodes_dec06 ..)) fun _ => ?_
  refine .case (fun h => .ofI h (encodes_dec07 ..)) fun _ => ?_
  refine .case (fun h => .ofI h (encodes_dec08 ..)) fun _ => ?_
  refine .case (fun h => .ofM h (encodes_dec09 ..)) fun _ => ?_
  refine .case (fun h => .ofL h (encodes_dec0A ..)) fun _ => ?_
  refine .case (fun h => .ofK h (encodes_dec0B ..)) fun _ => ?_
  refine .case (fun h => .ofR h (encodes_dec18 ..)) fun _ => ?_
  refine .case (fun h => .ofR h (encodes_dec19 ..)) fun _ => ?_
  refine .case (fun h => .ofC h (encodes_dec1A ..)) fun _ => ?_
  refine .case (fun h => .ofC h (encodes_dec1B ..)) fun _ => ?_
  refine .case (fun h => .ofR h (encodes_dec1C ..)) fun _ => ?_
  refine .case (fun h => .ofR h (encodes_dec1D ..)) fun _ => ?_
  refine .case (fun h => .ofR h (encodes_dec1E ..)) fun _ => ?_
  refine .case (fun h => .ofR h (encodes_dec20 ..)) fun _ => ?_
  refine .case (fun h => .ofR h (encodes_dec21 ..)) fun _ => ?_
  refine .case (fun h => .ofVC h (encodes_dec22 ..)) fun _ => ?_
  refine .case (fun h => .ofR h (encodes_dec23 ..)) fun _ => ?_
  refine .case (fun h => .ofR h (encodes_dec24 ..)) fun _ => ?_
  refine .case (fun h => .ofX h (encodes_dec3A ..)) fun _ => ?_
  exact .none

set_option smartUnfolding false in
theorem encodes_decodeRestRaw (w : IWord) : Encodes (decodeRestRaw w) w := by
  refine .case (fun h => .ofC h (encodes_dec0C ..)) fun _ => ?_
  refine .case (fun h => .ofC h (encodes_dec0D ..)) fun _ => ?_
  refine .case (fun h => .ofI h (encodes_dec0E ..)) fun _ => ?_
  refine .case (fun h => .ofB h (encodes_dec10 ..)) fun _ => ?_
  refine .case (fun h => .ofB h (encodes_dec11 ..)) fun _ => ?_
  refine .case (fun h => .ofR h (encodes_dec12 ..)) fun _ => ?_
  refine .case (fun h => .ofI h (encodes_dec13 ..)) fun _ => ?_
  refine .case (fun h => .ofP h (encodes_dec14 ..)) fun _ => ?_
  refine .case (fun h => .ofR h (encodes_dec15 ..)) fun _ => ?_
  refine .case (fun h => .ofR h (encodes_dec16 ..)) fun _ => ?_
  refine .case (fun h => .ofM h (encodes_dec28 ..)) fun _ => ?_
  refine .case (fun h => .ofM h (encodes_dec29 ..)) fun _ => ?_
  refine .case (fun h => .ofM h (encodes_dec2A ..)) fun _ => ?_
  refine .case (fun h => .ofM h (encodes_dec2B ..)) fun _ => ?_
  refine .case (fun h => .ofM h (encodes_dec2C ..)) fun _ => ?_
  refine .case (fun h => .ofM h (encodes_dec2D ..)) fun _ => ?_
  refine .case (fun h => .ofR h (encodes_dec2E ..)) fun _ => ?_
  refine .case (fun h => .ofR h (encodes_dec30 ..)) fun _ => ?_
  refine .case (fun h => .ofR h (encodes_dec31 ..)) fun _ => ?_
  refine .case (fun h => .ofR h (encodes_dec32 ..)) fun _ => ?_
  refine .case (fun h => .ofR h (encodes_dec34 ..)) fun _ => ?_
  refine .case (fun h => .ofR h (encodes_dec35 ..)) fun _ => ?_
  refine .case (fun h => .ofR h (encodes_dec36 ..)) fun _ => ?_
  refine .case (fun h => .ofR h (encodes_dec37 ..)) fun _ => ?_
  refine .case (fun h => .ofR h (encodes_dec38 ..)) fun _ => ?_
  refine .case (fun h => .ofR h (encodes_dec3B ..)) fun _ => ?_
  refine .case (fun h => .ofR h (encodes_dec3C ..)) fun _ => ?_
  refine .case (fun h => .ofR h (encodes_dec3D ..)) fun _ => ?_
  refine .case (fun h => .ofR h (encodes_dec3E ..)) fun _ => ?_
  exact .none

theorem encodes_decodeRaw (w : IWord) : Encodes (decodeRaw w) w := by
  unfold decodeRaw
  split
  · exact encodes_decodeFrameRaw w
  · exact encodes_decodeRestRaw w

theorem decodeWord_eq_some {w : IWord} {i : Instr} (h : decodeWord w = some i) : decodeRaw w = some i ∧ i.wf = true := by
  unfold decodeWord keepWf at h
  grind

/-- Settles O2: the word is put together again from the fields that its major reads. -/
theorem encodeOfDecode : Obligations.EncodeOfDecode := by
  intro w i h
  obtain ⟨hraw, hwf⟩ := decodeWord_eq_some h
  obtain ⟨henc, hword⟩ := (encodes_decodeRaw w).spec i hraw
  exact ⟨henc, hword, hwf⟩

end Sys2Proof
end

section
/-! The invariant of the machine's data under the parts of a turn (R56, R58, R61). -/

namespace Sys2Proof.Machine

/-! ### Threads -/

theorem ok_iff (t : Thread) : t.ok = true ↔ t.pc.toNat % 4 = 0 ∧ fpctlOk t.fpctl = true := by simp [Thread.ok]

theorem ok_congr {t u : Thread} (hpc : t.pc = u.pc) (hf : t.fpctl = u.fpctl) : t.ok = u.ok := by simp [Thread.ok, hpc, hf]

theorem pc_mod4_add {p : Word} (n : Nat) (h : p.toNat % 4 = 0) : (p + BitVec.ofNat 64 (4 * n)).toNat % 4 = 0 := by
  have hdvd : 4 ∣ 2 ^ 64 := by decide
  rw [BitVec.toNat_add, BitVec.toNat_ofNat, Nat.mod_mod_of_dvd _ hdvd, Nat.add_mod, h, Nat.mod_mod_of_dvd _ hdvd, Nat.mul_mod_right]

theorem fpctlOk_or_flags {v : Word} (f : FFlags) (h : fpctlOk v = true) : fpctlOk (v ||| (f.setWidth 64 <<< 8)) = true := by
  have hres : ∀ g : FFlags, (g.setWidth 64 <<< 8 : Word) &&& ~~~ 0x1F1F#64 = 0 := by decide
  have hrm : ∀ g : FFlags, (g.setWidth 64 <<< 8 : Word).extractLsb' 0 3 = 0 := by decide
  have hdist : (v ||| (f.setWidth 64 <<< 8)) &&& ~~~ 0x1F1F#64 = (v &&& ~~~ 0x1F1F#64) ||| ((f.setWidth 64 <<< 8) &&& ~~~ 0x1F1F#64) := by
    ext i; simp only [BitVec.getElem_and, BitVec.getElem_or, Bool.and_or_distrib_right]
  simp only [fpctlOk, Bool.and_eq_true, beq_iff_eq, decide_eq_true_eq] at h ⊢
  obtain ⟨hv, hm⟩ := h
  refine ⟨by rw [hdist, hv, hres]; rfl, ?_⟩
  rw [BitVec.extractLsb'_or, hrm]
  simpa using hm

theorem ok_flag {t : Thread} (f : FFlags) (h : t.ok = true) : (t.flag f).ok = true := by
  obtain ⟨hpc, hf⟩ := (ok_iff t).mp h
  exact (ok_iff _).mpr ⟨hpc, fpctlOk_or_flags f hf⟩

theorem ok_advance {t : Thread} (h : t.ok = true) : t.advance.ok = true := by
  obtain ⟨hpc, hf⟩ := (ok_iff t).mp h
  refine (ok_iff _).mpr ⟨?_, by simpa using hf⟩
  unfold Thread.advance
  split
  · exact pc_mod4_add 1 hpc
  · split
    · exact hpc
    · split
      · exact hpc
      · exact pc_mod4_add _ hpc

@[simp] theorem ok_wx (t : Thread) (d : BitVec 5) (v : Word) : (t.wx d v).ok = t.ok := ok_congr (by simp) (by simp)
@[simp] theorem ok_wf (t : Thread) (d : BitVec 5) (v : Word) : (t.wf d v).ok = t.ok := rfl
@[simp] theorem ok_wv (t : Thread) (d : BitVec 4) (v : BitVec 256) : (t.wv d v).ok = t.ok := rfl
@[simp] theorem ok_wk (t : Thread) (d : BitVec 3) (v : BitVec 32) : (t.wk d v).ok = t.ok := ok_congr (by simp) (by simp)
@[simp] theorem ok_wp (t : Thread) (d : BitVec 3) (v : Bool) : (t.wp d v).ok = t.ok := ok_congr (by simp) (by simp)
@[simp] theorem ok_issued (t : Thread) : t.issued.ok = t.ok := rfl
@[simp] theorem ok_parked (t : Thread) (w : Wait) : (t.parked w).ok = t.ok := rfl
@[simp] theorem ok_setXacc (t : Thread) (j : BitVec 3) (v : Nat) : (t.setXacc j v).ok = t.ok := rfl
@[simp] theorem ok_bubble (t : Thread) (c : TurnClass) : (t.bubble c).ok = t.ok := by cases c <;> rfl
@[simp] theorem ok_trapped (t : Thread) (r : TrapRec) : (t.trapped r).ok = t.ok := rfl
@[simp] theorem ok_pushRet (t : Thread) (v : Word) : (t.pushRet v).ok = t.ok := rfl
@[simp] theorem ok_popRet (t : Thread) (h : BitVec 1) : (t.popRet h).ok = t.ok := by unfold Thread.popRet; split <;> rfl
@[simp] theorem ok_setMon (t : Thread) (i : Nat) (m : Monitor) : (t.setMon i m).ok = t.ok := rfl
@[simp] theorem ok_abandon (t : Thread) : t.abandon.ok = t.ok := by
  have hrest : Thread.ok { t with wait := none, pend := [], got := [], cont := .nop, desc := none, fms := none, instret := t.instret - 1 } = t.ok := rfl
  unfold Thread.abandon
  cases t.wait with
  | none => rfl
  | some w =>
    cases w with
    | retry on =>
      dsimp only
      split
      · exact ok_bubble ..
      · rfl
    | _ => exact hrest
@[simp] theorem ok_combined (t : Thread) (q pd1 pd2 ty : BitVec 3) (c : Bool) : (t.combined q pd1 pd2 ty c).ok = t.ok := by
  unfold Thread.combined
  split <;> simp

theorem ok_setPreds (t : Thread) (v : Word) : (setPreds t v).ok = t.ok := by
  unfold setPreds
  induction List.range 7 generalizing t with
  | nil => rfl
  | cons i l ih => rw [List.foldl_cons, ih, ok_wp]

theorem ok_retired {t : Thread} (h : t.ok = true) : t.retired.ok = true := ok_advance h

theorem ok_goTo {t : Thread} {pc : Word} (o : Option Word) (h : t.ok = true) (hpc : pc.toNat % 4 = 0) : (t.goTo pc o).ok = true :=
  (ok_iff _).mpr ⟨hpc, ((ok_iff t).mp h).2⟩

theorem ok_joined {t : Thread} (slot : Nat) (e : Word) (c : Nat) (h : t.ok = true) : (t.joined slot e c).ok = true := by
  unfold Thread.joined
  cases t.wait with
  | none => exact h
  | some w =>
    cases w with
    | hjoin d k =>
      dsimp only
      split
      · exact ok_advance (by simpa using h)
      · exact h
    | _ => exact h

theorem ok_writeGroup {t : Thread} (g : BitVec 2) (f : Nat → Nat × FFlags) (n i : Nat) (h : t.ok = true) : (writeGroup g f n i t).ok = true := by
  induction n generalizing t i with
  | zero => exact h
  | succ n ih => exact ih _ (ok_flag _ h)

/-! ### States: what keeps the invariant while the core in focus stays in focus -/

/-- `t` has the memories of `s` and the same core in focus, and its threads there are as legal as those of `s`. -/
structure Keeps (s t : State) : Prop where
  mem : t.mem = s.mem
  mbox : t.module.mbox = s.module.mbox
  mbind : t.module.mbind = s.module.mbind
  win : t.core.proc.win = s.core.proc.win
  others : t.others = s.others
  here : t.here = s.here
  threads : (∀ i : Fin 12, s.core.slots[i].ok = true) → ∀ i : Fin 12, t.core.slots[i].ok = true

theorem Keeps.refl (s : State) : Keeps s s := ⟨rfl, rfl, rfl, rfl, rfl, rfl, id⟩

theorem Keeps.trans {s t u : State} (h : Keeps s t) (k : Keeps t u) : Keeps s u :=
  ⟨k.mem.trans h.mem, k.mbox.trans h.mbox, k.mbind.trans h.mbind, k.win.trans h.win, k.others.trans h.others, k.here.trans h.here,
   fun hs => k.threads (h.threads hs)⟩

theorem Keeps.inv {s t : State} (h : Keeps s t) (hs : s.Inv) : t.Inv where
  mem := h.mem ▸ hs.mem
  mbox := h.mbox ▸ hs.mbox
  mbind := h.mbind ▸ hs.mbind
  here := by unfold Core.memOk; rw [h.win]; exact hs.here
  others := h.others ▸ hs.others
  rising := h.others ▸ hs.rising
  apart := by rw [h.others, h.here]; exact hs.apart
  threads := h.threads hs.threads
  otherThreads := h.others ▸ hs.otherThreads

/-- A change of everything but the memories, the cores listed and the threads. -/
theorem Keeps.of_eq {s t : State} (hm : t.mem = s.mem := by rfl) (hx : t.module.mbox = s.module.mbox := by rfl)
    (hb : t.module.mbind = s.module.mbind := by rfl) (hw : t.core.proc.win = s.core.proc.win := by rfl) (ho : t.others = s.others := by rfl)
    (hh : t.here = s.here := by rfl) (ht : t.core.slots = s.core.slots := by rfl) : Keeps s t :=
  ⟨hm, hx, hb, hw, ho, hh, fun h => ht ▸ h⟩

theorem Keeps.setThr {s : State} {t : Thread} (h : s.thr.ok = true → t.ok = true) : Keeps s (s.setThr t) := by
  refine ⟨rfl, rfl, rfl, rfl, rfl, rfl, fun hs i => ?_⟩
  unfold State.setThr
  simp only [Fin.getElem_fin, Vector.getElem_set]
  split
  · exact h (hs s.slot)
  · exact hs i

theorem Keeps.setThrAt {s : State} {slot : Nat} {t : Thread} (h : (s.core.thr slot).ok = true → t.ok = true) : Keeps s (s.setThrAt s.here slot t) := by
  unfold State.setThrAt State.setCoreAt State.coreAt
  simp only [if_pos]
  refine ⟨rfl, rfl, rfl, rfl, rfl, rfl, fun hs i => ?_⟩
  simp only [Fin.getElem_fin, Vector.getElem_setIfInBounds]
  split
  · rename_i hi
    refine h ?_
    have := hs i
    unfold Core.thr
    simpa [hi] using this
  · exact hs i

/-- The element of a mapped vector. -/
theorem getElem_vmapIdx {α β : Type} {n : Nat} (f : Nat → α → β) (v : Vector α n) (i : Fin n) : (vmapIdx f v)[i] = f i v[i] := by
  simp [vmapIdx]

theorem Keeps.mapThreads {s : State} (f : Nat → Thread → Thread) (h : ∀ i t, (f i t).ok = t.ok) :
    Keeps s { s with core := { s.core with slots := vmapIdx f s.core.slots } } :=
  ⟨rfl, rfl, rfl, rfl, rfl, rfl, fun hs i => by rw [getElem_vmapIdx, h]; exact hs i⟩

theorem Keeps.setProc {s : State} {p : Proc} (h : p.win = s.proc.win) : Keeps s (s.setProc p) := .of_eq (hw := h)

theorem keeps_after (s : State) (n : Nat) (e : Instr) : Keeps s (s.after n e) := .of_eq
theorem keeps_afterOnce (s : State) (n : Nat) (e : Instr) : Keeps s (s.afterOnce n e) := by
  unfold State.afterOnce; split
  · exact .refl s
  · exact keeps_after s n e
theorem keeps_askDispatch (s : State) (n g l : Nat) : Keeps s (s.askDispatch n g l) := by
  unfold State.askDispatch
  dsimp only
  split
  · exact .refl s
  · exact .of_eq
theorem keeps_raise (s : State) (c : Nat) (r : TrapRec) : Keeps s (s.raise c r) := .of_eq
theorem keeps_haltCore (s : State) (r : Option TrapRec) : Keeps s (s.haltCore r) := .of_eq
theorem keeps_fillICache (s : State) (pa : Nat) (w : IWord) : Keeps s (s.fillICache pa w) := .of_eq
theorem keeps_bump (s : State) (n : Nat) : Keeps s (s.bump n) := .of_eq

theorem keeps_trapWith (s : State) (code : Nat) (addr : Word) (info : BitVec 32) : Keeps s (s.trapWith code addr info) := by
  have h : Keeps s (s.setThr (s.thr.trapped (s.thr.record s.slot.val code addr info))) := .setThr (by simp)
  unfold State.trapWith
  dsimp only
  split
  · exact h.trans (keeps_haltCore ..)
  · exact h.trans (keeps_raise ..)

theorem keeps_parkRetry (s : State) (on : RetryOn) : Keeps s (s.parkRetry on) := by
  have h (t : Thread) (ht : t.ok = s.thr.ok) : Keeps s (s.setThr t) := .setThr (by rw [ht]; exact id)
  have ht : Keeps s (s.setThr (if on.atOnce then { s.thr with wait := some (.retry on) }
      else { s.thr with wait := some (.retry on) }.bubble (Wait.retry on).turnClass)) := by
    refine h _ ?_
    split
    · rfl
    · exact ok_bubble ..
  unfold State.parkRetry
  dsimp only
  generalize s.setThr _ = s1 at ht ⊢
  cases on with
  | unitHome u => exact ht.trans .of_eq
  | _ => exact ht

/-! ### Leaving the queues of the matrix engine and giving up a wait (R302) -/

@[simp] theorem win_grantLatch (n : Nat) (p : Proc) : (p.grantLatch n).win = p.win := by
  induction n generalizing p with
  | zero => rfl
  | succ n ih =>
    unfold Proc.grantLatch
    split
    · split
      · exact ih _
      · rfl
    · rfl
@[simp] theorem win_latchSent (p : Proc) (id : Nat) : (p.latchSent id).win = p.win := by unfold Proc.latchSent; simp
@[simp] theorem win_cutSend (p : Proc) (h : Nat) : (p.cutSend h).win = p.win := by unfold Proc.cutSend; split <;> rfl
@[simp] theorem win_unclaim (p : Proc) (slot h : Nat) : (p.unclaim slot h).win = p.win := by
  unfold Proc.unclaim
  split
  · split <;> rfl
  · rfl

theorem keeps_noteGrants (s : State) (m : MatQ) : Keeps s (s.noteGrants m) := by
  unfold State.noteGrants
  dsimp only
  split
  · exact .refl s
  · exact .mapThreads _ fun i t => by split <;> rfl

theorem keeps_leaveQueues (s : State) (slot : Nat) : Keeps s (s.leaveQueues slot) := by
  unfold State.leaveQueues
  dsimp only
  split
  · exact .refl s
  · exact ((Keeps.setProc (by simp)).trans (keeps_noteGrants ..)).trans (keeps_after ..)

theorem keeps_dropGrant (s : State) : Keeps s s.dropGrant := by
  unfold State.dropGrant
  extract_lets m waits
  clear_value waits
  split
  · exact keeps_leaveQueues ..
  · exact .refl s

theorem thrAt_here (s : State) (slot : Nat) : s.thrAt s.here slot = s.core.thr slot := by simp [State.thrAt, State.coreAt]

theorem keeps_abandonWait (s : State) (slot : Nat) : Keeps s (s.abandonWait slot) := by
  unfold State.abandonWait
  extract_lets t s1 s2
  have h1 : Keeps s s1 := .setThrAt fun h => by unfold t; rwa [ok_abandon, thrAt_here]
  have h2 : Keeps s s2 := (h1.trans .of_eq).trans (keeps_leaveQueues ..)
  clear_value s2
  split
  · exact h2.trans (.setProc (by simp))
  · exact h2.trans .of_eq
  · exact h2.trans (.setProc rfl)
  · split
    · split
      · exact h2
      · refine Keeps.trans ?_ ((Keeps.setProc (by simp)).trans (keeps_after ..))
        split
        · exact h2.trans (((Keeps.setProc (by simp)).trans (keeps_noteGrants ..)).trans (keeps_after ..))
        · exact h2
    · exact h2
  · exact h2

/-! ### The end of a thread (R252, R254, R256) -/

theorem focusSlot_here (s : State) (slot : Nat) : s.focusSlot s.here slot = { s with slot := Fin.ofNat 12 slot } := by
  unfold State.focusSlot
  rw [focus_here]

theorem keeps_focusSlot_here (s : State) (slot : Nat) : Keeps s (s.focusSlot s.here slot) := by
  rw [focusSlot_here]
  exact .of_eq

theorem keeps_disarm (s : State) (i : Nat) : Keeps s (s.disarm i) := by
  have h : Keeps s (s.sendCancel i) := by
    unfold State.sendCancel
    dsimp only
    split
    · exact keeps_after ..
    · exact .refl s
  exact h.trans (.setThr (by simp))

theorem keeps_disarmAll (s : State) : Keeps s s.disarmAll := by
  unfold State.disarmAll
  induction List.range 4 generalizing s with
  | nil => exact .refl s
  | cons i l ih => exact (keeps_disarm s i).trans (ih _)

theorem keeps_testJoin (s : State) : Keeps s s.testJoin := by
  unfold State.testJoin
  split
  · exact .refl s
  · cases (s.core.thr 0).wait with
    | none => exact .refl s
    | some w =>
      cases w with
      | hjoin d k =>
        dsimp only
        split
        · exact .refl s
        · exact .setThrAt (ok_joined _ _ _)
      | _ => exact .refl s

theorem keeps_raiseEnded (s : State) (slot b : Nat) : Keeps s (s.raiseEnded slot b) := keeps_raise ..

theorem keeps_foldl {α : Type} {f : State → α → State} (h : ∀ s a, Keeps s (f s a)) (l : List α) (s : State) : Keeps s (l.foldl f s) := by
  induction l generalizing s with
  | nil => exact .refl s
  | cons a l ih => exact (h s a).trans (ih _)

theorem keeps_endThread (s : State) (slot : Nat) (e : Word) (killed : Bool) : Keeps s (s.endThread slot e killed) := by
  unfold State.endThread
  have h0 : Keeps s ((s.abandonWait slot).focusSlot s.here slot).disarmAll := by
    have ha := keeps_abandonWait s slot
    refine (ha.trans ?_).trans (keeps_disarmAll _)
    rw [← ha.here]
    exact keeps_focusSlot_here ..
  generalize ((s.abandonWait slot).focusSlot s.here slot).disarmAll = s0 at h0
  dsimp only
  have h2 : Keeps s (s0.setThr { s0.thr.fresh with exitv := e, killed := killed, notBefore := s.cycle + 1 }).testJoin :=
    (h0.trans (.setThr fun _ => (ok_iff _).mpr ⟨rfl, show fpctlOk 0 = true by decide⟩)).trans (keeps_testJoin _)
  generalize (s0.setThr { s0.thr.fresh with exitv := e, killed := killed, notBefore := s.cycle + 1 }).testJoin = s2 at h2 ⊢
  have h3 := (h2.trans (Keeps.setProc (p := s2.proc.leftBy slot) rfl)).trans
    (keeps_foldl (fun t b => keeps_raiseEnded t slot b) s0.thr.defStop _)
  have h4 := h3.trans (keeps_askDispatch _ 2 s2.proc.gid s2.proc.lid)
  split
  · exact h4.trans (keeps_afterOnce ..)
  · exact h4

theorem keeps_killNow (s : State) (slot : Nat) : Keeps s (s.killNow slot) := by
  unfold State.killNow
  split
  · exact .refl s
  · split
    · exact keeps_endThread ..
    · exact (keeps_abandonWait s slot).trans (.setThrAt id)

theorem keeps_settled (s : State) : Keeps s s.settled := by
  unfold State.settled
  split
  · exact (keeps_killNow ..).trans (keeps_dropGrant _)
  · exact keeps_dropGrant s

theorem keeps_spent (s : State) : Keeps s s.spent := keeps_bump ..

theorem keeps_stopDeferred (s : State) (b : Nat) : Keeps s (s.stopDeferred b) := by
  unfold State.stopDeferred
  dsimp only
  have h : Keeps s ((s.abandonWait s.slot.val).setThr { ((s.abandonWait s.slot.val).thr.trapped ((s.abandonWait s.slot.val).thr.defRecord s.slot.val b)) with
      defStop := (s.abandonWait s.slot.val).thr.defStop.tail }) := (keeps_abandonWait ..).trans (.setThr id)
  split
  · exact h.trans (keeps_haltCore ..)
  · exact h.trans (keeps_raise ..)

theorem keeps_idle (s : State) (c : TurnClass) : Keeps s (s.idle c) := .setThr fun h => by
  rw [← ok_bubble _ c] at h
  exact h

theorem keeps_unwait (s : State) : Keeps s s.unwait := .setThr id

theorem keeps_withWord (s : State) (w : IWord) (pa : Option Nat) : Keeps s (s.withWord w pa) := by
  unfold State.withWord
  dsimp only
  split
  · exact (keeps_fillICache ..).trans (.setThr id)
  · exact .setThr id

/-! ### Outcomes -/

/-- What an outcome comes to keeps the invariant as `s` has it. -/
structure OutKeeps (s : State) (o : Out) : Prop where
  keeps : ∀ t, o = .next t → Keeps s t

theorem OutKeeps.next {s t : State} (h : Keeps s t) : OutKeeps s (.next t) := ⟨fun _ e => Host.Outcome.next.inj e ▸ h⟩

theorem OutKeeps.after {s s' : State} {o : Out} (h : Keeps s s') (ho : OutKeeps s' o) : OutKeeps s o := ⟨fun t e => h.trans (ho.keeps t e)⟩

theorem OutKeeps.andThen {s : State} {o : Out} {f : State → State} (h : OutKeeps s o) (hf : ∀ t, Keeps t (f t)) :
    OutKeeps s (Machine.andThen o (fun t => .next (f t))) := ⟨fun t e => by
  obtain ⟨u, ho, rfl⟩ := andThen_next e
  exact (h.keeps u ho).trans (hf u)⟩

theorem outKeeps_retire {s : State} {t : Thread} (h : s.thr.ok = true → t.ok = true) : OutKeeps s ((s.setThr t).retire) := by
  unfold State.retire
  rw [thr_setThr, setThr_setThr]
  exact .next (.setThr fun hs => ok_retired (h hs))

theorem outKeeps_takeTrap (s : State) (k : Trap) (addr : Word) : OutKeeps s (s.takeTrap k addr) :=
  .next ((Keeps.setThr (by simp)).trans (keeps_trapWith ..))

theorem outKeeps_guarded {q : BitVec 3} {s : State} {b : State → Out} (h : OutKeeps s (b s)) : OutKeeps s (guarded q s b) := by
  unfold guarded
  split
  · exact h
  · exact .next (.setThr ok_retired)

theorem outKeeps_startWalkFor (s : State) (on : RetryOn) (va : Word) : OutKeeps s (s.startWalkFor on va) := by
  refine .next (.trans (.trans (keeps_parkRetry s on) (.setThr ?_)) (keeps_after ..))
  exact id

/-! ### Words that compute in registers or move the PC -/

/-- Whatever the machine's state, the instruction keeps the invariant. -/
def Harmless (i : Instr) : Prop := ∀ s, OutKeeps s (exec i s)

theorem outKeeps_toX (q : BitVec 3) (d : BitVec 5) (f : Thread → Word) (s : State) : OutKeeps s (toX q d f s) :=
  outKeeps_guarded (outKeeps_retire (by simp))
theorem outKeeps_toP (q d : BitVec 3) (f : Thread → Bool) (s : State) : OutKeeps s (toP q d f s) :=
  outKeeps_guarded (outKeeps_retire (by simp))
theorem outKeeps_toK (q d : BitVec 3) (f : Thread → BitVec 32) (s : State) : OutKeeps s (toK q d f s) :=
  outKeeps_guarded (outKeeps_retire (by simp))
theorem outKeeps_toF (q : BitVec 3) (d : BitVec 5) (f : Thread → Nat × FFlags) (s : State) : OutKeeps s (toF q d f s) :=
  outKeeps_guarded (outKeeps_retire fun h => ok_flag _ h)
theorem outKeeps_compare (s : State) (q pd1 pd2 ty : BitVec 3) (c : Bool) : OutKeeps s (s.compare q pd1 pd2 ty c) :=
  outKeeps_retire (by simp)
theorem outKeeps_fcmpOp (f : Fmt) (q pd1 pd2 ty cnd : BitVec 3) (a b : BitVec 5) (s : State) : OutKeeps s (fcmpOp f q pd1 pd2 ty cnd a b s) :=
  outKeeps_retire fun h => by
    split
    · exact ok_flag _ (by simpa using h)
    · simpa using h
theorem outKeeps_lanesInto (d : BitVec 4) (t : BitVec 3) (active : Nat → Bool) (f : Nat → Nat × FFlags) (s : State) :
    OutKeeps s (lanesInto d t active f s) := outKeeps_retire fun h => ok_flag _ h
theorem outKeeps_vop (o : LaneOp) (q t : BitVec 3) (d a b : BitVec 4) (k : BitVec 3) (s : State) : OutKeeps s (vop o q t d a b k s) :=
  outKeeps_guarded (outKeeps_lanesInto ..)
theorem outKeeps_ftrOp (fn : Nat) (q : BitVec 3) (c : BitVec 1) (d a : BitVec 5) (s : State) : OutKeeps s (ftrOp fn q c d a s) := by
  refine outKeeps_guarded ?_
  dsimp only
  split
  · exact .next ((Keeps.setThr (by simp)).trans (keeps_after ..))
  · exact outKeeps_retire fun h => ok_flag _ h

theorem pc_add_4mul {p : Word} (v : Word) (h : p.toNat % 4 = 0) : (p + 4 * v).toNat % 4 = 0 := by
  have hdvd : 4 ∣ 2 ^ 64 := by decide
  rw [BitVec.toNat_add, BitVec.toNat_mul, Nat.mod_mod_of_dvd _ hdvd, Nat.add_mod, h, Nat.mod_mod_of_dvd _ hdvd]
  exact congrArg (· % 4) ((Nat.zero_add _).trans (Nat.mul_mod_right 4 v.toNat))

theorem outKeeps_branch {q : BitVec 3} {o : Option Word} {s : State} {body : Thread → Out} (h : OutKeeps s (body s.thr)) :
    OutKeeps s (branch q o s body) := by
  unfold branch
  split
  · exact h
  · exact .next (.setThr fun hs => ok_goTo _ hs (pc_mod4_add 1 ((ok_iff _).mp hs).1))

/-- Every instruction that a decoder may answer is harmless. -/
structure AllHarmless (o : Option Instr) : Prop where
  harmless : ∀ i, o = some i → Harmless i

theorem AllHarmless.none : AllHarmless none := ⟨fun _ h => nomatch h⟩
theorem AllHarmless.some {i : Instr} (h : Harmless i) : AllHarmless (some i) := ⟨fun _ e => Option.some.inj e ▸ h⟩
theorem AllHarmless.need {c : Bool} {i : Instr} (h : Harmless i) : AllHarmless (need c i) := by
  unfold Sys2Proof.need
  split
  · exact .some h
  · exact .none

/-- A table by a number: the case of `k`, and the rest of the table. -/
theorem AllHarmless.case {n k : Nat} {o : Option Instr} {e : ¬ n = k → Option Instr} (h : n = k → AllHarmless o) (h' : ∀ hk, AllHarmless (e hk)) :
    AllHarmless (dite (n = k) (Eq.ndrec_symm (motive := fun _ => Option Instr) o) e) := by
  split
  next hk => rw [ndrec_symm_const o hk]; exact h hk
  next hk => exact h' hk

set_option smartUnfolding false in
theorem harmless_dec01 (q : BitVec 3) (d a b : BitVec 5) (fn : BitVec 8) : AllHarmless (dec01 q d a b fn) := by
  iterate 22
    refine .case (fun _ => .some fun s => by unfold exec; exact outKeeps_toX ..) fun _ => ?_
  exact .none

set_option smartUnfolding false in
theorem harmless_dec02 (q : BitVec 3) (d a b : BitVec 5) (fn : BitVec 8) : AllHarmless (dec02 q d a b fn) := by
  iterate 12
    refine .case (fun _ => .some fun s => by unfold exec; exact outKeeps_toX ..) fun _ => ?_
  exact .none

set_option smartUnfolding false in
theorem harmless_dec03 (q : BitVec 3) (d a b : BitVec 5) (fn : BitVec 8) : AllHarmless (dec03 q d a b fn) := by
  iterate 11
    refine .case (fun _ => .need fun s => by unfold exec; exact outKeeps_toX ..) fun _ => ?_
  iterate 3
    refine .case (fun _ => .some fun s => by unfold exec; exact outKeeps_toX ..) fun _ => ?_
  exact .none

set_option smartUnfolding false in
theorem harmless_dec04 (q : BitVec 3) (d a b : BitVec 5) (fn : BitVec 8) : AllHarmless (dec04 q d a b fn) := by
  refine .case (fun _ => .some fun s => by unfold exec; exact outKeeps_retire (by simp)) fun _ => ?_
  iterate 4
    refine .case (fun _ => .need fun s => by unfold exec; exact outKeeps_toP ..) fun _ => ?_
  refine .case (fun _ => .need fun s => by unfold exec; exact outKeeps_toX ..) fun _ => ?_
  refine .case (fun _ => .need fun s => by unfold exec; exact outKeeps_guarded (outKeeps_retire fun h => by rwa [ok_setPreds])) fun _ => ?_
  exact .none

theorem harmless_dec05 (q : BitVec 3) (d a : BitVec 5) (imm : BitVec 13) : AllHarmless (dec05 q d a imm) := 
  .some fun _ => by unfold exec; exact outKeeps_toX ..

theorem harmless_dec06 (q : BitVec 3) (d a : BitVec 5) (imm : BitVec 13) : AllHarmless (dec06 q d a imm) := 
  .some fun _ => by unfold exec; exact outKeeps_toX ..

theorem harmless_dec07 (q : BitVec 3) (d a : BitVec 5) (imm : BitVec 13) : AllHarmless (dec07 q d a imm) := 
  .some fun _ => by unfold exec; exact outKeeps_toX ..

theorem harmless_dec08 (q : BitVec 3) (d a : BitVec 5) (imm : BitVec 13) : AllHarmless (dec08 q d a imm) := 
  .some fun _ => by unfold exec; exact outKeeps_toX ..

set_option smartUnfolding false in
theorem harmless_dec09 (q : BitVec 3) (d a : BitVec 5) (sz : BitVec 3) (imm : BitVec 10) : AllHarmless (dec09 q d a sz imm) := by
  iterate 7
    refine .case (fun _ => .need fun s => by unfold exec; exact outKeeps_toX ..) fun _ => ?_
  exact .none

theorem harmless_dec0A (q : BitVec 3) (d : BitVec 5) (imm : BitVec 18) : AllHarmless (dec0A q d imm) := 
  .some fun _ => by unfold exec; exact outKeeps_toX ..

theorem harmless_dec0B (q : BitVec 3) (d : BitVec 5) (hw : BitVec 2) (imm : BitVec 16) : AllHarmless (dec0B q d hw imm) := 
  .some fun _ => by unfold exec; exact outKeeps_toX ..

theorem harmless_dec0C (q pd1 pd2 ty cnd : BitVec 3) (a : BitVec 5) (lo : BitVec 6) : AllHarmless (dec0C q pd1 pd2 ty cnd a lo) := 
  .need fun _ => outKeeps_compare ..

theorem harmless_dec0D (q pd1 pd2 ty cnd : BitVec 3) (a : BitVec 5) (lo : BitVec 6) : AllHarmless (dec0D q pd1 pd2 ty cnd a lo) := 
  .some fun _ => outKeeps_compare ..

theorem outKeeps_goTo {s : State} {t : Thread} {pc : Word} (o : Option Word) (h : s.thr.ok = true → t.ok = true ∧ pc.toNat % 4 = 0) :
    OutKeeps s (.next (s.setThr (t.goTo pc o))) := .next (.setThr fun hs => ok_goTo o (h hs).1 (h hs).2)

theorem mod4_of_aligned {v : Word} (h : ¬ v.extractLsb' 0 2 ≠ 0) : v.toNat % 4 = 0 := by
  have := congrArg BitVec.toNat (not_not.mp h)
  simpa [BitVec.extractLsb'_toNat] using this

theorem harmless_dec10 (q : BitVec 3) (h : BitVec 1) (disp : BitVec 22) : AllHarmless (dec10 q h disp) := by
  refine .some fun s => ?_
  unfold exec
  exact outKeeps_branch (outKeeps_goTo _ fun hs => ⟨hs, pc_add_4mul _ ((ok_iff _).mp hs).1⟩)

theorem harmless_dec11 (q : BitVec 3) (h : BitVec 1) (disp : BitVec 22) : AllHarmless (dec11 q h disp) := by
  refine .some fun s => ?_
  unfold exec
  exact outKeeps_branch (outKeeps_goTo _ fun hs => ⟨by simpa using hs, pc_add_4mul _ ((ok_iff _).mp hs).1⟩)

set_option smartUnfolding false in
theorem harmless_dec12 (q : BitVec 3) (d a b : BitVec 5) (fn : BitVec 8) : AllHarmless (dec12 q d a b fn) := by
  unfold dec12
  split
  · exact .none
  refine .case (fun _ => ?_) fun _ => ?_
  · refine .need fun s => ?_
    unfold exec
    refine outKeeps_branch ?_
    dsimp only
    split
    · exact outKeeps_takeTrap ..
    · exact outKeeps_goTo _ fun hs => ⟨by simpa using hs, mod4_of_aligned ‹_›⟩
  refine .case (fun _ => ?_) fun _ => ?_
  · refine .some fun s => ?_
    unfold exec
    refine outKeeps_branch ?_
    dsimp only
    split
    · exact outKeeps_takeTrap ..
    · exact outKeeps_goTo _ fun hs => ⟨by simpa using hs, mod4_of_aligned ‹_›⟩
  exact .none

theorem harmless_dec13 (q : BitVec 3) (d a : BitVec 5) (imm : BitVec 13) : AllHarmless (dec13 q d a imm) := by
  refine .need fun s => ?_
  unfold exec
  refine outKeeps_branch (outKeeps_goTo _ fun hs => ⟨by simpa using hs, ?_⟩)
  split
  · exact pc_add_4mul _ ((ok_iff _).mp hs).1
  · exact pc_mod4_add 1 ((ok_iff _).mp hs).1

theorem outKeeps_writesX (q : BitVec 3) (d : BitVec 5) (f : State → Word) (s : State) : OutKeeps s (guarded q s (fun s => (s.wx d (f s)).retire)) :=
  outKeeps_guarded (outKeeps_retire (by simp))

theorem outKeeps_execFadd (q : BitVec 3) (f : BitVec 2) (d a b : BitVec 5) (s : State) : OutKeeps s (execFadd q f d a b s) := by
  unfold execFadd
  exact outKeeps_toF ..
theorem outKeeps_execFsub (q : BitVec 3) (f : BitVec 2) (d a b : BitVec 5) (s : State) : OutKeeps s (execFsub q f d a b s) := by
  unfold execFsub
  exact outKeeps_toF ..
theorem outKeeps_execFmul (q : BitVec 3) (f : BitVec 2) (d a b : BitVec 5) (s : State) : OutKeeps s (execFmul q f d a b s) := by
  unfold execFmul
  exact outKeeps_toF ..
theorem outKeeps_execFdiv (q : BitVec 3) (f : BitVec 2) (d a b : BitVec 5) (s : State) : OutKeeps s (execFdiv q f d a b s) := by
  unfold execFdiv
  exact outKeeps_toF ..
theorem outKeeps_execFsqrt (q : BitVec 3) (f : BitVec 2) (d a : BitVec 5) (s : State) : OutKeeps s (execFsqrt q f d a s) := by
  unfold execFsqrt
  exact outKeeps_toF ..
theorem outKeeps_execFmin (q : BitVec 3) (f : BitVec 2) (d a b : BitVec 5) (s : State) : OutKeeps s (execFmin q f d a b s) := by
  unfold execFmin
  exact outKeeps_toF ..
theorem outKeeps_execFmax (q : BitVec 3) (f : BitVec 2) (d a b : BitVec 5) (s : State) : OutKeeps s (execFmax q f d a b s) := by
  unfold execFmax
  exact outKeeps_toF ..
theorem outKeeps_execFminn (q : BitVec 3) (f : BitVec 2) (d a b : BitVec 5) (s : State) : OutKeeps s (execFminn q f d a b s) := by
  unfold execFminn
  exact outKeeps_toF ..
theorem outKeeps_execFmaxn (q : BitVec 3) (f : BitVec 2) (d a b : BitVec 5) (s : State) : OutKeeps s (execFmaxn q f d a b s) := by
  unfold execFmaxn
  exact outKeeps_toF ..
theorem outKeeps_execFabs (q : BitVec 3) (f : BitVec 2) (d a : BitVec 5) (s : State) : OutKeeps s (execFabs q f d a s) := by
  unfold execFabs
  exact outKeeps_toF ..
theorem outKeeps_execFneg (q : BitVec 3) (f : BitVec 2) (d a : BitVec 5) (s : State) : OutKeeps s (execFneg q f d a s) := by
  unfold execFneg
  exact outKeeps_toF ..
theorem outKeeps_execFcpys (q : BitVec 3) (f : BitVec 2) (d a b : BitVec 5) (s : State) : OutKeeps s (execFcpys q f d a b s) := by
  unfold execFcpys
  exact outKeeps_toF ..
theorem outKeeps_execFclass (q : BitVec 3) (f : BitVec 2) (d a : BitVec 5) (s : State) : OutKeeps s (execFclass q f d a s) := by
  unfold execFclass
  exact outKeeps_writesX ..
theorem outKeeps_execFmvxf (q : BitVec 3) (f : BitVec 2) (d a : BitVec 5) (s : State) : OutKeeps s (execFmvxf q f d a s) := by
  unfold execFmvxf
  exact outKeeps_toF ..
theorem outKeeps_execFmvfx (q : BitVec 3) (f : BitVec 2) (d a : BitVec 5) (s : State) : OutKeeps s (execFmvfx q f d a s) := by
  unfold execFmvfx
  exact outKeeps_writesX ..
theorem outKeeps_execFma (q : BitVec 3) (f : BitVec 2) (r : BitVec 3) (d a b : BitVec 5) (s : State) : OutKeeps s (execFma q f r d a b s) := by
  unfold execFma fmaOp
  exact outKeeps_toF ..
theorem outKeeps_execFms (q : BitVec 3) (f : BitVec 2) (r : BitVec 3) (d a b : BitVec 5) (s : State) : OutKeeps s (execFms q f r d a b s) := by
  unfold execFms fmaOp
  exact outKeeps_toF ..
theorem outKeeps_execFnma (q : BitVec 3) (f : BitVec 2) (r : BitVec 3) (d a b : BitVec 5) (s : State) : OutKeeps s (execFnma q f r d a b s) := by
  unfold execFnma fmaOp
  exact outKeeps_toF ..
theorem outKeeps_execFnms (q : BitVec 3) (f : BitVec 2) (r : BitVec 3) (d a b : BitVec 5) (s : State) : OutKeeps s (execFnms q f r d a b s) := by
  unfold execFnms fmaOp
  exact outKeeps_toF ..

set_option smartUnfolding false in
theorem harmless_dec18 (q : BitVec 3) (d a b : BitVec 5) (fn : BitVec 8) : AllHarmless (dec18 q d a b fn) := by
  refine .case (fun _ => .some fun s => by unfold exec; exact outKeeps_execFadd ..) fun _ => ?_
  refine .case (fun _ => .some fun s => by unfold exec; exact outKeeps_execFsub ..) fun _ => ?_
  refine .case (fun _ => .some fun s => by unfold exec; exact outKeeps_execFmul ..) fun _ => ?_
  refine .case (fun _ => .some fun s => by unfold exec; exact outKeeps_execFdiv ..) fun _ => ?_
  refine .case (fun _ => .need fun s => by unfold exec; exact outKeeps_execFsqrt ..) fun _ => ?_
  refine .case (fun _ => .some fun s => by unfold exec; exact outKeeps_execFmin ..) fun _ => ?_
  refine .case (fun _ => .some fun s => by unfold exec; exact outKeeps_execFmax ..) fun _ => ?_
  refine .case (fun _ => .some fun s => by unfold exec; exact outKeeps_execFminn ..) fun _ => ?_
  refine .case (fun _ => .some fun s => by unfold exec; exact outKeeps_execFmaxn ..) fun _ => ?_
  refine .case (fun _ => .need fun s => by unfold exec; exact outKeeps_execFabs ..) fun _ => ?_
  refine .case (fun _ => .need fun s => by unfold exec; exact outKeeps_execFneg ..) fun _ => ?_
  refine .case (fun _ => .some fun s => by unfold exec; exact outKeeps_execFcpys ..) fun _ => ?_
  refine .case (fun _ => .need fun s => by unfold exec; exact outKeeps_execFclass ..) fun _ => ?_
  refine .case (fun _ => .need fun s => by unfold exec; exact outKeeps_execFmvxf ..) fun _ => ?_
  refine .case (fun _ => .need fun s => by unfold exec; exact outKeeps_execFmvfx ..) fun _ => ?_
  exact .none

set_option smartUnfolding false in
theorem harmless_dec19 (q : BitVec 3) (d a b : BitVec 5) (fn : BitVec 8) : AllHarmless (dec19 q d a b fn) := by
  refine .case (fun _ => .some fun s => by unfold exec; exact outKeeps_execFma ..) fun _ => ?_
  refine .case (fun _ => .some fun s => by unfold exec; exact outKeeps_execFms ..) fun _ => ?_
  refine .case (fun _ => .some fun s => by unfold exec; exact outKeeps_execFnma ..) fun _ => ?_
  refine .case (fun _ => .some fun s => by unfold exec; exact outKeeps_execFnms ..) fun _ => ?_
  exact .none

theorem harmless_dec1A (q pd1 pd2 ty cnd : BitVec 3) (a : BitVec 5) (lo : BitVec 6) : AllHarmless (dec1A q pd1 pd2 ty cnd a lo) := 
  .need fun _ => outKeeps_fcmpOp ..

theorem harmless_dec1B (q pd1 pd2 ty cnd : BitVec 3) (a : BitVec 5) (lo : BitVec 6) : AllHarmless (dec1B q pd1 pd2 ty cnd a lo) := 
  .need fun _ => outKeeps_fcmpOp ..

theorem harmless_dec1C (q : BitVec 3) (d a b : BitVec 5) (fn : BitVec 8) : AllHarmless (dec1C q d a b fn) := by
  refine .need fun s => ?_
  unfold exec
  refine outKeeps_guarded ?_
  dsimp only
  split
  · exact outKeeps_retire fun h => ok_flag _ h
  · exact outKeeps_retire fun h => ok_flag _ (by simpa using h)

set_option smartUnfolding false in
theorem harmless_dec1D (q : BitVec 3) (d a b : BitVec 5) (fn : BitVec 8) : AllHarmless (dec1D q d a b fn) := by
  unfold dec1D
  dsimp only
  split
  · exact .none
  iterate 7
    refine .case (fun _ => .some fun s => by unfold exec; exact outKeeps_ftrOp ..) fun _ => ?_
  exact .none

/-- The body of an instruction that reads a format register: it needs a descriptor that `c` accepts. -/
theorem outKeeps_withDesc {s : State} (c : FDesc → Prop) [DecidablePred c] {w : Word} {body : FDesc → Out} (h : ∀ f, OutKeeps s (body f)) :
    OutKeeps s (match fmDesc w with | some f => if c f then body f else s.takeTrap .format 0 | none => s.takeTrap .format 0) := by
  split
  · split
    · exact h _
    · exact outKeeps_takeTrap ..
  · exact outKeeps_takeTrap ..

set_option smartUnfolding false in
theorem harmless_dec1E (q : BitVec 3) (d a b : BitVec 5) (fn : BitVec 8) : AllHarmless (dec1E q d a b fn) := by
  refine .case (fun _ => .need fun s => by unfold exec; exact outKeeps_guarded (outKeeps_retire (by simp))) fun _ => ?_
  iterate 2
    refine .case (fun _ => .need fun s => by unfold exec; exact outKeeps_guarded (outKeeps_withDesc _ fun f => outKeeps_retire fun h => ok_flag _ (by simpa using h))) fun _ => ?_
  refine .case (fun _ => .need fun s => by unfold exec; exact outKeeps_guarded (outKeeps_retire (by simp))) fun _ => ?_
  refine .case (fun _ => .need fun s => by unfold exec; exact outKeeps_guarded (outKeeps_withDesc _ fun f => outKeeps_retire fun h => ok_flag _ h)) fun _ => ?_
  refine .case (fun _ => .need fun s => by unfold exec; exact outKeeps_guarded (outKeeps_retire (by simp))) fun _ => ?_
  exact .none

set_option smartUnfolding false in
theorem harmless_dec20 (q : BitVec 3) (d a b : BitVec 5) (fn : BitVec 8) : AllHarmless (dec20 q d a b fn) := by
  iterate 5
    refine .case (fun _ => .some fun s => by unfold exec; exact outKeeps_vop ..) fun _ => ?_
  refine .case (fun _ => .need fun s => by unfold exec; exact outKeeps_vop ..) fun _ => ?_
  iterate 4
    refine .case (fun _ => .some fun s => by unfold exec; exact outKeeps_vop ..) fun _ => ?_
  iterate 2
    refine .case (fun _ => .need fun s => by unfold exec; exact outKeeps_vop ..) fun _ => ?_
  iterate 6
    refine .case (fun _ => .some fun s => by unfold exec; exact outKeeps_vop ..) fun _ => ?_
  refine .case (fun _ => .some fun s => by unfold exec; exact outKeeps_guarded (outKeeps_lanesInto ..)) fun _ => ?_
  refine .case (fun _ => .need fun s => by unfold exec; exact outKeeps_vop ..) fun _ => ?_
  exact .none

set_option smartUnfolding false in
theorem harmless_dec21 (q : BitVec 3) (d a b : BitVec 5) (fn : BitVec 8) : AllHarmless (dec21 q d a b fn) := by
  refine .case (fun _ => .need fun s => by unfold exec; exact outKeeps_guarded (outKeeps_lanesInto ..)) fun _ => ?_
  refine .case (fun _ => ?_) fun _ => ?_
  · refine .need fun s => ?_
    unfold exec
    refine outKeeps_guarded ?_
    dsimp only
    split
    · exact outKeeps_retire (by simp)
    split
    · exact outKeeps_retire (by simp)
    · exact outKeeps_retire (by simp)
  refine .case (fun _ => .need fun s => by unfold exec; exact outKeeps_guarded (outKeeps_retire (by simp))) fun _ => ?_
  refine .case (fun _ => .need fun s => by unfold exec; exact outKeeps_guarded (outKeeps_lanesInto ..)) fun _ => ?_
  iterate 2
    refine .case (fun _ => ?_) fun _ => ?_
    · refine .need fun s => ?_
      unfold exec
      refine outKeeps_guarded ?_
      dsimp only
      split
      · exact outKeeps_retire fun h => ok_flag _ h
      · exact outKeeps_retire (by simp)
  refine .case (fun _ => .need fun s => by unfold exec; exact outKeeps_guarded (outKeeps_retire fun h => ok_flag _ (by simpa using h))) fun _ => ?_
  refine .case (fun _ => ?_) fun _ => ?_
  · refine .need fun s => ?_
    unfold exec
    refine outKeeps_guarded ?_
    dsimp only
    split
    · exact outKeeps_lanesInto ..
    · exact outKeeps_lanesInto ..
  exact .none

theorem harmless_dec22 (q kd : BitVec 3) (a b : BitVec 4) (t cnd kg z : BitVec 3) : AllHarmless (dec22 q kd a b t cnd kg z) := by
  refine .need fun s => ?_
  unfold exec
  exact outKeeps_guarded (outKeeps_retire fun h => ok_flag _ (by simpa using h))

set_option smartUnfolding false in
theorem harmless_dec23 (q : BitVec 3) (d a b : BitVec 5) (fn : BitVec 8) : AllHarmless (dec23 q d a b fn) := by
  iterate 5
    refine .case (fun _ => .need fun s => by unfold exec; exact outKeeps_toK ..) fun _ => ?_
  iterate 2
    refine .case (fun _ => .need fun s => by unfold exec; exact outKeeps_writesX ..) fun _ => ?_
  refine .case (fun _ => .need fun s => by unfold exec; exact outKeeps_guarded (outKeeps_retire (by simp))) fun _ => ?_
  exact .none

set_option smartUnfolding false in
theorem harmless_dec24 (q : BitVec 3) (d a b : BitVec 5) (fn : BitVec 8) : AllHarmless (dec24 q d a b fn) := by
  refine .case (fun _ => .need fun s => by unfold exec; exact outKeeps_guarded (outKeeps_withDesc _ fun f => outKeeps_retire fun h => by rw [ok_wx]; exact ok_flag _ h)) fun _ => ?_
  refine .case (fun _ => .need fun s => by unfold exec; exact outKeeps_guarded (outKeeps_withDesc _ fun f => outKeeps_retire fun h => ok_writeGroup _ _ _ _ h)) fun _ => ?_
  exact .none

/-! ### The word of a computing major -/

set_option smartUnfolding false in
theorem harmless_decodeFrameRaw {w : IWord} (hm : (fld w 23 6).toNat ≠ 0x3A) : AllHarmless (decodeFrameRaw w) := by
  refine .case (fun _ => harmless_dec01 ..) fun _ => ?_
  refine .case (fun _ => harmless_dec02 ..) fun _ => ?_
  refine .case (fun _ => harmless_dec03 ..) fun _ => ?_
  refine .case (fun _ => harmless_dec04 ..) fun _ => ?_
  refine .case (fun _ => harmless_dec05 ..) fun _ => ?_
  refine .case (fun _ => harmless_dec06 ..) fun _ => ?_
  refine .case (fun _ => harmless_dec07 ..) fun _ => ?_
  refine .case (fun _ => harmless_dec08 ..) fun _ => ?_
  refine .case (fun _ => harmless_dec09 ..) fun _ => ?_
  refine .case (fun _ => harmless_dec0A ..) fun _ => ?_
  refine .case (fun _ => harmless_dec0B ..) fun _ => ?_
  refine .case (fun _ => harmless_dec18 ..) fun _ => ?_
  refine .case (fun _ => harmless_dec19 ..) fun _ => ?_
  refine .case (fun _ => harmless_dec1A ..) fun _ => ?_
  refine .case (fun _ => harmless_dec1B ..) fun _ => ?_
  refine .case (fun _ => harmless_dec1C ..) fun _ => ?_
  refine .case (fun _ => harmless_dec1D ..) fun _ => ?_
  refine .case (fun _ => harmless_dec1E ..) fun _ => ?_
  refine .case (fun _ => harmless_dec20 ..) fun _ => ?_
  refine .case (fun _ => harmless_dec21 ..) fun _ => ?_
  refine .case (fun _ => harmless_dec22 ..) fun _ => ?_
  refine .case (fun _ => harmless_dec23 ..) fun _ => ?_
  refine .case (fun _ => harmless_dec24 ..) fun _ => ?_
  refine .case (fun h => absurd h hm) fun _ => ?_
  exact .none

/-- The majors of the words whose turns keep the invariant. -/
def majorOk (m : Nat) : Bool :=
  (decide (1 ≤ m) && decide (m ≤ 0x0D)) || (decide (0x10 ≤ m) && decide (m ≤ 0x13)) || (decide (0x18 ≤ m) && decide (m ≤ 0x24))

theorem registerMajor_eq (w : IWord) : registerMajor w = majorOk (fld w 23 6).toNat := rfl

set_option smartUnfolding false in
theorem harmless_decodeRestRaw {w : IWord} (hm : registerMajor w = true) : AllHarmless (decodeRestRaw w) := by
  rw [registerMajor_eq] at hm
  refine .case (fun _ => harmless_dec0C ..) fun _ => ?_
  refine .case (fun _ => harmless_dec0D ..) fun _ => ?_
  refine .case (fun h => absurd hm (by rw [h]; decide)) fun _ => ?_
  refine .case (fun _ => harmless_dec10 ..) fun _ => ?_
  refine .case (fun _ => harmless_dec11 ..) fun _ => ?_
  refine .case (fun _ => harmless_dec12 ..) fun _ => ?_
  refine .case (fun _ => harmless_dec13 ..) fun _ => ?_
  iterate 22
    refine .case (fun h => absurd hm (by rw [h]; decide)) fun _ => ?_
  exact .none

theorem harmless_of_registerMajor {w : IWord} {i : Instr} (hm : registerMajor w = true) (hd : decodeWord w = some i) : Harmless i := by
  have hraw : decodeRaw w = some i := (decodeWord_eq_some hd).1
  unfold decodeRaw at hraw
  split at hraw
  · refine (harmless_decodeFrameRaw fun h => ?_).harmless i hraw
    simp [registerMajor, h] at hm
  · exact (harmless_decodeRestRaw hm).harmless i hraw

/-! ### A turn -/

theorem keeps_settled_spent (s : State) : Keeps s s.settled.spent := (keeps_settled s).trans (keeps_spent _)

theorem outKeeps_undefinedWord (w : IWord) (s : State) : OutKeeps s (exec (.undefinedWord w) s) := by
  show OutKeeps s (execUndefinedWord w s)
  exact .after (s' := s.setThr { s.thr with ir := w }) (.setThr id) (outKeeps_takeTrap ..)

theorem outKeeps_fetchFault (code : Nat) (a : Word) (s : State) : OutKeeps s (exec (.instructionFetchFault code a) s) := by
  show OutKeeps s (execInstructionFetchFault code a s)
  exact .next ((Keeps.setThr (t := { s.thr with ir := Config.unfetchedWord s.free }) id).trans
    ((Keeps.setThr fun h => by simpa using h).trans (keeps_trapWith ..)))

theorem outKeeps_runWord {w : IWord} (s : State) (hm : registerMajor w = true) : OutKeeps s (runWord w s) := by
  unfold runWord
  split
  · rename_i i hd
    exact (harmless_of_registerMajor hm hd s).andThen keeps_settled_spent
  · refine OutKeeps.andThen ?_ keeps_settled_spent
    split
    · exact .next (.setThr ok_retired)
    · exact outKeeps_undefinedWord w s

theorem outKeeps_stepIssue (s : State) (hm : ∀ w pa, s.issue = .word w pa → registerMajor w = true) : OutKeeps s (stepIssue s) := by
  unfold stepIssue
  split
  · exact .after (keeps_unwait s) ((outKeeps_startWalkFor ..).andThen keeps_spent)
  · exact .next ((keeps_unwait s).trans ((keeps_parkRetry ..).trans (keeps_spent _)))
  · exact .after (keeps_unwait s) ((outKeeps_takeTrap ..).andThen keeps_settled_spent)
  · split
    · have hw : Keeps s (s.setThr { s.thr with ir := Config.unfetchedWord s.free }) := .setThr id
      exact .next (hw.trans ((keeps_idle _ .vac).trans ((keeps_stopDeferred _ _).trans (keeps_settled_spent _))))
    · exact .after (keeps_unwait s) ((outKeeps_fetchFault ..).andThen keeps_settled_spent)
  · rename_i w pa hi
    dsimp only
    split
    · exact .next ((keeps_withWord s w pa).trans ((keeps_idle _ .vac).trans ((keeps_stopDeferred _ _).trans (keeps_settled_spent _))))
    · split
      · exact .next ((keeps_withWord s w pa).trans ((keeps_idle _ .vac).trans (keeps_spent _)))
      · exact .after (keeps_withWord ..) (outKeeps_runWord _ (hm w pa hi))

/-! ### Bringing a core into focus -/

theorem kvGet_mem {α : Type} {l : List (Nat × α)} {c : Nat} {v : α} (h : kvGet l c = some v) : (c, v) ∈ l := by
  induction l with
  | nil => cases h
  | cons e t ih =>
    unfold kvGet at h
    split at h
    · rename_i hk
      obtain rfl := Option.some.inj h
      exact hk ▸ List.mem_cons_self
    · exact List.mem_cons_of_mem _ (ih h)

theorem mem_of_mem_kvDel {α : Type} {l : List (Nat × α)} {c : Nat} {e : Nat × α} (h : e ∈ kvDel l c) : e ∈ l := by
  induction l with
  | nil => exact h
  | cons a t ih =>
    unfold kvDel at h
    split at h
    · exact List.mem_cons_of_mem _ h
    · cases h with
      | head => exact List.mem_cons_self
      | tail _ h => exact List.mem_cons_of_mem _ (ih h)

theorem rising_kvDel {α : Type} {l : List (Nat × α)} (c : Nat) (h : (l.map Prod.fst).Pairwise (· < ·)) :
    ((kvDel l c).map Prod.fst).Pairwise (· < ·) := by
  induction l with
  | nil => exact h
  | cons a t ih =>
    rw [List.map_cons, List.pairwise_cons] at h
    unfold kvDel
    split
    · exact h.2
    · rw [List.map_cons, List.pairwise_cons]
      refine ⟨fun k hk => ?_, ih h.2⟩
      obtain ⟨e, he, rfl⟩ := List.mem_map.mp hk
      exact h.1 _ (List.mem_map_of_mem (mem_of_mem_kvDel he))

theorem ne_of_mem_kvDel {α : Type} {l : List (Nat × α)} {c : Nat} {e : Nat × α} (hr : (l.map Prod.fst).Pairwise (· < ·)) (h : e ∈ kvDel l c) :
    e.1 ≠ c := by
  induction l with
  | nil => cases h
  | cons a t ih =>
    rw [List.map_cons, List.pairwise_cons] at hr
    unfold kvDel at h
    split at h
    · rename_i hk
      have := hr.1 _ (List.mem_map_of_mem h)
      lia
    · rename_i hk
      cases h with
      | head => exact fun h => hk h.symm
      | tail _ h => exact ih hr.2 h

theorem mem_kvPut {α : Type} {l : List (Nat × α)} {k : Nat} {v : α} {e : Nat × α} (h : e ∈ kvPut l k v) : e = (k, v) ∨ e ∈ l := by
  induction l with
  | nil => exact .inl (List.mem_singleton.mp h)
  | cons a t ih =>
    unfold kvPut at h
    split at h
    · exact List.mem_cons.mp h
    · split at h
      · exact (List.mem_cons.mp h).imp_right (List.mem_cons_of_mem _)
      · cases h with
        | head => exact .inr List.mem_cons_self
        | tail _ h => exact (ih h).imp_right (List.mem_cons_of_mem _)

theorem rising_kvPut {α : Type} {l : List (Nat × α)} (k : Nat) (v : α) (h : (l.map Prod.fst).Pairwise (· < ·)) :
    ((kvPut l k v).map Prod.fst).Pairwise (· < ·) := by
  induction l with
  | nil => exact List.pairwise_singleton ..
  | cons a t ih =>
    have hc := h
    rw [List.map_cons, List.pairwise_cons] at hc
    unfold kvPut
    split
    · rename_i hlt
      rw [List.map_cons, List.pairwise_cons]
      refine ⟨fun x hx => ?_, h⟩
      rcases List.mem_cons.mp hx with rfl | hx
      · exact hlt
      · exact hlt.trans (hc.1 x hx)
    · split
      · rename_i heq
        exact heq ▸ h
      · rw [List.map_cons, List.pairwise_cons]
        refine ⟨fun x hx => ?_, ih hc.2⟩
        obtain ⟨e, he, rfl⟩ := List.mem_map.mp hx
        rcases mem_kvPut he with rfl | he
        · dsimp only
          lia
        · exact hc.1 _ (List.mem_map_of_mem he)

/-- What the invariant says of a core: its window is canonical and its threads are legal. -/
structure Core.Legal (k : Core) : Prop where
  mem : k.memOk = true
  threads : ∀ i : Fin 12, k.slots[i].ok = true

theorem legal_untouched : ({} : Core).Legal := ⟨by decide, by decide⟩

theorem State.Inv.legal_coreAt {s : State} (h : s.Inv) (c : Nat) : (s.coreAt c).Legal := by
  unfold State.coreAt
  split
  · exact ⟨h.here, h.threads⟩
  · cases hk : kvGet s.others c with
    | none => exact legal_untouched
    | some k => exact ⟨h.others _ (kvGet_mem hk), h.otherThreads _ (kvGet_mem hk)⟩

theorem State.Inv.focus {s : State} (h : s.Inv) (c : Nat) : (s.focus c).Inv := by
  unfold State.focus
  split
  · exact h
  · rename_i hc
    have hk := h.legal_coreAt c
    exact {
      mem := h.mem, mbox := h.mbox, mbind := h.mbind, here := hk.mem, threads := hk.threads
      rising := rising_kvPut _ _ (rising_kvDel _ h.rising)
      others := fun e he => by
        rcases mem_kvPut he with rfl | he
        · exact h.here
        · exact h.others e (mem_of_mem_kvDel he)
      apart := fun e he => by
        rcases mem_kvPut he with rfl | he
        · exact fun heq => hc heq.symm
        · exact ne_of_mem_kvDel h.rising he
      otherThreads := fun e he => by
        rcases mem_kvPut he with rfl | he
        · exact h.threads
        · exact h.otherThreads e (mem_of_mem_kvDel he) }

theorem State.Inv.focusSlot {s : State} (h : s.Inv) (c slot : Nat) : (s.focusSlot c slot).Inv :=
  Keeps.inv (.of_eq) (h.focus c)

theorem outKeeps_stepTurn {c : Nat} {s : State} (hm : ∀ w pa, (s.focusSlot c (s.cycle % 12)).issue = .word w pa → registerMajor w = true) :
    OutKeeps (s.focusSlot c (s.cycle % 12)) (stepTurn c s) := by
  unfold stepTurn
  dsimp only
  split
  · exact .next (.refl _)
  · exact .next (.trans (keeps_idle ..) (keeps_settled _))
  · exact outKeeps_stepIssue _ hm

end Sys2Proof.Machine

namespace Sys2Proof
open Machine

/-- Settles O60: bringing a core into focus keeps the invariant, and what its turn does keeps what the invariant says (`Keeps`), each
instruction of the computing majors by `harmless_of_registerMajor`. -/
theorem turnsKeepInv : Obligations.TurnsKeepInv := by
  unfold Obligations.TurnsKeepInv
  intro s t c rest hinv hredo hagenda htodo hmajor hstep
  rw [step_turn s c rest hredo hagenda htodo] at hstep
  have htail : ({ s with todo := rest } : State).Inv := Keeps.inv (s := s) .of_eq hinv
  exact ((outKeeps_stepTurn hmajor).keeps t hstep).inv (htail.focusSlot c _)

end Sys2Proof
end

section
/-! Decoding by example, the step of a decoded word, branches and jumps. -/

namespace Sys2Proof
open Machine

/-- Settles O3: the decoder computes. -/
theorem decodeWords : Obligations.DecodeWords := by
  unfold Obligations.DecodeWords
  exact ⟨rfl, rfl, rfl, rfl, rfl, rfl⟩

/-- Settles O4: with no event due the step is the turn of the next core, whose thread issues the word. -/
theorem stepRunsDecoded : Obligations.StepRunsDecoded := by
  unfold Obligations.StepRunsDecoded
  intro s c rest w pa i hredo hagenda htodo s0 s1 hturn hissue hstop hheld hdec
  rw [step_turn s c rest hredo hagenda htodo]
  change (match s0.turnOf with | .none => _ | .idle k => _ | .issue => stepIssue s0) = _
  rw [hturn]
  change stepIssue s0 = _
  unfold stepIssue
  rw [hissue]
  change (match s0.stopNow with | some b => _ | none => if vectorMajor w && s1.vectorHeld then _ else runWord w s1) = _
  rw [hstop]
  change (if vectorMajor w && s1.vectorHeld then _ else runWord w s1) = _
  rw [hheld]
  change runWord w s1 = _
  unfold runWord
  rw [hdec]

end Sys2Proof

namespace Sys2Proof.Machine

theorem low2_eq_zero_iff (v : Word) : v.extractLsb' 0 2 = 0 ↔ v.toNat % 4 = 0 := by
  rw [← BitVec.toNat_inj, BitVec.extractLsb'_toNat]
  simp

theorem branch_true {q : BitVec 3} {o : Option Word} {s : State} {body : Thread → Out} (h : s.rp q = true) : branch q o s body = body s.thr :=
  if_pos h

theorem branch_false {q : BitVec 3} {o : Option Word} {s : State} {body : Thread → Out} (h : s.rp q = false) :
    branch q o s body = .next (s.setThr (s.thr.goTo (s.thr.pc + 4) o)) := by
  unfold branch
  rw [if_neg (by simp [h])]

/-- Where a thread goes and the turn it loses, the count of lost turns given in another form. -/
theorem goTo_eq {t : Thread} {tgt : Word} {o : Option Word} {n : Nat} (h : (if o = some tgt then 0 else 1) = n) :
    t.goTo tgt o = { t.issued with pc := tgt, lost := n } := by rw [← h, Thread.goTo]

/-- A write of an x register and a change of the return stack are of different parts of a thread. -/
theorem wx_with_rstack (t : Thread) (d : BitVec 5) (v : Word) (r : List Word) : ({ t with rstack := r } : Thread).wx d v = { t.wx d v with rstack := r } := by
  unfold Thread.wx
  split <;> rfl

theorem steerB_eq_target (h : BitVec 1) (pc : Word) (disp : BitVec 22) :
    steerB h pc disp = some (target22 pc disp) ↔ h = 1#1 ∨ target22 pc disp = pc + 4 := by
  unfold steerB
  split <;> simp_all [eq_comm]

theorem steerB_eq_next (h : BitVec 1) (pc : Word) (disp : BitVec 22) :
    steerB h pc disp = some (pc + 4) ↔ ¬ h = 1#1 ∨ target22 pc disp = pc + 4 := by
  unfold steerB
  split <;> simp_all

theorem steerD_eq_target (pc : Word) (imm : BitVec 13) :
    steerD pc imm = some (target13 pc imm) ↔ imm.toInt ≤ 0 ∨ target13 pc imm = pc + 4 := by
  unfold steerD
  split <;> simp_all [eq_comm]

theorem steerD_eq_next (pc : Word) (imm : BitVec 13) :
    steerD pc imm = some (pc + 4) ↔ ¬ imm.toInt ≤ 0 ∨ target13 pc imm = pc + 4 := by
  unfold steerD
  split <;> simp_all

theorem steerJ_eq (h : BitVec 1) (t : Thread) (v : Word) : steerJ h t = some v ↔ h = 1#1 ∧ t.rstack.head? = some v := by
  unfold steerJ
  split <;> simp_all

theorem steerJFalse_eq_next (h : BitVec 1) (t : Thread) : steerJFalse h t = some (t.pc + 4) ↔ ¬ (h = 1#1 ∧ t.rstack.head? ≠ some (t.pc + 4)) := by
  unfold steerJFalse
  split <;> simp_all

theorem popRet_eq (t : Thread) (h : BitVec 1) : t.popRet h = { t with rstack := if h = 1#1 then t.rstack.tail else t.rstack } := by
  unfold Thread.popRet
  split <;> rfl

theorem exec_br (q : BitVec 3) (h : BitVec 1) (disp : BitVec 22) (s : State) : exec (.br q h disp) s = execBr q h disp s := rfl
theorem exec_brl (q : BitVec 3) (h : BitVec 1) (disp : BitVec 22) (s : State) : exec (.brl q h disp) s = execBrl q h disp s := rfl
theorem exec_bdec (q : BitVec 3) (d : BitVec 5) (imm : BitVec 13) (s : State) : exec (.bdec q d imm) s = execBdec q d imm s := rfl
theorem exec_jr (q : BitVec 3) (h : BitVec 1) (a : BitVec 5) (s : State) : exec (.jr q h a) s = execJr q h a s := rfl
theorem exec_jrl (q : BitVec 3) (h : BitVec 1) (d a : BitVec 5) (s : State) : exec (.jrl q h d a) s = execJrl q h d a s := rfl

end Sys2Proof.Machine

namespace Sys2Proof
open Machine

/-- Settles O9: the lost turn of the spec is that of the model's steering (`goTo_eq`), by the lemmas about where fetch is steered. -/
theorem branchesAndJumps : Obligations.BranchesAndJumps := by
  unfold Obligations.BranchesAndJumps
  refine ⟨fun q h disp d imm s => ?_, fun q h d a s => ?_⟩
  · intro t g pc4 tgt tgtD v lostB takenD lostD
    rw [exec_br, exec_brl, exec_bdec, execBr, execBrl, execBdec]
    cases hg : s.rp q with
    | false =>
      have hB : (if steerB h t.pc disp = some pc4 then 0 else 1) = lostB := by
        simp only [pc4, steerB_eq_next, lostB, g, hg, tgt, target22, Bool.false_eq_true, false_iff]
      have hD : (if steerD t.pc imm = some pc4 then 0 else 1) = lostD := by
        simp only [pc4, steerD_eq_next, lostD, takenD, g, hg, tgtD, target13, Bool.false_eq_true, false_and, false_iff]
      rw [branch_false hg, branch_false hg, branch_false hg, goTo_eq hB, goTo_eq hD]
      simp only [g, hg]
      exact ⟨rfl, rfl, rfl⟩
    | true =>
      have hB : (if steerB h t.pc disp = some (target22 t.pc disp) then 0 else 1) = lostB := by
        refine if_congr ((steerB_eq_target ..).trans ?_) rfl rfl
        simp only [g, hg, true_iff, tgt, target22, pc4]
      have hD : (if steerD t.pc imm = some (if v ≠ 0 then target13 t.pc imm else t.pc + 4) then 0 else 1) = lostD := by
        by_cases hv : v = 0
        · rw [if_neg (not_not.mpr hv)]
          simp only [steerD_eq_next, lostD, takenD, hv, ne_eq, not_true_eq_false, and_false, false_iff, tgtD, target13, pc4]
        · rw [if_pos hv]
          refine if_congr ((steerD_eq_target ..).trans ?_) rfl rfl
          simp only [takenD, g, hg, hv, ne_eq, not_false_eq_true, and_self, true_iff, tgtD, target13, pc4]
      rw [branch_true hg, branch_true hg, branch_true hg]
      simp only [g, hg, if_true]
      refine ⟨by rw [goTo_eq hB]; rfl, by rw [goTo_eq hB, Thread.pushRet, rstack_wx]; rfl, ?_⟩
      have hpc : (if v = 0 then pc4 else tgtD) = if v ≠ 0 then target13 t.pc imm else t.pc + 4 := by rw [ite_not]; rfl
      rw [hpc]
      exact congrArg (fun u => Host.Outcome.next (s.setThr u)) (goTo_eq hD)
  · intro t tgt pc4 top popped lost lostF
    rw [exec_jr, exec_jrl, execJr, execJrl]
    split
    · rename_i hg
      have hl : (if steerJFalse h t = some (t.pc + 4) then 0 else 1) = lostF := by
        simp only [pc4, steerJFalse_eq_next, lostF, top, ite_not]
      rw [branch_false hg, branch_false hg, goTo_eq hl]
      exact ⟨rfl, rfl⟩
    · rename_i hg
      rw [branch_true (by simpa using hg), branch_true (by simpa using hg)]
      simp only [ne_eq, low2_eq_zero_iff]
      split
      case isTrue hal =>
        replace hal : (s.thr.rx a).toNat % 4 = 0 := hal
        have hl : (if steerJ h t = some (t.rx a) then 0 else 1) = lost := by simp only [steerJ_eq, lost, top]; rfl
        rw [if_neg (not_not.mpr hal), if_neg (not_not.mpr hal), popRet_eq, goTo_eq hl, goTo_eq hl, Thread.pushRet, wx_with_rstack]
        exact ⟨rfl, by rw [wx_with_rstack]; rfl⟩
      case isFalse hal =>
        replace hal : ¬ (s.thr.rx a).toNat % 4 = 0 := hal
        rw [if_pos hal, if_pos hal]
        exact ⟨rfl, rfl⟩

end Sys2Proof

namespace Sys2Proof.Machine

/-! ### Capturing the words of a frame (R103) -/

theorem pc_add_next (pc : Word) (j : Nat) : pc + BitVec.ofNat 64 (4 * (j + 1)) = pc + 4 + BitVec.ofNat 64 (4 * j) := by
  rw [BitVec.add_assoc, Nat.mul_add, Nat.add_comm, BitVec.ofNat_add]
  rfl

/-- All words of a capture can be fetched and are words that a frame takes: the capture is those words. -/
theorem captureFrom_ok (s : State) (sv : Bool) (ws : List IWord) : ∀ (pc : Word) (i : Nat),
    (∀ j w, ws[j]? = some w → (decodeFrameWord w).isSome = true ∧ ∃ pa, s.fetch sv (pc + BitVec.ofNat 64 (4 * j)) (i + j) = .word w pa) →
    captureFrom s sv ws.length pc i = .ok ws := by
  induction ws with
  | nil => intros; rfl
  | cons w ws ih =>
    intro pc i h
    obtain ⟨hframe, pa, hfetch⟩ := h 0 w rfl
    obtain ⟨x, hx⟩ := Option.isSome_iff_exists.mp hframe
    have hrest := ih (pc + 4) (i + 1) fun j v hj => by
      have hn := h (j + 1) v hj
      rwa [pc_add_next, show i + (j + 1) = i + 1 + j by lia] at hn
    rw [show pc + BitVec.ofNat 64 (4 * 0) = pc by simp, Nat.add_zero] at hfetch
    simp only [List.length_cons, captureFrom, hfetch, hx, hrest]

/-- The words of a capture before word `j` can be fetched and are words that a frame takes, and the capture traps from word `j` on: then
the capture traps so. -/
theorem captureFrom_trap_after (s : State) (sv : Bool) (n : Nat) (k : Trap) (a : Word) : ∀ (j : Nat) (pc : Word) (i : Nat),
    (∀ l, l < j → ∃ w pa, s.fetch sv (pc + BitVec.ofNat 64 (4 * l)) (i + l) = .word w pa ∧ (decodeFrameWord w).isSome = true) →
    captureFrom s sv n (pc + BitVec.ofNat 64 (4 * j)) (i + j) = .trap k a →
    captureFrom s sv (j + n) pc i = .trap k a
  | 0, pc, i, _, h => by simpa using h
  | j + 1, pc, i, hpre, h => by
    obtain ⟨w, pa, hfetch, hframe⟩ := hpre 0 (by lia)
    obtain ⟨x, hx⟩ := Option.isSome_iff_exists.mp hframe
    have hrest := captureFrom_trap_after s sv n k a j (pc + 4) (i + 1)
      (fun l hl => by
        obtain ⟨v, pb, hv⟩ := hpre (l + 1) (by lia)
        exact ⟨v, pb, by rwa [pc_add_next, show i + (l + 1) = i + 1 + l by lia] at hv⟩)
      (by rwa [pc_add_next, show i + (j + 1) = i + 1 + j by lia] at h)
    rw [show pc + BitVec.ofNat 64 (4 * 0) = pc by simp, Nat.add_zero] at hfetch
    simp only [show j + 1 + n = (j + n) + 1 by lia, captureFrom, hfetch, hx, hrest]

theorem captureFrom_illegal {s : State} {sv : Bool} {pc : Word} {i : Nat} (n : Nat) {w : IWord} {pa : Nat} (hf : s.fetch sv pc i = .word w pa)
    (hw : decodeFrameWord w = none) : captureFrom s sv (n + 1) pc i = .trap .illegal 0 := by simp only [captureFrom, hf, hw]

theorem captureFrom_fault {s : State} {sv : Bool} {pc : Word} {i : Nat} (n : Nat) {k : Trap} (hf : s.fetch sv pc i = .fault k) :
    captureFrom s sv (n + 1) pc i = .trap k pc := by simp only [captureFrom, hf]

/-- The capture of a frame whose words before word `j` are taken and which traps from word `j` on. -/
theorem capture_trap {s : State} {base : Word} {len j : Nat} {k : Trap} {a : Word} (hj : j ≤ len)
    (hpre : ∀ l, l < j → ∃ w pa, s.fetch (decide (s.slot.val = 11)) (base + 4 + BitVec.ofNat 64 (4 * l)) (1 + l) = .word w pa ∧
      (decodeFrameWord w).isSome = true)
    (h : captureFrom s (decide (s.slot.val = 11)) (len - j + 1) (base + 4 + BitVec.ofNat 64 (4 * j)) (1 + j) = .trap k a) :
    s.capture base len = .trap k a := by
  unfold State.capture
  rw [show len + 1 = j + (len - j + 1) by lia]
  exact captureFrom_trap_after s _ _ k a j (base + 4) 1 hpre h

end Sys2Proof.Machine

namespace Sys2Proof
open Machine

/-- Settles O10: by what the capture comes to (`captureFrom_ok`, `capture_trap`). -/
theorem repeatFrames : Obligations.RepeatFrames := by
  unfold Obligations.RepeatFrames
  intro q n len stag mask s sv at_
  change (_ → execRpt q n len stag mask s = _) ∧ (_ → ∀ ws : List IWord, _ → _ → execRpt q n len stag mask s = _) ∧
    (_ → ∀ j : Nat, _ → _ → (∀ w pa, _ → _ → execRpt q n len stag mask s = _) ∧ (∀ k, _ → execRpt q n len stag mask s = _))
  unfold execRpt
  refine ⟨fun hq => guarded_false hq _, fun hq ws hlen hws => ?_, fun hq j hj hpre => ⟨fun w pa hf hw => ?_, fun k hf => ?_⟩⟩
  · have hcap : s.capture s.thr.pc len.toNat = .ok ws := by
      unfold State.capture
      rw [← hlen]
      exact captureFrom_ok s sv ws _ _ hws
    rw [guarded_true hq, hcap]
  · rw [guarded_true hq, capture_trap hj hpre (captureFrom_illegal _ hf hw)]
  · rw [guarded_true hq, capture_trap hj hpre (captureFrom_fault _ hf)]

end Sys2Proof
end

section

namespace Sys2Proof.Machine

/-! ### Stepping the register fields of a word (R104, Table 4.5) -/

/-- The word with a field replaced, as a number: the bits above, the field, the bits below. -/
theorem toNat_setFld (w : IWord) (lo n v : Nat) (h : lo + n ≤ 32) :
    (setFld w lo n v).toNat = 2 ^ lo * (2 ^ n * (w.toNat / 2 ^ (lo + n)) + v % 2 ^ n) + w.toNat % 2 ^ lo := by
  refine Nat.eq_of_testBit_eq fun i => ?_
  have hb (j : Nat) : w.toNat.testBit j = w.getLsbD j := rfl
  rw [BitVec.testBit_toNat, Nat.testBit_two_pow_mul_add _ (Nat.mod_lt _ (Nat.two_pow_pos _)),
    Nat.testBit_two_pow_mul_add _ (Nat.mod_lt _ (Nat.two_pow_pos _)), Nat.testBit_mod_two_pow, Nat.testBit_mod_two_pow,
    Nat.testBit_div_two_pow]
  simp only [setFld, BitVec.getLsbD_or, BitVec.getLsbD_and, BitVec.getLsbD_not, BitVec.getLsbD_ofNat, Nat.testBit_shiftLeft,
    Nat.testBit_two_pow_sub_one, Nat.testBit_mod_two_pow, hb]
  by_cases hlt : i < 32
  · by_cases h1 : i < lo
    · simp [h1, hlt, show ¬ i ≥ lo by lia]
    · by_cases h2 : i - lo < n
      · simp [h1, h2, hlt, show i ≥ lo by lia]
      · simp [h1, h2, hlt, show i ≥ lo by lia, show i - lo - n + (lo + n) = i by lia]
  · simp [hlt, show ¬ i < lo by lia, show ¬ i - lo < n by lia, show i - lo - n + (lo + n) = i by lia, BitVec.getLsbD_of_ge w i (by lia)]

/-- A register field stepped where it is selected. -/
def stepIf (c : Bool) {n : Nat} (r : BitVec n) (k : Nat) : BitVec n := if c then BitVec.ofNat n (r.toNat + k) else r

/-- The words `W r` are alike but in the `n` bits at `lo`, which hold `r`. -/
structure FieldAt {m : Nat} (lo n : Nat) (W : BitVec n → BitVec m) : Prop where
  inWord : lo + n ≤ m
  split : ∀ r v : BitVec n, (W v).toNat = 2 ^ lo * (2 ^ n * ((W r).toNat / 2 ^ (lo + n)) + v.toNat) + (W r).toNat % 2 ^ lo

theorem FieldAt.value {m lo n : Nat} {W : BitVec n → BitVec m} (h : FieldAt lo n W) (r : BitVec n) : (W r).toNat / 2 ^ lo % 2 ^ n = r.toNat := by
  rw [h.split r r, Nat.mul_add_div (Nat.two_pow_pos _), Nat.div_eq_of_lt (Nat.mod_lt _ (Nat.two_pow_pos _)), Nat.add_zero, Nat.mul_add_mod,
    Nat.mod_eq_of_lt r.isLt]

theorem fieldAt_id (n : Nat) : FieldAt 0 n fun r : BitVec n => r := by
  refine ⟨(Nat.zero_add n).le, fun r v => ?_⟩
  rw [Nat.zero_add, Nat.div_eq_of_lt r.isLt, Nat.pow_zero, Nat.mod_one, Nat.mul_zero, Nat.zero_add, Nat.one_mul, Nat.add_zero]

theorem fieldAt_setWidth {n m : Nat} (h : n ≤ m) : FieldAt 0 n fun r : BitVec n => r.setWidth m := by
  refine ⟨by lia, fun r v => ?_⟩
  rw [BitVec.toNat_setWidth_of_le h, BitVec.toNat_setWidth_of_le h]
  exact (fieldAt_id n).split r v

/-- A field keeps its place under what is put before it. -/
theorem FieldAt.prepend {m lo n k : Nat} {W : BitVec n → BitVec m} (h : FieldAt lo n W) (x : BitVec k) : FieldAt lo n fun r => x ++ W r := by
  refine ⟨h.inWord.trans (Nat.le_add_left ..), fun r v => ?_⟩
  obtain ⟨j, rfl⟩ := Nat.exists_eq_add_of_le h.inWord
  have hhigh (u : BitVec n) : (x ++ W u).toNat = 2 ^ (lo + n) * (2 ^ j * x.toNat) + (W u).toNat := by
    rw [toNat_join, Nat.pow_add _ (lo + n) j, Nat.mul_comm, Nat.mul_assoc]
  have hmod : (x ++ W r).toNat % 2 ^ lo = (W r).toNat % 2 ^ lo := by
    rw [hhigh, Nat.pow_add, Nat.mul_assoc, Nat.mul_add_mod]
  rw [hmod, hhigh, hhigh r, Nat.mul_add_div (Nat.two_pow_pos _), h.split r v, Nat.pow_add]
  ring

/-- A field moves up by what is put behind it. -/
theorem FieldAt.append {m lo n k : Nat} {W : BitVec n → BitVec m} (h : FieldAt lo n W) (x : BitVec k) :
    FieldAt (lo + k) n fun r => W r ++ x := by
  refine ⟨by have := h.inWord; lia, fun r v => ?_⟩
  have hjoin (u : BitVec n) : (W u ++ x).toNat = 2 ^ k * (W u).toNat + x.toNat := by rw [toNat_join, Nat.mul_comm]
  have hdiv : (W r ++ x).toNat / 2 ^ (lo + k + n) = (W r).toNat / 2 ^ (lo + n) := by
    rw [hjoin, show lo + k + n = k + (lo + n) by lia, Nat.pow_add, ← Nat.div_div_eq_div_mul, Nat.mul_add_div (Nat.two_pow_pos _),
      Nat.div_eq_of_lt x.isLt, Nat.add_zero]
  have hmod : (W r ++ x).toNat % 2 ^ (lo + k) = 2 ^ k * ((W r).toNat % 2 ^ lo) + x.toNat := by
    rw [hjoin, Nat.add_comm lo k, Nat.pow_add, Nat.mod_mul, Nat.mul_add_mod, Nat.mod_eq_of_lt x.isLt,
      Nat.mul_add_div (Nat.two_pow_pos _), Nat.div_eq_of_lt x.isLt, Nat.add_zero, Nat.add_comm]
  rw [hdiv, hmod, hjoin, h.split r v, Nat.pow_add]
  ring

/-- A word with a field stepped where it is selected. -/
def stepAt (c : Bool) (lo n k : Nat) (w : IWord) : IWord := if c then stepFld w lo n k else w

/-- The one way a field is stepped: the word is that of the stepped register. -/
theorem FieldAt.step {lo n : Nat} {W : BitVec n → IWord} (h : FieldAt lo n W) (c : Bool) (r : BitVec n) (k : Nat) :
    stepAt c lo n k (W r) = W (stepIf c r k) := by
  unfold stepAt stepIf
  split
  · refine BitVec.eq_of_toNat_eq ?_
    rw [stepFld, toNat_setFld _ _ _ _ h.inWord, Nat.shiftRight_eq_div_pow, h.value, h.split r (BitVec.ofNat n (r.toNat + k)), BitVec.toNat_ofNat]
  · rfl

section
variable (q : BitVec 3) (op : BitVec 6) (d a b : BitVec 5) (fn : BitVec 8) (e : BitVec 1)

theorem fieldAt_joinR_d : FieldAt 18 5 fun r => joinR q op r a b fn :=
  ((((fieldAt_id 5).prepend (q ++ op)).append a).append b).append fn

theorem fieldAt_joinR_a : FieldAt 13 5 fun r => joinR q op d r b fn :=
  (((fieldAt_id 5).prepend (q ++ op ++ d)).append b).append fn

theorem fieldAt_joinR_b : FieldAt 8 5 fun r => joinR q op d a r fn :=
  ((fieldAt_id 5).prepend (q ++ op ++ d ++ a)).append fn

theorem fieldAt_joinR_vd : FieldAt 18 4 fun r => joinR q op (e ++ r) a b fn :=
  (((((fieldAt_id 4).prepend e).prepend (q ++ op)).append a).append b).append fn

theorem fieldAt_joinR_va : FieldAt 13 4 fun r => joinR q op d (e ++ r) b fn :=
  ((((fieldAt_id 4).prepend e).prepend (q ++ op ++ d)).append b).append fn

theorem fieldAt_joinR_vb : FieldAt 8 4 fun r => joinR q op d a (e ++ r) fn :=
  (((fieldAt_id 4).prepend e).prepend (q ++ op ++ d ++ a)).append fn

theorem fieldAt_joinR_kd : FieldAt 18 3 fun r => joinR q op (r.setWidth 5) a b fn :=
  ((((fieldAt_setWidth (by decide : 3 ≤ 5)).prepend (q ++ op)).append a).append b).append fn

theorem fieldAt_joinR_ka : FieldAt 13 3 fun r => joinR q op d (r.setWidth 5) b fn :=
  (((fieldAt_setWidth (by decide : 3 ≤ 5)).prepend (q ++ op ++ d)).append b).append fn

theorem fieldAt_joinR_kb : FieldAt 8 3 fun r => joinR q op d a (r.setWidth 5) fn :=
  ((fieldAt_setWidth (by decide : 3 ≤ 5)).prepend (q ++ op ++ d ++ a)).append fn

theorem fieldAt_joinL_d (imm : BitVec 18) : FieldAt 18 5 fun r => joinL q op r imm :=
  ((fieldAt_id 5).prepend (q ++ op)).append imm

variable (acc : BitVec 2) (fA fB : BitVec 3) (sp : BitVec 4) (pd1 pd2 ty cnd : BitVec 3)

theorem fieldAt_joinX_acc : FieldAt 21 2 fun r => joinX q op r a b fA fB sp e :=
  ((((((fieldAt_id 2).prepend (q ++ op)).append a).append b).append fA).append fB).append sp |>.append e

theorem fieldAt_joinX_a : FieldAt 16 5 fun r => joinX q op acc r b fA fB sp e :=
  (((((fieldAt_id 5).prepend (q ++ op ++ acc)).append b).append fA).append fB).append sp |>.append e

theorem fieldAt_joinX_b : FieldAt 11 5 fun r => joinX q op acc a r fA fB sp e :=
  ((((fieldAt_id 5).prepend (q ++ op ++ acc ++ a)).append fA).append fB).append sp |>.append e

theorem fieldAt_joinC_a (lo : BitVec 6) : FieldAt 6 5 fun r => joinC q op pd1 pd2 ty cnd r lo :=
  ((fieldAt_id 5).prepend (q ++ op ++ pd1 ++ pd2 ++ ty ++ cnd)).append lo

theorem fieldAt_joinC_b : FieldAt 1 5 fun r => joinC q op pd1 pd2 ty cnd a (r ++ e) :=
  ((fieldAt_id 5).append e).prepend (q ++ op ++ pd1 ++ pd2 ++ ty ++ cnd ++ a)

end

theorem mask_d_iff (mask : BitVec 3) : mask.toNat / 4 = 1 ↔ mask.getLsbD 2 = true := by revert mask; decide
theorem mask_a_iff (mask : BitVec 3) : mask.toNat / 2 % 2 = 1 ↔ mask.getLsbD 1 = true := by revert mask; decide
theorem mask_b_iff (mask : BitVec 3) : mask.toNat % 2 = 1 ↔ mask.getLsbD 0 = true := by revert mask; decide

section
variable (mask : BitVec 3) (k : Nat)


/-- The words whose register fields are those of format R (Table 4.5). -/
theorem stepWord_of_kinds {w : IWord} {kd ka kb : FieldKind} (hm : (fld w 23 6).toNat ∉ [0x20, 0x22, 0x3A, 0x1A, 0x1B])
    (hk : fieldKinds w = (kd, ka, kb)) : stepWord w mask k =
      stepAt (mask.getLsbD 0) (8 + kb.off) kb.bits k (stepAt (mask.getLsbD 1) (13 + ka.off) ka.bits k
        (stepAt (mask.getLsbD 2) (18 + kd.off) kd.bits k w)) := by
  unfold stepWord
  split
  case h_6 => simp only [hk, mask_d_iff, mask_a_iff, mask_b_iff, stepAt]
  all_goals simp_all

theorem stepWord_vop {w : IWord} (hm : (fld w 23 6).toNat = 0x20) (hu : vopUnary w = false) : stepWord w mask k =
    stepAt (mask.getLsbD 0) 8 4 k (stepAt (mask.getLsbD 1) 13 4 k (stepAt (mask.getLsbD 2) 18 4 k w)) := by
  unfold stepWord
  rw [hm]
  simp only [hu, mask_d_iff, mask_a_iff, mask_b_iff, stepAt, and_true]

theorem stepWord_matrix {w : IWord} (hm : (fld w 23 6).toNat = 0x3A) : stepWord w mask k =
    stepAt (mask.getLsbD 0) 11 5 k (stepAt (mask.getLsbD 1) 16 5 k (stepAt (mask.getLsbD 2) 21 2 k w)) := by
  unfold stepWord
  rw [hm]
  simp only [mask_d_iff, mask_a_iff, mask_b_iff, stepAt]

theorem stepWord_fcmpd {w : IWord} (hm : (fld w 23 6).toNat = 0x1A) : stepWord w mask k =
    stepAt (mask.getLsbD 0) 1 5 k (stepAt (mask.getLsbD 1) 6 5 k w) := by
  unfold stepWord
  rw [hm]
  simp only [mask_a_iff, mask_b_iff, stepAt]

theorem stepAt_none (c : Bool) (lo : Nat) (w : IWord) (h : lo ≤ 32) : stepAt c lo 0 k w = w := by
  have hW : FieldAt lo 0 fun _ => w := ⟨h, fun r v => by
    rw [BitVec.of_length_zero (x := v), Nat.add_zero, Nat.pow_zero, Nat.one_mul]
    exact (Nat.div_add_mod ..).symm⟩
  exact hW.step c 0#0 k

theorem stepWord_add (q : BitVec 3) (d a b : BitVec 5) : stepWord (encode (.add q d a b)) mask k =
    encode (.add q (stepIf (mask.getLsbD 2) d k) (stepIf (mask.getLsbD 1) a k) (stepIf (mask.getLsbD 0) b k)) := by
  change stepWord (joinR q 1#6 d a b 0#8) mask k = joinR q 1#6 _ _ _ 0#8
  rw [stepWord_of_kinds (kd := .x) (ka := .x) (kb := .x) mask k (by simp) (by unfold fieldKinds; rw [show (fld _ 23 6).toNat = 1 by simp]; rfl)]
  exact ((congrArg _ ((congrArg _ ((fieldAt_joinR_d ..).step ..)).trans ((fieldAt_joinR_a ..).step ..))).trans ((fieldAt_joinR_b ..).step ..))

theorem stepWord_vadd (q t : BitVec 3) (d a b : BitVec 4) (kq : BitVec 3) : stepWord (encode (.vadd q t d a b kq)) mask k =
    encode (.vadd q t (stepIf (mask.getLsbD 2) d k) (stepIf (mask.getLsbD 1) a k) (stepIf (mask.getLsbD 0) b k) kq) := by
  have hop (d a b : BitVec 5) : fld (joinR q 32#6 d a b (0#5 ++ kq)) 3 5 = 0#5 := by
    refine BitVec.eq_of_toNat_eq ?_
    have hk := kq.isLt
    simp only [fld, joinR, BitVec.extractLsb'_toNat, toNat_join, Nat.shiftRight_eq_div_pow, BitVec.toNat_ofNat]
    lia
  change stepWord (joinR q 32#6 (t.extractLsb' 2 1 ++ d) (t.extractLsb' 1 1 ++ a) (t.extractLsb' 0 1 ++ b) (0#5 ++ kq)) mask k =
    joinR q 32#6 (t.extractLsb' 2 1 ++ _) (t.extractLsb' 1 1 ++ _) (t.extractLsb' 0 1 ++ _) (0#5 ++ kq)
  rw [stepWord_vop mask k (by simp) (by simp only [vopUnary, hop]; rfl)]
  exact ((congrArg _ ((congrArg _ ((fieldAt_joinR_vd ..).step ..)).trans ((fieldAt_joinR_va ..).step ..))).trans ((fieldAt_joinR_vb ..).step ..))

theorem stepWord_kand (q d a b : BitVec 3) : stepWord (encode (.kand q d a b)) mask k =
    encode (.kand q (stepIf (mask.getLsbD 2) d k) (stepIf (mask.getLsbD 1) a k) (stepIf (mask.getLsbD 0) b k)) := by
  change stepWord (joinR q 35#6 (d.setWidth 5) (a.setWidth 5) (b.setWidth 5) 0#8) mask k =
    joinR q 35#6 (BitVec.setWidth 5 _) (BitVec.setWidth 5 _) (BitVec.setWidth 5 _) 0#8
  rw [stepWord_of_kinds (kd := .k) (ka := .k) (kb := .k) mask k (by simp) (by unfold fieldKinds; rw [show (fld _ 23 6).toNat = 35 by simp, show (fld _ 0 8).toNat = 0 by simp]; rfl)]
  exact ((congrArg _ ((congrArg _ ((fieldAt_joinR_kd ..).step ..)).trans ((fieldAt_joinR_ka ..).step ..))).trans ((fieldAt_joinR_kb ..).step ..))

theorem stepWord_mma (q : BitVec 3) (acc : BitVec 2) (a m : BitVec 5) (fA fB sf : BitVec 3) : stepWord (encode (.mma q acc a m fA fB sf)) mask k =
    encode (.mma q (stepIf (mask.getLsbD 2) acc k) (stepIf (mask.getLsbD 1) a k) (stepIf (mask.getLsbD 0) m k) fA fB sf) := by
  change stepWord (joinX q 58#6 acc a m fA fB (sf.setWidth 4) 0#1) mask k = joinX q 58#6 _ _ _ fA fB (sf.setWidth 4) 0#1
  rw [stepWord_matrix mask k (by simp)]
  exact ((congrArg _ ((congrArg _ ((fieldAt_joinX_acc ..).step ..)).trans ((fieldAt_joinX_a ..).step ..))).trans ((fieldAt_joinX_b ..).step ..))

theorem stepWord_encode_fcmpd (q pd1 pd2 ty cnd : BitVec 3) (a b : BitVec 5) : stepWord (encode (.fcmpd q pd1 pd2 ty cnd a b)) mask k =
    encode (.fcmpd q pd1 pd2 ty cnd (stepIf (mask.getLsbD 1) a k) (stepIf (mask.getLsbD 0) b k)) := by
  change stepWord (joinC q 26#6 pd1 pd2 ty cnd a (b ++ 0#1)) mask k = joinC q 26#6 pd1 pd2 ty cnd _ (_ ++ 0#1)
  rw [stepWord_fcmpd mask k (by simp)]
  exact (congrArg _ ((fieldAt_joinC_a ..).step ..)).trans ((fieldAt_joinC_b ..).step ..)

theorem stepWord_movi (q : BitVec 3) (d : BitVec 5) (imm : BitVec 18) : stepWord (encode (.movi q d imm)) mask k =
    encode (.movi q (stepIf (mask.getLsbD 2) d k) imm) := by
  change stepWord (joinL q 10#6 d imm) mask k = joinL q 10#6 _ imm
  rw [stepWord_of_kinds (kd := .x) (ka := .none) (kb := .none) mask k (by simp) (by unfold fieldKinds; rw [show (fld _ 23 6).toNat = 10 by simp]; rfl)]
  exact (stepAt_none k _ _ _ (by decide)).trans ((stepAt_none k _ _ _ (by decide)).trans ((fieldAt_joinL_d ..).step ..))

end

theorem retired_frame (t : Thread) :
    (t.frame = none → t.retired.pc = t.pc + 4 ∧ t.retired.frame = none) ∧
    (∀ f, t.frame = some f →
      (f.posn < f.len → t.retired.pc = t.pc ∧ t.retired.frame = some { f with posn := f.posn + 1, retest := false }) ∧
      (f.len ≤ f.posn → f.pass < f.n → t.retired.pc = t.pc ∧ t.retired.frame = some { f with pass := f.pass + 1, posn := 0, retest := false }) ∧
      (f.len ≤ f.posn → f.n ≤ f.pass → t.retired.frame = none ∧ t.retired.pc = t.pc + BitVec.ofNat 64 (4 * (f.len + 2)))) := by
  unfold Thread.retired Thread.advance
  change (t.frame = none → (match t.frame with | none => _ | some fr => _ : Thread).pc = _ ∧ _) ∧ _
  refine ⟨fun h => ?_, fun f h => ⟨fun hp => ?_, fun hp hn => ?_, fun hp hn => ?_⟩⟩
  · simp [Thread.issued, h]
  · simp [Thread.issued, h, hp]
  · simp [Thread.issued, h, Nat.not_lt.mpr hp, hn]
  · simp [Thread.issued, h, Nat.not_lt.mpr hp, Nat.not_lt.mpr hn]

end Sys2Proof.Machine

namespace Sys2Proof
open Machine

/-- Settles O11: the cursor by `retired_frame`; the stepped words field by field (`FieldAt.step`). -/
theorem frameCursor : Obligations.FrameCursor := by
  unfold Obligations.FrameCursor
  exact ⟨retired_frame, fun q pd1 pd2 ty cnd t kq kd ka kb fA fB sf d a b vd va vb acc i18 mask k =>
    ⟨stepWord_add mask k .., stepWord_vadd mask k .., stepWord_kand mask k .., stepWord_mma mask k .., stepWord_encode_fcmpd mask k ..,
     stepWord_movi mask k ..⟩⟩

end Sys2Proof
end

section
/-! GETS, PUTS and the words that trap by their slot, number or operand (R54-R57, R67, R86-R88, R203, R250). -/

namespace Sys2Proof.Machine

/-! ### GETS -/

theorem exec_gets {q : BitVec 3} {d : BitVec 5} {num : BitVec 12} {s : State} {v : Word} (h : statusTrap s.slot.val num.toNat = none)
    (hv : s.readStatus num.toNat = v) : exec (.gets q d num) s = .next (s.ran q (fun t => t.wx d v)) := by
  change execGets q d num s = _
  unfold execGets
  rw [h]
  exact guarded_ran q s (fun t => t.wx d v) _ (by simp only [hv, State.retire, State.wx, thr_setThr, setThr_setThr])

theorem statusTrap_of_status {slot n : Nat} (hn : n < 0x800) (h : isStatus n = true) : statusTrap slot n = none := by
  simp [statusTrap, hn, h]

theorem statusTrap_of_supervisor {slot n : Nat} (hs : slot = 11) (hn : ¬ n < 0x800) (h : isSupervisor n = true) : statusTrap slot n = none := by
  simp [statusTrap, hn, h, hs]

theorem isStatus_fm (i : Fin 8) : isStatus (0x010 + i.val) = true := by revert i; decide

theorem readStatus_fm (s : State) (i : Fin 8) (h : s.core.occupied = true) : s.readStatus (0x010 + i.val) = s.proc.fm[i] := by
  have hread : s.readStatus (0x010 + i.val) =
      if s.core.occupied then (s.proc.fm.toList[i.val]?).getD 0 else 0 := by
    fin_cases i <;> rfl
  rw [hread, if_pos h]
  simp

theorem txThread_of_trapped {s : State} (hlt : s.core.txsel.toNat % 16 < 12) (htrap : (s.core.thr (s.core.txsel.toNat % 16)).trap.isSome = true) :
    s.txThread = some (s.core.txsel.toNat % 16) := if_pos ⟨hlt, htrap⟩

theorem txThread_eq_none {s : State} (h : 12 ≤ s.core.txsel.toNat % 16 ∨ (s.core.thr (s.core.txsel.toNat % 16)).trap = none) : s.txThread = none := by
  refine if_neg fun ⟨hlt, htrap⟩ => ?_
  rcases h with h | h
  · lia
  · simp [h] at htrap

/-! ### The registers that are put together from several parts -/

theorem posAt_of_le {p : Proc} {c : Nat} (hx : p.rx ≤ coreX c) (hy : p.ry ≤ coreY c) : p.posAt c =
    dieOf c * 2 ^ 32 + coreY c * 2 ^ 24 + coreX c * 2 ^ 16 + (coreY c - p.ry) * 2 ^ 8 + (coreX c - p.rx) := by
  have h1 : coreX c < 64 := Nat.mod_lt _ (by decide)
  have h2 : coreY c < 64 := Nat.mod_lt _ (by decide)
  unfold Proc.posAt
  rw [Nat.sub_add_comm hy, Nat.sub_add_comm hx, Nat.add_mod_right, Nat.add_mod_right,
    Nat.mod_eq_of_lt (((Nat.sub_le ..).trans_lt h2).trans (by decide)), Nat.mod_eq_of_lt (((Nat.sub_le ..).trans_lt h1).trans (by decide))]

/-- The fields of UQCFG, low field first. -/
def uqcfgFields (p : Proc) : List (Nat × Nat) :=
  [(31, p.uqbase), (1, if p.blocked then 1 else 0), (20, p.uqsize), (12, (p.uq.filter (fun e => !e.pad)).length)]

theorem Proc.fits_uqcfg (p : Proc) (hbase : p.uqbase < 2 ^ 18) (hsize : p.uqsize < 2 ^ 18) (hcount : (p.uq.filter (fun e => !e.pad)).length < 2 ^ 12) :
    Fits (uqcfgFields p) :=
  ⟨hbase.trans (by decide : 2 ^ 18 < 2 ^ 31), by cases p.blocked <;> decide, hsize.trans (by decide : 2 ^ 18 < 2 ^ 20), hcount, trivial⟩

theorem Proc.uqcfg_toNat (p : Proc) (h : Fits (uqcfgFields p)) : p.uqcfg.toNat = packed (uqcfgFields p) := by
  refine toNat_ofNat_packed ?_ h (by decide : 64 ≤ 64)
  simp only [uqcfgFields, packed]
  cases p.blocked <;> simp only [Bool.false_eq_true, if_true, if_false] <;> lia

/-- A sum of distinct powers of two has the bits that were summed. -/
theorem testBit_sum_bits (f : Nat → Bool) : ∀ n j : Nat,
    ((List.range n).map (fun i => if f i then 2 ^ i else 0)).sum < 2 ^ n ∧
    (((List.range n).map (fun i => if f i then 2 ^ i else 0)).sum.testBit j = (decide (j < n) && f j))
  | 0, j => by simp
  | n + 1, j => by
    obtain ⟨hlt, hbit⟩ := testBit_sum_bits f n j
    rw [List.range_succ, List.map_append, List.sum_append]
    generalize ((List.range n).map (fun i => if f i then 2 ^ i else 0)).sum = m at hlt hbit ⊢
    have hsum : m + ([n].map (fun i => if f i then 2 ^ i else 0)).sum = 2 ^ n * (bit (f n)) + m := by
      cases h : f n <;> simp [bit, h, Nat.add_comm]
    rw [hsum]
    constructor
    · cases f n <;> simp only [bit, pow_succ] <;> simp <;> lia
    · rw [Nat.testBit_two_pow_mul_add _ hlt]
      split
      · rename_i hj
        rw [hbit]
        simp [hj, show j < n + 1 by lia]
      · rename_i hj
        by_cases hjn : j = n
        · subst hjn
          cases h : f j <;> simp [bit]
        · have : ¬ j < n + 1 := by lia
          have hone : (1 : Nat).testBit (j - n) = false := Nat.testBit_lt_two_pow (Nat.one_lt_two_pow (by lia))
          cases h : f n <;> simp [bit, this, hone]

theorem hlive_bits (k : Core) (j : Nat) (hj : j < 64) :
    (BitVec.ofNat 64 k.hlive).getLsbD j = (decide (1 ≤ j ∧ j ≤ 10) && (k.thr j).live) := by
  have h := (testBit_sum_bits (fun i => i != 0 && (k.thr i).live) 11 j).2
  rw [BitVec.getLsbD_ofNat, Core.hlive, h]
  by_cases h0 : j = 0
  · simp [h0]
  · have hne : (j != 0) = true := by simpa using h0
    simp [hne, hj, show 1 ≤ j by lia, Nat.lt_succ_iff]

/-- The digit of a bank mode in BANKMODE. -/
def modeDigit : BankMode → Nat
  | .cache => 0 | .scratchpad => 1 | .fifo => 2

theorem bankBits_cons (m : BankMode) (l : List BankMode) : bankBits (m :: l) = modeDigit m + 4 * bankBits l := by cases m <;> rfl

theorem modeDigit_lt (m : BankMode) : modeDigit m < 4 := by cases m <;> decide

theorem bankBits_lt (l : List BankMode) : bankBits l < 4 ^ l.length := by
  induction l with
  | nil => decide
  | cons m l ih =>
    have := modeDigit_lt m
    rw [bankBits_cons, List.length_cons, pow_succ]
    lia

theorem bankBits_digit (l : List BankMode) (i : Nat) (h : i < l.length) : bankBits l / 4 ^ i % 4 = modeDigit l[i] := by
  induction l generalizing i with
  | nil => exact absurd h (by simp)
  | cons m l ih =>
    have hm := modeDigit_lt m
    rw [bankBits_cons]
    cases i with
    | zero =>
      simp only [pow_zero, List.getElem_cons_zero]
      lia
    | succ i =>
      rw [pow_succ', ← Nat.div_div_eq_div_mul, Nat.add_mul_div_left _ _ (by lia), Nat.div_eq_of_lt hm, Nat.zero_add]
      exact ih i (by simpa using h)

end Sys2Proof.Machine

namespace Sys2Proof
open Machine

/-- Settles O12: every register by `exec_gets`, the packed ones by the lemmas about their parts. -/
theorem statusReads : Obligations.StatusReads := by
  unfold Obligations.StatusReads
  intro q d i s hocc rd nat p pos
  have reads {num : BitVec 12} {v : Word} (hn : num.toNat < 0x800) (h : isStatus num.toNat = true) (hv : s.readStatus num.toNat = v) : rd num v :=
    exec_gets (statusTrap_of_status hn h) hv
  have pr (v : Word) : (if s.core.occupied then v else 0) = v := if_pos hocc
  refine ⟨reads (by decide) (by decide) rfl, reads (by decide) (by decide) rfl, reads (by decide) (by decide) (pr _), reads (by decide) (by decide) (pr _), ?pos,
    reads (by decide) (by decide) rfl, reads (by decide) (by decide) (pr _), reads (by decide) (by decide) rfl, reads (by decide) (by decide) rfl, reads (by decide) (by decide) (pr _),
    reads (by decide) (by decide) rfl, ?fm, reads (by decide) (by decide) ((pr _).trans ?anch), reads (by decide) (by decide) (pr _), reads (by decide) (by decide) rfl, reads (by decide) (by decide) rfl,
    reads (by decide) (by decide) rfl, reads (by decide) (by decide) rfl, reads (by decide) (by decide) rfl, reads (by decide) (by decide) (pr _),
    ⟨_, reads (by decide) (by decide) (pr _), hlive_bits s.core⟩, fun b hb => reads (by decide) (by decide) ?hist, fun hb => reads (by decide) (by decide) ?histOut, ?uq, ?sup⟩
  case pos =>
    intro hx hy hlt
    refine reads (by decide) (by decide) ((pr _).trans ?_)
    rw [posAt_of_le hx hy]
  case fm =>
    have hnum : (BitVec.ofNat 12 (0x010 + i.val)).toNat = 0x010 + i.val := by
      rw [BitVec.toNat_ofNat]
      lia
    exact reads (by lia) (by rw [hnum]; exact isStatus_fm i) (by rw [hnum]; exact readStatus_fm s i hocc)
  case anch => cases p.anch <;> rfl
  case hist =>
    change (s.core.hist.toList[s.core.rhsel]?).getD 0 = _
    rw [hb]
    simp
  case histOut =>
    change (s.core.hist.toList[s.core.rhsel]?).getD 0 = _
    simp [hb]
  case uq =>
    intro hbase hsize hlen
    have hcount : (p.uq.filter (fun e => !e.pad)).length < 2 ^ 12 := (List.length_filter_le ..).trans_lt hlen
    have hfits := p.fits_uqcfg hbase hsize hcount
    have hv := p.uqcfg_toNat hfits
    exact ⟨p.uqcfg, reads (by decide) (by decide) (pr _), low_of_packed hv hfits (31, p.uqbase) rfl, field_of_packed hv hfits 1 (1, _) rfl,
      field_of_packed hv hfits 2 (20, p.uqsize) rfl, last_of_packed hv hfits 3 (12, _) rfl rfl⟩
  case sup =>
    intro hslot sel u r
    have sup {num : BitVec 12} {v : Word} (hn : ¬ num.toNat < 0x800) (h : isSupervisor num.toNat = true) (hv : s.readStatus num.toNat = v) : rd num v :=
      exec_gets (statusTrap_of_supervisor hslot hn h) hv
    refine ⟨sup (by decide) (by decide) ?queue, sup (by decide) (by decide) rfl, sup (by decide) (by decide) rfl, fun hlt htrap => sup (by decide) (by decide) ?tx,
      fun h => sup (by decide) (by decide) ?txNone, ⟨_, sup (by decide) (by decide) rfl, ?_⟩, sup (by decide) (by decide) rfl, sup (by decide) (by decide) (pr _),
      sup (by decide) (by decide) (pr _), sup (by decide) (by decide) (pr _), sup (by decide) (by decide) (pr _), sup (by decide) (by decide) rfl,
      sup (by decide) (by decide) rfl⟩
    case queue =>
      change BitVec.ofNat 64 (s.core.trapQ.length + 16 * bit (!s.core.trapWait.isEmpty)) = _
      cases s.core.trapWait <;> rfl
    case tx =>
      change s.txval = _
      unfold State.txval
      rw [txThread_of_trapped hlt htrap]
      have hr : s.txReg = r := by
        refine BitVec.eq_of_toNat_eq ?_
        simp [State.txReg, r, BitVec.extractLsb'_toNat, Nat.shiftRight_eq_div_pow, sel]
      rw [← hr]
    case txNone =>
      change s.txval = _
      unfold State.txval
      rw [txThread_eq_none h]
    · have hlen : (s.clusterAt (clusterOf s.here)).modes.toList.length = 8 := by simp
      have hlt := bankBits_lt (s.clusterAt (clusterOf s.here)).modes.toList
      rw [hlen] at hlt
      have hv : (s.readStatus (0x830 : BitVec 12).toNat).toNat = bankBits (s.clusterAt (clusterOf s.here)).modes.toList := by
        change (BitVec.ofNat 64 (bankBits _)).toNat = _
        rw [BitVec.toNat_ofNat]
        exact Nat.mod_eq_of_lt (by lia)
      rw [hv]
      refine ⟨by lia, fun b => ?_⟩
      rw [bankBits_digit _ _ (by rw [hlen]; exact b.isLt)]
      rfl

end Sys2Proof

namespace Sys2Proof.Machine

/-! ### PUTS -/

theorem exec_puts {q : BitVec 3} {a : BitVec 5} {num : BitVec 12} {s t : State} (h : statusTrap s.slot.val num.toNat = none) (hq : s.rp q = true)
    (ht : (s.setThr s.thr.retired).writeStatus num.toNat (s.rx a) = t) : exec (.puts q num a) s = .next t := by
  change execPuts q num a s = _
  unfold execPuts
  rw [h]
  exact (guarded_true hq _).trans (congrArg _ ht)

theorem exec_puts_readOnly {q : BitVec 3} {a : BitVec 5} {num : BitVec 12} {s : State} (h : statusTrap s.slot.val num.toNat = none)
    (hw : ∀ t : State, t.writeStatus num.toNat (s.rx a) = t) : exec (.puts q num a) s = .next (s.setThr s.thr.retired) := by
  cases hq : s.rp q with
  | true => exact exec_puts h hq (hw _)
  | false =>
    change execPuts q num a s = _
    unfold execPuts
    rw [h]
    exact guarded_false hq _

theorem fpctlStored_bits (v : Word) (j : Nat) (hj : j < 64) :
    (fpctlStored v).getLsbD j = (((3 ≤ j ∧ j ≤ 4) ∨ (8 ≤ j ∧ j ≤ 12) ∨ (j ≤ 2 ∧ v.toNat % 8 ≤ 4)) && v.getLsbD j) := by
  have hmask : ∀ j : Fin 64, (0x1F18#64).getLsbD j.val = decide ((3 ≤ j.val ∧ j.val ≤ 4) ∨ (8 ≤ j.val ∧ j.val ≤ 12)) := by decide
  have hrm : (v.extractLsb' 0 3).toNat = v.toNat % 8 := by simp [BitVec.extractLsb'_toNat]
  have hm := hmask ⟨j, hj⟩
  dsimp only at hm
  simp only [fpctlStored, BitVec.getLsbD_or, BitVec.getLsbD_and, hm, hrm]
  by_cases h2 : j ≤ 2
  · by_cases h4 : v.toNat % 8 ≤ 4
    · simp [h2, h4, hj, show ¬ 3 ≤ j by lia, show ¬ 8 ≤ j by lia, show j < 3 by lia]
    · simp [h4, hj, show ¬ 3 ≤ j by lia, show ¬ 8 ≤ j by lia]
  · have h3 : ¬ j < 3 := by lia
    split <;> simp [h2, h3, hj, Bool.and_comm]

theorem fmStored_bits (v : Word) (j : Nat) (hj : j < 64) : (fmStored v).getLsbD j = ((j ≤ 10 ∨ (16 ≤ j ∧ j ≤ 24)) && v.getLsbD j) := by
  have hmask : ∀ j : Fin 64, (0x1FF07FF#64).getLsbD j.val = decide (j.val ≤ 10 ∨ (16 ≤ j.val ∧ j.val ≤ 24)) := by decide
  have hm := hmask ⟨j, hj⟩
  dsimp only at hm
  simp only [fmStored, BitVec.getLsbD_and, hm, Bool.and_comm]

theorem setIfInBounds_eq_set {α : Type} {n : Nat} (v : Vector α n) (i : Fin n) (x : α) : v.setIfInBounds i.val x = v.set i.val x i.isLt :=
  Vector.ext fun k hk => by simp [Vector.getElem_setIfInBounds, Vector.getElem_set]

theorem writeStatus_fm (s : State) (i : Fin 8) (v : Word) (h : s.core.occupied = true) :
    s.writeStatus (0x010 + i.val) v = s.setProc { s.proc with fm := s.proc.fm.set i (fmStored v) } := by
  have hw : s.writeStatus (0x010 + i.val) v =
      if s.core.occupied then s.setProc { s.proc with fm := s.proc.fm.setIfInBounds i.val (fmStored v) } else s := by
    obtain rfl | rfl | rfl | rfl | rfl | rfl | rfl | rfl : i = 0 ∨ i = 1 ∨ i = 2 ∨ i = 3 ∨ i = 4 ∨ i = 5 ∨ i = 6 ∨ i = 7 := by decide +revert
    all_goals rfl
  rw [hw, if_pos h, setIfInBounds_eq_set]

end Sys2Proof.Machine

namespace Sys2Proof
open Machine

/-- Settles O13: every register by `exec_puts`, the read-only ones by `exec_puts_readOnly`. -/
theorem statusWrites : Obligations.StatusWrites := by
  unfold Obligations.StatusWrites
  refine ⟨fun q a i s hocc hq => ?_, fun q a s num hnum => ?_⟩
  · intro v u wr s1
    have writes {num : BitVec 12} {t : State} (hn : num.toNat < 0x800) (h : isStatus num.toNat = true) (ht : s1.writeStatus num.toNat v = t) :
        wr num t := exec_puts (statusTrap_of_status hn h) hq ht
    have ofThr (f : Thread → Thread) : s1.setThr (f s1.thr) = s.setThr (f u) := by rw [thr_setThr, setThr_setThr]
    have pr (p : Proc) : (if s1.core.occupied then s1.setProc p else s1) = s1.setProc p := if_pos hocc
    refine ⟨⟨_, writes (by decide) (by decide) (ofThr fun t => { t with fpctl := fpctlStored v }), fpctlStored_bits v⟩,
      writes (by decide) (by decide) (ofThr fun t => { t with hintdrop := v }), writes (by decide) (by decide) (ofThr fun t => { t with sciss := v }),
      writes (by decide) (by decide) (ofThr fun t => { t with scmem := v }), writes (by decide) (by decide) (ofThr fun t => { t with scmsg := v }),
      writes (by decide) (by decide) (ofThr fun t => { t with scvac := v }), writes (by decide) (by decide) (pr _), ⟨fmStored v, ?_, fmStored_bits v⟩, fun hslot => ?_⟩
    · have hnum : (BitVec.ofNat 12 (0x010 + i.val)).toNat = 0x010 + i.val := by
        rw [BitVec.toNat_ofNat]
        lia
      exact writes (by lia) (by rw [hnum]; exact isStatus_fm i) (by rw [hnum]; exact writeStatus_fm s1 i v hocc)
    · have sup {num : BitVec 12} {t : State} (hn : ¬ num.toNat < 0x800) (h : isSupervisor num.toNat = true) (ht : s1.writeStatus num.toNat v = t) :
          wr num t := exec_puts (statusTrap_of_supervisor hslot hn h) hq ht
      exact ⟨sup (by decide) (by decide) (pr _), sup (by decide) (by decide) (pr _), sup (by decide) (by decide) (pr _), sup (by decide) (by decide) rfl⟩
  · simp only [List.mem_cons, List.not_mem_nil, or_false] at hnum
    rcases hnum with hnum | ⟨hslot, hnum⟩
    · refine exec_puts_readOnly (statusTrap_of_status (by omega) ?_) fun t => ?_
      all_goals rcases hnum with h | h | h | h | h | h | h | h | h | h | h | h <;> rw [h] <;> rfl
    · refine exec_puts_readOnly (statusTrap_of_supervisor hslot (by lia) ?_) fun t => ?_
      all_goals rcases hnum with h | h | h | h <;> rw [h] <;> rfl

end Sys2Proof

namespace Sys2Proof.Machine

/-! ### Words that trap by their slot, number or operand -/

theorem exec_gets_trap {q : BitVec 3} {r : BitVec 5} {num : BitVec 12} {s : State} {k : Trap} (h : statusTrap s.slot.val num.toNat = some k) :
    exec (.gets q r num) s = s.takeTrap k 0 := by
  change execGets q r num s = _
  unfold execGets
  rw [h]

theorem exec_puts_trap {q : BitVec 3} {r : BitVec 5} {num : BitVec 12} {s : State} {k : Trap} (h : statusTrap s.slot.val num.toNat = some k) :
    exec (.puts q num r) s = s.takeTrap k 0 := by
  change execPuts q num r s = _
  unfold execPuts
  rw [h]

theorem isStatus_iff (n : Nat) : isStatus n = true ↔
    n = 0 ∨ (2 ≤ n ∧ n ≤ 0x00D) ∨ (0x010 ≤ n ∧ n ≤ 0x017) ∨ n = 0x020 ∨ n = 0x030 ∨ n = 0x031 ∨ (0x040 ≤ n ∧ n ≤ 0x045) := by
  by_cases h : n < 0x046
  · have hall : ∀ m : Fin 0x046, isStatus m.val = true ↔ m.val = 0 ∨ (2 ≤ m.val ∧ m.val ≤ 0x00D) ∨ (0x010 ≤ m.val ∧ m.val ≤ 0x017) ∨ m.val = 0x020 ∨
        m.val = 0x030 ∨ m.val = 0x031 ∨ (0x040 ≤ m.val ∧ m.val ≤ 0x045) := by decide
    exact hall ⟨n, h⟩
  · refine ⟨fun hs => absurd hs ?_, fun hs => absurd hs (by lia)⟩
    rw [isStatus, Bool.or_eq_true, List.contains_iff_mem, Bool.and_eq_true, decide_eq_true_eq, decide_eq_true_eq]
    rintro (hmem | hmid)
    · exact h ((by decide : ∀ m ∈ [0x000, 0x002, 0x003, 0x004, 0x005, 0x006, 0x007, 0x008, 0x009, 0x00A, 0x00B, 0x00C, 0x00D, 0x020, 0x030, 0x031, 0x040,
        0x041, 0x042, 0x043, 0x044, 0x045], m < 0x046) n hmem)
    · lia

theorem superv_elsewhere {q : BitVec 3} {s : State} (h : s.slot.val ≠ 11) (body : State → Out) : superv q s body = s.takeTrap .priv 0 := if_pos h

theorem superv_true {q : BitVec 3} {s : State} (h : s.slot.val = 11) (hq : s.rp q = true) (body : State → Out) : superv q s body = body s :=
  (if_neg (by simp [h])).trans (guarded_true hq body)

theorem slotArg_eq_none {v : Word} (h : v.toNat = 0 ∨ 10 < v.toNat) : slotArg v = none := if_neg (by lia)

theorem slotArg_eq_some {v : Word} (h : 1 ≤ v.toNat) (h' : v.toNat ≤ 10) : slotArg v = some v.toNat := if_pos ⟨h, h'⟩

theorem badCount_iff (v : Word) : badCount v = true ↔ v.toNat = 0 ∨ 11 < v.toNat := by
  simp only [badCount, Bool.or_eq_true, beq_iff_eq, decide_eq_true_eq]

theorem barMismatch_iff (s : State) (b c : Nat) : s.barMismatch b c = true ↔ (s.proc.bar b).tgt ≠ 0 ∧ (s.proc.bar b).tgt ≠ c := by
  simp only [State.barMismatch, Bool.and_eq_true, bne_iff_ne]

theorem barArrive_illegal {q : BitVec 3} {s : State} (a b : BitVec 5) (sync : Bool) (hq : s.rp q = true)
    (h : s.thr.task = true ∨ badCount (s.rx a) = true ∨ s.barMismatch b.toNat (s.rx a).toNat = true) :
    barArrive q a b sync s = s.takeTrap .illegal 0 := by
  unfold barArrive
  rw [guarded_true hq]
  exact if_pos (by simpa only [Bool.or_eq_true, or_assoc] using h)

end Sys2Proof.Machine

namespace Sys2Proof
open Machine

/-- Settles O14. -/
theorem whereWordsTrap : Obligations.WhereWordsTrap := by
  unfold Obligations.WhereWordsTrap
  refine ⟨fun q r num s => ?_, fun q d a b s hslot => ?_, fun q d a s hq => ?_, fun q a b s hq => ?_⟩
  · intro n both
    have ofTrap {k : Trap} (h : statusTrap s.slot.val n = some k) : both k := ⟨exec_gets_trap h, exec_puts_trap h⟩
    refine ⟨fun hn hst => ofTrap ?_, fun hn hslot => ofTrap ?_, fun hn hslot hsup => ofTrap ?_⟩
    · have hf : isStatus n = false := by rwa [← Bool.not_eq_true, isStatus_iff]
      simp [statusTrap, hn, hf]
    · simp [statusTrap, Nat.not_lt.mpr hn, hslot]
    · have hf : isSupervisor n = false := by simpa [isSupervisor] using hsup
      simp [statusTrap, Nat.not_lt.mpr hn, hslot, hf]
  · exact ⟨superv_elsewhere hslot _, superv_elsewhere hslot _, superv_elsewhere hslot _, superv_elsewhere hslot _, superv_elsewhere hslot _,
      superv_elsewhere hslot _, superv_elsewhere hslot _, superv_elsewhere hslot _, superv_elsewhere hslot _, superv_elsewhere hslot _⟩
  · intro ill bad
    refine ⟨fun h => ⟨?_, ?_⟩, fun h => ?_, fun h => ?_⟩
    · change execHjoin q d a s = _
      unfold execHjoin
      rw [guarded_true hq]
      by_cases hs : s.slot.val = 0
      · rw [if_neg (not_not.mpr hs), slotArg_eq_none (h.resolve_left (not_not.mpr hs))]
      · rw [if_pos hs]
    · change execHkill q d a s = _
      unfold execHkill
      rw [guarded_true hq]
      by_cases hs : s.slot.val = 0
      · rw [if_neg (not_not.mpr hs), slotArg_eq_none (h.resolve_left (not_not.mpr hs))]
      · rw [if_pos hs]
    · change execHend q a s = _
      unfold execHend
      rw [guarded_true hq, if_pos h]
    · change execHstat q d a s = _
      unfold execHstat
      rw [guarded_true hq]
      by_cases hs : s.slot.val = 11
      · rw [if_pos hs]
      · rw [if_neg hs, slotArg_eq_none (h.resolve_left hs)]
  · intro ill c tgt
    refine ⟨fun h => ⟨?_, ?_⟩, fun h => ?_, fun h => ?_⟩
    · exact barArrive_illegal a b false hq (by rwa [badCount_iff, barMismatch_iff, or_assoc])
    · exact barArrive_illegal a b true hq (by rwa [badCount_iff, barMismatch_iff, or_assoc])
    · change execBardef q a b s = _
      unfold execBardef
      rw [guarded_true hq]
      exact if_pos (by rwa [Bool.or_eq_true, badCount_iff])
    · change execBarwait q b s = _
      unfold execBarwait
      rw [guarded_true hq, if_pos h]

end Sys2Proof
end

section
/-! Traps, the records that slot 11 takes and answers, helpers and the ends of threads (R59, R248-R256, R378-R386). -/

namespace Sys2Proof.Machine

/-! ### Taking a trap (R59, R378, R386) -/

theorem haltAt_of_takeTrap {s t : State} {k : Trap} {addr : Word} (hslot : s.slot.val = 11) (h : s.takeTrap k addr = .next t) :
    t.core.haltAt = s.cycle := by
  obtain ⟨r, -, htrap⟩ := takeTrap_halts s k addr hslot
  rw [htrap] at h
  obtain rfl := Host.Outcome.next.inj h
  rfl

/-- Refutes O15: in slot 11 in cycle 1 a trap halts the core and leaves `haltAt` 1, where the statement keeps the old value 0. -/
theorem not_takingATrap : ¬ Obligations.TakingATrap := by
  unfold Obligations.TakingATrap
  intro h
  obtain ⟨r, t, -, -, -, -, -, -, -, -, -, -, -, -, -, -, -, -, -, -, -, -, -, -, -, htrap⟩ := h .illegal 0 { w11 0 0 with cycle := 1 }
  rw [if_pos (by decide)] at htrap
  have hstamp : (w11 0 0).core.haltAt = 1 := haltAt_of_takeTrap (by decide) htrap
  exact absurd hstamp (by decide)

/-! ### The end of a thread (R252, R302) -/

/-- The control thread has been granted a place of the matrix engine that slot 2 waits for. -/
def grantedToControl : State := wP w0 fun p => { p with mq := { p.mq with granted := [0], waiting := [2] } }

/-- The cycle before which slot 2 has no turn, after an outcome. -/
def notBefore2 : Out → Nat
  | .next t => t.core.slots[2].notBefore
  | _ => 0

theorem hend_grants_slot2 : notBefore2 (execHend 0 6 grantedToControl) = 1 := by decide

/-- Refutes O20: the control thread, which holds a granted place of the matrix engine, ends; slot 2, which waits for the place, gets it and
goes on from the next cycle, so that its thread does not stay as it was. -/
theorem not_threadsEnd : ¬ Obligations.ThreadsEnd := by
  unfold Obligations.ThreadsEnd
  rintro ⟨hend, -⟩
  obtain ⟨t, hexec, -, -, -, -, -, -, -, -, hothers⟩ := (hend 0 6 grantedToControl (by decide) (by decide)).1 (by decide) (by decide)
  have hsame := congrArg (·.notBefore) (hothers 2 (by decide) (by
    intro d k
    rw [show grantedToControl.core.slots[(2 : Fin 12)].wait = none by decide]
    nofun))
  have hgranted := hend_grants_slot2
  rw [show execHend 0 6 grantedToControl = .next t from hexec] at hgranted
  exact absurd (hsame.symm.trans hgranted) (by decide)

end Sys2Proof.Machine

namespace Sys2Proof.Machine

/-! ### Records as TRGET delivers them (Table 19.2) -/

theorem wx_changes_x (t : Thread) (d : BitVec 5) (v : Word) : t.wx d v = { t with x := (t.wx d v).x } := by
  unfold Thread.wx
  split <;> rfl

theorem takeRecord_changes_x (t : Thread) (d : BitVec 5) (r : TrapRec) : t.takeRecord d r = { t with x := (t.takeRecord d r).x } := by
  unfold Thread.takeRecord TrapRec.dwords
  dsimp only
  rw [wx_changes_x t d, wx_changes_x _ (d + 1), wx_changes_x _ (d + 2), wx_changes_x _ (d + 3)]

/-- The dword of a record with its code, slot, source, cursor and INFO. -/
def TrapRec.dword2 (r : TrapRec) : Word :=
  BitVec.ofNat 64 (r.code + r.slot * 2 ^ 8 + r.src * 2 ^ 12 + (if r.frame then 2 ^ 15 else 0) + r.pass * 2 ^ 16 + r.posn * 2 ^ 24 + r.info.toNat * 2 ^ 32)

/-- The fields of the dword, low field first. -/
def TrapRec.fields2 (r : TrapRec) : List (Nat × Nat) :=
  [(8, r.code), (4, r.slot), (3, r.src), (1, if r.frame then 1 else 0), (6, r.pass), (2, 0), (4, r.posn), (4, 0), (32, r.info.toNat)]

/-- The dword of a record with its word and CAUSE. -/
def TrapRec.dword3 (r : TrapRec) : Word := BitVec.ofNat 64 (r.word.toNat + r.cause * 2 ^ 32)

def TrapRec.fields3 (r : TrapRec) : List (Nat × Nat) := [(32, r.word.toNat), (8, r.cause)]

theorem TrapRec.fits2 {r : TrapRec} (hcode : r.code < 256) (hslot : r.slot < 16) (hsrc : r.src < 8) (hpass : r.pass < 64) (hposn : r.posn < 16) :
    Fits r.fields2 :=
  ⟨hcode, hslot, hsrc, by cases r.frame <;> decide, hpass, by decide, hposn, by decide, r.info.isLt, trivial⟩

theorem TrapRec.fits3 {r : TrapRec} (hcause : r.cause < 256) : Fits r.fields3 := ⟨r.word.isLt, hcause, trivial⟩

theorem TrapRec.dword2_toNat {r : TrapRec} (h : Fits r.fields2) : r.dword2.toNat = packed r.fields2 := by
  refine toNat_ofNat_packed ?_ h (by decide : 64 ≤ 64)
  simp only [fields2, packed]
  cases r.frame <;> simp only [Bool.false_eq_true, if_true, if_false] <;> lia

theorem TrapRec.dword3_toNat {r : TrapRec} (h : Fits r.fields3) : r.dword3.toNat = packed r.fields3 := by
  refine toNat_ofNat_packed ?_ h (by decide : 40 ≤ 64)
  simp only [fields3, packed]
  lia

theorem rx_takeRecord (t : Thread) (d e : BitVec 5) (r : TrapRec) (h1 : 1 ≤ d.toNat) (h28 : d.toNat ≤ 28) : (t.takeRecord d r).rx e =
    if e = d + 3 then r.dword3 else if e = d + 2 then r.dword2 else if e = d + 1 then r.addr else if e = d then r.pc else t.rx e := by
  have hne (i : BitVec 5) (hi : i.toNat ≤ 3) : d + i ≠ 0#5 := by
    intro h
    have hsum := (BitVec.toNat_add_of_lt (by lia)).symm.trans (congrArg BitVec.toNat h)
    exact absurd hsum (by rw [BitVec.toNat_zero]; lia)
  have h0 : d ≠ 0#5 := fun h => hne 0 (by decide) ((BitVec.add_zero d).trans h)
  change ((((t.wx d r.pc).wx (d + 1) r.addr).wx (d + 2) r.dword2).wx (d + 3) r.dword3).rx e = _
  simp only [rx_wx, h0, hne 1 (by decide), hne 2 (by decide), hne 3 (by decide), ne_eq, not_false_eq_true, and_true]

theorem popRecord_cons {s : State} {r : TrapRec} {rest : List TrapRec} (h : s.core.trapQ = r :: rest) : s.popRecord = some (r,
    { s with core := { s.core with trapQ := rest ++ s.core.trapWait.take (8 - rest.length), trapWait := s.core.trapWait.drop (8 - rest.length) } }) := by
  unfold State.popRecord
  rw [h]
  rfl

theorem popRecord_nil {s : State} (h : s.core.trapQ = []) : s.popRecord = none := by
  unfold State.popRecord
  rw [h]

theorem execTrget_record {q : BitVec 3} {d a : BitVec 5} {s s1 : State} {r : TrapRec} (hslot : s.slot.val = 11) (hq : s.rp q = true)
    (hpop : s.popRecord = some (r, s1)) : execTrget q d a s = .next (s1.setThr (s1.thr.takeRecord d r).retired) := by
  unfold execTrget
  rw [superv_true hslot hq, hpop]
  simp only [State.retire, thr_setThr, setThr_setThr]

theorem execTrget_none {q : BitVec 3} {d a : BitVec 5} {s : State} (hslot : s.slot.val = 11) (hq : s.rp q = true) (hpop : s.popRecord = none) :
    execTrget q d a s =
      if s.rx a = 0 ∨ s.thr.intr then (s.setThr { s.thr.trgetNone d with intr := false }).retire
      else if s.rx a = BitVec.allOnes 64 then .next (s.park (.trget d))
      else .next (((s.park (.trget d)).setThr { (s.park (.trget d)).thr with got := [s.cycle + (s.rx a).toNat] }).after (s.rx a).toNat (.trgetTimeout s.here)) := by
  unfold execTrget
  rw [superv_true hslot hq, hpop]

end Sys2Proof.Machine

namespace Sys2Proof
open Machine

/-- Settles O17: what TRGET does by the queue (`execTrget_record`, `execTrget_none`), and the layout by `rx_takeRecord`. -/
theorem trapRecords : Obligations.TrapRecords := by
  unfold Obligations.TrapRecords
  refine ⟨fun q d a s hslot hq => ?_, fun r t d h1 h28 hcode hslot hsrc hpass hposn hcause => ?_⟩
  · intro lim
    refine ⟨fun r rest hcons => execTrget_record hslot hq (popRecord_cons hcons), fun hnil h => ?_, fun hnil hall hintr => ?_, fun hnil h0 hall hintr => ?_⟩
    · refine (execTrget_none hslot hq (popRecord_nil hnil)).trans ?_
      rw [if_pos h, State.retire, thr_setThr, setThr_setThr]
      rfl
    · have hlim : ¬ (s.rx a = 0 ∨ s.thr.intr = true) := by
        rw [show s.rx a = BitVec.allOnes 64 from hall, hintr]
        decide
      refine (execTrget_none hslot hq (popRecord_nil hnil)).trans ?_
      rw [if_neg hlim, if_pos (show s.rx a = BitVec.allOnes 64 from hall)]
      rfl
    · have hlim : ¬ (s.rx a = 0 ∨ s.thr.intr = true) := by
        rw [hintr]
        simpa using h0
      refine (execTrget_none hslot hq (popRecord_nil hnil)).trans ?_
      rw [if_neg hlim, if_neg (show ¬ s.rx a = BitVec.allOnes 64 from hall), State.park, thr_setThr, setThr_setThr]
  · intro u w2
    have hrx (e : BitVec 5) := rx_takeRecord t d e r h1 h28
    have hne {i j : BitVec 5} (h : i ≠ j) : d + i ≠ d + j := fun e => h ((BitVec.add_right_inj d).mp e)
    have hd {j : BitVec 5} (h : j ≠ 0) : d ≠ d + j := fun e => h (left_eq_add.mp e)
    have hfits2 := TrapRec.fits2 hcode hslot hsrc hpass hposn
    have hfits3 := TrapRec.fits3 (r := r) hcause
    have hw2 : w2 = packed r.fields2 := by
      change (u.rx (d + 2)).toNat = _
      rw [hrx, if_neg (hne (by decide)), if_pos rfl, TrapRec.dword2_toNat hfits2]
    have hw3 : (u.rx (d + 3)).toNat = packed r.fields3 := by rw [hrx, if_pos rfl, TrapRec.dword3_toNat hfits3]
    have field (i : Nat) (f : Nat × Nat) (hi : r.fields2[i]? = some f) := field_of_packed hw2 hfits2 i f hi
    refine ⟨?_, ?_, low_of_packed hw2 hfits2 (8, r.code) rfl, field 1 (4, r.slot) rfl, field 2 (3, r.src) rfl, field 3 (1, _) rfl, field 4 (6, r.pass) rfl,
      field 5 (2, 0) rfl, field 6 (4, r.posn) rfl, field 7 (4, 0) rfl, last_of_packed hw2 hfits2 8 (32, r.info.toNat) rfl rfl,
      low_of_packed hw3 hfits3 (32, r.word.toNat) rfl, field_of_packed hw3 hfits3 1 (8, r.cause) rfl, top_of_packed hw3 hfits3,
      takeRecord_changes_x t d r, fun e he => ?_⟩
    · rw [hrx, if_neg (hd (by decide)), if_neg (hd (by decide)), if_neg (hd (by decide)), if_pos rfl]
    · rw [hrx, if_neg (hne (by decide)), if_neg (hne (by decide)), if_pos rfl]
    · have hout (i : BitVec 5) (hi : i.toNat ≤ 3) : e ≠ d + i := by
        rintro rfl
        rw [BitVec.toNat_add_of_lt (by lia)] at he
        lia
      rw [hrx, if_neg (hout _ (by decide)), if_neg (hout _ (by decide)), if_neg (hout _ (by decide)),
        if_neg fun h => hout 0 (by decide) (h.trans (BitVec.add_zero d).symm)]

end Sys2Proof

namespace Sys2Proof.Machine

/-! ### TRET (R384) -/

/-- A TRET argument with its thread number, kind and action, and with no other bit set. -/
theorem tret_fields {v n i : Nat} (hi : i < 11) (hv : v = 64 * n + i) (hn : n < 4) :
    v % 16 = i ∧ v / 16 % 4 = 0 ∧ v / 64 % 4 = n ∧ v / 2 ^ 8 % 2 ^ 24 = 0 ∧ v / 2 ^ 32 = 0 := by
  rw [hv]
  exact (by decide : ∀ n < 4, ∀ i < 11, (64 * n + i) % 16 = i ∧ (64 * n + i) / 16 % 4 = 0 ∧ (64 * n + i) / 64 % 4 = n ∧
    (64 * n + i) / 2 ^ 8 % 2 ^ 24 = 0 ∧ (64 * n + i) / 2 ^ 32 = 0) n hn i hi

/-- TRET of a thread by its number alone: the action is 0, 1 or 3. -/
theorem execTret_thread {q : BitVec 3} {d a b : BitVec 5} {s : State} {n i : Nat} (how : Return) (hslot : s.slot.val = 11) (hq : s.rp q = true)
    (hi : i < 11) (hv : (s.rx a).toNat = 64 * n + i)
    (hn : (n = 0 ∧ how = .retry) ∨ (n = 1 ∧ how = .skip) ∨ (n = 3 ∧ how = .redirect (s.rx b) ∧ (s.rx b).toNat % 4 = 0)) :
    execTret q d a b s = match s.tretThread i how false with
      | some s1 => (s1.wx d 0).retire
      | none => (s.wx d 1).retire := by
  have hn4 : n < 4 := by lia
  obtain ⟨hthr, hkind, hact, hzero, hhigh⟩ := tret_fields hi hv hn4
  have hmid : (s.rx a).extractLsb' 8 24 = 0#24 := by
    refine BitVec.eq_of_toNat_eq ?_
    rw [BitVec.extractLsb'_toNat, Nat.shiftRight_eq_div_pow]
    exact hzero
  have hhi : (s.rx a).extractLsb' 32 32 = 0#32 := by
    refine BitVec.eq_of_toNat_eq ?_
    rw [BitVec.extractLsb'_toNat, Nat.shiftRight_eq_div_pow, hhigh]
    rfl
  unfold execTret
  rw [superv_true hslot hq]
  simp only [hthr, hkind, hact, hmid, hhi]
  rcases hn with ⟨rfl, rfl⟩ | ⟨rfl, rfl⟩ | ⟨rfl, rfl, hal⟩
  · rw [if_neg (by simp [Nat.lt_succ_iff.mp hi])]
    rfl
  · rw [if_neg (by simp [Nat.lt_succ_iff.mp hi])]
    rfl
  · have hal2 : (s.rx b).extractLsb' 0 2 = 0 := (low2_eq_zero_iff _).mpr hal
    rw [if_neg (by simp [Nat.lt_succ_iff.mp hi, hal2])]
    rfl

theorem tretThread_none {s : State} {i : Nat} (how : Return) (kill : Bool) (h : (s.core.thr i).trap = none) : s.tretThread i how kill = none := by
  unfold State.tretThread
  dsimp only
  rw [h]

/-- A state that differs from `s` in the core in focus but not in the number of its slot. -/
theorem with_slot (s : State) : ({ s with slot := s.slot } : State) = s := rfl

theorem killNow_of_not_pending {s : State} {i : Nat} (h : (s.core.thr i).kpend = false) : s.killNow i = s := by
  have hkill : s.killable i = false := by
    unfold State.killable
    simp [h]
  unfold State.killNow
  rw [hkill]
  rfl

theorem core_thr_setThrAt (s : State) {i : Nat} (hi : i < 12) (t : Thread) : (s.setThrAt s.here i t).core.thr i = t := by
  unfold State.setThrAt State.setCoreAt Core.thr
  simp [hi]

theorem setThrAt_slot (s : State) (c i : Nat) (t : Thread) : (s.setThrAt c i t).slot = s.slot := by
  unfold State.setThrAt State.setCoreAt
  dsimp only
  split <;> rfl

/-- A trapped thread that no HKILL is pending for goes on as TRET asks. -/
theorem tretThread_some {s : State} {i : Nat} {r : TrapRec} (how : Return) (hi : i < 12) (h : (s.core.thr i).trap = some r)
    (hk : (s.core.thr i).kpend = false) :
    s.tretThread i how false = some ((s.dropRecord r).setThrAt s.here i { ((s.core.thr i).returned how) with kpend := false }) := by
  unfold State.tretThread
  dsimp only
  rw [h, hk, Bool.or_false]
  dsimp only
  have hpend : (((s.dropRecord r).setThrAt s.here i { ((s.core.thr i).returned how) with kpend := false }).core.thr i).kpend = false :=
    congrArg (·.kpend) (core_thr_setThrAt (s.dropRecord r) hi _)
  rw [killNow_of_not_pending hpend]
  refine congrArg some ?_
  have hsl := setThrAt_slot (s.dropRecord r) s.here i { ((s.core.thr i).returned how) with kpend := false }
  exact congrArg (fun x => { ((s.dropRecord r).setThrAt s.here i { ((s.core.thr i).returned how) with kpend := false }) with slot := x }) hsl.symm

theorem kpend_returned (t : Thread) (how : Return) : (t.returned how).kpend = t.kpend := by
  cases how with
  | retry => rfl
  | skip => unfold Thread.returned; dsimp only; split <;> rfl
  | redirect pc => rfl

theorem returned_with_kpend {t : Thread} (how : Return) (h : t.kpend = false) : ({ (t.returned how) with kpend := false } : Thread) = t.returned how :=
  congrArg (fun k => ({ (t.returned how) with kpend := k } : Thread)) ((kpend_returned t how).trans h).symm

theorem returned_skip (t : Thread) : t.returned .skip =
    { t with trap := none, wait := none, frame := none, pc := t.pc + BitVec.ofNat 64 (match t.frame with | some f => 4 * (f.len + 2) | none => 4) } := by
  unfold Thread.returned
  cases h : t.frame with
  | none => simp [← h]
  | some f => rfl

theorem retire_wx (s : State) (d : BitVec 5) (v : Word) : (s.wx d v).retire = .next (s.setThr (s.thr.wx d v).retired) := by
  rw [State.wx, State.retire, thr_setThr, setThr_setThr]

end Sys2Proof.Machine

namespace Sys2Proof
open Machine

/-- Settles O18: by `execTret_thread` and what TRET makes of the thread (`tretThread_some`). -/
theorem trapsAreAnswered : Obligations.TrapsAreAnswered := by
  unfold Obligations.TrapsAreAnswered
  intro q d a b s i hslot hq v done t back
  change (_ → _ → _ → execTret q d a b s = _) ∧ (_ → _ → ∀ r, _ → _ → execTret q d a b s = _) ∧ (_ → _ → ∀ r, _ → _ → execTret q d a b s = _) ∧
    (_ → _ → _ → ∀ r, _ → _ → execTret q d a b s = _) ∧ (_ → execTret q d a b s = _)
  refine ⟨fun hi hv htrap => ?_, fun hi hv r htrap hk => ?_, fun hi hv r htrap hk => ?_, fun hi hv hal r htrap hk => ?_, fun h => ?_⟩
  · rw [execTret_thread (n := 0) .retry hslot hq hi (by lia) (.inl ⟨rfl, rfl⟩), tretThread_none _ _ htrap]
    exact retire_wx ..
  · rw [execTret_thread (n := 0) .retry hslot hq hi (by lia) (.inl ⟨rfl, rfl⟩), tretThread_some _ (by lia) htrap hk, returned_with_kpend _ hk]
    exact retire_wx ..
  · rw [execTret_thread (n := 1) .skip hslot hq hi (by lia) (.inr (.inl ⟨rfl, rfl⟩)), tretThread_some _ (by lia) htrap hk, returned_with_kpend _ hk,
      returned_skip]
    exact retire_wx ..
  · rw [execTret_thread (n := 3) (.redirect (s.rx b)) hslot hq hi (by lia) (.inr (.inr ⟨rfl, rfl, hal⟩)), tretThread_some _ (by lia) htrap hk,
      returned_with_kpend _ hk]
    exact retire_wx ..
  · unfold execTret
    rw [superv_true hslot hq]
    refine (if_pos ?_).trans (retire_wx ..)
    have hmid : v / 2 ^ 8 % 2 ^ 24 ≠ 0 → (s.rx a).extractLsb' 8 24 ≠ 0 := fun hne heq => hne <| by
      have := congrArg BitVec.toNat heq
      rwa [BitVec.extractLsb'_toNat, Nat.shiftRight_eq_div_pow] at this
    simp only [Bool.or_eq_true, decide_eq_true_eq, bne_iff_ne]
    rcases h with h | h | h
    · exact .inl (.inl (.inl (.inl (.inl (.inl h)))))
    · exact .inl (.inl (.inl (.inl (.inl (.inr (by lia))))))
    · exact .inl (.inl (.inl (.inl (.inr (hmid h)))))

end Sys2Proof

namespace Sys2Proof.Machine

/-! ### HSTART (R248, R251) -/

theorem freeSlot_eq_some {s : State} {now i : Nat} (h1 : 1 ≤ i) (h10 : i ≤ 10) (hfree : s.slotFree now i = true)
    (hlow : ∀ j, 1 ≤ j → j < i → s.slotFree now j = false) : s.freeSlot now = some i := by
  unfold State.freeSlot
  refine List.find?_range_eq_some.mpr ⟨?_, List.mem_range.mpr (by lia), fun j hj => ?_⟩
  · simp [hfree, show i ≠ 0 by lia]
  · by_cases h0 : j = 0
    · simp [h0]
    · simp [hlow j (by lia) hj]

theorem freeSlot_eq_none {s : State} {now : Nat} (h : ∀ j, 1 ≤ j → j ≤ 10 → s.slotFree now j = false) : s.freeSlot now = none := by
  unfold State.freeSlot
  refine List.find?_eq_none.mpr fun j hj => ?_
  have hj11 := List.mem_range.mp hj
  by_cases h0 : j = 0
  · simp [h0]
  · simp [h j (by lia) (by lia)]

theorem thr_setThrAt_other {s : State} {i : Nat} (h : i ≠ s.slot.val) (t : Thread) : (s.setThrAt s.here i t).thr = s.thr := by
  unfold State.setThrAt State.setCoreAt State.thr State.coreAt
  simp [h]

theorem rx_fresh : ∀ r : BitVec 5, ({} : Thread).rx r = 0 := by decide
theorem rf_fresh : ∀ r : BitVec 5, ({} : Thread).rf r = 0 := by decide
theorem rv_fresh : ∀ r : BitVec 4, ({} : Thread).rv r = 0 := by decide
theorem rk_fresh : ∀ r : BitVec 3, ({} : Thread).rk r = if r = 0#3 then BitVec.allOnes 32 else 0 := by decide
theorem rp_fresh : ∀ r : BitVec 3, ({} : Thread).rp r = decide (r = 0#3) := by decide

theorem low2_ne_zero_iff (v : Word) : v.extractLsb' 0 2 ≠ 0 ↔ v.toNat % 4 ≠ 0 := not_congr (low2_eq_zero_iff v)

theorem execHstart_started {q : BitVec 3} {d a b : BitVec 5} {s : State} {i : Nat} (hq : s.rp q = true) (hslot : s.slot.val = 0)
    (hal : (s.rx a).toNat % 4 = 0) (hfree : s.freeSlot s.cycle = some i) (hi : 1 ≤ i) :
    execHstart q d a b s =
      .next ((s.setThrAt s.here i ((s.core.thr i).start (s.rx a) (s.rx b) (s.cycle + 12))).setThr (s.thr.wx d (BitVec.ofNat 64 i)).retired) := by
  unfold execHstart
  rw [guarded_true hq]
  dsimp only
  rw [if_neg (not_not.mpr hslot), if_neg (by rw [low2_ne_zero_iff]; lia), hfree]
  dsimp only
  rw [retire_wx, thr_setThrAt_other (by lia)]

end Sys2Proof.Machine

namespace Sys2Proof
open Machine

/-- Settles O19: the lowest free slot by `freeSlot_eq_some`; the thread that starts is a fresh one with its PC and x10 (`Thread.start`). -/
theorem helpersStart : Obligations.HelpersStart := by
  unfold Obligations.HelpersStart
  intro q d a b s hq
  refine ⟨fun hslot hal i h1 h10 hfree hlow => ?_, fun hslot hal hfull => ?_, fun hslot hal => ?_, fun hslot => ?_⟩
  · refine ⟨(s.core.thr i).start (s.rx a) (s.rx b) (s.cycle + 12), rfl, rfl, rfl, rfl, rfl, rfl, rfl, fun r => ?_, fun r => ?_, fun r => ?_, fun r => ?_, fun r => ?_,
      execHstart_started hq hslot hal (freeSlot_eq_some h1 h10 hfree hlow) h1⟩
    · unfold Thread.start
      rw [rx_wx]
      by_cases h : r = 10#5
      · simp [h]
      · rw [if_neg (fun hr => h hr.1), if_neg h]
        exact rx_fresh r
    · exact rf_fresh r
    · exact rv_fresh r
    · exact rk_fresh r
    · exact rp_fresh r
  · change execHstart q d a b s = _
    unfold execHstart
    rw [guarded_true hq]
    dsimp only
    rw [if_neg (not_not.mpr hslot), if_neg (by rw [low2_ne_zero_iff]; lia), freeSlot_eq_none hfull]
    exact retire_wx ..
  · change execHstart q d a b s = _
    unfold execHstart
    rw [guarded_true hq]
    dsimp only
    rw [if_neg (not_not.mpr hslot), if_pos ((low2_ne_zero_iff _).mpr hal)]
  · change execHstart q d a b s = _
    unfold execHstart
    rw [guarded_true hq]
    dsimp only
    rw [if_pos hslot]

end Sys2Proof
end

section
/-! Barriers (R201-R208) and counters (R238, R239). -/

namespace Sys2Proof.Machine

/-! ### The thread in focus by the number of its slot -/

theorem core_thr_slot (s : State) : s.core.thr s.slot.val = s.thr := by
  unfold Core.thr State.thr
  simp

theorem thrAt_here_slot (s : State) : s.thrAt s.here s.slot.val = s.thr := (thrAt_here s _).trans (core_thr_slot s)

theorem setThrAt_here_slot (s : State) (t : Thread) : s.setThrAt s.here s.slot.val t = s.setThr t := by
  unfold State.setThrAt State.setCoreAt State.setThr State.coreAt
  simp [setIfInBounds_eq_set]

theorem getElem_vmap {α β : Type} {n : Nat} (f : α → β) (v : Vector α n) (i : Fin n) : (vmap f v)[i] = f v[i] := by
  simp [vmap]

/-- The thread in focus of a state whose threads have all been changed. -/
theorem thr_vmap (s : State) (f : Thread → Thread) : ({ s with core := { s.core with slots := vmap f s.core.slots } } : State).thr = f s.thr :=
  getElem_vmap f s.core.slots s.slot

theorem slots_setThr_other (s : State) (t : Thread) {j : Fin 12} (h : j ≠ s.slot) : (s.setThr t).core.slots[j] = s.core.slots[j] := by
  unfold State.setThr
  simp only [Fin.getElem_fin]
  rw [Vector.getElem_set_ne]
  exact fun hv => h (Fin.ext hv).symm

/-! ### Barriers -/

theorem bar_setBar (t : Thread) {b : Nat} (hb : b < 32) (st : BarState) : (t.setBar b st).bar b = st := by
  unfold Thread.setBar Thread.bar
  simp [hb]

theorem proc_bar_set (p : Proc) {b : Nat} (hb : b < 32) (r : Barrier) : ({ p with bars := p.bars.setIfInBounds b r } : Proc).bar b = r := by
  unfold Proc.bar
  simp [hb]

section
variable {q : BitVec 3} {a b : BitVec 5} {s : State}

/-- The checks that an arrival of a thread passes (R203). -/
structure MayArrive (q : BitVec 3) (a b : BitVec 5) (s : State) : Prop where
  guard : s.rp q = true
  notTask : s.thr.task = false
  count : 1 ≤ (s.rx a).toNat ∧ (s.rx a).toNat ≤ 11
  target : (s.proc.bar b.toNat).tgt = 0 ∨ (s.proc.bar b.toNat).tgt = (s.rx a).toNat

theorem badCount_eq_false {v : Word} (h : 1 ≤ v.toNat ∧ v.toNat ≤ 11) : badCount v = false := by
  rw [← Bool.not_eq_true, badCount_iff]
  lia

theorem MayArrive.barArrive_eq (h : MayArrive q a b s) (sync : Bool) : barArrive q a b sync s =
    if s.thr.storeQ ≠ [] then .next (s.park (.barArr b.toNat (s.rx a).toNat sync))
    else
      let s1 := (s.setThr s.thr.issued).arrive b.toNat (s.rx a).toNat s.slot.val true
      .next (s1.setThr (s1.thr.afterArrival b.toNat sync)) := by
  have hmis : s.barMismatch b.toNat (s.rx a).toNat = false := by
    rw [← Bool.not_eq_true, barMismatch_iff]
    exact fun ⟨h0, hc⟩ => h.target.elim h0 hc
  unfold barArrive
  rw [guarded_true h.guard]
  dsimp only
  rw [h.notTask, badCount_eq_false h.count, hmis]
  rfl

/-- The barrier's phase as an arrival leaves it. -/
def Barrier.arrived (r : Barrier) (c : Nat) : Barrier := if r.arr + 1 = c then {} else { tgt := c, arr := r.arr + 1 }

/-- The state after an arrival, beside what a completed phase does to the threads. -/
def State.withArrival (s : State) (a b : BitVec 5) : State :=
  (s.setThr (s.thr.issued.setBar b.toNat .arrived)).setProc
    { s.proc with bars := s.proc.bars.setIfInBounds b.toNat ((s.proc.bar b.toNat).arrived (s.rx a).toNat) }

theorem MayArrive.arrive_eq (h : MayArrive q a b s) : (s.setThr s.thr.issued).arrive b.toNat (s.rx a).toNat s.slot.val true =
    if (s.proc.bar b.toNat).arr + 1 = (s.rx a).toNat then
      { s.withArrival a b with
        core := { (s.withArrival a b).core with
          slots := vmap (fun t => t.phaseEnds b.toNat s.proc.hold.isSome s.cycle) (s.withArrival a b).core.slots } }
    else s.withArrival a b := by
  have htgt : (if ((s.setThr s.thr.issued).proc.bar b.toNat).tgt = 0 then (s.rx a).toNat else ((s.setThr s.thr.issued).proc.bar b.toNat).tgt) =
      (s.rx a).toNat := by
    rcases h.target with h0 | hc
    · exact if_pos h0
    · exact ite_eq_left_iff.mpr fun _ => hc
  have hthr : (s.setThr s.thr.issued).setThrAt s.here s.slot.val (((s.setThr s.thr.issued).thrAt s.here s.slot.val).setBar b.toNat .arrived) =
      s.setThr (s.thr.issued.setBar b.toNat .arrived) := by
    have h1 := thrAt_here_slot (s.setThr s.thr.issued)
    have h2 := setThrAt_here_slot (s.setThr s.thr.issued) (s.thr.issued.setBar b.toNat .arrived)
    rw [thr_setThr] at h1
    rw [setThr_setThr] at h2
    exact (congrArg (fun t : Thread => (s.setThr s.thr.issued).setThrAt s.here s.slot.val (t.setBar b.toNat .arrived)) h1).trans h2
  unfold State.arrive State.withArrival Barrier.arrived
  dsimp only
  rw [htgt, if_pos rfl, here_setThr, hthr]
  rfl

/-- An arrival that does not complete the phase leaves it open. -/
theorem MayArrive.waits (h : MayArrive q a b s) (hq : s.thr.storeQ = []) (hmore : (s.proc.bar b.toNat).arr + 1 ≠ (s.rx a).toNat) (sync : Bool) :
    let r : Barrier := { tgt := (s.rx a).toNat, arr := (s.proc.bar b.toNat).arr + 1 }
    barArrive q a b sync s = .next ((s.setProc { s.proc with bars := s.proc.bars.setIfInBounds b.toNat r }).setThr
      ((s.thr.issued.setBar b.toNat .arrived).afterArrival b.toNat sync)) := by
  intro r
  rw [h.barArrive_eq, if_neg (not_not.mpr hq)]
  dsimp only
  rw [h.arrive_eq, if_neg hmore, State.withArrival, Barrier.arrived, if_neg hmore, thr_setProc, thr_setThr, setThr_setProc, setThr_setThr]

/-- An arrival that completes the phase: the phase is closed, every thread that had arrived has passed, and so has this one. -/
theorem MayArrive.completes (h : MayArrive q a b s) (hq : s.thr.storeQ = []) (hlast : (s.proc.bar b.toNat).arr + 1 = (s.rx a).toNat)
    (hhold : s.proc.hold = none) (hwait : s.thr.wait = none) (sync : Bool) :
    Yields (barArrive q a b sync s) (fun t => t.proc.bar b.toNat = {} ∧
      t.thr = ((s.thr.issued.setBar b.toNat .arrived).setBar b.toNat .passed).afterArrival b.toNat sync ∧
      ∀ j : Fin 12, j ≠ s.slot → t.core.slots[j] = s.core.slots[j].phaseEnds b.toNat false s.cycle) := by
  rw [h.barArrive_eq, if_neg (not_not.mpr hq)]
  dsimp only
  rw [h.arrive_eq, if_pos hlast, State.withArrival, Barrier.arrived, if_pos hlast, hhold]
  refine ⟨_, rfl, proc_bar_set _ b.isLt _, ?_, fun j hj => ?_⟩
  · rw [thr_setThr, thr_vmap]
    have hb : (s.thr.issued.setBar b.toNat .arrived).bar b.toNat = .arrived := bar_setBar _ b.isLt _
    have hw : ((s.thr.issued.setBar b.toNat .arrived).setBar b.toNat .passed).wait = none := hwait
    simp only [thr_setProc, thr_setThr, Thread.phaseEnds, hb, if_true, Option.isSome_none, Bool.false_eq_true, if_false, Thread.testBarwait, hw]
  · rw [slots_setThr_other _ _ (by exact hj)]
    refine (getElem_vmap ..).trans ?_
    refine congrArg (fun t : Thread => t.phaseEnds b.toNat false s.cycle) ?_
    exact slots_setThr_other s _ hj

end

theorem afterArrival_of_arrived (t : Thread) {b : Nat} (hb : b < 32) (sync : Bool) : (t.setBar b .arrived).afterArrival b sync =
    if sync then { (t.setBar b .arrived) with wait := some (.barwait b) } else (t.setBar b .arrived).resumed := by
  unfold Thread.afterArrival
  rw [bar_setBar t hb]
  cases sync <;> rfl

theorem afterArrival_of_passed (t : Thread) {b : Nat} (hb : b < 32) (sync : Bool) : (t.setBar b .passed).afterArrival b sync =
    if sync then ((t.setBar b .passed).setBar b .none).resumed else (t.setBar b .passed).resumed := by
  unfold Thread.afterArrival
  rw [bar_setBar t hb]
  cases sync <;> rfl

theorem bar_resumed (t : Thread) (b : Nat) : t.resumed.bar b = t.bar b := by
  unfold Thread.bar Thread.resumed
  exact congrArg (fun v : Vector BarState 32 => (v.toList[b]?).getD .none) (barSt_advance t)

/-- The fields of the word of BARST, low field first. -/
def barstFields (tgt arr st nd : Nat) : List (Nat × Nat) := [(4, tgt), (4, arr), (2, st), (54, nd % 2 ^ 54)]

theorem barst_fits {tgt arr st nd : Nat} (htgt : tgt < 16) (harr : arr < 16) (hst : st < 4) : Fits (barstFields tgt arr st nd) :=
  ⟨htgt, harr, hst, Nat.mod_lt _ (by decide), trivial⟩

theorem barst_toNat {tgt arr st nd : Nat} (h : Fits (barstFields tgt arr st nd)) :
    (BitVec.ofNat 64 (tgt + 16 * arr + 256 * st + 1024 * nd)).toNat = packed (barstFields tgt arr st nd) := by
  have hlt : packed (barstFields tgt arr st nd) < 2 ^ 64 := packed_lt h
  have hsum : tgt + 16 * arr + 256 * st + 1024 * nd = packed (barstFields tgt arr st nd) + 2 ^ 64 * (nd / 2 ^ 54) := by
    simp only [barstFields, packed]
    lia
  rw [BitVec.toNat_ofNat, hsum, Nat.add_mul_mod_self_left, Nat.mod_eq_of_lt hlt]

theorem barst_word {tgt arr st nd : Nat} (htgt : tgt < 16) (harr : arr < 16) (hst : st < 4) :
    (BitVec.ofNat 64 (tgt + 16 * arr + 256 * st + 1024 * nd)).toNat % 2 ^ 4 = tgt ∧
      (BitVec.ofNat 64 (tgt + 16 * arr + 256 * st + 1024 * nd)).toNat / 2 ^ 4 % 2 ^ 4 = arr ∧
      (BitVec.ofNat 64 (tgt + 16 * arr + 256 * st + 1024 * nd)).toNat / 2 ^ 8 % 2 ^ 2 = st := by
  have hfits := barst_fits (nd := nd) htgt harr hst
  have hv := barst_toNat hfits
  exact ⟨low_of_packed hv hfits (4, tgt) rfl, field_of_packed hv hfits 1 (4, arr) rfl, field_of_packed hv hfits 2 (2, st) rfl⟩

theorem execBarst_eq {q : BitVec 3} {d b : BitVec 5} {s : State} (hq : s.rp q = true) :
    let r := s.proc.bar b.toNat
    let st := match s.thr.bar b.toNat with | .none => 0 | .arrived => 1 | .passed => 2 | .deferred => 3
    let nd := (s.proc.defs.filter (fun e => e.slot == s.slot.val && e.alive && e.bar == b.toNat)).length
    execBarst q d b s = .next (s.setThr (s.thr.wx d (BitVec.ofNat 64 (r.tgt + 16 * r.arr + 256 * st + 1024 * nd))).retired) := by
  unfold execBarst
  rw [guarded_true hq]
  exact retire_wx ..

theorem execBardef_waits {q : BitVec 3} {a b : BitVec 5} {s : State} (hq : s.rp q = true) (htask : s.thr.task = false)
    (hc : 1 ≤ (s.rx a).toNat ∧ (s.rx a).toNat ≤ 11) (hst : s.thr.storeQ ≠ [])
    (hroom : (s.proc.defs.filter (fun e => e.slot == s.slot.val && e.alive)).length < 4) :
    let d : Deferred := { slot := s.slot.val, alive := true, bar := b.toNat, count := (s.rx a).toNat, stores := s.thr.storeQ.length,
                          copies := s.proc.unlanded s.slot.val }
    execBardef q a b s = .next ((s.setThr (s.thr.retired.setBar b.toNat .deferred)).setProc { s.proc with defs := s.proc.defs ++ [d] }) := by
  unfold execBardef
  rw [guarded_true hq]
  dsimp only
  rw [htask, badCount_eq_false hc, if_neg (by decide), if_neg (Nat.not_le.mpr hroom), if_neg (fun h => hst (List.length_eq_zero_iff.mp h.1))]
  rfl

end Sys2Proof.Machine

namespace Sys2Proof
open Machine

/-- Settles O21: arrivals by `MayArrive.waits` and `MayArrive.completes`. -/
theorem barriers : Obligations.Barriers := by
  unfold Obligations.Barriers
  refine ⟨fun q a b s => ?_, fun q d a b s => ?_⟩
  · intro c n r hq htask h1 h11 htgt
    have h : MayArrive q a b s := ⟨hq, htask, ⟨h1, h11⟩, htgt⟩
    change (_ → barArrive q a b false s = _ ∧ barArrive q a b true s = _) ∧ (_ → _ → barArrive q a b false s = _ ∧ barArrive q a b true s = _) ∧
      (_ → _ → _ → _ → Yields (barArrive q a b false s) _ ∧ Yields (barArrive q a b true s) _)
    refine ⟨fun hst => ?_, fun hst hmore => ?_, fun hst hlast hhold hwait => ?_⟩
    · rw [h.barArrive_eq, h.barArrive_eq, if_pos hst, if_pos hst]
      exact ⟨rfl, rfl⟩
    · rw [h.waits hst hmore, h.waits hst hmore, afterArrival_of_arrived _ b.isLt, afterArrival_of_arrived _ b.isLt]
      exact ⟨rfl, rfl⟩
    · obtain ⟨t, ht, hbar, hthr, hothers⟩ := h.completes hst hlast hhold hwait false
      obtain ⟨u, hu, hbar', hthr', hothers'⟩ := h.completes hst hlast hhold hwait true
      rw [afterArrival_of_passed _ b.isLt] at hthr hthr'
      refine ⟨⟨t, ht, hbar, ?_, by rw [hthr]; rfl, hothers⟩, ⟨u, hu, hbar', ?_, by rw [hthr']; rfl, hothers'⟩⟩
      · rw [hthr]
        exact (bar_resumed ..).trans (bar_setBar _ b.isLt _)
      · rw [hthr']
        exact (bar_resumed ..).trans (bar_setBar _ b.isLt _)
  · intro n st c hq
    refine ⟨fun htask => ?_, ⟨_, execBarst_eq hq, fun htgt harr => ?_⟩, fun htask h1 h11 hst hroom => execBardef_waits hq htask ⟨h1, h11⟩ hst hroom⟩
    · change (_ → execBarwait q b s = _) ∧ (_ → execBarwait q b s = _) ∧ (_ → execBarwait q b s = _)
      unfold execBarwait
      rw [guarded_true hq, htask, if_neg (by decide)]
      refine ⟨fun h => ?_, fun h => ?_, fun h => ?_⟩
      · rw [show s.thr.bar b.toNat = .none from h]
        rfl
      · rw [show s.thr.bar b.toNat = .passed from h]
        simp only [State.retire, thr_setThr, setThr_setThr]
        rfl
      · rcases h with h | h <;> rw [show s.thr.bar b.toNat = _ from h] <;> rfl
    · change (s.proc.bar b.toNat).tgt < 16 at htgt
      change (s.proc.bar b.toNat).arr < 16 at harr
      change _ = (s.proc.bar b.toNat).tgt ∧ _ = (s.proc.bar b.toNat).arr ∧ _ = match s.thr.bar b.toNat with | .none => 0 | .arrived => 1 | .passed => 2 | .deferred => 3
      cases s.thr.bar b.toNat with
      | none => exact barst_word htgt harr (by decide)
      | arrived => exact barst_word htgt harr (by decide)
      | passed => exact barst_word htgt harr (by decide)
      | deferred => exact barst_word htgt harr (by decide)

end Sys2Proof

namespace Sys2Proof.Machine

/-! ### Counters -/

theorem slots_vmapIdx (s : State) (f : Nat → Thread → Thread) (j : Fin 12) :
    ({ s with core := { s.core with slots := vmapIdx f s.core.slots } } : State).core.slots[j] = f j s.core.slots[j] := getElem_vmapIdx f s.core.slots j

@[simp] theorem mem_afterOnce (s : State) (n : Nat) (e : Instr) : (s.afterOnce n e).mem = s.mem := by unfold State.afterOnce; split <;> rfl
@[simp] theorem core_afterOnce (s : State) (n : Nat) (e : Instr) : (s.afterOnce n e).core = s.core := by unfold State.afterOnce; split <;> rfl
@[simp] theorem slot_afterOnce (s : State) (n : Nat) (e : Instr) : (s.afterOnce n e).slot = s.slot := by unfold State.afterOnce; split <;> rfl

/-- What setting a counter leaves: the memory, the number in focus, and of the core the process and the threads. -/
theorem setCtr_parts (s : State) (n : Nat) (v : BitVec 32) :
    let p : Proc := { s.proc with ctr := s.proc.ctr.setIfInBounds n v, tt := vmap (triggerAll n v s.cycle) s.proc.tt }
    (s.setCtr n v).mem = s.mem ∧ (s.setCtr n v).slot = s.slot ∧ (s.setCtr n v).proc = p ∧
    ∀ j : Fin 12, (s.setCtr n v).core.slots[j] = if p.hold.isSome && j.val != 11 then s.core.slots[j] else s.core.slots[j].testCtrwait p s.cycle := by
  intro p
  have hslot (j : Fin 12) : (s.setProc p).testCtrwaits.core.slots[j] =
      if p.hold.isSome && j.val != 11 then s.core.slots[j] else s.core.slots[j].testCtrwait p s.cycle := slots_vmapIdx (s.setProc p) _ j
  unfold State.setCtr
  dsimp only
  split
  · refine ⟨mem_afterOnce .., slot_afterOnce .., ?_, fun j => ?_⟩
    · exact congrArg Core.proc (core_afterOnce ..)
    · exact (congrArg (fun k : Core => k.slots[j]) (core_afterOnce ..)).trans (hslot j)
  · exact ⟨rfl, rfl, rfl, hslot⟩

theorem testCtrwait_of_none {t : Thread} (p : Proc) (c : Nat) (h : t.wait = none) : t.testCtrwait p c = t := by
  unfold Thread.testCtrwait
  rw [h]

theorem thr_setCtr {s : State} (n : Nat) (v : BitVec 32) (h : s.thr.wait = none) : (s.setCtr n v).thr = s.thr := by
  obtain ⟨-, hslot, -, hslots⟩ := setCtr_parts s n v
  have hthr : (s.setCtr n v).thr = (s.setCtr n v).core.slots[s.slot] := congrArg (fun i : Fin 12 => (s.setCtr n v).core.slots[i]) hslot
  refine hthr.trans ((hslots s.slot).trans ?_)
  split
  · rfl
  · exact testCtrwait_of_none _ _ h

theorem ctr_set (p : Proc) {n m : Nat} (hm : m < 64) (v : BitVec 32) :
    ((p.ctr.setIfInBounds n v).toList[m]?).getD 0 = if m = n then v else (p.ctr.toList[m]?).getD 0 := by
  simp [hm, eq_comm]
  split <;> simp_all

/-- What CTRSET and CTRADD do besides writing their thread. -/
theorem setCtr_effect {s t : State} {n : Nat} {v : BitVec 32} {u : Thread} (hn : n < 64) (ht : t = (s.setCtr n v).setThr u) :
    t.mem = s.mem ∧ t.proc.win = s.proc.win ∧ (∀ m, m < 64 → t.ctr m = if m = n then v else s.ctr m) ∧
    (s.proc.hold = none → ∀ j : Fin 12, j ≠ s.slot → ∀ (e : BitVec 5) (w : BitVec 32), s.core.slots[j].wait = some (.ctrwait e n w) →
      t.core.slots[j] = if (v - w).toNat < 2 ^ 31 then (s.core.slots[j].wx e (v.setWidth 64)).resumedAfter s.cycle else s.core.slots[j]) := by
  obtain ⟨hmem, hslot, hproc, hslots⟩ := setCtr_parts s n v
  subst ht
  refine ⟨hmem, ?_, fun m hm => ?_, fun hhold j hj e w hw => ?_⟩
  · rw [proc_setThr, hproc]
  · unfold State.ctr
    rw [proc_setThr, hproc]
    exact ctr_set s.proc hm v
  · rw [slots_setThr_other _ _ (hslot ▸ hj), hslots, if_neg (by simp [hhold])]
    unfold Thread.testCtrwait
    rw [hw]
    dsimp only
    rw [ctr_set s.proc hn, if_pos rfl]
    simp only [reached, decide_eq_true_eq]

end Sys2Proof.Machine

namespace Sys2Proof
open Machine

/-- Settles O22: a write of a counter by `setCtr_effect`. -/
theorem counters : Obligations.Counters := by
  unfold Obligations.Counters
  refine ⟨fun q d a b s => ?_, fun q d a b s hq => ?_⟩
  · intro n low set_ hq hwait
    have hn : n < 64 := Nat.mod_lt _ (by lia)
    refine ⟨?_, ?_, ?_⟩
    · change execCtrget q d a s = _
      unfold execCtrget
      rw [guarded_true hq]
      exact retire_wx ..
    · change Yields (execCtrset q a b s) _
      unfold execCtrset
      rw [guarded_true hq]
      refine ⟨_, rfl, ?_, setCtr_effect hn rfl⟩
      rw [thr_setThr, thr_setCtr _ _ hwait]
    · change Yields (execCtradd q d a b s) _
      unfold execCtradd
      rw [guarded_true hq]
      refine ⟨_, retire_wx .., ?_, setCtr_effect hn rfl⟩
      rw [thr_setThr, thr_setCtr _ _ hwait]
      rfl
  · intro n c v
    change (∀ k : Nat, _ → _ → execCtrwait q d a b s = _) ∧ (∀ k : Nat, _ → _ → _ → execCtrwait q d a b s = _)
    unfold execCtrwait
    rw [guarded_true hq]
    have hahead {k : Nat} (hk : k < 2 ^ 32) (hc : c = v + BitVec.ofNat 32 k) : (c - v).toNat = k := by
      rw [hc, BitVec.add_comm, BitVec.add_sub_cancel, BitVec.toNat_ofNat, Nat.mod_eq_of_lt hk]
    refine ⟨fun k hk hc => ?_, fun k hk1 hk2 hc => ?_⟩
    · have hr : reached (s.ctr (ctrNum (s.rx a))) (lo32 (s.rx b)) = true := decide_eq_true ((hahead (by lia) hc).trans_lt hk)
      dsimp only
      rw [if_pos hr]
      exact retire_wx ..
    · have hr : ¬ reached (s.ctr (ctrNum (s.rx a))) (lo32 (s.rx b)) = true := by
        rw [reached, decide_eq_true_eq, not_lt]
        exact hk1.trans_eq (hahead hk2 hc).symm
      dsimp only
      rw [if_neg hr]
      rfl

end Sys2Proof
end

section
/-! Loads and stores in the own window (R24, R59, R151, R172). -/

namespace Sys2Proof.Machine

/-! ### The own window of a process (R24) -/

theorem coreOf_own {s : State} (h : s.core.occupied = true) : s.coreOf s.proc.gid s.proc.lid = some s.here := by
  unfold State.coreOf
  rw [if_pos (by simp [h, State.proc])]

theorem isLocal_own {s : State} (h : s.core.occupied = true) (o : Nat) : s.isLocal (.win s.proc.gid s.proc.lid o) = true := by
  simp [State.isLocal, h]

theorem coreAt_here (s : State) : s.coreAt s.here = s.core := if_pos rfl

theorem setCoreAt_here (s : State) (k : Core) : s.setCoreAt s.here k = { s with core := k } := if_pos rfl

theorem window_own {s : State} (h : s.core.occupied = true) : s.window s.proc.gid s.proc.lid = s.proc.win := by
  unfold State.window
  rw [coreOf_own h]
  exact congrArg (·.proc.win) (coreAt_here s)

theorem onProc_own {s : State} (h : s.core.occupied = true) (f : Proc → Proc) : s.onProc s.proc.gid s.proc.lid f = s.setProc (f s.proc) := by
  unfold State.onProc
  rw [coreOf_own h]
  dsimp only
  rw [coreAt_here, setCoreAt_here]
  rfl

theorem homeOf_own {s : State} (h : s.core.occupied = true) (o : Nat) : s.homeOf (.win s.proc.gid s.proc.lid o) = s.here := by
  unfold State.homeOf
  dsimp only
  rw [coreOf_own h]
  rfl

theorem performFor_own {s : State} {a : Acc} {who : Asker} {o : Nat} (hocc : s.core.occupied = true) (halive : s.proc.ended = false)
    (hp : a.place = .win s.proc.gid s.proc.lid o) (hk : a.kind ≠ .deque) : s.performFor a who = s.performHome a who := by
  have hend : (s.coreAt s.here).proc.ended = false := (congrArg (·.proc.ended) (coreAt_here s)).trans halive
  have hwin (k : AccKind) (hk : k ≠ .deque) : (match s.coreOf s.proc.gid s.proc.lid with
      | some c => if (s.coreAt c).proc.ended then Perf.fault s .window else if k = .deque then s.performDeque c who else s.performHome a who
      | none => Perf.fault s .window) = s.performHome a who := by
    rw [coreOf_own hocc]
    dsimp only
    rw [hend, if_neg (by decide), if_neg hk]
  unfold State.performFor
  rw [hp]
  generalize a.kind = k at hk ⊢
  cases k <;> exact hwin _ hk

/-! ### The bytes that a store writes -/

theorem write_mod (m : Memory) (a n v : Nat) : m.write a n (v % 256 ^ n) = m.write a n v := by
  induction n generalizing m a v with
  | zero => rfl
  | succ n ih =>
    have hlow : BitVec.ofNat 8 (v % 256 ^ (n + 1)) = BitVec.ofNat 8 v := by
      refine BitVec.eq_of_toNat_eq ?_
      rw [BitVec.toNat_ofNat, BitVec.toNat_ofNat, pow_succ', Nat.mod_mul_right_mod]
    have hhigh : v % 256 ^ (n + 1) / 256 = v / 256 % 256 ^ n := by rw [pow_succ', Nat.mod_mul_right_div_self]
    unfold Memory.write
    rw [hlow, hhigh, ih]

theorem ownWrite_mod (s : State) (ea : Word) (n v : Nat) : s.ownWrite ea n (v % 256 ^ n) = s.ownWrite ea n v := by
  unfold State.ownWrite
  rw [write_mod]

/-! ### Accesses of the own window -/

/-- A plain access of the own window is local, and nothing delays it. -/
theorem OwnData.place_eq {s : State} {va : Word} {n : Nat} (_h : OwnData s va n) : s.ownPlace va = .win s.proc.gid s.proc.lid (va.toNat % 2 ^ 48) := rfl

section
variable {s : State} {va : Word} {n : Nat} (h : OwnData s va n)
include h

theorem OwnData.resolve (need : Need) (k : Nat) (fifo : Bool) (i : Nat) : s.resolve need k va fifo i = .ok (s.ownPlace va) false 0 16 :=
  resolve_own s need k va fifo i h.occupied h.window (by have := h.inside; have := h.bytes; lia)

theorem OwnData.isLocal : s.isLocal (s.ownPlace va) = true := isLocal_own h.occupied _

theorem OwnData.peek : s.peek (s.ownPlace va) n = Memory.read s.proc.win (va.toNat % 2 ^ 48) n :=
  congrArg (fun m => Memory.read m (va.toNat % 2 ^ 48) n) (window_own h.occupied)

theorem OwnData.poke (v : Nat) : s.poke (s.ownPlace va) n v = s.ownWrite va n v :=
  onProc_own h.occupied fun pr => { pr with win := Memory.write pr.win (va.toNat % 2 ^ 48) n v }

/-- Going through alignment and translation to the place of the access. -/
theorem OwnData.atAddr (need : Need) (fifo : Bool) (k : Place → Bool → Nat → Nat → Out) :
    atAddr need n n va fifo s k = k (s.ownPlace va) false 0 16 := by
  unfold Machine.atAddr
  rw [if_neg (not_not.mpr h.aligned), h.resolve]

/-- An access of the own window is performed at once, in the turn of its instruction. -/
theorem OwnData.performs {a : Acc} (hp : a.place = s.ownPlace va) (hk : a.kind ≠ .deque) :
    s.perform a s.here s.slot.val = s.performHome a (.thread s.here s.slot.val) :=
  performFor_own h.occupied h.alive hp hk

/-- The access of an instruction that has only one, in the own window, with no store outstanding. -/
theorem OwnData.startAcc {a : Acc} {c : Cont} {s1 s2 : State} {v : Nat} {g : Sig} {hit : Bool} (hp : a.place = s.ownPlace va) (hk : a.kind ≠ .deque)
    (hq : a.queued = false) (hperf : s.performHome a (.thread s.here s.slot.val) = .done s1 v g hit)
    (hc : (s1.setThr { s1.thr with gotSig := g }).complete c [v] = .ok s2) : startAcc [a] c s = s2.retire := by
  have hpump : pump [a] [] s = .done (s1.setThr { s1.thr with gotSig := g }) [v] := by
    unfold pump
    rw [hq, if_neg (by decide), if_neg (not_not.mpr h.noStores), hp, if_pos h.isLocal, h.performs hp hk, hperf]
    rfl
  have hwait : ([a].head?.bind s.queueWait) = none := by
    change s.queueWait a = none
    unfold State.queueWait
    rw [hq, if_neg (by decide), if_pos h.noStores]
  unfold Machine.startAcc
  rw [hwait, hpump]
  dsimp only
  rw [hc]

/-- A load from the own window delivers the bytes there. -/
theorem OwnData.load {a : Acc} (who : Asker) (hp : a.place = s.ownPlace va) (hs : a.size = n) (hk : a.kind = .load) :
    s.performHome a who = .done s (Memory.read s.proc.win (va.toNat % 2 ^ 48) n) {} true := by
  unfold State.performHome
  rw [hp, hs, hk]
  dsimp only
  rw [h.home]
  dsimp only
  rw [h.sound, if_neg (by decide)]
  exact congrArg (fun v => Perf.done s v {} true) h.peek

theorem PlainWrites.homeWrite (hw : PlainWrites s) (v : Nat) : s.homeWrite (s.ownPlace va) n v (2 ^ n - 1) = s.ownWrite va n v := by
  rw [homeWrite_plain, h.poke]
  · rw [h.poke]
    exact hw.noWatch
  · rw [h.poke]
    exact hw.noError

/-- A store to the own window writes its bytes, where nothing watches and no error is marked. -/
theorem OwnData.store {a : Acc} (hw : PlainWrites s) (who : Asker) (hp : a.place = s.ownPlace va) (hs : a.size = n) (hk : a.kind = .store)
    (hm : a.mask = 0) : s.performHome a who = .done (s.ownWrite va n a.val) 0 {} true := by
  unfold State.performHome
  rw [hp, hs, hk, hm]
  dsimp only
  rw [h.home]
  dsimp only
  rw [if_pos rfl, PlainWrites.homeWrite h hw]

/-- A load instruction on the own window (R172). -/
theorem OwnData.loadAt {q : BitVec 3} {a : BitVec 5} {imm : BitVec 10} {c : Cont} (hq : s.rp q = true) (hva : s.rx a + imm.signExtend 64 = va)
    (hc : ∀ t : State, t.complete c [Memory.read s.proc.win (va.toNat % 2 ^ 48) n] =
      .ok (t.setThr (t.thr.apply c [Memory.read s.proc.win (va.toNat % 2 ^ 48) n]))) :
    loadAt q a imm n c s =
      .next (s.setThr (({ s.thr with gotSig := {} } : Thread).apply c [Memory.read s.proc.win (va.toNat % 2 ^ 48) n]).retired) := by
  unfold Machine.loadAt
  rw [guarded_true hq, imm10Val]
  dsimp only
  rw [hva, h.atAddr, h.startAcc rfl (by simp) rfl (h.load _ rfl rfl rfl) (hc _), State.retire, thr_setThr, thr_setThr, setThr_setThr, setThr_setThr]

theorem OwnData.loadX {q : BitVec 3} {a : BitVec 5} {imm : BitVec 10} (d : BitVec 5) (sg : Bool) (hq : s.rp q = true) (hva : s.rx a + imm.signExtend 64 = va) :
    Machine.loadAt q a imm n (.xreg d n sg) s =
      .next (s.setThr (({ s.thr with gotSig := {} } : Thread).wx d (loadExt (Memory.read s.proc.win (va.toNat % 2 ^ 48) n) n sg)).retired) :=
  h.loadAt hq hva fun _ => rfl

theorem OwnData.loadF {q : BitVec 3} {a : BitVec 5} {imm : BitVec 10} (d : BitVec 5) (hq : s.rp q = true) (hva : s.rx a + imm.signExtend 64 = va) :
    Machine.loadAt q a imm n (.freg d) s =
      .next (s.setThr (({ s.thr with gotSig := {} } : Thread).wf d (BitVec.ofNat 64 (Memory.read s.proc.win (va.toNat % 2 ^ 48) n))).retired) :=
  h.loadAt hq hva fun _ => rfl

/-- A store instruction on the own window (R172). -/
theorem OwnData.storeAt {q : BitVec 3} {a : BitVec 5} {imm : BitVec 10} {v : State → Word} (hw : PlainWrites s) (hq : s.rp q = true)
    (hva : s.rx a + imm.signExtend 64 = va) :
    storeAt q a imm n v s = .next ((s.ownWrite va n (v s).toNat).setThr ({ s.thr with gotSig := {} } : Thread).retired) := by
  unfold Machine.storeAt
  rw [guarded_true hq, imm10Val]
  dsimp only
  rw [hva, h.atAddr, h.startAcc rfl (by simp) rfl (h.store hw _ rfl rfl rfl rfl) rfl, State.retire, thr_setThr, thr_setThr, setThr_setThr, setThr_setThr,
    ownWrite_mod]
  rfl

end

theorem sext_ofNat_byte (v : Nat) : loadExt v 1 true = (BitVec.ofNat 8 v).signExtend 64 := by
  simp [loadExt, sext]
theorem sext_ofNat_half (v : Nat) : loadExt v 2 true = (BitVec.ofNat 16 v).signExtend 64 := by
  simp [loadExt, sext]
theorem sext_ofNat_word (v : Nat) : loadExt v 4 true = (BitVec.ofNat 32 v).signExtend 64 := by
  simp [loadExt, sext]

end Sys2Proof.Machine

namespace Sys2Proof
open Machine

/-- Settles O25: by the rules of a load and a store on the own window (`OwnData.loadAt`, `OwnData.storeAt`). -/
theorem windowData : Obligations.WindowData := by
  unfold Obligations.WindowData
  refine ⟨fun q d a imm s hq => ?_, fun q d a imm s hq hw => ?_⟩
  · intro ea v t x f
    have signed {n : Nat} (h : OwnData s ea n) : loadAt q a imm n (.xreg d n true) s = x (loadExt (v n) n true) := h.loadX d true hq rfl
    have unsigned {n : Nat} (h : OwnData s ea n) : loadAt q a imm n (.xreg d n false) s = x (BitVec.ofNat 64 (v n)) := h.loadX d false hq rfl
    have float {n : Nat} (h : OwnData s ea n) : loadAt q a imm n (.freg d) s = f (BitVec.ofNat 64 (v n)) := h.loadF d hq rfl
    rw [← sext_ofNat_byte, ← sext_ofNat_half, ← sext_ofNat_word]
    exact ⟨fun h => ⟨signed h, unsigned h⟩, fun h => ⟨signed h, unsigned h, float h⟩, fun h => ⟨signed h, unsigned h, float h⟩,
      fun h => ⟨unsigned h, float h⟩⟩
  · intro ea t st
    have x {n : Nat} (h : OwnData s ea n) : storeAt q a imm n (fun s => s.rx d) s = st n (s.rx d) := h.storeAt hw hq rfl
    have f {n : Nat} (h : OwnData s ea n) : storeAt q a imm n (fun s => s.rf d) s = st n (s.rf d) := h.storeAt hw hq rfl
    exact ⟨fun h => x h, fun h => ⟨x h, f h⟩, fun h => ⟨x h, f h⟩, fun h => ⟨x h, f h⟩⟩

end Sys2Proof

namespace Sys2Proof.Machine

/-! ### What a reader sees after a store (O26) -/

theorem coreOf_ownWrite (s : State) (ea : Word) (n v g l : Nat) : (s.ownWrite ea n v).coreOf g l = s.coreOf g l := rfl

/-- A process that is not the one in focus is on another core than the one in focus. -/
theorem coreOf_other {s : State} (hc : Canonical s) (hocc : s.core.occupied = true) {g l c : Nat} (hne : ¬ (g = s.proc.gid ∧ l = s.proc.lid))
    (h : s.coreOf g l = some c) : c ≠ s.here := by
  unfold State.coreOf at h
  rw [if_neg (by
    simp only [hocc, Bool.true_and, Bool.and_eq_true, beq_iff_eq]
    exact fun ⟨hg, hl⟩ => hne ⟨hg.symm, hl.symm⟩)] at h
  obtain ⟨e, he, rfl⟩ := Option.map_eq_some_iff.mp h
  exact hc.apart e (List.mem_of_find?_eq_some he)

theorem window_ownWrite_other {s : State} (hc : Canonical s) (hocc : s.core.occupied = true) (ea : Word) (n v : Nat) {g l : Nat}
    (hne : ¬ (g = s.proc.gid ∧ l = s.proc.lid)) : (s.ownWrite ea n v).window g l = s.window g l := by
  unfold State.window
  rw [coreOf_ownWrite]
  split
  · rename_i c hcore
    have hhere := coreOf_other hc hocc hne hcore
    unfold State.coreAt
    rw [if_neg hhere, if_neg (show c ≠ (s.ownWrite ea n v).here from hhere)]
    rfl
  · rfl

theorem read_one (m : Memory) (a : Nat) : Memory.read m a 1 = (Memory.get m a).toNat := by simp [Memory.read]

end Sys2Proof.Machine

namespace Sys2Proof
open Machine

/-- Settles O26: a place of the own window by `get_write`, of another window by `window_ownWrite_other`; no other memory is written. -/
theorem storesTouchTheirBytes : Obligations.StoresTouchTheirBytes := by
  unfold Obligations.StoresTouchTheirBytes
  intro s ea n v hown hcan p
  cases p with
  | phys a => rfl
  | host c a => rfl
  | mmio c o => rfl
  | win g l o =>
    by_cases hgl : g = s.proc.gid ∧ l = s.proc.lid
    · obtain ⟨rfl, rfl⟩ := hgl
      have hwin : (s.ownWrite ea n v).window s.proc.gid s.proc.lid = Memory.write s.proc.win (ea.toNat % 2 ^ 48) n v :=
        window_own (s := s.ownWrite ea n v) hown.occupied
      change Memory.read ((s.ownWrite ea n v).window s.proc.gid s.proc.lid) o 1 = _
      rw [hwin, read_one, get_write _ _ _ _ hcan.win]
      unfold State.ownBytes
      dsimp only
      by_cases ho : ea.toNat % 2 ^ 48 ≤ o ∧ o < ea.toNat % 2 ^ 48 + n
      · rw [if_pos ho, if_pos ⟨rfl, rfl, ho⟩, BitVec.toNat_ofNat]
        rfl
      · rw [if_neg ho, if_neg (fun h => ho h.2.2)]
        change _ = Memory.read (s.window s.proc.gid s.proc.lid) o 1
        rw [window_own hown.occupied, read_one]
    · have hbytes : s.ownBytes ea n v (.win g l o) = none := if_neg fun h => hgl ⟨h.1, h.2.1⟩
      rw [hbytes]
      exact congrArg (fun m => Memory.read m o 1) (window_ownWrite_other hcan hown.occupied ea n v hgl)

end Sys2Proof

namespace Sys2Proof.Machine

/-! ### Addresses that trap (R24, R68) -/

theorem space_nowhere (s : State) (va : Word) (h0 : va.toNat / 2 ^ 48 ≠ 0) (hE : va.toNat / 2 ^ 48 ≠ 0xFFFE) (hF : va.toNat / 2 ^ 48 ≠ 0xFFFF) :
    s.space va = .bad .page := by
  unfold State.space
  dsimp only
  split
  · contradiction
  · contradiction
  · contradiction
  · rfl

theorem atAddr_misaligned {need : Need} {n : Nat} {ea : Word} {fifo : Bool} {s : State} (k : Place → Bool → Nat → Nat → Out) (h : ea.toNat % n ≠ 0) :
    atAddr need n n ea fifo s k = s.takeTrap .misalign ea := if_pos h

theorem atAddr_bad {need : Need} {n : Nat} {ea : Word} {fifo : Bool} {s : State} {t : Trap} (k : Place → Bool → Nat → Nat → Out) (h : ea.toNat % n = 0)
    (hb : s.space ea = .bad t) : atAddr need n n ea fifo s k = s.takeTrap t ea := by
  unfold atAddr State.resolve
  rw [if_neg (not_not.mpr h), hb]

/-- The instruction goes through alignment and translation of the address `ea` first. -/
structure Checks (o : Out) (s : State) (ea : Word) (n : Nat) : Prop where
  misaligned : ea.toNat % n ≠ 0 → o = s.takeTrap .misalign ea
  bad : ∀ t, ea.toNat % n = 0 → s.space ea = .bad t → o = s.takeTrap t ea

theorem checks_loadAt {q : BitVec 3} {s : State} (hq : s.rp q = true) (a : BitVec 5) (imm : BitVec 10) (n : Nat) (c : Cont) :
    Checks (loadAt q a imm n c s) s (s.rx a + imm.signExtend 64) n :=
  ⟨fun h => (guarded_true hq _).trans (atAddr_misaligned _ h), fun _ h hb => (guarded_true hq _).trans (atAddr_bad _ h hb)⟩

theorem checks_storeAt {q : BitVec 3} {s : State} (hq : s.rp q = true) (a : BitVec 5) (imm : BitVec 10) (n : Nat) (v : State → Word) :
    Checks (storeAt q a imm n v s) s (s.rx a + imm.signExtend 64) n :=
  ⟨fun h => (guarded_true hq _).trans (atAddr_misaligned _ h), fun _ h hb => (guarded_true hq _).trans (atAddr_bad _ h hb)⟩

end Sys2Proof.Machine

namespace Sys2Proof
open Machine

/-- Settles O27: every one of the instructions is a `loadAt` or a `storeAt`, and these check their address first. -/
theorem addressTraps : Obligations.AddressTraps := by
  unfold Obligations.AddressTraps
  intro q d a imm s i n hq hi ea
  have hchecks : Checks (exec i s) s ea n := by
    simp only [List.mem_cons, List.not_mem_nil, or_false, Prod.mk.injEq] at hi
    rcases hi with ⟨rfl, rfl⟩ | ⟨rfl, rfl⟩ | ⟨rfl, rfl⟩ | ⟨rfl, rfl⟩ | ⟨rfl, rfl⟩ | ⟨rfl, rfl⟩ | ⟨rfl, rfl⟩ | ⟨rfl, rfl⟩ | ⟨rfl, rfl⟩ | ⟨rfl, rfl⟩ |
      ⟨rfl, rfl⟩ | ⟨rfl, rfl⟩ | ⟨rfl, rfl⟩ | ⟨rfl, rfl⟩ | ⟨rfl, rfl⟩ | ⟨rfl, rfl⟩ | ⟨rfl, rfl⟩
    · exact checks_loadAt hq a imm 1 (.xreg d 1 true)
    · exact checks_loadAt hq a imm 2 (.xreg d 2 true)
    · exact checks_loadAt hq a imm 4 (.xreg d 4 true)
    · exact checks_loadAt hq a imm 8 (.xreg d 8 false)
    · exact checks_loadAt hq a imm 1 (.xreg d 1 false)
    · exact checks_loadAt hq a imm 2 (.xreg d 2 false)
    · exact checks_loadAt hq a imm 4 (.xreg d 4 false)
    · exact checks_storeAt hq a imm 1 fun s => s.rx d
    · exact checks_storeAt hq a imm 2 fun s => s.rx d
    · exact checks_storeAt hq a imm 4 fun s => s.rx d
    · exact checks_storeAt hq a imm 8 fun s => s.rx d
    · exact checks_loadAt hq a imm 2 (.freg d)
    · exact checks_loadAt hq a imm 4 (.freg d)
    · exact checks_loadAt hq a imm 8 (.freg d)
    · exact checks_storeAt hq a imm 2 fun s => s.rf d
    · exact checks_storeAt hq a imm 4 fun s => s.rf d
    · exact checks_storeAt hq a imm 8 fun s => s.rf d
  exact ⟨hchecks.misaligned, fun hal hwin hoff => hchecks.bad _ hal (space_window s ea hwin hoff),
    fun hal h0 hE hF => hchecks.bad _ hal (space_nowhere s ea h0 hE hF)⟩

end Sys2Proof
end

section
/-! Full/empty accesses, vector accesses and atomics in the own window (R170, R173, R174, R188). -/

namespace Sys2Proof.Machine

/-! ### An LDF that parks (R170, R333) -/

/-- The granule of x6 is empty, and an earlier request of the thread has been sent to core 1. -/
def sentBefore : State := wP (wT fun t => { t.wx 6 adrL with sentTo := some 1 }) fun p => { p with empty := [1023] }

/-- Where the last request of the thread in focus was sent, after an outcome. -/
def sentAfter : Out → Option Nat
  | .next t => t.thr.sentTo
  | _ => none

theorem ldf_forgets_sentTo : sentAfter (execLdf 0 5 6 0 sentBefore) = none := by decide

/-- Refutes O30: an LDF of an empty granule that parks also forgets the core that an earlier request of its thread was sent to. -/
theorem not_fullEmpty : ¬ Obligations.FullEmpty := by
  unfold Obligations.FullEmpty
  intro h
  have hown : OwnData sentBefore (sentBefore.rx 6 + (0#10).signExtend 64) 8 := own_of (by decide)
  obtain ⟨-, hparks, -⟩ := h 0 5 6 0 sentBefore (by decide) ⟨rfl, rfl⟩ rfl hown
  have hforgets := ldf_forgets_sentTo
  rw [show execLdf 0 5 6 0 sentBefore = _ from (hparks (by decide)).1] at hforgets
  exact absurd hforgets (by decide)

end Sys2Proof.Machine
end

section
namespace Sys2Proof.Machine

/-! ### The parts of the state that a reader of memory sees -/

/-- What memory holds, and where, is the same in two states. -/
structure KeepsData (s t : State) : Prop where
  mem : t.mem = s.mem
  mbind : t.module.mbind = s.module.mbind
  others : t.others = s.others
  here : t.here = s.here
  occupied : t.core.occupied = s.core.occupied
  gid : t.proc.gid = s.proc.gid
  lid : t.proc.lid = s.proc.lid
  win : t.proc.win = s.proc.win

theorem KeepsData.rfl' (s : State) : KeepsData s s := ⟨rfl, rfl, rfl, rfl, rfl, rfl, rfl, rfl⟩

theorem KeepsData.trans {s t u : State} (h : KeepsData s t) (k : KeepsData t u) : KeepsData s u :=
  ⟨k.mem.trans h.mem, k.mbind.trans h.mbind, k.others.trans h.others, k.here.trans h.here, k.occupied.trans h.occupied,
    k.gid.trans h.gid, k.lid.trans h.lid, k.win.trans h.win⟩

theorem keepsData_setThr (s : State) (t : Thread) : KeepsData s (s.setThr t) := ⟨rfl, rfl, rfl, rfl, rfl, rfl, rfl, rfl⟩

theorem KeepsData.setThr {s t : State} (h : KeepsData s t) (x : Thread) : KeepsData s (t.setThr x) := h.trans (keepsData_setThr t x)

theorem KeepsData.setProc {s t : State} (h : KeepsData s t) (p : Proc) (hg : p.gid = t.proc.gid) (hl : p.lid = t.proc.lid)
    (hw : p.win = t.proc.win) : KeepsData s (t.setProc p) :=
  h.trans ⟨rfl, rfl, rfl, rfl, rfl, hg, hl, hw⟩

theorem KeepsData.sigSlots {s t : State} (h : KeepsData s t) (l : List SigSlot) : KeepsData s { t with sigSlots := l } :=
  h.trans ⟨rfl, rfl, rfl, rfl, rfl, rfl, rfl, rfl⟩

theorem KeepsData.coreOf {s t : State} (h : KeepsData s t) (g l : Nat) : t.coreOf g l = s.coreOf g l := by
  unfold State.coreOf
  rw [h.others, h.here, h.occupied, show t.core.proc.gid = s.core.proc.gid from h.gid, show t.core.proc.lid = s.core.proc.lid from h.lid]

theorem KeepsData.window {s t : State} (h : KeepsData s t) (g l : Nat) : t.window g l = s.window g l := by
  unfold State.window
  rw [h.coreOf]
  split
  · rename_i c _
    unfold State.coreAt
    rw [h.here, h.others]
    split
    · exact h.win
    · rfl
  · rfl

theorem KeepsData.peek {s t : State} (h : KeepsData s t) (p : Place) (n : Nat) : t.peek p n = s.peek p n := by
  unfold State.peek
  cases p with
  | phys a => rw [h.mem]
  | host c a => rw [h.mem]
  | win g l o => exact congrArg (fun m => Memory.read m o n) (h.window g l)
  | mmio c o => rw [h.mbind]

/-! ### Signature slots (R166) -/

theorem keepsData_touchSlot (s : State) (w : Place) : KeepsData s (s.touchSlot w) := by
  unfold State.touchSlot
  split
  · exact (KeepsData.rfl' s).sigSlots _
  · exact KeepsData.rfl' s

theorem keepsData_setSlot (s : State) (w : Place) (g : Sig) : KeepsData s (s.setSlot w g) := by
  unfold State.setSlot State.trimSlots
  dsimp only
  split
  · exact (KeepsData.rfl' s).sigSlots _
  · exact (KeepsData.rfl' s).sigSlots _

/-! ### Releases and acquires with an empty cluster cache (R165, R167) -/

/-- No line is in the cache of the cluster in focus, and no store of the process to another module is unacknowledged. -/
structure Quiet (s : State) : Prop where
  lines : (s.clusterAt (clusterOf s.here)).lines = []
  remote : s.proc.remoteStores = 0

theorem Quiet.setProc {s : State} (h : Quiet s) (p : Proc) (hr : p.remoteStores = s.proc.remoteStores) : Quiet (s.setProc p) :=
  ⟨h.lines, hr.trans h.remote⟩

theorem writeBackAll_empty {s : State} {cl : Nat} (h : (s.clusterAt cl).lines = []) (sel : CacheLine → Bool) (drop : Bool) :
    s.writeBackAll cl sel drop = .done s false := by
  unfold State.writeBackAll
  rw [h]
  rfl

theorem not_waitsRemote {s : State} (h : s.proc.remoteStores = 0) (g : Sig) : s.waitsRemote g = false := by
  unfold State.waitsRemote
  rw [h]
  rfl

/-- An acquire with an empty cache clears R and enters the signature. -/
theorem Quiet.acquireSteps {s : State} (h : Quiet s) (g : Sig) :
    s.acquireSteps g = .ok (s.setProc (Proc.enterSig { s.proc with sigR := {} } g)) := by
  unfold State.acquireSteps
  dsimp only
  rw [writeBackAll_empty h.lines, h.lines]
  dsimp only [List.filter]
  rw [if_neg (by rw [h.remote]; simp)]

/-- The state with the snapshot counter of its process at `k`. -/
def State.stampedAt (s : State) (k : Nat) : State := s.setProc { s.proc with wStamp := k }

/-- A release with an empty cache takes its snapshot at once. -/
theorem Quiet.releaseSteps {s : State} (h : Quiet s) (hrel : s.thr.rel = none) (hq : s.thr.storeQ = []) :
    s.releaseSteps = .ok (s.stampedAt (s.proc.wStamp + 1)) s.proc.wSig s.proc.wStamp := by
  unfold State.releaseSteps State.stampedAt
  rw [hrel]
  dsimp only
  rw [if_neg (not_not.mpr hq)]
  unfold Proc.snapshot
  dsimp only
  have hnothing (p : Proc) (sel : CacheLine → Bool) : (s.setProc p).writeBackAll (clusterOf s.here) sel false = .done (s.setProc p) false :=
    writeBackAll_empty (s := s.setProc p) h.lines sel false
  rw [hnothing, h.lines]
  dsimp only [List.filter]
  rw [not_waitsRemote (by exact h.remote), if_neg (by decide)]

/-- A release whose snapshot has been taken goes on where nothing is awaited from other modules. -/
theorem Quiet.releaseSteps_kept {s : State} (h : Quiet s) {g : Sig} {st : Nat} (hrel : s.thr.rel = some (g, st)) : s.releaseSteps = .ok s g st := by
  unfold State.releaseSteps
  rw [hrel]
  dsimp only
  rw [not_waitsRemote h.remote, if_neg (by decide)]

/-- What the entering of a signature leaves of a process. -/
theorem enterSig_parts (p : Proc) (g : Sig) : (p.enterSig g).gid = p.gid ∧ (p.enterSig g).lid = p.lid ∧ (p.enterSig g).win = p.win ∧
    (p.enterSig g).sigR = p.sigR := by
  have hfold (l : List Nat) : ∀ p : Proc, (l.foldl Proc.enterW p).gid = p.gid ∧ (l.foldl Proc.enterW p).lid = p.lid ∧
      (l.foldl Proc.enterW p).win = p.win ∧ (l.foldl Proc.enterW p).sigR = p.sigR := by
    induction l with
    | nil => exact fun p => ⟨rfl, rfl, rfl, rfl⟩
    | cons a l ih => exact fun p => ih (p.enterW a)
  unfold Proc.enterSig
  dsimp only
  split
  · exact hfold g.lines p
  · exact hfold g.lines p

theorem KeepsData.acquired {s t : State} (h : KeepsData s t) (g : Sig) : KeepsData s (t.setProc (Proc.enterSig { t.proc with sigR := {} } g)) := by
  obtain ⟨hg, hl, hw, -⟩ := enterSig_parts { t.proc with sigR := {} } g
  exact h.setProc _ hg hl hw

theorem KeepsData.endRelease {s t : State} (h : KeepsData s t) (g : Sig) (st : Nat) : KeepsData s (t.endRelease g st) :=
  h.setProc _ rfl rfl rfl

theorem flushUnit_uncached (s : State) (p : Place) : s.flushUnit p false = .ok s := rfl

/-! ### Atomics (R188-R192) -/

theorem OwnData.unitHere {s : State} {va : Word} {n : Nat} (h : OwnData s va n) : s.unitAway (s.ownPlace va) = none := by
  have hunits : (s.ownPlace va).align 16 ∈ unitsOf (s.ownPlace va) n := by
    refine List.mem_map.mpr ⟨0, List.mem_range.mpr ?_, ?_⟩
    · have := h.bytes
      unfold State.ownPlace
      dsimp only
      lia
    · rfl
  have hnone := List.find?_eq_none.mp h.home _ hunits
  rw [Option.not_isSome_iff_eq_none] at hnone
  unfold State.unitAway at hnone ⊢
  rw [show ((s.ownPlace va).align 16).align 16 = (s.ownPlace va).align 16 by
    unfold State.ownPlace Place.align
    dsimp only
    rw [Nat.sub_mod_eq_zero_of_mod_eq (Nat.mod_mod ..).symm, Nat.sub_zero]] at hnone
  exact hnone

/-- The end of an atomic with an empty cache: its thread takes the old value. -/
theorem Quiet.amoEnd {s : State} (h : Quiet s) (r : AmoReq) (g : Option Sig) (old : Nat) (fl : FFlags) :
    ∃ t, s.amoEnd r g old fl = .ok (t.setThr (s.thr.amoResult r.op r.n r.d old fl.toNat)) ∧ KeepsData s t ∧
      t.core.slots = s.core.slots ∧ t.slot = s.slot := by
  obtain ⟨s1, hs1, hkeeps, hquiet, hslots, hslot, hthr⟩ : ∃ s1, (if ordRel r.ord = true then s.endRelease r.sig r.stamp else s) = s1 ∧
      KeepsData s s1 ∧ Quiet s1 ∧ s1.core.slots = s.core.slots ∧ s1.slot = s.slot ∧ s1.thr = s.thr := by
    split
    · exact ⟨_, rfl, (KeepsData.rfl' s).endRelease _ _, h.setProc _ rfl, rfl, rfl, rfl⟩
    · exact ⟨_, rfl, KeepsData.rfl' s, h, rfl, rfl, rfl⟩
  unfold State.amoEnd
  dsimp only
  rw [hs1]
  split
  · rw [hquiet.acquireSteps]
    exact ⟨_, by dsimp only; rw [thr_setProc, hthr], hkeeps.acquired _, hslots, hslot⟩
  · exact ⟨s1, by rw [hthr], hkeeps, hslots, hslot⟩

/-- The slot of a word after an atomic: touched, released into, or neither. -/
theorem keepsData_releaseSlot (s : State) (w : Place) (g : Sig) : KeepsData s (s.releaseSlot w g) := by
  unfold State.releaseSlot
  split
  · exact keepsData_setSlot s w _
  · exact keepsData_setSlot s w _

/-- The slot of a word changed, and nothing else of the state. -/
theorem setSlot_changes_sigSlots (s : State) (w : Place) (g : Sig) : s.setSlot w g = { s with sigSlots := (s.setSlot w g).sigSlots } := by
  unfold State.setSlot State.trimSlots
  dsimp only
  split <;> rfl

theorem releaseSlot_changes_sigSlots (s : State) (w : Place) (g : Sig) : s.releaseSlot w g = { s with sigSlots := (s.releaseSlot w g).sigSlots } := by
  unfold State.releaseSlot
  split
  · exact setSlot_changes_sigSlots s w _
  · exact setSlot_changes_sigSlots s w _

theorem touchSlot_changes_sigSlots (s : State) (w : Place) : s.touchSlot w = { s with sigSlots := (s.touchSlot w).sigSlots } := by
  unfold State.touchSlot
  split <;> rfl

/-- An atomic on the own window, performed in its turn (R188). -/
theorem OwnData.amoHere {s : State} {va : Word} {n : Nat} (h : OwnData s va n) (hw : PlainWrites s) (hquiet : Quiet s) {r : AmoReq}
    (hp : r.place = s.ownPlace va) (hn : r.n = n) :
    ∃ t, s.amoHere r = .next (t.setThr (s.thr.amoResult r.op n r.d (Memory.read s.proc.win (va.toNat % 2 ^ 48) n)
        (r.compute (Memory.read s.proc.win (va.toNat % 2 ^ 48) n)).2.toNat).retired) ∧
      KeepsData (s.ownWrite va n (r.compute (Memory.read s.proc.win (va.toNat % 2 ^ 48) n)).1) t := by
  unfold State.amoHere
  rw [hp, hn, h.sound, if_neg (by decide), h.peek]
  dsimp only
  rw [PlainWrites.homeWrite h hw]
  generalize Memory.read s.proc.win (va.toNat % 2 ^ 48) n = old
  obtain ⟨s2, hs2, hslots⟩ : ∃ s2, (if ordRel r.ord = true then (s.ownWrite va n (r.compute old).1).releaseSlot (sigWord (s.ownPlace va)) r.sig
      else if ordAcq r.ord = true then (s.ownWrite va n (r.compute old).1).touchSlot (sigWord (s.ownPlace va)) else s.ownWrite va n (r.compute old).1) = s2 ∧
      s2 = { s.ownWrite va n (r.compute old).1 with sigSlots := s2.sigSlots } := by
    refine ⟨_, rfl, ?_⟩
    split
    · exact releaseSlot_changes_sigSlots ..
    · split
      · exact touchSlot_changes_sigSlots ..
      · rfl
  have hthr : s2.thr = s.thr := by rw [hslots]; rfl
  have hquiet2 : Quiet s2 := by rw [hslots]; exact ⟨hquiet.lines, hquiet.remote⟩
  obtain ⟨t, hend, hkeeps, -, -⟩ := hquiet2.amoEnd r ((s.ownWrite va n (r.compute old).1).foundSig (sigWord (s.ownPlace va))) old (r.compute old).2
  refine ⟨t, ?_, KeepsData.trans ?_ hkeeps⟩
  · rw [hs2, hend]
    dsimp only
    rw [State.retire, thr_setThr, setThr_setThr, hthr, hn]
  · rw [hslots]
    exact (KeepsData.rfl' _).sigSlots _

theorem stampedAt_self (s : State) : s.stampedAt s.proc.wStamp = s := rfl

theorem OwnData.stamped {s : State} {va : Word} {n : Nat} (h : OwnData s va n) (k : Nat) : OwnData (s.stampedAt k) va n :=
  ⟨h.occupied, h.alive, h.window, h.inside, h.bytes, h.aligned, h.noStores, h.home, h.sound⟩

theorem Quiet.stamped {s : State} (h : Quiet s) (k : Nat) : Quiet (s.stampedAt k) := ⟨h.lines, h.remote⟩

theorem keepsData_stamped (s : State) (va : Word) (n v k : Nat) : KeepsData (s.ownWrite va n v) ((s.stampedAt k).ownWrite va n v) :=
  ⟨rfl, rfl, rfl, rfl, rfl, rfl, rfl, rfl⟩

/-- The state in which an atomic goes to its place: its snapshot taken, now or before. -/
theorem Quiet.released {s : State} (h : Quiet s) (hq : s.thr.storeQ = []) : ∃ k g st, s.releaseSteps = .ok (s.stampedAt k) g st := by
  rcases hrel : s.thr.rel with - | ⟨g, st⟩
  · exact ⟨_, _, _, h.releaseSteps hrel hq⟩
  · exact ⟨s.proc.wStamp, g, st, h.releaseSteps_kept hrel⟩

/-- An atomic instruction on the own window (R188-R192). -/
theorem OwnData.amo {s : State} {n : Nat} {q : BitVec 3} {ord : BitVec 2} {d a : BitVec 5} {v cmp : State → Nat} (op : Nat) (h : OwnData s (s.rx a) n)
    (hw : PlainWrites s) (hquiet : Quiet s) (hq : s.rp q = true) (hready : s.thr.ready = 0) {old : Nat}
    (hold : Memory.read s.proc.win ((s.rx a).toNat % 2 ^ 48) n = old) {r : AmoReq} (hr : r.op = op ∧ r.n = n ∧ r.v = v s ∧ r.cmp = cmp s) :
    ∃ t, amo op n ord d a v cmp q s = .next (t.setThr (s.thr.amoResult op n d old (r.compute old).2.toNat).retired) ∧
      KeepsData (s.ownWrite (s.rx a) n (r.compute old).1) t := by
  obtain ⟨hop, hn, hv, hcmp⟩ := hr
  have hgo (s1 : State) (k : Nat) (hs1 : s1 = s.stampedAt k) (r1 : AmoReq) (hp : r1.place = s.ownPlace (s.rx a)) (hop1 : r1.op = op) (hn1 : r1.n = n)
      (hv1 : r1.v = v s) (hcmp1 : r1.cmp = cmp s) (hd : r1.d = d) : ∃ t, s1.amoHere r1 =
        .next (t.setThr (s.thr.amoResult op n d old (r.compute old).2.toNat).retired) ∧ KeepsData (s.ownWrite (s.rx a) n (r.compute old).1) t := by
    subst hs1
    have hsame : r1.compute old = r.compute old := by
      unfold AmoReq.compute
      rw [hop, hn, hv, hcmp, hop1, hn1, hv1, hcmp1]
    obtain ⟨t, hexec, hkeeps⟩ := (h.stamped k).amoHere ⟨hw.noWatch, hw.noError⟩ (hquiet.stamped k) hp hn1
    rw [show Memory.read (s.stampedAt k).proc.win ((s.rx a).toNat % 2 ^ 48) n = old from hold, hsame] at hexec hkeeps
    rw [hop1, hd] at hexec
    exact ⟨t, hexec, (keepsData_stamped s _ _ _ k).trans hkeeps⟩
  have hlocal (s1 : State) (k : Nat) (hs1 : s1 = s.stampedAt k) : (s1.isLocal (s.ownPlace (s.rx a)) && (s1.unitAway (s.ownPlace (s.rx a))).isNone) = true := by
    rw [hs1, Bool.and_eq_true, Option.isNone_iff_eq_none]
    exact ⟨(h.stamped k).isLocal, (h.stamped k).unitHere⟩
  unfold Machine.amo
  rw [guarded_true hq]
  dsimp only
  rw [if_neg (by rw [hready]; decide), h.atAddr, if_neg (by simp), if_neg (not_not.mpr h.noStores)]
  split
  · obtain ⟨k, g, st, hrel⟩ := hquiet.released h.noStores
    rw [hrel]
    dsimp only
    rw [flushUnit_uncached]
    dsimp only
    rw [if_pos (hlocal _ k rfl)]
    exact hgo _ k rfl _ rfl rfl rfl rfl rfl rfl
  · rw [flushUnit_uncached]
    dsimp only
    rw [if_pos (hlocal s s.proc.wStamp rfl)]
    exact hgo s s.proc.wStamp rfl _ rfl rfl rfl rfl rfl rfl


theorem ownBytes_mod (s : State) (va : Word) (n v : Nat) (p : Place) : s.ownBytes va n (v % 256 ^ n) p = s.ownBytes va n v p := by
  cases p with
  | win g l o =>
    unfold State.ownBytes
    dsimp only
    split
    · rename_i h
      obtain ⟨-, -, hlow, hhigh⟩ := h
      obtain ⟨k, hk⟩ : ∃ k, n = (o - va.toNat % 2 ^ 48) + 1 + k := ⟨n - (o - va.toNat % 2 ^ 48) - 1, by omega⟩
      generalize o - va.toNat % 2 ^ 48 = j at hk ⊢
      rw [hk, pow_add, pow_add, pow_one, mul_assoc, Nat.mod_mul_right_div_self, Nat.mod_mul_right_mod]
    · rfl
  | phys a => rfl
  | host c a => rfl
  | mmio c o => rfl

/-! ### A thread that retires -/

@[simp] theorem x_retired (t : Thread) : t.retired.x = t.x := by simp [Thread.retired, Thread.issued]
@[simp] theorem f_retired (t : Thread) : t.retired.f = t.f := by simp [Thread.retired, Thread.issued]
@[simp] theorem fpctl_retired (t : Thread) : t.retired.fpctl = t.fpctl := by simp [Thread.retired, Thread.issued]

theorem retired_pc_congr {t u : Thread} (hpc : t.pc = u.pc) (hframe : t.frame = u.frame) : t.retired.pc = u.retired.pc := by
  unfold Thread.retired Thread.advance Thread.issued
  dsimp only
  rw [hframe, hpc]
  split
  · rfl
  · split
    · rfl
    · split <;> rfl

/-- What an atomic does to its thread beside its x registers and flags. -/
theorem amoResult_parts (t : Thread) (op n : Nat) (d : BitVec 5) (old fl : Nat) :
    (t.amoResult op n d old fl).pc = t.pc ∧ (t.amoResult op n d old fl).frame = t.frame ∧ (t.amoResult op n d old fl).f = t.f ∧
      (t.amoResult op n d old fl).fpctl = (t.flag (BitVec.ofNat 5 fl)).fpctl := by
  unfold Thread.amoResult
  dsimp only
  split <;> simp [Thread.flag]

theorem flag_zero (t : Thread) : t.flag 0 = t := by simp [Thread.flag]

/-! ### The operations of Table 8.2 -/

/-- The number of bytes of an atomic of Table 8.2 is positive. -/
theorem amoSize_cases (sz : BitVec 1) : (sz = 1#1 ∧ amoSize sz = 8) ∨ (sz ≠ 1#1 ∧ amoSize sz = 4) := by
  unfold amoSize
  by_cases h : sz = 1#1
  · exact Or.inl ⟨h, if_pos h⟩
  · exact Or.inr ⟨h, if_neg h⟩

/-- The old value as an atomic of Table 8.2 delivers it. -/
theorem amoResult_old (t : Thread) (op : Nat) (hop : op ≠ 9 ∧ op ≠ 11) (sz : BitVec 1) (d : BitVec 5) (old : Nat) :
    t.amoResult op (amoSize sz) d old 0 = t.wx d (if sz = 1#1 then BitVec.ofNat 64 old else (BitVec.ofNat 32 old).signExtend 64) := by
  unfold Thread.amoResult
  dsimp only
  rw [if_neg hop.2, show (BitVec.ofNat 5 0) = 0 from rfl, flag_zero]
  obtain ⟨h, hn⟩ | ⟨h, hn⟩ := amoSize_cases sz
  · rw [hn, if_pos h]
    rfl
  · rw [hn, if_neg h, ← sext_ofNat_word]
    simp [bne_iff_ne.mpr hop.1]

/-- An operation of Table 8.2 on `n` bytes with its operands. -/
def amoOp (op n v cmp : Nat) : AmoReq := { (default : AmoReq) with op := op, n := n, v := v, cmp := cmp }

/-- What an atomic of Table 8.2 leaves: the old value in X[d], and the word changed. -/
def AmoLeaves (s t : State) (d : BitVec 5) (va ext : Word) (n new : Nat) : Prop :=
  t.thr.pc = s.thr.retired.pc ∧ (∀ r, t.rx r = (s.thr.wx d ext).rx r) ∧ t.thr.f = s.thr.f ∧ t.thr.fpctl = s.thr.fpctl ∧
    ∀ p : Place, t.peek p 1 = (s.ownBytes va n new p).getD (s.peek p 1)

theorem KeepsData.ownBytes {s t : State} {va : Word} {n v : Nat} (h : KeepsData (s.ownWrite va n v) t) (hown : OwnData s va n) (hcan : Canonical s) (p : Place) :
    t.peek p 1 = (s.ownBytes va n v p).getD (s.peek p 1) :=
  (h.peek p 1).trans (storesTouchTheirBytes s va n v hown hcan p)

/-- An atomic of Table 8.2 with one register operand, on the own window. -/
theorem OwnData.amo1 {s : State} {q : BitVec 3} {sz : BitVec 1} {ord : BitVec 2} {d a b : BitVec 5} (op : Nat) (h : OwnData s (s.rx a) (amoSize sz))
    (hw : PlainWrites s) (hcan : Canonical s) (hquiet : Quiet s) (hq : s.rp q = true) (hready : s.thr.ready = 0) (hop : op ≠ 9 ∧ op ≠ 11) {old new : Nat}
    (hold : Memory.read s.proc.win ((s.rx a).toNat % 2 ^ 48) (amoSize sz) = old)
    (hnew : (amoOp op (amoSize sz) ((s.rx b).toNat % 256 ^ amoSize sz) ((s.rx d).toNat % 256 ^ amoSize sz)).compute old = (new, 0) ∨
      (amoOp op (amoSize sz) ((s.rx b).toNat % 256 ^ amoSize sz) ((s.rx d).toNat % 256 ^ amoSize sz)).compute old = (new % 256 ^ amoSize sz, 0)) :
    Yields (amo1 op q sz ord d a b s) fun t =>
      AmoLeaves s t d (s.rx a) (if sz = 1#1 then BitVec.ofNat 64 old else (BitVec.ofNat 32 old).signExtend 64) (amoSize sz) new := by
  obtain ⟨t, hexec, hkeeps⟩ := h.amo (d := d) (ord := ord) (v := fun s => (s.rx b).toNat % 256 ^ amoSize sz)
    (cmp := fun s => (s.rx d).toNat % 256 ^ amoSize sz) op hw hquiet hq hready hold
    (r := amoOp op (amoSize sz) ((s.rx b).toNat % 256 ^ amoSize sz) ((s.rx d).toNat % 256 ^ amoSize sz)) ⟨rfl, rfl, rfl, rfl⟩
  have hfl : ((amoOp op (amoSize sz) ((s.rx b).toNat % 256 ^ amoSize sz) ((s.rx d).toNat % 256 ^ amoSize sz)).compute old).2.toNat = 0 := by
    obtain h | h := hnew <;> rw [h] <;> rfl
  have hkeeps : KeepsData (s.ownWrite (s.rx a) (amoSize sz) new) t := by
    obtain h | h := hnew
    · rwa [h] at hkeeps
    · rwa [h, ownWrite_mod] at hkeeps
  rw [hfl, amoResult_old _ op hop] at hexec
  refine ⟨_, hexec, ?_, ?_, ?_, ?_, (hkeeps.setThr _).ownBytes h hcan⟩
  · rw [thr_setThr]
    exact retired_pc_congr (pc_wx ..) (frame_wx ..)
  · exact fun r => rx_congr (by rw [thr_setThr, x_retired]) r
  · rw [thr_setThr, f_retired, f_wx]
  · rw [thr_setThr, fpctl_retired, fpctl_wx]

theorem two_pow_bytes (n : Nat) : 2 ^ (8 * n) = 256 ^ n := pow_mul 2 8 n

/-- The signed value of a word of `n` bytes, with the half of its range. -/
theorem two_mul_half {n : Nat} (h : 0 < n) : 2 * 2 ^ (8 * n - 1) = 2 ^ (8 * n) := by
  rw [← pow_succ', Nat.sub_add_cancel (by lia)]

theorem amoSize_pos (sz : BitVec 1) : 0 < amoSize sz := by
  obtain ⟨-, h⟩ | ⟨-, h⟩ := amoSize_cases sz <;> rw [h] <;> decide

theorem x_wx_congr {t u : Thread} (h : t.x = u.x) (d : BitVec 5) (v : Word) : (t.wx d v).x = (u.wx d v).x := by
  unfold Thread.wx
  split
  · exact h
  · exact congrArg (fun x : Vector Word 32 => x.set d.toNat v d.isLt) h

theorem compute_cas2 (v cmp old : Nat) : (amoOp 11 16 v cmp).compute old = (if old = cmp then v else old, 0) := rfl

/-- AFADD delivers the old bits, and ACAS2 the two halves of the old 16 bytes. -/
theorem x_amoResult_fadd (t : Thread) (n : Nat) (d : BitVec 5) (old fl : Nat) : (t.amoResult 9 n d old fl).x = (t.wx d (BitVec.ofNat 64 old)).x := by
  unfold Thread.amoResult
  dsimp only
  rw [if_neg (by decide), show (n == 4 && (9 : Nat) != 9) = false from Bool.and_false _]
  exact x_wx_congr (x_flag t _) d _

theorem x_amoResult_cas2 (t : Thread) (n : Nat) (d : BitVec 5) (old fl : Nat) :
    (t.amoResult 11 n d old fl).x = ((t.wx d (BitVec.ofNat 64 old)).wx (d + 1#5) (BitVec.ofNat 64 (old / 2 ^ 64))).x :=
  x_wx_congr (x_wx_congr (x_flag t _) d _) _ _

/-- The even register of a pair, and the odd one. -/
theorem pair_odd (r : BitVec 4) : (r ++ 0#1) + 1#5 = r ++ 1#1 := by
  revert r
  decide

end Sys2Proof.Machine

namespace Sys2Proof
open Machine

/-- Settles O32: every atomic is an `amo` on the own window (`OwnData.amo`), and its operation is a case of `AmoReq.compute`. -/
theorem atomics : Obligations.Atomics := by
  unfold Obligations.Atomics
  refine ⟨fun q sz ord d a b s hq hready => ?_, fun q sz ord d a b dp bp s hq hready => ?_⟩
  · intro n ea old v half sg ext becomes hown hw hcan hlines hremote
    have op {new : Nat} (k : Nat) (hk : k ≠ 9 ∧ k ≠ 11) (hnew : (amoOp k n v ((s.rx d).toNat % 256 ^ n)).compute old = (new, 0) ∨
        (amoOp k n v ((s.rx d).toNat % 256 ^ n)).compute old = (new % 256 ^ n, 0)) :
        Yields (amo1 k q sz ord d a b s) fun t => AmoLeaves s t d ea ext n new :=
      OwnData.amo1 k hown hw hcan ⟨hlines, hremote⟩ hq hready hk rfl hnew
    have hsg : (fun u : Nat => if u < 2 ^ (8 * n - 1) then (u : Int) else (u : Int) - 2 ^ (8 * n)) = sg := by
      funext u
      change _ = if u < half then (u : Int) else (u : Int) - 2 * half
      rw [show (2 : Int) ^ (8 * n) = 2 * half by exact_mod_cast (two_mul_half (amoSize_pos sz)).symm]
    refine ⟨op 0 (by decide) (Or.inr ?_), op 1 (by decide) (Or.inl rfl), op 2 (by decide) (Or.inl rfl), op 3 (by decide) (Or.inl rfl),
      op 4 (by decide) (Or.inl ?_), op 5 (by decide) (Or.inl ?_), op 6 (by decide) (Or.inl ?_), op 7 (by decide) (Or.inl ?_),
      op 8 (by decide) (Or.inl rfl), op 10 (by decide) (Or.inl rfl)⟩
    · change ((old + v) % 2 ^ (8 * n), _) = _
      rw [two_pow_bytes]
    · rw [← hsg]
      rfl
    · rw [← hsg]
      rfl
    · change (if old ≤ v then old else v, _) = _
      rw [Nat.min_def]
    · change (if old ≤ v then v else old, _) = _
      rw [Nat.max_def]
  · intro n ea old sum lo hi pair hw hcan hlines hremote
    refine ⟨fun hown => ?_, fun hown => ?_⟩
    · obtain ⟨t, hexec, hkeeps⟩ := OwnData.amo (q := q) (d := d) (ord := ord) (v := fun s => (s.rx b).toNat % 256 ^ amoSize sz)
        (cmp := fun s => (s.rx d).toNat % 256 ^ amoSize sz) 9 hown hw ⟨hlines, hremote⟩ hq hready rfl
        (r := amoOp 9 n ((s.rx b).toNat % 256 ^ n) ((s.rx d).toNat % 256 ^ n)) ⟨rfl, rfl, rfl, rfl⟩
      have hsum : (amoOp 9 n ((s.rx b).toNat % 256 ^ n) ((s.rx d).toNat % 256 ^ n)).compute (old n) = sum := by
        change (if n = 4 then fp32 else fp64).add 0 false false (old n) ((s.rx b).toNat % 256 ^ n) = sum
        obtain ⟨h, hn⟩ | ⟨h, hn⟩ := amoSize_cases sz
        · rw [if_neg (by rw [show n = 8 from hn]; decide), ← show (if sz = 1#1 then fp64 else fp32) = fp64 from if_pos h]
        · rw [if_pos (show n = 4 from hn), ← show (if sz = 1#1 then fp64 else fp32) = fp32 from if_neg h]
      rw [hsum] at hexec hkeeps
      refine ⟨_, hexec, fun r => ?_, ?_, (hkeeps.setThr _).ownBytes hown hcan⟩
      · refine rx_congr ?_ r
        rw [thr_setThr, x_retired]
        exact x_amoResult_fadd ..
      · rw [thr_setThr, fpctl_retired]
        exact (amoResult_parts ..).2.2.2
    · obtain ⟨t, hexec, hkeeps⟩ := OwnData.amo (q := q) (d := lo dp) (ord := ord) (v := fun s => s.pair bp) (cmp := fun s => s.pair dp) 11 hown hw
        ⟨hlines, hremote⟩ hq hready (old := old 16) rfl (r := amoOp 11 16 (pair bp) (pair dp)) ⟨rfl, rfl, rfl, rfl⟩
      rw [compute_cas2] at hexec hkeeps
      dsimp only at hkeeps
      have hbytes (x : Thread) := (hkeeps.setThr x).ownBytes hown hcan
      refine ⟨_, hexec, fun r => ?_, hbytes _⟩
      refine rx_congr ?_ r
      rw [thr_setThr, x_retired, x_amoResult_cas2, show lo dp + 1#5 = hi dp from pair_odd dp]

end Sys2Proof
end

section
/-! Ordering and cache hints (R165-R167, R177-R180). -/

namespace Sys2Proof.Machine

/-! ### States that differ in what is due alone -/

/-- `t` is `s` with more events due. -/
def MoreDue (s t : State) : Prop := ∃ l, (∀ e ∈ s.agenda, e ∈ l) ∧ t = { s with agenda := l }

theorem MoreDue.refl (s : State) : MoreDue s s := ⟨s.agenda, fun _ he => he, rfl⟩

theorem MoreDue.trans {s t u : State} (h : MoreDue s t) (h' : MoreDue t u) : MoreDue s u := by
  obtain ⟨l, hl, rfl⟩ := h
  obtain ⟨l', hl', rfl⟩ := h'
  exact ⟨l', fun e he => hl' e (hl e he), rfl⟩

theorem mem_agendaFirst (l : List (Nat × Instr)) (c : Nat) (e : Instr) (x : Nat × Instr) : x ∈ l → x ∈ agendaFirst l c e := by
  induction l with
  | nil => exact fun h => absurd h List.not_mem_nil
  | cons y l ih =>
    intro hx
    unfold agendaFirst
    split
    · exact List.mem_cons_of_mem _ hx
    · rcases List.mem_cons.mp hx with rfl | hx
      · exact List.mem_cons_self
      · exact List.mem_cons_of_mem _ (ih hx)

theorem moreDue_after (s : State) (n : Nat) (e : Instr) : MoreDue s (s.after n e) :=
  ⟨_, fun x hx => (mem_agendaPut _ _ _ x).mpr (Or.inr hx), rfl⟩

theorem moreDue_afterOnce (s : State) (n : Nat) (e : Instr) : MoreDue s (s.afterOnce n e) := by
  unfold State.afterOnce
  split
  · exact .refl s
  · exact moreDue_after s n e

theorem moreDue_askDispatch (s : State) (n gid lid : Nat) : MoreDue s (s.askDispatch n gid lid) := by
  unfold State.askDispatch
  dsimp only
  split
  · exact .refl s
  · exact ⟨_, mem_agendaFirst _ _ _, rfl⟩

theorem moreDue_ite {s : State} (c : Prop) [Decidable c] {t u : State} (ht : MoreDue s t) (hu : MoreDue s u) : MoreDue s (if c then t else u) := by
  split
  · exact ht
  · exact hu

theorem moreDue_foldl {α : Type} (f : State → α → State) (h : ∀ s a, MoreDue s (f s a)) (l : List α) (s : State) : MoreDue s (l.foldl f s) := by
  induction l generalizing s with
  | nil => exact .refl s
  | cons a l ih => exact (h s a).trans (ih _)

/-! ### What leaves every thread as it is -/

/-- A process is the same one, as its group, its channels and its moves know it. -/
structure SameWho (p q : Proc) : Prop where
  gid : q.gid = p.gid := by rfl
  lid : q.lid = p.lid := by rfl
  mc : q.mc = p.mc := by rfl
  plbase : q.plbase = p.plbase := by rfl

theorem SameWho.trans {p q r : Proc} (h : SameWho p q) (h' : SameWho q r) : SameWho p r :=
  ⟨h'.gid.trans h.gid, h'.lid.trans h.lid, h'.mc.trans h.mc, h'.plbase.trans h.plbase⟩

/-- No byte of a process's window has changed, nor what has still to land in it. -/
structure WindowKept (p q : Proc) : Prop where
  win : q.win = p.win := by rfl
  held : q.held = p.held := by rfl
  spilled : q.spilled = p.spilled := by rfl
  copies : q.copies = p.copies := by rfl
  stream : q.stream = p.stream := by rfl

theorem WindowKept.trans {p q r : Proc} (h : WindowKept p q) (h' : WindowKept q r) : WindowKept p r :=
  ⟨h'.win.trans h.win, h'.held.trans h.held, h'.spilled.trans h.spilled, h'.copies.trans h.copies, h'.stream.trans h.stream⟩

/-- The moves, the annealer units and the groups are the same. -/
structure Fixed (s t : State) : Prop where
  moves : t.moves = s.moves := by rfl
  aunits : t.aunits = s.aunits := by rfl
  groups : t.groups = s.groups := by rfl

theorem Fixed.trans {s t u : State} (h : Fixed s t) (h' : Fixed t u) : Fixed s u :=
  ⟨h'.moves.trans h.moves, h'.aunits.trans h.aunits, h'.groups.trans h.groups⟩

/-- A core of which every thread stays, and that is halted or not, with the unexpected queue of its process where it stood; where the
change is `still`, so are the bytes of its window. -/
structure CoreKept (k l : Core) (still : Prop := False) : Prop where
  slots : l.slots = k.slots := by rfl
  halted : l.halted = k.halted := by rfl
  base : l.proc.uqbase = k.proc.uqbase := by rfl
  size : l.proc.uqsize = k.proc.uqsize := by rfl
  occupied : l.occupied = k.occupied := by rfl
  who : SameWho k.proc l.proc := by exact {}
  bytes : still → WindowKept k.proc l.proc := by exact fun _ => {}

variable {still : Prop}

theorem CoreKept.refl (k : Core) : CoreKept k k still := {}

theorem CoreKept.trans {k l m : Core} (h : CoreKept k l still) (h' : CoreKept l m still) : CoreKept k m still :=
  ⟨h'.slots.trans h.slots, h'.halted.trans h.halted, h'.base.trans h.base, h'.size.trans h.size, h'.occupied.trans h.occupied, h.who.trans h'.who,
    fun hs => (h.bytes hs).trans (h'.bytes hs)⟩

/-- The focus and every thread of every core are the same in two states, no cluster is halted or goes on, and what is due stays due; where
the change is `still`, no byte of memory or of a window changes. -/
structure KeepsThreads (s t : State) (still : Prop := False) : Prop where
  here : t.here = s.here
  slot : t.slot = s.slot
  cycle : t.cycle = s.cycle
  due : ∀ e ∈ s.agenda, e ∈ t.agenda
  halts : ∀ cl, (t.clusterAt cl).dbgHalted = (s.clusterAt cl).dbgHalted
  cores : ∀ c, CoreKept (s.coreAt c) (t.coreAt c) still
  fixed : Fixed s t := by exact {}
  mem : still → t.mem = s.mem := by exact fun _ => rfl

theorem KeepsThreads.refl (s : State) : KeepsThreads s s still := ⟨rfl, rfl, rfl, fun _ h => h, fun _ => rfl, fun _ => .refl _, {}, fun _ => rfl⟩

theorem KeepsThreads.trans {s t u : State} (h : KeepsThreads s t still) (k : KeepsThreads t u still) : KeepsThreads s u still :=
  ⟨k.here.trans h.here, k.slot.trans h.slot, k.cycle.trans h.cycle, fun e he => k.due e (h.due e he), fun cl => (k.halts cl).trans (h.halts cl),
    fun c => (h.cores c).trans (k.cores c), h.fixed.trans k.fixed, fun hs => (k.mem hs).trans (h.mem hs)⟩

theorem KeepsThreads.core {s t : State} (h : KeepsThreads s t still) : CoreKept s.core t.core still := by
  have hcore := h.cores t.here
  rwa [coreAt_here, h.here, coreAt_here] at hcore

theorem KeepsThreads.thr {s t : State} (h : KeepsThreads s t) : t.thr = s.thr := by
  unfold State.thr
  simp only [h.core.slots, h.slot]

/-- What is in no core, no cluster and not due may change. -/
theorem keepsThreads_of {s t : State} (hhere : t.here = s.here) (hslot : t.slot = s.slot) (hcycle : t.cycle = s.cycle) (hdue : t.agenda = s.agenda)
    (hcl : t.clusters = s.clusters) (hcore : t.core = s.core) (hothers : t.others = s.others) (hfixed : Fixed s t := by exact {})
    (hmem : still → t.mem = s.mem := by exact fun _ => rfl) : KeepsThreads s t still := by
  refine ⟨hhere, hslot, hcycle, fun _ he => hdue ▸ he, fun cl => ?_, fun c => ?_, hfixed, hmem⟩
  · unfold State.clusterAt
    rw [hcl]
  · unfold State.coreAt
    rw [hhere, hothers, hcore]
    exact .refl _

/-- What came before may have changed what else a state holds. -/
theorem KeepsThreads.start {s s1 t : State} (h : KeepsThreads s1 t still) (hhere : s1.here = s.here) (hslot : s1.slot = s.slot) (hcycle : s1.cycle = s.cycle)
    (hdue : s1.agenda = s.agenda) (hcl : s1.clusters = s.clusters) (hcore : s1.core = s.core) (hothers : s1.others = s.others)
    (hfixed : Fixed s s1 := by exact {}) (hmem : still → s1.mem = s.mem := by exact fun _ => rfl) : KeepsThreads s t still :=
  (keepsThreads_of hhere hslot hcycle hdue hcl hcore hothers hfixed hmem).trans h

theorem MoreDue.keepsThreads {s t : State} (h : MoreDue s t) : KeepsThreads s t still := by
  obtain ⟨l, hl, rfl⟩ := h
  exact ⟨rfl, rfl, rfl, hl, fun _ => rfl, fun _ => .refl _, {}, fun _ => rfl⟩

theorem keepsThreads_after (s : State) (n : Nat) (e : Instr) : KeepsThreads s (s.after n e) still := (moreDue_after s n e).keepsThreads

theorem keepsThreads_ite {s : State} (c : Prop) [Decidable c] {t u : State} (ht : KeepsThreads s t still) (hu : KeepsThreads s u still) :
    KeepsThreads s (if c then t else u) still := by
  split
  · exact ht
  · exact hu

theorem keepsThreads_foldl {α : Type} (f : State → α → State) (l : List α) (h : ∀ (s : State) (a : α), KeepsThreads s (f s a) still) (s : State) :
    KeepsThreads s (l.foldl f s) still := by
  induction l generalizing s with
  | nil => exact KeepsThreads.refl s
  | cons a l ih => exact (h s a).trans (ih _)

/-- A fold whose state part keeps the threads. -/
theorem keepsThreads_foldl_pair {α β : Type} (f : State × β → α → State × β) (l : List α) (h : ∀ (a : State × β) (x : α), KeepsThreads a.1 (f a x).1 still) (a : State × β) :
    KeepsThreads a.1 (l.foldl f a).1 still := by
  induction l generalizing a with
  | nil => exact KeepsThreads.refl _
  | cons x l ih => exact (h a x).trans (ih _)

theorem keepsThreads_setCoreAt (s : State) {c : Nat} {k : Core} (h : CoreKept (s.coreAt c) k still) : KeepsThreads s (s.setCoreAt c k) still := by
  have hcl : (s.setCoreAt c k).clusters = s.clusters := by unfold State.setCoreAt; split <;> rfl
  have hfixed : Fixed s (s.setCoreAt c k) := by unfold State.setCoreAt; split <;> exact {}
  refine ⟨?_, ?_, cycle_setCoreAt s c k, fun _ he => (agenda_setCoreAt s c k).symm ▸ he, fun cl => ?_, fun d => ?_, hfixed, fun _ => mem_setCoreAt s c k⟩
  · unfold State.setCoreAt
    split <;> rfl
  · unfold State.setCoreAt
    split <;> rfl
  · unfold State.clusterAt
    rw [hcl]
  · rw [coreAt_setCoreAt]
    split
    next hd => rw [hd]; exact h
    next => exact .refl _

theorem keepsThreads_setCluster (s : State) {cl : Nat} {k : Cluster} (h : k.dbgHalted = (s.clusterAt cl).dbgHalted) : KeepsThreads s (s.setCluster cl k) still := by
  refine ⟨rfl, rfl, rfl, fun _ h => h, fun d => ?_, fun _ => .refl _, {}, fun _ => rfl⟩
  rw [clusterAt_setCluster]
  split
  next hd => rw [hd, h]
  next => rfl

theorem keepsThreads_core {s : State} {k : Core} (h : CoreKept s.core k still) : KeepsThreads s { s with core := k } still := by
  have hset := keepsThreads_setCoreAt s (c := s.here) (k := k) ((coreAt_here s).symm ▸ h)
  rwa [setCoreAt_here] at hset

theorem keepsThreads_setProc (s : State) {p : Proc} (hb : p.uqbase = s.proc.uqbase) (hs : p.uqsize = s.proc.uqsize) (hwho : SameWho s.proc p := by exact {}) :
    KeepsThreads s (s.setProc p) :=
  keepsThreads_core ⟨rfl, rfl, hb, hs, rfl, hwho, False.elim⟩

theorem keepsStill_setProc (s : State) {p : Proc} (hb : p.uqbase = s.proc.uqbase) (hs : p.uqsize = s.proc.uqsize) (hwho : SameWho s.proc p := by exact {})
    (hwin : WindowKept s.proc p := by exact {}) : KeepsThreads s (s.setProc p) still :=
  keepsThreads_core ⟨rfl, rfl, hb, hs, rfl, hwho, fun _ => hwin⟩

theorem keepsThreads_module (s : State) (m : Module) : KeepsThreads s { s with module := m } still := keepsThreads_of rfl rfl rfl rfl rfl rfl rfl

theorem keepsThreads_linkSend (s : State) (c ch d : Nat) (i : LinkItem) : KeepsThreads s (s.linkSend c ch d i) still := by
  unfold State.linkSend
  exact (keepsThreads_module s _).trans (keepsThreads_after _ _ _)

theorem keepsThreads_linkAsk (s : State) (c who : Nat) (a : Acc) : KeepsThreads s (s.linkAsk c who a) still := keepsThreads_linkSend ..

theorem keepsThreads_noteError (s : State) (c : Nat) (p : Place) : KeepsThreads s (s.noteError c p) still := by
  unfold State.noteError
  refine .trans ?_ (keepsThreads_module _ _)
  exact keepsThreads_setCoreAt s {}

theorem keepsThreads_onProc (s : State) (g l : Nat) {f : Proc → Proc} (hb : ∀ p, (f p).uqbase = p.uqbase) (hs : ∀ p, (f p).uqsize = p.uqsize) (hwho : ∀ p, SameWho p (f p) := by exact fun _ => {})
    (hbytes : still → ∀ p, WindowKept p (f p) := by exact fun _ _ => {}) : KeepsThreads s (s.onProc g l f) still := by
  unfold State.onProc
  split
  · exact keepsThreads_setCoreAt s ⟨rfl, rfl, hb _, hs _, rfl, hwho _, fun h => hbytes h _⟩
  · exact KeepsThreads.refl s

theorem keepsThreads_poke (s : State) (p : Place) (n v : Nat) : KeepsThreads s (s.poke p n v) := by
  unfold State.poke
  split
  · exact keepsThreads_of rfl rfl rfl rfl rfl rfl rfl {} False.elim
  · exact keepsThreads_of rfl rfl rfl rfl rfl rfl rfl {} False.elim
  · exact keepsThreads_onProc s _ _ (fun _ => rfl) (fun _ => rfl) (fun _ => {}) False.elim
  · exact keepsThreads_ite _ (keepsThreads_of rfl rfl rfl rfl rfl rfl rfl) (KeepsThreads.refl s)

theorem keepsThreads_pokeMask (s : State) (p : Place) (v mask n : Nat) : KeepsThreads s (s.pokeMask p v mask n) := by
  induction n generalizing s p v mask with
  | zero => exact KeepsThreads.refl s
  | succ n ih => exact (keepsThreads_ite _ (keepsThreads_poke ..) (.refl s)).trans (ih ..)

theorem keepsThreads_lookUp (s : State) (c g l : Nat) : KeepsThreads s (s.lookUp c g l) still := keepsThreads_ite _ (.refl s) (keepsThreads_after ..)

theorem keepsThreads_useLoc (s : State) (c : Nat) (e : LocEnt) : KeepsThreads s (s.useLoc c e) still := keepsThreads_setCoreAt s {}

theorem keepsThreads_wakeTo (s : State) (c to_ n : Nat) (e : Instr) : KeepsThreads s (s.wakeTo c to_ n e) still :=
  (keepsThreads_after { s with wakes := s.wakes ++ [(e, to_, c)] } n e).start rfl rfl rfl rfl rfl rfl rfl

theorem keepsThreads_sendWake (s : State) (home : Nat) (w : Watch) : KeepsThreads s (s.sendWake home w) still := by
  unfold State.sendWake
  dsimp only
  refine keepsThreads_ite _ (keepsThreads_after ..) (keepsThreads_ite _ (keepsThreads_linkSend ..) (keepsThreads_ite _ (keepsThreads_wakeTo ..) ?_))
  split
  · exact (keepsThreads_useLoc ..).trans (keepsThreads_wakeTo ..)
  · exact (keepsThreads_lookUp ..).trans (keepsThreads_setCoreAt _ {})

theorem keepsThreads_fireWatches (s : State) (p : Place) : KeepsThreads s (s.fireWatches p) still :=
  keepsThreads_foldl _ _ (fun t _ => keepsThreads_ite _ (keepsThreads_sendWake t _ _) (.refl t)) s

theorem keepsThreads_homeWrite (s : State) (p : Place) (n v mask : Nat) : KeepsThreads s (s.homeWrite p n v mask) := by
  unfold State.homeWrite
  dsimp only
  have hpoke := keepsThreads_ite (decide (mask % 2 ^ n = 2 ^ n - 1) = true) (keepsThreads_poke s p n v) (keepsThreads_pokeMask s p v mask n)
  generalize (if decide (mask % 2 ^ n = 2 ^ n - 1) = true then s.poke p n v else s.pokeMask p v mask n) = s1 at hpoke ⊢
  refine .trans ?_ (keepsThreads_fireWatches _ p)
  exact hpoke.trans (keepsThreads_ite _ (.refl _) (keepsThreads_of rfl rfl rfl rfl rfl rfl rfl))

/-! ### Cache lines (R162, R179) -/

@[simp] theorem dbgHalted_setLine (k : Cluster) (l : CacheLine) : (k.setLine l).dbgHalted = k.dbgHalted := by
  unfold Cluster.setLine
  split <;> rfl

theorem keepsThreads_setLine (s : State) (cl : Nat) (l : CacheLine) : KeepsThreads s (s.setCluster cl ((s.clusterAt cl).setLine l)) still :=
  keepsThreads_setCluster s (dbgHalted_setLine ..)

theorem keepsThreads_writeBackSector (s : State) (cl : Nat) (l : CacheLine) (sec : Nat) : KeepsThreads s (s.writeBackSector cl l sec).1 := by
  unfold State.writeBackSector
  dsimp only
  split
  · exact .refl s
  · split
    · exact (keepsThreads_setLine ..).trans (keepsThreads_noteError ..)
    · split
      · refine .trans ?_ (keepsThreads_linkAsk _ _ _ _)
        refine .trans ?_ (keepsThreads_setProc _ rfl rfl)
        exact keepsThreads_setLine ..
      · exact (keepsThreads_setLine ..).trans (keepsThreads_homeWrite ..)

theorem keepsThreads_writeBackLine (s : State) (cl : Nat) (l : CacheLine) : KeepsThreads s (s.writeBackLine cl l).1 :=
  keepsThreads_foldl_pair _ (List.range 4) (fun a sec => keepsThreads_writeBackSector a.1 cl l sec) (s, false)

theorem keepsThreads_writeBackAll {s t : State} {cl : Nat} {sel : CacheLine → Bool} {drop m : Bool} (h : s.writeBackAll cl sel drop = .done t m) :
    KeepsThreads s t := by
  unfold State.writeBackAll at h
  dsimp only at h
  split at h
  · cases h
  · obtain ⟨rfl, -⟩ := WbRes.done.inj h
    refine keepsThreads_foldl_pair _ _ (fun a l => ?_) (s, false)
    have hl := keepsThreads_writeBackLine a.1 cl l
    exact keepsThreads_ite _ (hl.trans (keepsThreads_setCluster _ rfl)) hl

theorem keepsThreads_hintFill (s : State) (cl pa scope : Nat) : KeepsThreads s (s.hintFill cl pa scope) := by
  unfold State.hintFill
  dsimp only
  split
  · exact KeepsThreads.refl s
  · split
    · exact keepsThreads_linkAsk ..
    · exact keepsThreads_setLine ..

theorem keepsThreads_hintLine (h : BitVec 2) (pa scope : Nat) (s : State) : KeepsThreads s (hintLine h pa scope s) := by
  unfold hintLine
  dsimp only
  split
  · exact keepsThreads_foldl _ _ (fun _ _ => keepsThreads_hintFill ..) s
  · split
    · exact KeepsThreads.refl s
    · exact keepsThreads_setLine ..
  · split
    · exact keepsThreads_setLine ..
    · exact KeepsThreads.refl s
  · split
    · rename_i hdone
      exact keepsThreads_writeBackAll hdone
    · exact KeepsThreads.refl s

/-! ### Acquires and releases on the own window (R165-R167, R177) -/

/-- The lines of a signature enter W, in which what stood stays. -/
theorem mem_enterW (p : Proc) (line l : Nat) : l ∈ (p.enterW line).sigW.map Prod.fst ↔ l = line ∨ l ∈ p.sigW.map Prod.fst := by
  unfold Proc.enterW
  simp only [List.map_cons, List.mem_cons, List.mem_map, List.mem_filter, bne_iff_ne]
  constructor
  · rintro (h | ⟨e, ⟨he, -⟩, rfl⟩)
    · exact Or.inl h
    · exact Or.inr ⟨e, he, rfl⟩
  · rintro (h | ⟨e, he, rfl⟩)
    · exact Or.inl h
    · by_cases h : e.1 = line
      · exact Or.inl h
      · exact Or.inr ⟨e, ⟨he, h⟩, rfl⟩

theorem mem_enterSig (p : Proc) (g : Sig) (l : Nat) : l ∈ (p.enterSig g).sigW.map Prod.fst ↔ l ∈ g.lines ∨ l ∈ p.sigW.map Prod.fst := by
  have hfold (ls : List Nat) : ∀ p : Proc, l ∈ (ls.foldl Proc.enterW p).sigW.map Prod.fst ↔ l ∈ ls ∨ l ∈ p.sigW.map Prod.fst := by
    induction ls with
    | nil => simp
    | cons a ls ih =>
      intro p
      rw [List.foldl_cons, ih, mem_enterW, List.mem_cons]
      tauto
  unfold Proc.enterSig
  dsimp only
  split
  · exact hfold g.lines p
  · exact hfold g.lines p

theorem enterSig_all (p : Proc) {g : Sig} (h : g.all = true) : (p.enterSig g).sigWAll.isSome = true := by
  unfold Proc.enterSig
  rw [if_pos h]
  rfl

theorem slotSig_none {s : State} {w : Place} (h : s.sigSlots.find? (fun e => e.word == w) = none) : s.slotSig w = { all := true, lines := [] } := by
  unfold State.slotSig
  rw [h]

theorem slotSig_some {s : State} {w : Place} {e : SigSlot} (h : s.sigSlots.find? (fun e => e.word == w) = some e) : s.slotSig w = e.sig := by
  unfold State.slotSig
  rw [h]

theorem delivered_ownPlace (s t : State) (ea : Word) (n i : Nat) : t.delivered (s.ownPlace ea) n i = t.peek (s.ownPlace ea) n := rfl

theorem isBad_touchSlot (s : State) (w p : Place) (n : Nat) : (s.touchSlot w).isBad p n = s.isBad p n := by
  rw [touchSlot_changes_sigSlots]
  rfl

/-- A load-acquire at home reads the word, with the signature of its slot. -/
theorem OwnData.lda {s : State} {ea : Word} (h : OwnData s ea 8) {a : Acc} (who : Asker) (hp : a.place = s.ownPlace ea) (hs : a.size = 8) (hk : a.kind = .lda) :
    s.performHome a who = .done (s.touchSlot ((s.ownPlace ea).align 8)) (Memory.read s.proc.win (ea.toNat % 2 ^ 48) 8) (s.slotSig ((s.ownPlace ea).align 8)) true := by
  have hread : (s.touchSlot ((s.ownPlace ea).align 8)).peek (s.ownPlace ea) 8 = Memory.read s.proc.win (ea.toNat % 2 ^ 48) 8 := by
    rw [(keepsData_touchSlot s _).peek, h.peek]
  unfold State.performHome
  rw [hp, hs, hk]
  dsimp only
  rw [h.home]
  dsimp only
  rw [isBad_touchSlot, h.sound, if_neg (by decide), delivered_ownPlace, hread]

/-- The state after a load-acquire of the own window: its word's slot used, its signature entered, its register written. -/
def State.acquired (s : State) (d : BitVec 5) (ea : Word) : State :=
  let g := s.slotSig ((s.ownPlace ea).align 8)
  ((s.touchSlot ((s.ownPlace ea).align 8)).setProc (Proc.enterSig { s.proc with sigR := {} } g)).setThr
    (({ s.thr with gotSig := g } : Thread).wx d (BitVec.ofNat 64 (Memory.read s.proc.win (ea.toNat % 2 ^ 48) 8))).retired

theorem execLda_own {s : State} {q : BitVec 3} {d a : BitVec 5} {imm : BitVec 10} {ea : Word} (hva : s.rx a + imm.signExtend 64 = ea) (hq : s.rp q = true)
    (h : OwnData s ea 8) (hready : s.thr.ready = 0) (hquiet : Quiet s) : execLda q d a imm s = .next (s.acquired d ea) := by
  have htouch := touchSlot_changes_sigSlots s ((s.ownPlace ea).align 8)
  have hproc : (s.touchSlot ((s.ownPlace ea).align 8)).proc = s.proc := by rw [htouch]; rfl
  have hthr : (s.touchSlot ((s.ownPlace ea).align 8)).thr = s.thr := by rw [htouch]; rfl
  have hquiet' : Quiet ((s.touchSlot ((s.ownPlace ea).align 8)).setThr { (s.touchSlot ((s.ownPlace ea).align 8)).thr with
      gotSig := s.slotSig ((s.ownPlace ea).align 8) }) := by
    rw [htouch]
    exact ⟨hquiet.lines, hquiet.remote⟩
  unfold execLda
  rw [guarded_true hq, imm10Val]
  dsimp only
  rw [hva, if_neg (by rw [hready]; decide), h.atAddr, if_neg (not_not.mpr h.noStores), flushUnit_uncached]
  dsimp only
  rw [h.startAcc rfl (by simp) rfl (h.lda _ rfl rfl rfl) (s2 := ((s.touchSlot ((s.ownPlace ea).align 8)).setProc
    (Proc.enterSig { s.proc with sigR := {} } (s.slotSig ((s.ownPlace ea).align 8)))).setThr
    (({ s.thr with gotSig := s.slotSig ((s.ownPlace ea).align 8) } : Thread).wx d (BitVec.ofNat 64 (Memory.read s.proc.win (ea.toNat % 2 ^ 48) 8)))) ?_]
  · rw [State.retire, thr_setThr, setThr_setThr]
    rfl
  · unfold State.complete
    dsimp only
    rw [thr_setThr, hquiet'.acquireSteps]
    dsimp only
    rw [hthr, proc_setThr, hproc, thr_setProc, thr_setThr, setThr_setProc, setThr_setThr]
    rfl

/-- The signature in the slot of a word after a release: the snapshot is part of it. -/
theorem mem_setSlot (s : State) (w : Place) (g : Sig) : ∃ e ∈ (s.setSlot w g).sigSlots, e.word = w ∧ e.sig = g := by
  unfold State.setSlot State.trimSlots
  dsimp only
  split
  · exact ⟨_, List.mem_append_right _ (List.mem_singleton.mpr rfl), rfl, rfl⟩
  · refine ⟨{ word := w, home := s.homeOf w, sig := g }, List.mem_filter.mpr ⟨List.mem_append_right _ (List.mem_singleton.mpr rfl), ?_⟩, rfl, rfl⟩
    rw [Bool.not_eq_true', List.contains_eq_mem, decide_eq_false_iff_not]
    intro hgone
    rw [List.filter_append, List.take_append_of_le_length] at hgone
    rotate_left
    · rw [List.length_append]
      have hlast (P : SigSlot → Bool) (e : SigSlot) : ([e].filter P).length ≤ 1 := List.length_filter_le P [e]
      exact Nat.sub_le_iff_le_add.mpr (Nat.add_le_add_left (Nat.le_trans (hlast _ _) (by decide)) _)
    have hold := (List.mem_filter.mp (List.mem_filter.mp (List.mem_of_mem_take hgone)).1).2
    rw [bne_self_eq_false] at hold
    cases hold

theorem releaseSlot_holds (s : State) (w : Place) (g : Sig) :
    ∃ e ∈ (s.releaseSlot w g).sigSlots, e.word = w ∧ ∀ l ∈ g.lines, l ∈ e.sig.lines := by
  unfold State.releaseSlot
  split
  · rename_i h _
    obtain ⟨e, he, hw, hsig⟩ := mem_setSlot s w (h.sig.join g)
    refine ⟨e, he, hw, fun l hl => ?_⟩
    rw [hsig]
    unfold Sig.join
    rw [List.mem_append, List.mem_filter, List.contains_eq_mem]
    by_cases hold : l ∈ h.sig.lines
    · exact Or.inl hold
    · exact Or.inr ⟨hl, by simp [hold]⟩
  · obtain ⟨e, he, hw, hsig⟩ := mem_setSlot s w g
    exact ⟨e, he, hw, fun l hl => by rwa [hsig]⟩

/-- What stays in W after a release that held all of it was entered after its snapshot. -/
theorem dropSnapshot_later (p : Proc) {e : Nat × Nat} (he : e ∈ (p.dropSnapshot p.wSig p.wStamp).sigW) : p.wStamp < e.2 := by
  unfold Proc.dropSnapshot Proc.wSig at he
  obtain ⟨hold, hkeep⟩ := List.mem_filter.mp he
  have hline : (p.sigW.map Prod.fst).contains e.1 = true := by
    rw [List.contains_eq_mem, decide_eq_true_eq]
    exact List.mem_map_of_mem hold
  simp only [hline, Bool.true_and, Bool.not_eq_true', decide_eq_false_iff_not] at hkeep
  lia

/-- A store-release at home writes the word and joins the signature to its slot. -/
theorem OwnData.stl {s : State} {ea : Word} (h : OwnData s ea 8) (hw : PlainWrites s) {a : Acc} (who : Asker) (hp : a.place = s.ownPlace ea) (hs : a.size = 8)
    (hk : a.kind = .stl) : s.performHome a who = .done ((s.ownWrite ea 8 a.val).releaseSlot ((s.ownPlace ea).align 8) a.sig) 0 {} true := by
  unfold State.performHome
  rw [hp, hs, hk]
  dsimp only
  rw [h.home]
  dsimp only
  rw [PlainWrites.homeWrite h hw]

/-- The state in which a release store goes to its place: the snapshot taken, and kept in the thread. -/
def State.snapped (s : State) : State :=
  (s.stampedAt (s.proc.wStamp + 1)).setThr { s.thr with snap := s.proc.wStamp, snapSig := s.proc.wSig }

theorem thr_snapped (s : State) : s.snapped.thr = { s.thr with snap := s.proc.wStamp, snapSig := s.proc.wSig } := thr_setThr _ _

theorem OwnData.snapped {s : State} {ea : Word} {n : Nat} (h : OwnData s ea n) : OwnData s.snapped ea n :=
  ⟨h.occupied, h.alive, h.window, h.inside, h.bytes, h.aligned, (congrArg (·.storeQ) (thr_snapped s)).trans h.noStores, h.home, h.sound⟩

/-- The state after a release store to the own window: its bytes, the slot of its word, and W without the snapshot. -/
def State.storedRelease (s : State) (ea : Word) (v : Word) : State :=
  (((s.snapped.ownWrite ea 8 v.toNat).releaseSlot ((s.ownPlace ea).align 8) s.proc.wSig).endRelease s.proc.wSig s.proc.wStamp).setThr
    ({ s.thr with snap := s.proc.wStamp, snapSig := s.proc.wSig, gotSig := {} } : Thread).retired

theorem startAcc_stl {s : State} {ea : Word} (h : OwnData s ea 8) (hw : PlainWrites s) (v : Word) :
    startAcc [{ kind := .stl, place := s.ownPlace ea, va := ea, size := 8, val := v.toNat, sig := s.proc.wSig }] .stl s.snapped = .next (s.storedRelease ea v) := by
  have hperf : s.snapped.performHome { kind := .stl, place := s.ownPlace ea, va := ea, size := 8, val := v.toNat, sig := s.proc.wSig }
      (.thread s.snapped.here s.snapped.slot.val) =
        .done ((s.snapped.ownWrite ea 8 v.toNat).releaseSlot ((s.ownPlace ea).align 8) s.proc.wSig) 0 {} true :=
    h.snapped.stl ⟨hw.noWatch, hw.noError⟩ _ rfl rfl rfl
  have hthr : ((s.snapped.ownWrite ea 8 v.toNat).releaseSlot ((s.ownPlace ea).align 8) s.proc.wSig).thr =
      { s.thr with snap := s.proc.wStamp, snapSig := s.proc.wSig } := by
    rw [releaseSlot_changes_sigSlots]
    exact thr_snapped s
  rw [h.snapped.startAcc rfl (by simp) rfl hperf
    (s2 := (((s.snapped.ownWrite ea 8 v.toNat).releaseSlot ((s.ownPlace ea).align 8) s.proc.wSig).endRelease s.proc.wSig s.proc.wStamp).setThr
      { s.thr with snap := s.proc.wStamp, snapSig := s.proc.wSig, gotSig := {} }) ?_]
  · rw [State.retire, thr_setThr, setThr_setThr]
    rfl
  · unfold State.complete
    dsimp only
    rw [thr_setThr, hthr]
    unfold State.endRelease
    rw [proc_setThr, thr_setProc, thr_setThr, setThr_setProc, setThr_setThr]
    rfl

theorem execStl_own {s : State} {q : BitVec 3} {d a : BitVec 5} {imm : BitVec 10} {ea : Word} (hva : s.rx a + imm.signExtend 64 = ea) (hq : s.rp q = true)
    (h : OwnData s ea 8) (hw : PlainWrites s) (hrel : s.thr.rel = none) (hquiet : Quiet s) : execStl q d a imm s = .next (s.storedRelease ea (s.rx d)) := by
  unfold execStl
  rw [guarded_true hq, imm10Val]
  dsimp only
  rw [hva, h.atAddr, hquiet.releaseSteps hrel h.noStores]
  dsimp only
  rw [flushUnit_uncached]
  exact startAcc_stl h hw (s.rx d)

/-- What a load-acquire leaves: the word in its register, and the signature of the word's slot in W. -/
theorem acquired_leaves (s : State) (d : BitVec 5) (ea : Word) :
    (s.acquired d ea).thr.pc = s.thr.retired.pc ∧
    (∀ r, (s.acquired d ea).rx r = (s.thr.wx d (BitVec.ofNat 64 (Memory.read s.proc.win (ea.toNat % 2 ^ 48) 8))).rx r) ∧ SameBytes s (s.acquired d ea) ∧
    (s.acquired d ea).proc.sigR = {} ∧ (∀ k ∈ s.proc.sigW, k.1 ∈ (s.acquired d ea).proc.sigW.map Prod.fst) ∧
    (s.sigSlots.find? (fun e => e.word == (s.ownPlace ea).align 8) = none → (s.acquired d ea).proc.sigWAll.isSome = true) ∧
    (∀ e, s.sigSlots.find? (fun e => e.word == (s.ownPlace ea).align 8) = some e → (∀ l ∈ e.sig.lines, l ∈ (s.acquired d ea).proc.sigW.map Prod.fst) ∧
      (e.sig.all = true → (s.acquired d ea).proc.sigWAll.isSome = true)) := by
  have htouch := touchSlot_changes_sigSlots s ((s.ownPlace ea).align 8)
  have hdata : KeepsData s (s.acquired d ea) :=
    ((keepsData_touchSlot s _).setProc _ (by rw [htouch]; exact (enterSig_parts ..).1) (by rw [htouch]; exact (enterSig_parts ..).2.1)
      (by rw [htouch]; exact (enterSig_parts ..).2.2.1)).setThr _
  have hthr : (s.acquired d ea).thr = _ := thr_setThr _ _
  have hproc : (s.acquired d ea).proc = Proc.enterSig { s.proc with sigR := {} } (s.slotSig ((s.ownPlace ea).align 8)) := rfl
  refine ⟨?_, fun r => ?_, fun p => hdata.peek p 1, ?_, fun k hk => ?_, fun hnone => ?_, fun e he => ⟨fun l hl => ?_, fun hall => ?_⟩⟩
  · rw [hthr]
    exact retired_pc_congr (pc_wx ..) (frame_wx ..)
  · refine rx_congr ?_ r
    rw [hthr, x_retired]
    exact x_wx_congr (show ({ s.thr with gotSig := s.slotSig ((s.ownPlace ea).align 8) } : Thread).x = s.thr.x from rfl) d _
  · rw [hproc]
    exact (enterSig_parts ..).2.2.2
  · rw [hproc, mem_enterSig]
    exact Or.inr (List.mem_map_of_mem hk)
  · rw [hproc]
    exact enterSig_all _ (congrArg Sig.all (slotSig_none hnone))
  · rw [hproc, mem_enterSig, slotSig_some he]
    exact Or.inl hl
  · rw [hproc, slotSig_some he]
    exact enterSig_all _ hall

theorem thr_storedRelease (s : State) (ea v : Word) :
    (s.storedRelease ea v).thr = ({ s.thr with snap := s.proc.wStamp, snapSig := s.proc.wSig, gotSig := {} } : Thread).retired := thr_setThr _ _

theorem keepsData_snapped (s : State) (ea : Word) (n v : Nat) : KeepsData (s.ownWrite ea n v) (s.snapped.ownWrite ea n v) :=
  ⟨rfl, rfl, rfl, rfl, rfl, rfl, rfl, rfl⟩

theorem keepsData_storedRelease (s : State) (ea v : Word) : KeepsData (s.ownWrite ea 8 v.toNat) (s.storedRelease ea v) := by
  unfold State.storedRelease
  have hwritten := (keepsData_snapped s ea 8 v.toNat).trans (keepsData_releaseSlot (s.snapped.ownWrite ea 8 v.toNat) ((s.ownPlace ea).align 8) s.proc.wSig)
  exact (hwritten.endRelease _ _).setThr _

theorem sigW_storedRelease_later {s : State} {ea v : Word} {e : Nat × Nat} (he : e ∈ (s.storedRelease ea v).proc.sigW) : s.proc.wStamp < e.2 := by
  unfold State.storedRelease at he
  rw [releaseSlot_changes_sigSlots] at he
  exact dropSnapshot_later s.proc he

theorem storedRelease_holds (s : State) (ea v : Word) : ∃ e ∈ (s.storedRelease ea v).sigSlots, e.word = (s.ownPlace ea).align 8 ∧
    ∀ k ∈ s.proc.sigW, k.1 ∈ e.sig.lines ∨ e.sig.all = true := by
  obtain ⟨e, he, hword, hlines⟩ := releaseSlot_holds (s.snapped.ownWrite ea 8 v.toNat) ((s.ownPlace ea).align 8) s.proc.wSig
  exact ⟨e, he, hword, fun k hk => Or.inl (hlines _ (List.mem_map_of_mem hk))⟩

/-! ### Hints and single lines (R179, R180) -/

theorem execPref_window {s : State} {q : BitVec 3} {a : BitVec 5} {imm : BitVec 10} (hq : s.rp q = true) (h : BitVec 2)
    (htop : (s.rx a + imm.signExtend 64).toNat / 2 ^ 48 = 0xFFFF ∨ (s.rx a + imm.signExtend 64).toNat / 2 ^ 48 = 0xFFFE) :
    execPref q h a imm s = .next (s.setThr s.thr.retired) := by
  unfold execPref
  rw [guarded_true hq, imm10Val]
  dsimp only
  obtain htop | htop := htop
  · rw [htop]
    rfl
  · rw [htop]
    rfl

theorem execPref_nowhere {s : State} {q : BitVec 3} {a : BitVec 5} {imm : BitVec 10} (hq : s.rp q = true) (h : BitVec 2)
    (h0 : (s.rx a + imm.signExtend 64).toNat / 2 ^ 48 ≠ 0) (hF : (s.rx a + imm.signExtend 64).toNat / 2 ^ 48 ≠ 0xFFFF)
    (hE : (s.rx a + imm.signExtend 64).toNat / 2 ^ 48 ≠ 0xFFFE) :
    execPref q h a imm s = .next (s.setThr { s.thr with hintdrop := s.thr.hintdrop + 1 }.retired) := by
  unfold execPref
  rw [guarded_true hq, imm10Val]
  dsimp only
  split
  · contradiction
  · contradiction
  · contradiction
  · rw [State.retire, State.dropHint, thr_setThr, setThr_setThr]

/-- The thread of a state retires, its registers and its wait as they were. -/
def Retires (s : State) (o : Out) : Prop := Yields o fun t => t.thr.pc = s.thr.retired.pc ∧ t.thr.x = s.thr.x ∧ t.thr.wait = s.thr.wait

theorem retires_of_keepsThreads {s t : State} (h : KeepsThreads s t) : Retires s t.retire := by
  refine ⟨_, rfl, ?_, ?_, ?_⟩
  · rw [thr_setThr, h.thr]
  · rw [thr_setThr, x_retired, h.thr]
  · rw [thr_setThr, h.thr]
    simp [Thread.retired, Thread.issued]

theorem retires_dropHint (s : State) : Retires s s.dropHint.retire := by
  unfold State.dropHint
  refine ⟨_, rfl, ?_, ?_, ?_⟩
  · rw [thr_setThr, thr_setThr]
    exact retired_pc_congr rfl rfl
  · rw [thr_setThr, x_retired, thr_setThr]
  · rw [thr_setThr, thr_setThr]
    simp [Thread.retired, Thread.issued]

/-- A hint never parks and never traps. -/
theorem execPref_threads {s : State} {q : BitVec 3} (hq : s.rp q = true) (h : BitVec 2) (a : BitVec 5) (imm : BitVec 10) :
    Retires s (execPref q h a imm s) := by
  unfold execPref
  rw [guarded_true hq]
  dsimp only
  split
  · exact retires_of_keepsThreads (KeepsThreads.refl s)
  · exact retires_of_keepsThreads (KeepsThreads.refl s)
  · split
    · refine retires_of_keepsThreads ?_
      split
      · split
        · exact keepsThreads_hintLine ..
        · exact KeepsThreads.refl s
      · exact KeepsThreads.refl s
    · exact retires_of_keepsThreads (KeepsThreads.refl s)
    · exact retires_dropHint s
  · exact retires_dropHint s

/-- CWB and CINV of the own window do nothing. -/
theorem lineOp_own {s : State} {q : BitVec 3} {a : BitVec 5} {imm : BitVec 10} {drop : Bool} {ea : Word} (hva : s.rx a + imm.signExtend 64 = ea)
    (hq : s.rp q = true) (h : OwnData s ea 1) : lineOp q a imm drop s = .next (s.setThr s.thr.retired) := by
  unfold lineOp
  rw [guarded_true hq, imm10Val]
  dsimp only
  rw [hva, h.atAddr, if_neg (not_not.mpr h.noStores)]
  rfl

end Sys2Proof.Machine

namespace Sys2Proof
open Machine

/-- Settles O31: acquires and releases by `execLda_own` and `execStl_own`; a hint keeps every thread (`keepsThreads_hintLine`). -/
theorem synchronization : Obligations.Synchronization := by
  unfold Obligations.Synchronization
  refine ⟨fun q d a imm s hq => ?_, fun q h a imm s hq => ?_⟩
  · intro ea
    refine ⟨fun hst => ⟨?_, ?_⟩, fun hst => ⟨?_, ?_⟩, fun hown hready hlines hremote => ⟨?_, fun hw hcan hrel => ?_⟩⟩
    · exact (guarded_true hq fun s => _).trans (if_pos hst)
    · exact (guarded_true hq fun s => _).trans (if_pos hst)
    · exact (guarded_true hq fun s => _).trans (if_neg hst)
    · exact (guarded_true hq fun s => _).trans (if_neg hst)
    · refine ⟨_, execLda_own (ea := ea) rfl hq hown hready ⟨hlines, hremote⟩, ?_⟩
      exact acquired_leaves s d ea
    · refine ⟨_, execStl_own (ea := ea) rfl hq hown hw hrel ⟨hlines, hremote⟩, ?_⟩
      exact ⟨(congrArg Thread.pc (thr_storedRelease ..)).trans (retired_pc_congr rfl rfl), (congrArg Thread.x (thr_storedRelease ..)).trans (x_retired _),
        (keepsData_storedRelease s ea (s.rx d)).ownBytes hown hcan, fun e he _ _ _ => sigW_storedRelease_later he, storedRelease_holds s ea (s.rx d)⟩
  · intro ea top
    refine ⟨fun htop => ?_, fun h0 hF hE => ?_, ?_, fun hown => ⟨lineOp_own rfl hq hown, lineOp_own rfl hq hown⟩⟩
    · exact execPref_window hq h htop
    · exact execPref_nowhere hq h h0 hF hE
    · exact execPref_threads hq h a imm

end Sys2Proof
end

section
/-! Lanes of a vector, and the vector accesses of the own window (R135, R136, R173, R174). -/

namespace Sys2Proof.Machine

/-! ### Lanes (R135, R136) -/

theorem testBit_lane (v : BitVec 256) (w i b : Nat) : (lane v w i).testBit b = (decide (b < w) && v.getLsbD (w * i + b)) := by
  unfold lane
  rw [Nat.testBit_mod_two_pow, Nat.testBit_div_two_pow, BitVec.getLsbD, Nat.add_comm]

theorem getLsbD_setLane (v : BitVec 256) (w i x b : Nat) :
    (setLane v w i x).getLsbD b = (decide (b < 256) && if w * i ≤ b ∧ b < w * i + w then x.testBit (b - w * i) else v.getLsbD b) := by
  unfold setLane
  simp only [BitVec.getLsbD_or, BitVec.getLsbD_and, BitVec.getLsbD_not, BitVec.getLsbD_ofNat, Nat.testBit_mul_two_pow, Nat.testBit_two_pow_sub_one,
    Nat.testBit_mod_two_pow]
  by_cases hb : b < 256
  · by_cases hlow : w * i ≤ b
    · by_cases hhigh : b - w * i < w
      · simp [hb, hlow, hhigh, show b < w * i + w by omega]
      · simp [hb, hlow, hhigh, show ¬ b < w * i + w by omega]
    · simp [hb, hlow]
  · simp [hb, BitVec.getLsbD_of_ge v b (by omega)]

theorem lane_lt (v : BitVec 256) (w i : Nat) : lane v w i < 2 ^ w := Nat.mod_lt _ (Nat.two_pow_pos w)

/-- A lane after a lane of the same width is replaced. -/
theorem lane_setLane (v : BitVec 256) {w i j : Nat} (x : Nat) (hi : w * i + w ≤ 256) (hj : w * j + w ≤ 256) :
    lane (setLane v w i x) w j = if j = i then x % 2 ^ w else lane v w j := by
  refine Nat.eq_of_testBit_eq fun b => ?_
  rw [testBit_lane, getLsbD_setLane]
  by_cases hb : b < w
  · by_cases hij : j = i
    · subst hij
      rw [if_pos (by lia), if_pos rfl, Nat.testBit_mod_two_pow, Nat.add_sub_cancel_left]
      simp [hb, show w * j + b < 256 by lia]
    · have hapart : ¬ (w * i ≤ w * j + b ∧ w * j + b < w * i + w) := by
        obtain h | h := Nat.lt_or_gt_of_ne hij
        · have := Nat.mul_le_mul_left w h
          rw [Nat.mul_succ] at this
          lia
        · have := Nat.mul_le_mul_left w h
          rw [Nat.mul_succ] at this
          lia
      rw [if_neg hapart, if_neg hij, testBit_lane]
      simp [hb, show w * j + b < 256 by lia]
  · have hsmall : (if j = i then x % 2 ^ w else lane v w j) < 2 ^ w := by
      split
      · exact Nat.mod_lt _ (Nat.two_pow_pos w)
      · exact lane_lt v w j
    rw [Nat.testBit_lt_two_pow (Nat.lt_of_lt_of_le hsmall (Nat.pow_le_pow_right (by decide) (Nat.le_of_not_lt hb)))]
    simp [hb]

/-- The bytes of a vector are its lanes of 8 bits. -/
theorem toNat_byte (v : BitVec 256) (i : Nat) : (v.extractLsb' (8 * i) 8).toNat = lane v 8 i := by
  unfold lane
  rw [BitVec.extractLsb'_toNat, Nat.shiftRight_eq_div_pow]

/-- The elements of a strided access are lanes too. -/
theorem elem_eq_lane (v : BitVec 256) (n i : Nat) : v.toNat / 256 ^ (n * i) % 256 ^ n = lane v (8 * n) i := by
  unfold lane
  rw [← two_pow_bytes, ← two_pow_bytes, Nat.mul_assoc]

/-! ### Vectors with some bytes or elements replaced (R173, R174) -/

/-- A lane after the lanes of a list are replaced one after another. -/
theorem lane_foldl_setLane (w : Nat) (f : Nat → Nat) (m : Nat → Bool) (l : List Nat) (hl : ∀ i ∈ l, w * i + w ≤ 256) {j : Nat} (hj : w * j + w ≤ 256) (v : BitVec 256) :
    lane (l.foldl (fun (d : BitVec 256) i => if m i then setLane d w i (f i) else d) v) w j = if j ∈ l ∧ m j = true then f j % 2 ^ w else lane v w j := by
  induction l generalizing v with
  | nil => simp
  | cons i l ih =>
    rw [List.foldl_cons, ih (fun k hk => hl k (List.mem_cons_of_mem i hk))]
    by_cases hmem : j ∈ l ∧ m j = true
    · rw [if_pos hmem, if_pos ⟨List.mem_cons_of_mem i hmem.1, hmem.2⟩]
    · rw [if_neg hmem]
      by_cases hm : m i = true
      · rw [if_pos hm, lane_setLane v _ (hl i List.mem_cons_self) hj]
        by_cases hji : j = i
        · subst hji
          rw [if_pos rfl, if_pos ⟨List.mem_cons_self, hm⟩]
        · rw [if_neg hji, if_neg fun h => hmem ⟨(List.mem_cons.mp h.1).resolve_left hji, h.2⟩]
      · rw [if_neg hm, if_neg]
        rintro ⟨hj', hmj⟩
        obtain rfl | hj' := List.mem_cons.mp hj'
        · exact hm hmj
        · exact hmem ⟨hj', hmj⟩

theorem mergeVec_eq (old : BitVec 256) (v : Nat) (mask : BitVec 32) :
    mergeVec old v mask = (List.range 32).foldl (fun (d : BitVec 256) i => if mask.getLsbD i then setLane d 8 i (v / 256 ^ i) else d) old := rfl

theorem lane_mergeVec (old : BitVec 256) (v : Nat) (mask : BitVec 32) {i : Nat} (hi : i < 32) :
    lane (mergeVec old v mask) 8 i = if mask.getLsbD i = true then v / 256 ^ i % 256 else lane old 8 i := by
  rw [mergeVec_eq, lane_foldl_setLane 8 _ _ _ (fun k hk => by have := List.mem_range.mp hk; lia) (by lia)]
  simp [hi]

theorem lane_mergeElems (size : Nat) (l : List Nat) (hl : ∀ i ∈ l, 8 * size * i + 8 * size ≤ 256) (f : Nat → Nat) {j : Nat}
    (hj : 8 * size * j + 8 * size ≤ 256) (old : BitVec 256) :
    lane (mergeElems old size l (l.map f)) (8 * size) j = if j ∈ l then f j % 2 ^ (8 * size) else lane old (8 * size) j := by
  have hfold (l : List Nat) : ∀ old, mergeElems old size l (l.map f) =
      l.foldl (fun (d : BitVec 256) i => if (fun _ => true) i = true then setLane d (8 * size) i (f i) else d) old := by
    induction l with
    | nil => exact fun _ => rfl
    | cons i l ih => exact fun old => ih _
  rw [hfold, lane_foldl_setLane _ _ _ _ hl hj]
  simp

/-- A byte of a number read little-endian. -/
theorem read_byte (m : Memory) (a n i : Nat) (h : i < n) : Memory.read m a n / 256 ^ i % 256 = Memory.read m (a + i) 1 := by
  induction n generalizing a i with
  | zero => lia
  | succ n ih =>
    have hbyte : (Memory.get m a).toNat < 256 := (Memory.get m a).isLt
    cases i with
    | zero =>
      rw [read_one, Nat.pow_zero, Nat.div_one]
      exact (Nat.add_mul_mod_self_left _ 256 _).trans (Nat.mod_eq_of_lt hbyte)
    | succ i =>
      have hrest : Memory.read m a (n + 1) / 256 = Memory.read m (a + 1) n := by
        change ((Memory.get m a).toNat + 256 * Memory.read m (a + 1) n) / 256 = _
        lia
      rw [show a + (i + 1) = a + 1 + i by lia, ← ih (a + 1) i (by lia), pow_succ', ← Nat.div_div_eq_div_mul, hrest]

theorem read_lt (m : Memory) (a n : Nat) : Memory.read m a n < 256 ^ n := by
  induction n generalizing a with
  | zero => exact Nat.one_pos
  | succ n ih =>
    have hbyte : (Memory.get m a).toNat < 256 := (Memory.get m a).isLt
    have := ih (a + 1)
    change (Memory.get m a).toNat + 256 * Memory.read m (a + 1) n < _
    rw [pow_succ']
    lia

/-! ### Writes of some bytes of the own window (R173) -/

/-- Write the bytes of a mask, low byte first. -/
def maskWrite (m : Memory) (a v mask : Nat) : Nat → Memory
  | 0 => m
  | n + 1 => maskWrite (if mask % 2 = 1 then Memory.write m a 1 (v % 256) else m) (a + 1) (v / 256) (mask / 2) n

/-- The own window replaced. -/
def State.setWin (s : State) (m : Memory) : State := s.setProc { s.proc with win := m }

theorem pokeMask_own {s : State} (h : s.core.occupied = true) (a v mask n : Nat) :
    s.pokeMask (.win s.proc.gid s.proc.lid a) v mask n = s.setWin (maskWrite s.proc.win a v mask n) := by
  induction n generalizing s a v mask with
  | zero => rfl
  | succ n ih =>
    unfold State.pokeMask maskWrite
    split
    · have hpoke : s.poke (.win s.proc.gid s.proc.lid a) 1 (v % 256) = s.setWin (Memory.write s.proc.win a 1 (v % 256)) :=
        onProc_own h fun pr => { pr with win := Memory.write pr.win a 1 (v % 256) }
      rw [hpoke]
      exact ih (s := s.setWin (Memory.write s.proc.win a 1 (v % 256))) h (a + 1) (v / 256) (mask / 2)
    · exact ih h (a + 1) (v / 256) (mask / 2)

theorem get_maskWrite {m : Memory} (a v mask n c : Nat) (h : m.wf = true) :
    (maskWrite m a v mask n).get c = if a ≤ c ∧ c < a + n ∧ mask.testBit (c - a) = true then BitVec.ofNat 8 (v / 256 ^ (c - a)) else m.get c := by
  induction n generalizing m a v mask with
  | zero =>
    rw [if_neg (by lia)]
    rfl
  | succ n ih =>
    have hwf : (if mask % 2 = 1 then Memory.write m a 1 (v % 256) else m).wf = true := by
      split
      · exact wf_write _ _ _ h
      · exact h
    unfold maskWrite
    rw [ih (a + 1) (v / 256) (mask / 2) hwf]
    by_cases h1 : c = a
    · subst h1
      rw [if_neg (by lia), Nat.sub_self, Nat.testBit_zero]
      by_cases hbit : mask % 2 = 1
      · rw [if_pos hbit, if_pos ⟨Nat.le_refl c, by lia, by simp [hbit]⟩, get_write _ _ _ _ h, if_pos (by lia), Nat.sub_self, Nat.pow_zero, Nat.div_one, Nat.div_one]
        refine BitVec.eq_of_toNat_eq ?_
        simp
      · rw [if_neg hbit, if_neg (by simp [hbit])]
    · have hold : (if mask % 2 = 1 then Memory.write m a 1 (v % 256) else m).get c = m.get c := by
        split
        · rw [get_write _ _ _ _ h, if_neg (by lia)]
        · rfl
      rw [hold]
      by_cases h2 : a + 1 ≤ c
      · rw [show c - a = c - (a + 1) + 1 by lia, Nat.testBit_succ, Nat.div_div_eq_div_mul, ← pow_succ']
        by_cases h3 : c < a + 1 + n ∧ (mask / 2).testBit (c - (a + 1)) = true
        · rw [if_pos ⟨h2, h3⟩, if_pos ⟨by lia, by lia, h3.2⟩]
        · rw [if_neg fun h => h3 h.2, if_neg fun h => h3 ⟨by lia, h.2.2⟩]
      · rw [if_neg (by lia), if_neg (by lia)]

theorem window_setWin_other {s : State} (hc : Canonical s) (hocc : s.core.occupied = true) (m : Memory) {g l : Nat}
    (hne : ¬ (g = s.proc.gid ∧ l = s.proc.lid)) : (s.setWin m).window g l = s.window g l := by
  unfold State.window
  rw [show (s.setWin m).coreOf g l = s.coreOf g l from rfl]
  split
  · rename_i c hcore
    have hhere := coreOf_other hc hocc hne hcore
    unfold State.coreAt
    rw [if_neg hhere, if_neg (show c ≠ (s.setWin m).here from hhere)]
    rfl
  · rfl

theorem maskedWrite_own {s : State} {ea : Word} (h : OwnData s ea 32) (hw : PlainWrites s) (hcan : Canonical s) (v : Nat) (mask : BitVec 32) :
    ∃ m, s.homeWrite (s.ownPlace ea) 32 v mask.toNat = s.setWin m ∧ ∀ c, m.get c =
      if ea.toNat % 2 ^ 48 ≤ c ∧ c < ea.toNat % 2 ^ 48 + 32 ∧ mask.getLsbD (c - ea.toNat % 2 ^ 48) = true then BitVec.ofNat 8 (v / 256 ^ (c - ea.toNat % 2 ^ 48))
      else s.proc.win.get c := by
  have hplain (s1 : State) (m : Memory) (hs1 : s1 = s.setWin m) : ((if s1.bad.isEmpty then s1 else
      { s1 with bad := s1.bad.filter fun u => !(coveredUnits (s.ownPlace ea) 32 mask.toNat).contains u } : State).fireWatches (s.ownPlace ea)) =
        s.setWin m := by
    subst hs1
    rw [if_pos (by rw [show (s.setWin m).bad = [] from hw.noError]; rfl)]
    unfold State.fireWatches
    rw [show (s.setWin m).watches = [] from hw.noWatch]
    rfl
  unfold State.homeWrite
  dsimp only
  by_cases hfull : mask.toNat % 2 ^ 32 = 2 ^ 32 - 1
  · refine ⟨Memory.write s.proc.win (ea.toNat % 2 ^ 48) 32 v, ?_, fun c => ?_⟩
    · refine hplain _ _ ?_
      rw [if_pos (decide_eq_true hfull), h.poke]
      rfl
    · have hmask (i : Nat) (hi : i < 32) : mask.getLsbD i = true := by
        rw [Nat.mod_eq_of_lt mask.isLt] at hfull
        rw [BitVec.getLsbD, hfull, Nat.testBit_two_pow_sub_one]
        exact decide_eq_true hi
      rw [get_write _ _ _ _ hcan.win]
      by_cases hc : ea.toNat % 2 ^ 48 ≤ c ∧ c < ea.toNat % 2 ^ 48 + 32
      · rw [if_pos hc, if_pos ⟨hc.1, hc.2, hmask _ (by omega)⟩]
      · rw [if_neg hc, if_neg fun h => hc ⟨h.1, h.2.1⟩]
  · refine ⟨maskWrite s.proc.win (ea.toNat % 2 ^ 48) v mask.toNat 32, ?_, fun c => get_maskWrite _ _ _ _ _ hcan.win⟩
    refine hplain _ _ ?_
    rw [if_neg (fun h => hfull (of_decide_eq_true h))]
    exact pokeMask_own h.occupied ..

/-- The bytes that a reader sees after a masked write of a vector (R173). -/
theorem peek_maskedWrite {s t : State} {ea : Word} (hocc : s.core.occupied = true) (hcan : Canonical s) {v : Nat} {mask : BitVec 32} {m : Memory}
    (hm : ∀ c, m.get c = if ea.toNat % 2 ^ 48 ≤ c ∧ c < ea.toNat % 2 ^ 48 + 32 ∧ mask.getLsbD (c - ea.toNat % 2 ^ 48) = true then
      BitVec.ofNat 8 (v / 256 ^ (c - ea.toNat % 2 ^ 48)) else s.proc.win.get c) (ht : KeepsData (s.setWin m) t) (p : Place) :
    t.peek p 1 = match s.ownBytes ea 32 v p, p with
      | some b, .win _ _ o => if mask.getLsbD (o - ea.toNat % 2 ^ 48) then b else s.peek p 1
      | _, _ => s.peek p 1 := by
  rw [ht.peek]
  cases p with
  | phys a => rfl
  | host c a => rfl
  | mmio c o => rfl
  | win g l o =>
    by_cases hgl : g = s.proc.gid ∧ l = s.proc.lid
    · obtain ⟨rfl, rfl⟩ := hgl
      have hnew : (s.setWin m).peek (.win s.proc.gid s.proc.lid o) 1 = (m.get o).toNat := by
        rw [← read_one]
        exact congrArg (fun m => Memory.read m o 1) (window_own (s := s.setWin m) hocc)
      have hold : s.peek (.win s.proc.gid s.proc.lid o) 1 = (s.proc.win.get o).toNat := by
        rw [← read_one]
        exact congrArg (fun m => Memory.read m o 1) (window_own hocc)
      rw [hnew, hold, hm]
      unfold State.ownBytes
      dsimp only
      by_cases ho : ea.toNat % 2 ^ 48 ≤ o ∧ o < ea.toNat % 2 ^ 48 + 32
      · rw [if_pos (c := _ ∧ _ ∧ _ ∧ _) ⟨rfl, rfl, ho⟩]
        dsimp only
        by_cases hbit : mask.getLsbD (o - ea.toNat % 2 ^ 48) = true
        · rw [if_pos ⟨ho.1, ho.2, hbit⟩, if_pos hbit]
          exact BitVec.toNat_ofNat ..
        · rw [if_neg fun h => hbit h.2.2, if_neg hbit]
      · rw [if_neg fun h => ho ⟨h.1, h.2.1⟩, if_neg fun h => ho h.2.2]
    · have hbytes : s.ownBytes ea 32 v (.win g l o) = none := if_neg fun h => hgl ⟨h.1, h.2.1⟩
      rw [hbytes]
      exact congrArg (fun m => Memory.read m o 1) (window_setWin_other hcan hocc m hgl)

theorem execVld_empty {s : State} {q : BitVec 3} {d : BitVec 4} {a : BitVec 5} {k : BitVec 3} {imm : BitVec 10} (hq : s.rp q = true) (hm : s.rk k = 0) :
    execVld q d a k imm s = .next (s.setThr s.thr.retired) := by
  unfold execVld
  rw [guarded_true hq]
  dsimp only
  rw [if_pos hm]
  rfl

theorem execVst_empty {s : State} {q : BitVec 3} {d : BitVec 4} {a : BitVec 5} {k : BitVec 3} {imm : BitVec 10} (hq : s.rp q = true) (hm : s.rk k = 0) :
    execVst q d a k imm s = .next (s.setThr s.thr.retired) := by
  unfold execVst
  rw [guarded_true hq]
  dsimp only
  rw [if_pos hm]
  rfl

/-- A vector load from the own window. -/
theorem execVld_own {s : State} {q : BitVec 3} {d : BitVec 4} {a : BitVec 5} {k : BitVec 3} {imm : BitVec 10} {ea : Word}
    (hva : s.rx a + imm.signExtend 64 * 32 = ea) (hq : s.rp q = true) (hm : s.rk k ≠ 0) (h : OwnData s ea 32) :
    execVld q d a k imm s = .next (s.setThr (({ s.thr with gotSig := {} } : Thread).wv d
      (mergeVec (s.rv d) (Memory.read s.proc.win (ea.toNat % 2 ^ 48) 32) (s.rk k))).retired) := by
  unfold execVld
  rw [guarded_true hq, imm10Vec]
  dsimp only
  rw [hva, if_neg hm, h.atAddr, if_neg (by rw [show atPort k (s.ownPlace ea) = false from rfl]; decide),
    h.startAcc rfl (by simp) rfl (h.load _ rfl rfl rfl) rfl, State.retire, thr_setThr, thr_setThr, setThr_setThr, setThr_setThr]
  rfl

/-- A vector store to the own window. -/
theorem execVst_own {s : State} {q : BitVec 3} {d : BitVec 4} {a : BitVec 5} {k : BitVec 3} {imm : BitVec 10} {ea : Word}
    (hva : s.rx a + imm.signExtend 64 * 32 = ea) (hq : s.rp q = true) (hm : s.rk k ≠ 0) (h : OwnData s ea 32) {m : Memory}
    (hwrite : s.homeWrite (s.ownPlace ea) 32 (s.rv d).toNat (s.rk k).toNat = s.setWin m) :
    execVst q d a k imm s = .next ((s.setWin m).setThr ({ s.thr with gotSig := {} } : Thread).retired) := by
  have hmask : (s.rk k).toNat ≠ 0 := fun h0 => hm (BitVec.eq_of_toNat_eq h0)
  have hperf : s.performHome { kind := .store, place := s.ownPlace ea, va := ea, size := 32, val := (s.rv d).toNat, mask := (s.rk k).toNat, queued := (16 : Nat) == 0 }
      (.thread s.here s.slot.val) = .done (s.setWin m) 0 {} true := by
    unfold State.performHome
    dsimp only
    rw [h.home]
    dsimp only
    rw [if_neg hmask, hwrite]
  unfold execVst
  rw [guarded_true hq, imm10Vec]
  dsimp only
  rw [hva, if_neg hm, h.atAddr, if_neg (by rw [show atPort k (s.ownPlace ea) = false from rfl]; decide), h.startAcc rfl (by simp) rfl hperf rfl,
    State.retire, thr_setThr, thr_setThr, setThr_setThr, setThr_setThr]
  rfl

/-! ### Strided accesses (R174) -/

/-- The record of a received signature emptied, as an access that is no acquire leaves it. -/
def State.sigCleared (s : State) : State := s.setThr { s.thr with gotSig := {} }

theorem sigCleared_sigCleared (s : State) : s.sigCleared.sigCleared = s.sigCleared := by
  unfold State.sigCleared
  rw [thr_setThr, setThr_setThr]

theorem thr_sigCleared (s : State) : s.sigCleared.thr = { s.thr with gotSig := {} } := thr_setThr _ _

theorem storeQ_sigCleared (s : State) : s.sigCleared.thr.storeQ = s.thr.storeQ := by rw [thr_sigCleared]

theorem OwnData.sigCleared {s : State} {va : Word} {n : Nat} (h : OwnData s va n) : OwnData s.sigCleared va n :=
  ⟨h.occupied, h.alive, h.window, h.inside, h.bytes, h.aligned, (storeQ_sigCleared s).trans h.noStores, h.home, h.sound⟩

theorem OwnData.ownWrite {s : State} {va : Word} {n : Nat} (h : OwnData s va n) (w : Word) (k v : Nat) : OwnData (s.ownWrite w k v) va n :=
  ⟨h.occupied, h.alive, h.window, h.inside, h.bytes, h.aligned, h.noStores, h.home, h.sound⟩

/-- Accesses of the own window that are performed one after another in the turn. -/
theorem pump_performed {acc : Nat → Acc} {f : State → Nat → State} {v : Nat → Nat} {P : State → Prop} {l : List Nat}
    (hstep : ∀ u, P u → ∀ i ∈ l, (acc i).queued = false ∧ u.thr.storeQ = [] ∧ u.isLocal (acc i).place = true ∧
      u.perform (acc i) u.here u.slot.val = .done (f u i) (v i) {} true)
    (hkeep : ∀ u, P u → ∀ i ∈ l, P (f u i).sigCleared) (got : List Nat) {s : State} (hs : P s) :
    pump (l.map acc) got s = .done (l.foldl (fun u i => (f u i).sigCleared) s) (got ++ l.map v) := by
  induction l generalizing s got with
  | nil => simp [pump]
  | cons i l ih =>
    obtain ⟨hq, hst, hloc, hperf⟩ := hstep s hs i List.mem_cons_self
    rw [List.map_cons]
    unfold pump
    rw [hq, if_neg (by decide), if_neg (not_not.mpr hst), if_pos hloc, hperf]
    dsimp only
    rw [show (f s i).setThr { (f s i).thr with gotSig := {} } = (f s i).sigCleared from rfl,
      ih (fun u hu j hj => hstep u hu j (List.mem_cons_of_mem i hj)) (fun u hu j hj => hkeep u hu j (List.mem_cons_of_mem i hj)) _
        (hkeep s hs i List.mem_cons_self)]
    simp

/-- An instruction whose accesses are all performed in the turn. -/
theorem startAcc_performed {accs : List Acc} {c : Cont} {s s1 s2 : State} {got : List Nat} (hq : ∀ a ∈ accs, a.queued = false) (hst : s.thr.storeQ = [] ∨ accs = [])
    (hp : pump accs [] s = .done s1 got) (hc : s1.complete c got = .ok s2) : startAcc accs c s = s2.retire := by
  have hwait : accs.head?.bind s.queueWait = none := by
    cases accs with
    | nil => rfl
    | cons a l =>
      change s.queueWait a = none
      unfold State.queueWait
      rw [hq a List.mem_cons_self, if_neg (by decide), if_pos (hst.resolve_right (List.cons_ne_nil a l))]
  unfold startAcc
  rw [hwait, hp]
  dsimp only
  rw [hc]

/-- The access of an element of a strided load or store in the own window. -/
def elemAcc (s : State) (need : Need) (n : Nat) (ea : Word) (v : Nat) : Acc :=
  { kind := if need = .w then .store else .load, place := s.ownPlace ea, va := ea, size := n, val := v, queued := need == .w && (16 : Nat) == 0 }

theorem endedAt_own {s : State} (hocc : s.core.occupied = true) (halive : s.proc.ended = false) (va : Word) : s.endedAt (s.ownPlace va) = false := by
  unfold State.endedAt State.ownPlace
  dsimp only
  rw [coreOf_own hocc]
  exact (congrArg (·.proc.ended) (coreAt_here s)).trans halive

theorem OwnData.checkElem {s : State} {ea : Word} {n : Nat} (h : OwnData s ea n) (need : Need) (i : Nat) :
    checkElem s need n ea i = .ok i (elemAcc s need n ea 0) := by
  unfold Machine.checkElem
  rw [if_neg (not_not.mpr h.aligned), h.resolve]
  dsimp only
  rw [endedAt_own h.occupied h.alive, if_neg (by decide)]
  rfl

/-- Where every element passes, none stops the access. -/
theorem worst_ok (l : List Nat) (a : Nat → Acc) : worst (l.map fun i => .ok i (a i)) = none ∨ ∃ i b, worst (l.map fun i => .ok i (a i)) = some (.ok i b) := by
  induction l with
  | nil => exact Or.inl rfl
  | cons i l ih =>
    right
    rw [List.map_cons]
    unfold worst
    obtain h | ⟨j, b, h⟩ := ih
    · rw [h]
      exact ⟨i, a i, rfl⟩
    · rw [h]
      dsimp only
      split
      · exact ⟨j, b, rfl⟩
      · exact ⟨i, a i, rfl⟩

theorem strided_own {s : State} {need : Need} {n : Nat} {m : BitVec 32} {base stride : Word} {val : Nat → Nat} {c : List Nat → Cont}
    (h : ∀ i ∈ activeElems m n, OwnData s (elemAddr base stride i) n) :
    strided need n m base stride val c s =
      startAcc ((activeElems m n).map fun i => elemAcc s need n (elemAddr base stride i) (if need = .w then val i else 0)) (c (activeElems m n)) s := by
  have hchecks : (activeElems m n).map (fun i => checkElem s need n (elemAddr base stride i) i) =
      (activeElems m n).map (fun i => .ok i (elemAcc s need n (elemAddr base stride i) 0)) :=
    List.map_congr_left fun i hi => (h i hi).checkElem need i
  unfold strided
  dsimp only
  rw [hchecks]
  have hworst := worst_ok (activeElems m n) fun i => elemAcc s need n (elemAddr base stride i) 0
  split
  · rename_i ht
    rw [ht] at hworst
    obtain h | ⟨_, _, h⟩ := hworst <;> cases h
  · rename_i ht
    rw [ht] at hworst
    obtain h | ⟨_, _, h⟩ := hworst <;> cases h
  · rw [List.filterMap_map]
    congr 1
    exact congrFun (List.filterMap_eq_map (f := fun i => elemAcc s need n (elemAddr base stride i) (if need = .w then val i else 0))) _

/-- Steps that commute with the emptying of the record, each followed by it. -/
theorem foldl_sigCleared {f : State → Nat → State} (hf : ∀ u i, f u.sigCleared i = (f u i).sigCleared) (l : List Nat) (s : State) :
    l.foldl (fun u i => (f u i).sigCleared) s = if l = [] then s else (l.foldl f s).sigCleared := by
  have hpast (l : List Nat) : ∀ u : State, l.foldl (fun u i => (f u i).sigCleared) u.sigCleared = (l.foldl f u).sigCleared := by
    induction l with
    | nil => exact fun u => rfl
    | cons i l ih =>
      intro u
      rw [List.foldl_cons, List.foldl_cons, hf, sigCleared_sigCleared]
      exact ih (f u i)
  cases l with
  | nil => rfl
  | cons i l =>
    rw [if_neg (List.cons_ne_nil i l), List.foldl_cons, List.foldl_cons]
    exact hpast l (f s i)

/-- The thread of a strided access of the own window, its record of a signature emptied by the first access. -/
def stridedThread (s : State) (l : List Nat) : Thread := if l = [] then s.thr else { s.thr with gotSig := {} }

theorem rv_stridedThread (s : State) (l : List Nat) (d : BitVec 4) : (stridedThread s l).rv d = s.rv d := by
  unfold stridedThread
  split <;> rfl

/-- The elements of a strided load are read in their turn. -/
theorem startAcc_vlds {s : State} {n : Nat} {ea : Nat → Word} {l : List Nat} (h : ∀ i ∈ l, OwnData s (ea i) n) (d : BitVec 4) :
    startAcc (l.map fun i => elemAcc s .r n (ea i) 0) (.vlds d n l) s =
      .next (s.setThr ((stridedThread s l).wv d (mergeElems (s.rv d) n l (l.map fun i => Memory.read s.proc.win ((ea i).toNat % 2 ^ 48) n))).retired) := by
  have hsame (u : State) (hu : u = s ∨ u = s.sigCleared) (i : Nat) (hi : i ∈ l) : OwnData u (ea i) n ∧ u.proc = s.proc := by
    obtain rfl | rfl := hu
    · exact ⟨h i hi, rfl⟩
    · exact ⟨(h i hi).sigCleared, rfl⟩
  have hpump : pump (l.map fun i => elemAcc s .r n (ea i) 0) [] s =
      .done (l.foldl (fun u _ => u.sigCleared) s) ([] ++ l.map fun i => Memory.read s.proc.win ((ea i).toNat % 2 ^ 48) n) := by
    refine pump_performed (f := fun u _ => u) (P := fun u => u = s ∨ u = s.sigCleared) (fun u hu i hi => ?_) (fun u hu i hi => ?_) [] (Or.inl rfl)
    · obtain ⟨hown, hproc⟩ := hsame u hu i hi
      have hplace : (elemAcc s .r n (ea i) 0).place = u.ownPlace (ea i) := by
        unfold State.ownPlace
        rw [hproc]
        rfl
      refine ⟨rfl, hown.noStores, by rw [hplace]; exact hown.isLocal, ?_⟩
      rw [hown.performs hplace (by simp [elemAcc]), hown.load _ hplace rfl rfl, hproc]
    · obtain rfl | rfl := hu
      · exact Or.inr rfl
      · exact Or.inr (sigCleared_sigCleared s)
  have hfold : l.foldl (fun u _ => u.sigCleared) s = s.setThr (stridedThread s l) := by
    have hnothing (l : List Nat) : ∀ u : State, l.foldl (fun u _ => u) u = u := by
      induction l with
      | nil => exact fun _ => rfl
      | cons i l ih => exact ih
    rw [foldl_sigCleared (f := fun u _ => u) (fun _ _ => rfl), hnothing]
    unfold stridedThread
    split
    · exact (setThr_thr s).symm
    · rfl
  rw [hfold, List.nil_append] at hpump
  rw [startAcc_performed ?_ ?_ hpump rfl, State.retire, thr_setThr, thr_setThr, setThr_setThr, setThr_setThr]
  · rw [← rv_stridedThread s l]
    rfl
  · intro a ha
    obtain ⟨i, -, rfl⟩ := List.mem_map.mp ha
    rfl
  · cases l with
    | nil => exact Or.inr rfl
    | cons i l => exact Or.inl (h i List.mem_cons_self).noStores

/-- The elements of a strided store are written in their turn, from the lowest on. -/
theorem startAcc_vsts {s : State} {n : Nat} {ea : Nat → Word} {v : Nat → Nat} {l : List Nat} (h : ∀ i ∈ l, OwnData s (ea i) n) (hw : PlainWrites s) :
    startAcc (l.map fun i => elemAcc s .w n (ea i) (v i)) .nop s =
      .next ((l.foldl (fun (u : State) i => u.ownWrite (ea i) n (v i)) s).setThr (stridedThread s l).retired) := by
  have hpump : pump (l.map fun i => elemAcc s .w n (ea i) (v i)) [] s =
      .done (l.foldl (fun u i => (u.ownWrite (ea i) n (v i)).sigCleared) s) ([] ++ l.map fun _ => 0) := by
    refine pump_performed (f := fun u i => u.ownWrite (ea i) n (v i))
      (P := fun u => (∀ i ∈ l, OwnData u (ea i) n) ∧ PlainWrites u ∧ u.proc.gid = s.proc.gid ∧ u.proc.lid = s.proc.lid)
      (fun u hu i hi => ?_) (fun u hu i hi => ?_) [] ⟨h, hw, rfl, rfl⟩
    · obtain ⟨hown, hplain, hgid, hlid⟩ := hu
      have hplace : (elemAcc s .w n (ea i) (v i)).place = u.ownPlace (ea i) := by
        unfold State.ownPlace
        rw [hgid, hlid]
        rfl
      refine ⟨rfl, (hown i hi).noStores, by rw [hplace]; exact (hown i hi).isLocal, ?_⟩
      rw [(hown i hi).performs hplace (by simp [elemAcc]), (hown i hi).store hplain _ hplace rfl rfl rfl]
      rfl
    · obtain ⟨hown, hplain, hgid, hlid⟩ := hu
      exact ⟨fun j hj => ((hown j hj).ownWrite _ _ _).sigCleared, ⟨hplain.noWatch, hplain.noError⟩, hgid, hlid⟩
  have hthr (l : List Nat) : ∀ u : State, (l.foldl (fun (u : State) i => u.ownWrite (ea i) n (v i)) u).thr = u.thr := by
    induction l with
    | nil => exact fun _ => rfl
    | cons i l ih => exact fun u => ih (u.ownWrite (ea i) n (v i))
  rw [foldl_sigCleared (f := fun u i => u.ownWrite (ea i) n (v i)) (fun _ _ => rfl)] at hpump
  rw [startAcc_performed ?_ ?_ hpump rfl]
  · unfold stridedThread
    by_cases hl : l = []
    · rw [if_pos hl, if_pos hl, hl, State.retire, thr_setThr, setThr_setThr]
      rfl
    · rw [if_neg hl, if_neg hl, State.retire, thr_setThr, setThr_setThr, thr_sigCleared, hthr, State.sigCleared, setThr_setThr]
      rfl
  · intro a ha
    obtain ⟨i, -, rfl⟩ := List.mem_map.mp ha
    rfl
  · cases l with
    | nil => exact Or.inr rfl
    | cons i l => exact Or.inl (h i List.mem_cons_self).noStores

theorem execVlds_own {s : State} {q : BitVec 3} {d : BitVec 4} {a b : BitVec 5} {sz : BitVec 2} {k : BitVec 3} (hq : s.rp q = true)
    (h : ∀ i ∈ activeElems (s.rk k) (2 ^ sz.toNat), OwnData s (elemAddr (s.rx a) (s.rx b) i) (2 ^ sz.toNat)) :
    execVlds q d a b sz k s = .next (s.setThr ((stridedThread s (activeElems (s.rk k) (2 ^ sz.toNat))).wv d
      (mergeElems (s.rv d) (2 ^ sz.toNat) (activeElems (s.rk k) (2 ^ sz.toNat)) ((activeElems (s.rk k) (2 ^ sz.toNat)).map fun i =>
        Memory.read s.proc.win ((elemAddr (s.rx a) (s.rx b) i).toNat % 2 ^ 48) (2 ^ sz.toNat)))).retired) := by
  unfold execVlds
  rw [guarded_true hq]
  dsimp only
  rw [strided_own h, if_neg (by decide)]
  exact startAcc_vlds h d

theorem execVsts_own {s : State} {q : BitVec 3} {d : BitVec 4} {a b : BitVec 5} {sz : BitVec 2} {k : BitVec 3} (hq : s.rp q = true) (hw : PlainWrites s)
    (h : ∀ i ∈ activeElems (s.rk k) (2 ^ sz.toNat), OwnData s (elemAddr (s.rx a) (s.rx b) i) (2 ^ sz.toNat)) :
    execVsts q d a b sz k s = .next (((activeElems (s.rk k) (2 ^ sz.toNat)).foldl (fun (u : State) i =>
      u.ownWrite (elemAddr (s.rx a) (s.rx b) i) (2 ^ sz.toNat) ((s.rv d).toNat / 256 ^ (2 ^ sz.toNat * i) % 256 ^ 2 ^ sz.toNat)) s).setThr
        (stridedThread s (activeElems (s.rk k) (2 ^ sz.toNat))).retired) := by
  unfold execVsts
  rw [guarded_true hq]
  dsimp only
  rw [strided_own h]
  simp only [reduceIte]
  exact startAcc_vsts h hw

end Sys2Proof.Machine

namespace Sys2Proof
open Machine

/-- Settles O29: the accesses by `execVld_own`, `execVst_own`, `startAcc_vlds` and `startAcc_vsts`, the bytes and elements by the rules of lanes. -/
theorem vectorAccesses : Obligations.VectorAccesses := by
  unfold Obligations.VectorAccesses
  refine ⟨fun q d a k imm s hq => ?_, fun q d a b sz k s hq => ?_⟩
  · intro ea m off t
    refine ⟨fun hm => ⟨?_, ?_⟩, fun hm hown => ⟨?_, fun hw hcan => ?_⟩⟩
    · exact execVld_empty hq hm
    · exact execVst_empty hq hm
    · refine ⟨_, execVld_own (ea := ea) rfl hq hm hown, fun i hi => ?_⟩
      rw [toNat_byte, toNat_byte, lane_mergeVec _ _ _ hi, read_byte _ _ _ _ hi]
    · obtain ⟨w, hwrite, hget⟩ := maskedWrite_own hown hw hcan (s.rv d).toNat (s.rk k)
      exact ⟨_, execVst_own (ea := ea) rfl hq hm hown hwrite, thr_setThr _ _, peek_maskedWrite hown.occupied hcan hget (keepsData_setThr _ _)⟩
  · intro n ea act elem t hown
    have hlanes (i : Nat) (hi : i < 32 / n) : 8 * n * i + 8 * n ≤ 256 := by
      have := Nat.div_mul_le_self 32 n
      have := Nat.mul_le_mul_left n (Nat.succ_le_of_lt hi)
      rw [Nat.mul_comm n (32 / n)] at this
      rw [Nat.mul_succ] at this
      rw [Nat.mul_assoc]
      lia
    refine ⟨⟨_, execVlds_own hq hown, fun i hi => ?_⟩, fun hw => execVsts_own hq hw hown⟩
    have hj (j : Nat) (hj : j ∈ act) : 8 * n * j + 8 * n ≤ 256 := hlanes j (List.mem_range.mp (List.mem_filter.mp hj).1)
    have hlane := lane_mergeElems n act hj (fun j => Memory.read s.proc.win ((ea j).toNat % 2 ^ 48) n) (hlanes i hi) (s.rv d)
    rw [← elem_eq_lane, ← elem_eq_lane, two_pow_bytes, Nat.mod_eq_of_lt (read_lt ..)] at hlane
    exact hlane

end Sys2Proof
end

section
/-! Lane-wise instructions, masks and reductions (R135-R146). -/

namespace Sys2Proof.Machine

/-! ### Lane types (Table 6.1) -/

theorem laneWidth_cases (t : BitVec 3) : laneWidth t = 8 ∨ laneWidth t = 16 ∨ laneWidth t = 32 ∨ laneWidth t = 64 := by
  revert t
  decide

theorem laneWidth_pos (t : BitVec 3) : 0 < laneWidth t := by
  obtain h | h | h | h := laneWidth_cases t <;> rw [h] <;> decide

/-- The lanes of a type fill the register. -/
theorem lane_fits (t : BitVec 3) {j : Nat} (h : j < 256 / laneWidth t) : laneWidth t * j + laneWidth t ≤ 256 := by
  have hdiv := Nat.div_mul_le_self 256 (laneWidth t)
  have hmul := Nat.mul_le_mul_left (laneWidth t) (Nat.succ_le_of_lt h)
  rw [Nat.mul_succ, Nat.mul_comm _ (256 / laneWidth t)] at hmul
  lia

theorem lanes_fill (t : BitVec 3) : laneWidth t * (256 / laneWidth t) = 256 := by
  obtain h | h | h | h := laneWidth_cases t <;> rw [h]

/-! ### The loop over the lanes (R136) -/

theorem lane_laneLoop (w : Nat) (active : Nat → Bool) (f : Nat → Nat × FFlags) (n i : Nat) (hfit : w * (i + n) ≤ 256) {j : Nat} (hj : w * j + w ≤ 256)
    (v : BitVec 256) (fl : FFlags) :
    lane (laneLoop w active f n i v fl).1 w j = if i ≤ j ∧ j < i + n ∧ active j = true then (f j).1 % 2 ^ w else lane v w j := by
  induction n generalizing i v fl with
  | zero =>
    rw [if_neg (by lia)]
    rfl
  | succ n ih =>
    have hrest : w * (i + 1 + n) ≤ 256 := by rwa [show i + 1 + n = i + (n + 1) by lia]
    have hi : w * i + w ≤ 256 := by
      rw [← Nat.mul_succ]
      exact Nat.le_trans (Nat.mul_le_mul_left w (by lia)) hfit
    unfold laneLoop
    by_cases hact : active i = true
    · rw [if_pos hact]
      dsimp only
      rw [ih (i + 1) hrest]
      by_cases hij : j = i
      · subst hij
        rw [if_neg (by lia), if_pos ⟨Nat.le_refl j, by lia, hact⟩, lane_setLane v _ hi hj, if_pos rfl]
      · rw [lane_setLane v _ hi hj, if_neg hij]
        by_cases h : i + 1 ≤ j ∧ j < i + 1 + n ∧ active j = true
        · rw [if_pos h, if_pos ⟨by lia, by lia, h.2.2⟩]
        · rw [if_neg h, if_neg fun h' => h ⟨by lia, by lia, h'.2.2⟩]
    · rw [if_neg hact, ih (i + 1) hrest]
      by_cases h : i + 1 ≤ j ∧ j < i + 1 + n ∧ active j = true
      · rw [if_pos h, if_pos ⟨by lia, by lia, h.2.2⟩]
      · rw [if_neg h, if_neg]
        rintro ⟨hle, hlt, hj⟩
        refine h ⟨?_, by lia, hj⟩
        by_contra hgt
        exact hact ((show j = i by lia) ▸ hj)

theorem flags_laneLoop (w : Nat) (active : Nat → Bool) (f : Nat → Nat × FFlags) (n i : Nat) (v : BitVec 256) (fl : FFlags) (e : Nat) :
    (laneLoop w active f n i v fl).2.getLsbD e = (fl.getLsbD e || (List.range' i n).any fun j => active j && (f j).2.getLsbD e) := by
  induction n generalizing i v fl with
  | zero => simp [laneLoop]
  | succ n ih =>
    unfold laneLoop
    rw [List.range'_succ, List.any_cons]
    by_cases hact : active i = true
    · rw [if_pos hact]
      dsimp only
      rw [ih, hact, BitVec.getLsbD_or, Bool.true_and, Bool.or_assoc]
    · rw [if_neg hact, ih, Bool.not_eq_true _ |>.mp hact, Bool.false_and, Bool.false_or]

/-- A lane-wise instruction: what it leaves in its lanes, and the flags it raises (R136, R137). -/
theorem lanesInto_lanes (q : BitVec 3) (d : BitVec 4) (t : BitVec 3) (active : Nat → Bool) (f : Nat → Nat × FFlags) (s : State) {b : State → Out}
    (hb : b s = lanesInto d t active f s) :
    ∃ v fl, guarded q s b = .next (s.ran q fun u => (u.wv d v).flag fl) ∧
      (∀ j, j < 256 / laneWidth t → lane v (laneWidth t) j = if active j = true then (f j).1 % 2 ^ laneWidth t else lane (s.rv d) (laneWidth t) j) ∧
      ∀ e, fl.getLsbD e = (List.range (256 / laneWidth t)).any fun j => active j && (f j).2.getLsbD e := by
  obtain ⟨v, fl, hloop⟩ : ∃ v fl, laneLoop (laneWidth t) active f (laneCount t) 0 (s.rv d) 0 = (v, fl) := ⟨_, _, rfl⟩
  refine ⟨v, fl, guarded_ran q s (fun u => (u.wv d v).flag fl) b (hb.trans ?_), fun j hj => ?_, fun e => ?_⟩
  · unfold lanesInto
    rw [hloop, State.retire, thr_setThr, setThr_setThr]
  · have hlane := lane_laneLoop (laneWidth t) active f (laneCount t) 0 (by rw [Nat.zero_add]; exact Nat.le_of_eq (lanes_fill t)) (lane_fits t hj) (s.rv d) 0
    rw [hloop] at hlane
    rw [hlane]
    have hin : j < 0 + laneCount t := by rwa [Nat.zero_add]
    by_cases hact : active j = true
    · rw [if_pos hact, if_pos ⟨Nat.zero_le j, hin, hact⟩]
    · rw [if_neg hact, if_neg fun h => hact h.2.2]
  · have hflags := flags_laneLoop (laneWidth t) active f (laneCount t) 0 (s.rv d) 0 e
    rw [hloop, show BitVec.getLsbD (0 : FFlags) e = false from BitVec.getLsbD_zero, Bool.false_or] at hflags
    rw [List.range_eq_range']
    exact hflags

/-- Flags that no lane raises. -/
theorem flags_none {fl : FFlags} {l : List Nat} {on : Nat → Bool} (h : ∀ e, fl.getLsbD e = l.any fun j => on j && (0 : FFlags).getLsbD e) : fl = 0 := by
  refine BitVec.eq_of_getLsbD_eq fun e _ => ?_
  rw [h e]
  simp

/-- A lane-wise instruction that raises no flag. -/
theorem lanesInto_quiet (q : BitVec 3) (d : BitVec 4) (t : BitVec 3) (active : Nat → Bool) (f : Nat → Nat) (s : State) {b : State → Out}
    (hb : b s = lanesInto d t active (fun i => (f i, 0)) s) :
    ∃ v, guarded q s b = .next (s.ran q fun u => u.wv d v) ∧
      ∀ j, j < 256 / laneWidth t → lane v (laneWidth t) j = if active j = true then f j % 2 ^ laneWidth t else lane (s.rv d) (laneWidth t) j := by
  obtain ⟨v, fl, hexec, hlanes, hflags⟩ := lanesInto_lanes q d t active (fun i => (f i, 0)) s hb
  have hnone : fl = 0 := flags_none hflags
  subst hnone
  refine ⟨v, ?_, hlanes⟩
  rw [hexec]
  exact congrArg (fun f => Host.Outcome.next (s.ran q f)) (funext fun u => flag_zero _)

/-! ### VOP (R138, R139) -/

section
variable (o : LaneOp) (q t : BitVec 3) (d a b : BitVec 4) (k : BitVec 3) (s : State)

theorem vop_int (h : laneFp t = false) {g : Nat → Nat → Nat → Nat}
    (hg : ∀ x y z, x < 2 ^ laneWidth t → y < 2 ^ laneWidth t → z < 2 ^ laneWidth t → o.int (laneWidth t) x y z % 2 ^ laneWidth t = g x y z) :
    ∃ v, vop o q t d a b k s = .next (s.ran q fun u => u.wv d v) ∧ ∀ j, j < 256 / laneWidth t → lane v (laneWidth t) j =
      if (s.rk k).getLsbD j = true then g (lane (s.rv a) (laneWidth t) j) (lane (s.rv b) (laneWidth t) j) (lane (s.rv d) (laneWidth t) j)
      else lane (s.rv d) (laneWidth t) j := by
  obtain ⟨v, hexec, hlanes⟩ := lanesInto_quiet q d t (fun i => (s.rk k).getLsbD i) (fun i =>
    o.int (laneWidth t) (lane (s.rv a) (laneWidth t) i) (lane (s.rv b) (laneWidth t) i) (lane (s.rv d) (laneWidth t) i)) s (b := fun s =>
      lanesInto d t (fun i => (s.rk k).getLsbD i) (fun i =>
        if laneFp t then o.fp (laneFmt t) s.thr.rm s.thr.daz s.thr.ftz (lane (s.rv a) (laneWidth t) i) (lane (s.rv b) (laneWidth t) i) (lane (s.rv d) (laneWidth t) i)
        else (o.int (laneWidth t) (lane (s.rv a) (laneWidth t) i) (lane (s.rv b) (laneWidth t) i) (lane (s.rv d) (laneWidth t) i), 0)) s)
    (by simp only [h, Bool.false_eq_true, if_false])
  refine ⟨v, hexec, fun j hj => ?_⟩
  rw [hlanes j hj, hg _ _ _ (lane_lt ..) (lane_lt ..) (lane_lt ..)]

theorem vop_fp (h : laneFp t = true) :
    ∃ v fl, vop o q t d a b k s = .next (s.ran q fun u => (u.wv d v).flag fl) ∧
      (∀ j, j < 256 / laneWidth t → lane v (laneWidth t) j = if (s.rk k).getLsbD j = true then
        (o.fp (laneFmt t) s.thr.rm s.thr.daz s.thr.ftz (lane (s.rv a) (laneWidth t) j) (lane (s.rv b) (laneWidth t) j) (lane (s.rv d) (laneWidth t) j)).1 % 2 ^ laneWidth t
        else lane (s.rv d) (laneWidth t) j) ∧
      ∀ e, fl.getLsbD e = (List.range (256 / laneWidth t)).any fun j => (s.rk k).getLsbD j &&
        (o.fp (laneFmt t) s.thr.rm s.thr.daz s.thr.ftz (lane (s.rv a) (laneWidth t) j) (lane (s.rv b) (laneWidth t) j) (lane (s.rv d) (laneWidth t) j)).2.getLsbD e :=
  lanesInto_lanes q d t (fun i => (s.rk k).getLsbD i) (fun i =>
    o.fp (laneFmt t) s.thr.rm s.thr.daz s.thr.ftz (lane (s.rv a) (laneWidth t) i) (lane (s.rv b) (laneWidth t) i) (lane (s.rv d) (laneWidth t) i)) s (b := fun s =>
      lanesInto d t (fun i => (s.rk k).getLsbD i) (fun i =>
        if laneFp t then o.fp (laneFmt t) s.thr.rm s.thr.daz s.thr.ftz (lane (s.rv a) (laneWidth t) i) (lane (s.rv b) (laneWidth t) i) (lane (s.rv d) (laneWidth t) i)
        else (o.int (laneWidth t) (lane (s.rv a) (laneWidth t) i) (lane (s.rv b) (laneWidth t) i) (lane (s.rv d) (laneWidth t) i), 0)) s)
    (by simp only [h, if_true])

end

/-! ### The integer lanes (R139) -/

theorem laneInt_eq_toInt {w x : Nat} (hw : 0 < w) (h : x < 2 ^ w) : laneInt w x = (BitVec.ofNat w x).toInt := by
  have hhalf : 2 * 2 ^ (w - 1) = 2 ^ w := by rw [← pow_succ', Nat.sub_add_cancel hw]
  unfold laneInt
  rw [BitVec.toInt_eq_toNat_cond, BitVec.toNat_ofNat, Nat.mod_eq_of_lt h]
  by_cases hx : x < 2 ^ (w - 1)
  · rw [if_pos hx, if_pos (by lia)]
  · rw [if_neg hx, if_neg (by lia)]
    norm_cast

/-- The quotient of two lanes. -/
theorem laneDiv_eq {w x y : Nat} (hw : 0 < w) (hx : x < 2 ^ w) (hy : y < 2 ^ w) :
    laneDiv w x y = if y = 0 then 2 ^ w - 1 else (((laneInt w x).tdiv (laneInt w y)) % 2 ^ w).toNat := by
  unfold laneDiv
  rw [divS_eq_ofInt, ← laneInt_eq_toInt hw hx, ← laneInt_eq_toInt hw hy]
  by_cases h : y = 0
  · rw [if_pos h, if_pos (by rw [h]; rfl), BitVec.toNat_allOnes]
  · rw [if_neg h, if_neg]
    · rw [BitVec.toNat_ofInt]
      norm_cast
    · intro h0
      have := congrArg BitVec.toNat h0
      rw [BitVec.toNat_ofNat, Nat.mod_eq_of_lt hy] at this
      exact h (this.trans (by simp))

theorem ofInt_lt (w : Nat) (i : Int) : ofInt w i < 2 ^ w := by
  have hpos : (0 : Int) < 2 ^ w := by positivity
  have h1 := Int.emod_nonneg i hpos.ne'
  have h2 := Int.emod_lt_of_pos i hpos
  unfold ofInt
  zify
  rw [Int.toNat_of_nonneg h1]
  exact_mod_cast h2

theorem sub_lane {w x y : Nat} (hx : x < 2 ^ w) (hy : y < 2 ^ w) : (x + 2 ^ w - y) % 2 ^ w = if y ≤ x then x - y else 2 ^ w + x - y := by
  by_cases h : y ≤ x
  · rw [if_pos h, show x + 2 ^ w - y = x - y + 2 ^ w by omega, Nat.add_mod_right, Nat.mod_eq_of_lt (by omega)]
  · rw [if_neg h, Nat.mod_eq_of_lt (by omega), Nat.add_comm]

theorem ofInt_natCast (w x : Nat) : ofInt w (x : Int) = x % 2 ^ w :=
  congrArg Int.toNat (by norm_cast : (x : Int) % 2 ^ w = ((x % 2 ^ w : Nat) : Int))

theorem ite_lt {p : Prop} [Decidable p] {x y n : Nat} (hx : x < n) (hy : y < n) : (if p then x else y) < n := by
  split
  · exact hx
  · exact hy

/-- The negative of a lane, modulo its width. -/
theorem ofInt_neg_lane {w x : Nat} (h : x < 2 ^ w) : ofInt w (-(laneInt w x)) = (2 ^ w - x) % 2 ^ w := by
  have hmod : (-(laneInt w x)) % 2 ^ w = ((2 ^ w - x : Nat) : Int) % 2 ^ w := by
    rw [Nat.cast_sub h.le]
    unfold laneInt
    push_cast
    split
    · rw [show ((2 : Int) ^ w - x) = -(x : Int) + 2 ^ w by ring, Int.add_emod_right]
    · rw [show -((x : Int) - 2 ^ w) = 2 ^ w - x by ring]
  rw [← ofInt_natCast]
  exact congrArg Int.toNat hmod

end Sys2Proof.Machine

namespace Sys2Proof
open Machine

/-- Settles O37: every VOP is a `vop`, whose lanes are those of its `LaneOp`. -/
theorem vectorLanes : Obligations.VectorLanes := by
  unfold Obligations.VectorLanes
  intro q t d a b k s w th f la lb ld on sg int fp bits
  have hpos : 0 < w := laneWidth_pos t
  have lt_mod {x : Nat} (h : x < 2 ^ w) : x % 2 ^ w = x := Nat.mod_eq_of_lt h
  have intOp {i : Instr} (o : LaneOp) {b' : BitVec 4} {g : Nat → Nat → Nat → Nat} (hi : exec i s = vop o q t d a b' k s)
      (hg : ∀ x y z, x < 2 ^ w → y < 2 ^ w → z < 2 ^ w → o.int w x y z % 2 ^ w = g x y z)
      (hb : ∀ x y y' z, g x y z = g x y' z ∨ b' = b) : int i g := by
    intro h
    obtain ⟨v, hexec, hlanes⟩ := vop_int o q t d a b' k s h hg
    refine ⟨v, hi.trans hexec, fun j hj => (hlanes j hj).trans ?_⟩
    obtain hgb | rfl := hb (la j) (lane (s.rv b') w j) (lb j) (ld j)
    · rw [hgb]
    · rfl
  have fpOp {i : Instr} (o : LaneOp) {b' : BitVec 4} (hi : exec i s = vop o q t d a b' k s) {g : Nat → Nat → Nat → Nat × FFlags}
      (hg : o.fp f th.rm th.daz th.ftz = g) (hb : ∀ x y y' z, g x y z = g x y' z ∨ b' = b) : fp i g := by
    intro h
    obtain ⟨v, fl, hexec, hlanes, hflags⟩ := vop_fp o q t d a b' k s h
    have hsame (j : Nat) : o.fp f th.rm th.daz th.ftz (la j) (lane (s.rv b') w j) (ld j) = g (la j) (lb j) (ld j) := by
      rw [hg]
      obtain hgb | rfl := hb (la j) (lane (s.rv b') w j) (lb j) (ld j)
      · exact hgb
      · rfl
    refine ⟨v, fl, hi.trans hexec, fun j hj => (hlanes j hj).trans ?_, fun e => (hflags e).trans ?_⟩
    · rw [← hsame]
    · refine congrArg (List.any _) (funext fun j => ?_)
      rw [← hsame]
  refine ⟨?_, ?_, ?_, ?_, ?_, ?_, ?_, ?_, ?_, ?_, ?_, ?_, ?_, ?_, ⟨?_, ?_⟩, ⟨?_, ?_⟩, ⟨?_, ?_⟩, ⟨?_, ?_⟩, fpOp laneVadd rfl rfl fun _ _ _ _ => Or.inr rfl,
    fpOp laneVsub rfl rfl fun _ _ _ _ => Or.inr rfl, fpOp laneVmul rfl rfl fun _ _ _ _ => Or.inr rfl, fpOp laneVdiv rfl rfl fun _ _ _ _ => Or.inr rfl,
    fpOp laneVfma rfl rfl fun _ _ _ _ => Or.inr rfl, fpOp laneVsqrt rfl rfl fun _ _ _ _ => Or.inl rfl, fpOp laneVmin rfl rfl fun _ _ _ _ => Or.inr rfl,
    fpOp laneVmax rfl rfl fun _ _ _ _ => Or.inr rfl, fpOp laneVabs rfl rfl fun _ _ _ _ => Or.inl rfl, fpOp laneVneg rfl rfl fun _ _ _ _ => Or.inl rfl, ?_, ?_⟩
  · exact intOp laneVadd rfl (fun x y z _ _ _ => Nat.mod_mod ..) fun _ _ _ _ => Or.inr rfl
  · exact intOp laneVsub rfl (fun x y z hx hy _ => (Nat.mod_mod ..).trans (sub_lane hx hy)) fun _ _ _ _ => Or.inr rfl
  · exact intOp laneVmul rfl (fun x y z _ _ _ => Nat.mod_mod ..) fun _ _ _ _ => Or.inr rfl
  · exact intOp laneVfma rfl (fun x y z _ _ _ => Nat.mod_mod ..) fun _ _ _ _ => Or.inr rfl
  · exact intOp laneVdiv rfl (fun x y z hx hy _ => (lt_mod (divS (BitVec.ofNat w x) (BitVec.ofNat w y)).isLt).trans (laneDiv_eq hpos hx hy))
      fun _ _ _ _ => Or.inr rfl
  · exact intOp laneVmin rfl (fun x y z hx hy _ => lt_mod (ite_lt hx hy)) fun _ _ _ _ => Or.inr rfl
  · exact intOp laneVmax rfl (fun x y z hx hy _ => lt_mod (ite_lt hy hx)) fun _ _ _ _ => Or.inr rfl
  · exact intOp laneVminu rfl (fun x y z hx hy _ => lt_mod (Nat.lt_of_le_of_lt (Nat.min_le_left x y) hx)) fun _ _ _ _ => Or.inr rfl
  · exact intOp laneVmaxu rfl (fun x y z hx hy _ => lt_mod (Nat.max_lt.mpr ⟨hx, hy⟩)) fun _ _ _ _ => Or.inr rfl
  · exact intOp laneVabs rfl (fun x y z _ _ _ => (lt_mod (ofInt_lt w _)).trans (ofInt_natCast w _)) fun _ _ _ _ => Or.inl rfl
  · exact intOp laneVneg rfl (fun x y z hx _ _ => (lt_mod (ofInt_lt w _)).trans (ofInt_neg_lane hx)) fun _ _ _ _ => Or.inl rfl
  · exact intOp laneVshl rfl (fun x y z _ _ _ => (Nat.mod_mod ..).trans (congrArg (· % 2 ^ w) (Nat.shiftLeft_eq x (y % w)))) fun _ _ _ _ => Or.inr rfl
  · exact intOp laneVshrl rfl (fun x y z hx _ _ => (lt_mod (Nat.lt_of_le_of_lt (Nat.shiftRight_le x _) hx)).trans (Nat.shiftRight_eq_div_pow x (y % w)))
      fun _ _ _ _ => Or.inr rfl
  · exact intOp laneVshra rfl (fun x y z _ _ _ => lt_mod (ofInt_lt w _)) fun _ _ _ _ => Or.inr rfl
  · exact intOp laneVand rfl (fun x y _ hx _ _ => lt_mod (Nat.lt_of_le_of_lt Nat.and_le_left hx)) fun _ _ _ _ => Or.inr rfl
  · exact fpOp laneVand rfl rfl fun _ _ _ _ => Or.inr rfl
  · exact intOp laneVor rfl (fun x y _ hx hy _ => lt_mod (Nat.or_lt_two_pow hx hy)) fun _ _ _ _ => Or.inr rfl
  · exact fpOp laneVor rfl rfl fun _ _ _ _ => Or.inr rfl
  · exact intOp laneVxor rfl (fun x y _ hx hy _ => lt_mod (Nat.xor_lt_two_pow hx hy)) fun _ _ _ _ => Or.inr rfl
  · exact fpOp laneVxor rfl rfl fun _ _ _ _ => Or.inr rfl
  · exact intOp laneVmov rfl (fun x _ _ hx _ _ => lt_mod hx) fun _ _ _ _ => Or.inl rfl
  · exact fpOp laneVmov rfl rfl fun _ _ _ _ => Or.inl rfl
  · obtain ⟨v, hexec, hlanes⟩ := lanesInto_quiet q d t (fun _ => true) (fun i => if on i then la i else lb i) s (b := fun s =>
      lanesInto d t (fun _ => true) (fun i => (if (s.rk k).getLsbD i then lane (s.rv a) w i else lane (s.rv b) w i, 0)) s) rfl
    refine ⟨v, hexec, fun j hj => (hlanes j hj).trans ?_⟩
    rw [if_pos rfl]
    refine lt_mod ?_
    split <;> exact lane_lt ..
  · obtain ⟨v, hexec, hlanes⟩ := lanesInto_quiet q d t (fun _ => true) (fun i => if lb i < 256 / w then la (lb i) else 0) s (b := fun s =>
      lanesInto d t (fun _ => true) (fun i => (if lane (s.rv b) w i < laneCount t then lane (s.rv a) w (lane (s.rv b) w i) else 0, 0)) s) rfl
    refine ⟨v, hexec, fun j hj => (hlanes j hj).trans ?_⟩
    rw [if_pos rfl]
    refine lt_mod ?_
    split
    · exact lane_lt ..
    · exact Nat.two_pow_pos w

end Sys2Proof
end

section
namespace Sys2Proof.Machine

/-! ### Reductions (R144) -/

/-- A value combined from all the numbers of a list, in their order and some bracketing. -/
inductive Combined (f : Nat → Nat → Nat) : List Nat → Nat → Prop where
  | one (x : Nat) : Combined f [x] x
  | node {xs ys : List Nat} {x y : Nat} : Combined f xs x → Combined f ys y → Combined f (xs ++ ys) (f x y)

/-- An element of a level of a reduction tree stands for a list: absent, or combined from it. -/
inductive Stands (f : Nat → Nat → Nat) : Option Nat → List Nat → Prop where
  | absent : Stands f none []
  | value {xs : List Nat} {x : Nat} : Combined f xs x → Stands f (some x) xs

/-- One level of a tree keeps what its elements stand for, in half as many elements. -/
theorem stands_treeLevel (f : Nat → Nat → Nat) (l : List (Option Nat)) : ∀ {ls : List (List Nat)}, List.Forall₂ (Stands f) l ls →
    ∃ ms, List.Forall₂ (Stands f) (treeLevel (fun x y => (f x y, 0)) id l).1 ms ∧ ms.flatten = ls.flatten ∧ ms.length ≤ (ls.length + 1) / 2 := by
  induction l using treeLevel.induct (fun x y => (f x y, 0)) id with
  | case1 a b t ih =>
    rintro _ (_ | ⟨hx, _ | ⟨hy, h⟩⟩)
    rename_i xs ys ls
    obtain ⟨ms, hms, hflat, hlen⟩ := ih h
    cases hx with
    | value hx =>
      cases hy with
      | value hy =>
        refine ⟨(xs ++ ys) :: ms, List.Forall₂.cons (.value (hx.node hy)) hms, ?_, ?_⟩
        · simp [hflat]
        · simp only [List.length_cons]
          lia
  | case2 a t ih =>
    rintro _ (_ | ⟨hx, _ | ⟨hy, h⟩⟩)
    rename_i xs ys ls
    obtain ⟨ms, hms, hflat, hlen⟩ := ih h
    cases hy
    refine ⟨xs :: ms, List.Forall₂.cons hx hms, ?_, ?_⟩
    · simp [hflat]
    · simp only [List.length_cons]
      lia
  | case3 b t ih =>
    rintro _ (_ | ⟨hx, _ | ⟨hy, h⟩⟩)
    rename_i xs ys ls
    obtain ⟨ms, hms, hflat, hlen⟩ := ih h
    cases hx
    refine ⟨ys :: ms, List.Forall₂.cons (by rw [Option.map_id]; exact hy) hms, ?_, ?_⟩
    · simp [hflat]
    · simp only [List.length_cons]
      lia
  | case4 a =>
    rintro _ (_ | ⟨hx, _ | _⟩)
    exact ⟨_, by cases a <;> exact List.Forall₂.cons hx .nil, rfl, by simp⟩
  | case5 =>
    intro ls h
    exact ⟨ls, h, rfl, by have := h.length_eq; simp only [List.length_nil] at this; lia⟩

theorem stands_tree (f : Nat → Nat → Nat) (n : Nat) {l : List (Option Nat)} {ls : List (List Nat)} (h : List.Forall₂ (Stands f) l ls) (hlen : ls.length ≤ 2 ^ n) :
    Stands f (tree (fun x y => (f x y, 0)) id n l).1 ls.flatten := by
  induction n generalizing l ls with
  | zero =>
    cases h with
    | nil => exact .absent
    | @cons o xs l ls hx h =>
      simp only [List.length_cons, Nat.pow_zero] at hlen
      have hnil := List.length_eq_zero_iff.mp (show ls.length = 0 by lia)
      rw [hnil, List.flatten_cons, List.flatten_nil, List.append_nil]
      exact hx
  | succ n ih =>
    obtain ⟨ms, hms, hflat, hmlen⟩ := stands_treeLevel f l h
    have := ih hms (by rw [pow_succ] at hlen; lia)
    rwa [hflat] at this

/-- The active lanes of a register. -/
theorem stands_activeLanes (f : Nat → Nat → Nat) (v : BitVec 256) (t : BitVec 3) (m : BitVec 32) :
    Stands f (tree (fun x y => (f x y, 0)) id 5 (activeLanes v t m)).1
      (((List.range (256 / laneWidth t)).filter fun j => m.getLsbD j).map (lane v (laneWidth t))) := by
  have hall (l : List Nat) : List.Forall₂ (Stands f) (l.map fun i => if m.getLsbD i then some (lane v (laneWidth t) i) else none)
      (l.map fun i => if m.getLsbD i then [lane v (laneWidth t) i] else []) := by
    induction l with
    | nil => exact .nil
    | cons i l ih =>
      refine .cons ?_ ih
      by_cases hm : m.getLsbD i = true
      · simp only [hm, if_true]
        exact .value (.one _)
      · simp only [hm]
        exact .absent
  have hflat (l : List Nat) : (l.map fun i => if m.getLsbD i then [lane v (laneWidth t) i] else []).flatten =
      (l.filter fun j => m.getLsbD j).map (lane v (laneWidth t)) := by
    induction l with
    | nil => rfl
    | cons i l ih =>
      rw [List.map_cons, List.flatten_cons, ih, List.filter_cons]
      split <;> rfl
  rw [← hflat]
  refine stands_tree f 5 (hall _) ?_
  rw [List.length_map, List.length_range]
  obtain h | h | h | h := laneWidth_cases t <;> rw [h] <;> decide

/-- Numbers added modulo a power of two. -/
theorem combined_add {w : Nat} {l : List Nat} {v : Nat} (h : Combined (fun x y => (x + y) % 2 ^ w) l v) (hl : ∀ x ∈ l, x < 2 ^ w) : v = l.sum % 2 ^ w := by
  induction h with
  | one x => rw [List.sum_singleton, Nat.mod_eq_of_lt (hl x (List.mem_singleton.mpr rfl))]
  | node _ _ ihx ihy =>
    rw [ihx fun x hx => hl x (List.mem_append_left _ hx), ihy fun y hy => hl y (List.mem_append_right _ hy), List.sum_append, ← Nat.add_mod]

/-- The number picked from a list by a comparison of keys. -/
theorem combined_pick {pick : Nat → Nat → Nat} {le : Nat → Nat → Prop} (hrefl : ∀ x, le x x) (htrans : ∀ x y z, le x y → le y z → le x z)
    (hpick : ∀ x y, (pick x y = x ∧ le x y) ∨ (pick x y = y ∧ le y x)) {l : List Nat} {v : Nat} (h : Combined pick l v) : v ∈ l ∧ ∀ x ∈ l, le v x := by
  induction h with
  | one x => exact ⟨List.mem_singleton.mpr rfl, fun y hy => List.mem_singleton.mp hy ▸ hrefl x⟩
  | @node xs ys x y _ _ ihx ihy =>
    obtain ⟨hx, hxs⟩ := ihx
    obtain ⟨hy, hys⟩ := ihy
    obtain ⟨hp, hle⟩ | ⟨hp, hle⟩ := hpick x y
    · rw [hp]
      exact ⟨List.mem_append_left _ hx, fun z hz => (List.mem_append.mp hz).elim (hxs z) fun hz => htrans _ _ _ hle (hys z hz)⟩
    · rw [hp]
      exact ⟨List.mem_append_right _ hy, fun z hz => (List.mem_append.mp hz).elim (fun hz => htrans _ _ _ hle (hxs z hz)) (hys z)⟩

/-! ### Masks (R140, R141) -/

/-- The bits of a mask that is gathered lane by lane, with the flags of the active lanes. -/
theorem foldl_mask (on : Nat → Bool) (c : Nat → Bool × FFlags) (n : Nat) :
    ∃ m fl, (List.range n).foldl (fun (acc : Nat × FFlags) i => if on i then (if (c i).1 then acc.1 + 2 ^ i else acc.1, acc.2 ||| (c i).2) else acc) (0, 0) = (m, fl) ∧
      m < 2 ^ n ∧ (∀ j, m.testBit j = (decide (j < n) && on j && (c j).1)) ∧ ∀ e, fl.getLsbD e = (List.range n).any fun j => on j && (c j).2.getLsbD e := by
  induction n with
  | zero => exact ⟨0, 0, rfl, by decide, fun j => by simp, fun e => by simp⟩
  | succ n ih =>
    obtain ⟨m, fl, hfold, hlt, hbits, hflags⟩ := ih
    rw [List.range_succ, List.foldl_append, hfold]
    simp only [List.foldl_cons, List.foldl_nil, List.any_append, List.any_cons, List.any_nil, Bool.or_false]
    have hstep (b : Bool) (hb : (on n && (c n).1) = b) (j : Nat) : (if b then m + 2 ^ n else m).testBit j = (decide (j < n + 1) && on j && (c j).1) := by
      by_cases hj : j = n
      · subst hj
        cases b
        · simp [hb, Nat.testBit_lt_two_pow hlt]
        · simp [hb, Nat.add_comm m, Nat.testBit_two_pow_add_eq, Nat.testBit_lt_two_pow hlt]
      · have hdec : decide (j < n + 1) = decide (j < n) := by simp [Nat.le_iff_lt_or_eq, hj]
        rw [hdec, ← hbits]
        cases b
        · simp
        · by_cases hlt' : j < n
          · simp [Nat.add_comm m, Nat.testBit_two_pow_add_gt hlt']
          · have h1 : m.testBit j = false := Nat.testBit_lt_two_pow (Nat.lt_of_lt_of_le hlt (Nat.pow_le_pow_right (by decide) (by lia)))
            have h2 : (m + 2 ^ n).testBit j = false := Nat.testBit_lt_two_pow (Nat.lt_of_lt_of_le (show m + 2 ^ n < 2 ^ (n + 1) by rw [pow_succ]; lia)
              (Nat.pow_le_pow_right (by decide) (by lia)))
            simp [h1, h2]
    by_cases hon : on n = true
    · rw [if_pos hon]
      refine ⟨_, _, rfl, ?_, fun j => ?_, fun e => ?_⟩
      · rw [pow_succ]
        split <;> lia
      · rw [← hstep (c n).1 (by simp [hon])]
      · rw [BitVec.getLsbD_or, hflags, hon, Bool.true_and]
    · rw [if_neg hon]
      refine ⟨_, _, rfl, ?_, fun j => ?_, fun e => ?_⟩
      · rw [pow_succ]
        lia
      · rw [← hstep false (by simp [hon])]
        simp
      · rw [hflags]
        simp [hon]

/-! ### The instructions that move scalars, masks and reductions (R140-R146) -/

theorem laneCount_le (t : BitVec 3) : 256 / laneWidth t ≤ 32 := by
  obtain h | h | h | h := laneWidth_cases t <;> rw [h] <;> decide

theorem laneCount_pos (t : BitVec 3) : 0 < 256 / laneWidth t := by
  obtain h | h | h | h := laneWidth_cases t <;> rw [h] <;> decide

theorem execVbcast_lanes (q t : BitVec 3) (d : BitVec 4) (a : BitVec 5) (k : BitVec 3) (s : State) :
    ∃ v, execVbcast q t d a k s = .next (s.ran q fun u => u.wv d v) ∧ ∀ j, j < 256 / laneWidth t → lane v (laneWidth t) j =
      if (s.rk k).getLsbD j = true then (if laneFp t then s.rf a else s.rx a).toNat % 2 ^ laneWidth t else lane (s.rv d) (laneWidth t) j := by
  obtain ⟨v, hexec, hlanes⟩ := lanesInto_quiet q d t (fun i => (s.rk k).getLsbD i) (fun _ => s.scalarIn t a % 2 ^ laneWidth t) s (b := fun s =>
    lanesInto d t (fun i => (s.rk k).getLsbD i) (fun _ => (s.scalarIn t a % 2 ^ laneWidth t, 0)) s) rfl
  refine ⟨v, hexec, fun j hj => ?_⟩
  rw [hlanes j hj, Nat.mod_mod]
  rfl

theorem execVins_lanes (q t : BitVec 3) (d : BitVec 4) (a b : BitVec 5) (s : State) :
    ∃ v, execVins q t d a b s = .next (s.ran q fun u => u.wv d v) ∧ ∀ j, j < 256 / laneWidth t → lane v (laneWidth t) j =
      if j = (s.rx b).toNat % (256 / laneWidth t) then (if laneFp t then s.rf a else s.rx a).toNat % 2 ^ laneWidth t else lane (s.rv d) (laneWidth t) j :=
  ⟨setLane (s.rv d) (laneWidth t) ((s.rx b).toNat % (256 / laneWidth t)) (s.scalarIn t a), guarded_ran q s (fun u => u.wv d _) _ (by
      unfold State.wv
      rw [State.retire, thr_setThr, setThr_setThr]
      rfl),
    fun j hj => lane_setLane (s.rv d) (s.scalarIn t a) (lane_fits t (Nat.mod_lt _ (laneCount_pos t))) (lane_fits t hj)⟩

theorem execVext_scalar (q t : BitVec 3) (zx : BitVec 1) (d : BitVec 5) (a : BitVec 4) (b : BitVec 5) (s : State) :
    execVext q t zx d a b s = .next (s.ran q fun u =>
      if laneFp t then u.wf d (BitVec.ofNat 64 (lane (s.rv a) (laneWidth t) ((s.rx b).toNat % (256 / laneWidth t))))
      else u.wx d (if zx = 1#1 then BitVec.ofNat 64 (lane (s.rv a) (laneWidth t) ((s.rx b).toNat % (256 / laneWidth t)))
        else BitVec.ofInt 64 (laneInt (laneWidth t) (lane (s.rv a) (laneWidth t) ((s.rx b).toNat % (256 / laneWidth t)))))) := by
  refine guarded_ran q s _ _ ?_
  dsimp only
  split
  · unfold State.wf
    rw [State.retire, thr_setThr, setThr_setThr]
    rfl
  · split
    · exact retire_wx ..
    · exact retire_wx ..

theorem execVcmp_mask (q kd : BitVec 3) (a b : BitVec 4) (t cnd kg : BitVec 3) (s : State) :
    ∃ (v : BitVec 32) (fl : FFlags), execVcmp q kd a b t cnd kg s = .next (s.ran q fun u => (u.wk kd v).flag fl) ∧
      (∀ j, v.getLsbD j = (decide (j < 256 / laneWidth t) && (s.rk kg).getLsbD j &&
        (laneCond t cnd s.thr.daz (lane (s.rv a) (laneWidth t) j) (lane (s.rv b) (laneWidth t) j)).1)) ∧
      ∀ e, fl.getLsbD e = (List.range (256 / laneWidth t)).any fun j => (s.rk kg).getLsbD j &&
        (laneCond t cnd s.thr.daz (lane (s.rv a) (laneWidth t) j) (lane (s.rv b) (laneWidth t) j)).2.getLsbD e := by
  obtain ⟨m, fl, hfold, hlt, hbits, hflags⟩ := foldl_mask (fun i => (s.rk kg).getLsbD i)
    (fun i => laneCond t cnd s.thr.daz (lane (s.rv a) (laneWidth t) i) (lane (s.rv b) (laneWidth t) i)) (256 / laneWidth t)
  refine ⟨BitVec.ofNat 32 m, fl, guarded_ran q s (fun u => (u.wk kd (BitVec.ofNat 32 m)).flag fl) _ ?_, fun j => ?_, hflags⟩
  · dsimp only
    rw [show laneCount t = 256 / laneWidth t from rfl, hfold, State.retire, thr_setThr, setThr_setThr]
  · rw [BitVec.getLsbD_ofNat, ← hbits]
    by_cases hj : j < 32
    · rw [decide_eq_true hj, Bool.true_and]
    · rw [decide_eq_false hj, Bool.false_and, Nat.testBit_lt_two_pow (Nat.lt_of_lt_of_le hlt (Nat.pow_le_pow_right (by decide)
        (Nat.le_trans (laneCount_le t) (Nat.le_of_not_lt hj))))]

theorem execVreds_int (q t : BitVec 3) (d : BitVec 5) (a : BitVec 4) (k : BitVec 3) (s : State) (h : laneFp t = false) :
    execVreds q t d a k s = .next (s.ran q fun u => u.wx d (BitVec.ofInt 64 (laneInt (laneWidth t)
      (((((List.range (256 / laneWidth t)).filter fun j => (s.rk k).getLsbD j).map (lane (s.rv a) (laneWidth t))).sum) % 2 ^ laneWidth t)))) := by
  refine guarded_ran q s _ _ ?_
  dsimp only
  rw [h, if_neg (by decide)]
  have hstands := stands_activeLanes (fun x y => (x + y) % 2 ^ laneWidth t) (s.rv a) t (s.rk k)
  generalize (tree (fun x y => ((x + y) % 2 ^ laneWidth t, 0)) id 5 (activeLanes (s.rv a) t (s.rk k))).1 = r at hstands
  refine (retire_wx ..).trans ?_
  generalize hl : ((List.range (256 / laneWidth t)).filter fun j => (s.rk k).getLsbD j).map (lane (s.rv a) (laneWidth t)) = l at hstands
  cases hstands with
  | absent =>
    have hzero : laneInt (laneWidth t) 0 = 0 := if_pos (Nat.two_pow_pos _)
    rw [List.sum_nil, Nat.zero_mod, hzero]
  | value hc =>
    rw [← combined_add hc]
    rw [← hl]
    intro x hx
    obtain ⟨j, -, rfl⟩ := List.mem_map.mp hx
    exact lane_lt ..

/-- What VREDN picks of two numbers. -/
def rednPick (w var x y : Nat) : Nat :=
  match var with
  | 0 => if laneInt w x < laneInt w y then x else y
  | 1 => if laneInt w x < laneInt w y then y else x
  | 2 => min x y
  | _ => max x y

/-- The order by which VREDN picks. -/
def rednLe (w var x y : Nat) : Prop :=
  match var with
  | 0 => laneInt w x ≤ laneInt w y
  | 1 => laneInt w y ≤ laneInt w x
  | 2 => x ≤ y
  | _ => y ≤ x

theorem rednLe_refl (w var x : Nat) : rednLe w var x x := by
  unfold rednLe
  split <;> exact le_rfl

theorem rednLe_trans (w var x y z : Nat) : rednLe w var x y → rednLe w var y z → rednLe w var x z := by
  unfold rednLe
  split
  · exact le_trans
  · exact fun h k => le_trans k h
  · exact le_trans
  · exact fun h k => le_trans k h

theorem rednPick_le (w var x y : Nat) : (rednPick w var x y = x ∧ rednLe w var x y) ∨ (rednPick w var x y = y ∧ rednLe w var y x) := by
  unfold rednPick rednLe
  split
  · split
    · exact Or.inl ⟨rfl, le_of_lt ‹_›⟩
    · exact Or.inr ⟨rfl, not_lt.mp ‹_›⟩
  · split
    · exact Or.inr ⟨rfl, le_of_lt ‹_›⟩
    · exact Or.inl ⟨rfl, not_lt.mp ‹_›⟩
  · exact (Nat.le_total x y).imp (fun h => ⟨Nat.min_eq_left h, h⟩) fun h => ⟨Nat.min_eq_right h, h⟩
  · exact (Nat.le_total y x).imp (fun h => ⟨Nat.max_eq_left h, h⟩) fun h => ⟨Nat.max_eq_right h, h⟩

theorem execVredn_int (q t : BitVec 3) (var : BitVec 2) (d : BitVec 5) (a : BitVec 4) (k : BitVec 3) (s : State) (h : laneFp t = false) :
    ∃ v : Nat, execVredn q t var d a k s = .next (s.ran q fun u => u.wx d
        (if var.toNat < 2 then BitVec.ofInt 64 (laneInt (laneWidth t) v) else BitVec.ofNat 64 v)) ∧
      let act := (List.range (256 / laneWidth t)).filter fun j => (s.rk k).getLsbD j
      if act = [] then v = emptyMin t var.toNat
      else v ∈ act.map (lane (s.rv a) (laneWidth t)) ∧ ∀ j ∈ act, rednLe (laneWidth t) var.toNat v (lane (s.rv a) (laneWidth t) j) := by
  have hstands := stands_activeLanes (rednPick (laneWidth t) var.toNat) (s.rv a) t (s.rk k)
  obtain ⟨r, hr⟩ : ∃ r, (tree (fun x y => (rednPick (laneWidth t) var.toNat x y, 0)) id 5 (activeLanes (s.rv a) t (s.rk k))).1 = r := ⟨_, rfl⟩
  have hexec : execVredn q t var d a k s = .next (s.ran q fun u => u.wx d
      (if var.toNat < 2 then BitVec.ofInt 64 (laneInt (laneWidth t) (r.getD (emptyMin t var.toNat))) else BitVec.ofNat 64 (r.getD (emptyMin t var.toNat)))) := by
    refine guarded_ran q s _ _ ?_
    dsimp only
    rw [h, if_neg (by decide)]
    refine (retire_wx ..).trans ?_
    change Host.Outcome.next (s.setThr (s.thr.wx d (if var.toNat < 2 then BitVec.ofInt 64 (laneInt (laneWidth t)
      (match (tree (fun x y => (rednPick (laneWidth t) var.toNat x y, 0)) id 5 (activeLanes (s.rv a) t (s.rk k))).1 with
        | some x => x | none => emptyMin t var.toNat))
      else BitVec.ofNat 64 (match (tree (fun x y => (rednPick (laneWidth t) var.toNat x y, 0)) id 5 (activeLanes (s.rv a) t (s.rk k))).1 with
        | some x => x | none => emptyMin t var.toNat))).retired) = _
    rw [hr]
    cases r <;> rfl
  refine ⟨_, hexec, ?_⟩
  rw [hr] at hstands
  dsimp only
  generalize hl : ((List.range (256 / laneWidth t)).filter fun j => (s.rk k).getLsbD j) = act at hstands
  generalize hm : act.map (lane (s.rv a) (laneWidth t)) = l at hstands
  cases hstands with
  | absent =>
    rw [if_pos (List.map_eq_nil_iff.mp hm)]
    rfl
  | value hc =>
    obtain ⟨hmem, hle⟩ := combined_pick (rednLe_refl _ _) (rednLe_trans _ _) (rednPick_le _ _) hc
    rw [if_neg]
    · exact ⟨hmem, fun j hj => hle _ (hm ▸ List.mem_map_of_mem hj)⟩
    · intro hnil
      rw [hnil] at hm
      rw [← hm] at hmem
      cases hmem

/-- What a reduction of floating-point lanes delivers of its tree (R144, R145). -/
def fpReduced (f : Fmt) (d : BitVec 5) (ls : List (Option Nat)) (r : Option Nat × FFlags) (e : Nat) (u : Thread) : Thread :=
  (u.wf d (BitVec.ofNat 64 (r.1.elim e (fpRoot f)))).flag (r.2 ||| laneSnan f ls)

theorem execVreds_fp (q t : BitVec 3) (d : BitVec 5) (a : BitVec 4) (k : BitVec 3) (s : State) (h : laneFp t = true) :
    execVreds q t d a k s = .next (s.ran q (fpReduced (laneFmt t) d (activeLanes (s.rv a) t (s.rk k))
      (tree ((laneFmt t).add s.thr.rm s.thr.daz s.thr.ftz) ((laneFmt t).dazCode s.thr.daz) 4 (activeLanes (s.rv a) t (s.rk k))) 0)) := by
  refine guarded_ran q s _ _ ?_
  dsimp only
  rw [h, if_pos rfl, State.retire, thr_setThr, setThr_setThr]
  unfold fpReduced
  generalize tree ((laneFmt t).add s.thr.rm s.thr.daz s.thr.ftz) ((laneFmt t).dazCode s.thr.daz) 4 (activeLanes (s.rv a) t (s.rk k)) = r
  obtain ⟨_ | x, fl⟩ := r <;> rfl

theorem execVredn_fp (q t : BitVec 3) (var : BitVec 2) (d : BitVec 5) (a : BitVec 4) (k : BitVec 3) (s : State) (h : laneFp t = true) :
    execVredn q t var d a k s = .next (s.ran q (fpReduced (laneFmt t) d (activeLanes (s.rv a) t (s.rk k))
      (tree ((laneFmt t).minMax s.thr.daz (var == 1) false) ((laneFmt t).dazCode s.thr.daz) 4 (activeLanes (s.rv a) t (s.rk k))) (emptyMin t var.toNat))) := by
  have hvar : (var.toNat == 1) = (var == 1) := by
    revert var
    decide
  refine guarded_ran q s _ _ ?_
  dsimp only
  rw [h, if_pos rfl, hvar, State.retire, thr_setThr, setThr_setThr]
  unfold fpReduced
  generalize tree ((laneFmt t).minMax s.thr.daz (var == 1) false) ((laneFmt t).dazCode s.thr.daz) 4 (activeLanes (s.rv a) t (s.rk k)) = r
  obtain ⟨_ | x, fl⟩ := r <;> rfl

theorem execKget_ran (q : BitVec 3) (d : BitVec 5) (a : BitVec 3) (s : State) :
    execKget q d a s = .next (s.ran q fun u => u.wx d ((s.rk a).setWidth 64)) := guarded_ran q s _ _ (retire_wx s d _)

theorem execKpop_ran (q : BitVec 3) (d : BitVec 5) (a : BitVec 3) (s : State) :
    execKpop q d a s = .next (s.ran q fun u => u.wx d (BitVec.ofNat 64 ((List.range 32).filter fun j => (s.rk a).getLsbD j).length)) :=
  guarded_ran q s _ _ ((retire_wx s d _).trans (by rw [popN_eq_count]; rfl))

theorem execKtest_ran (q pd a pb : BitVec 3) (s : State) :
    execKtest q pd a pb s = .next (s.ran q fun u => (u.wp pd (decide (s.rk a ≠ 0))).wp pb (decide (s.rk a = 0))) := by
  refine guarded_ran q s _ _ ?_
  rw [State.retire, thr_setThr, setThr_setThr, bne, beq_eq_decide, ← decide_not]

theorem execVcvt_lanes (q dst : BitVec 3) (part : BitVec 2) (src : BitVec 3) (d a : BitVec 4) (s : State) :
    ∃ v fl, execVcvt q dst part src d a s = .next (s.ran q fun u => (u.wv d v).flag fl) ∧ ∀ j, j < 256 / laneWidth dst → lane v (laneWidth dst) j =
      if laneWidth src ≤ laneWidth dst then
        (cvtLane s.thr dst src (lane (s.rv a) (laneWidth src) (part.toNat * (256 / laneWidth dst) + j))).1 % 2 ^ laneWidth dst
      else if part.toNat * (256 / laneWidth src) ≤ j ∧ j < part.toNat * (256 / laneWidth src) + 256 / laneWidth src then
        (cvtLane s.thr dst src (lane (s.rv a) (laneWidth src) (j - part.toNat * (256 / laneWidth src)))).1 % 2 ^ laneWidth dst
      else lane (s.rv d) (laneWidth dst) j := by
  unfold execVcvt
  by_cases hw : laneWidth src ≤ laneWidth dst
  · obtain ⟨v, fl, hexec, hlanes, -⟩ := lanesInto_lanes q d dst (fun _ => true)
      (fun i => cvtLane s.thr dst src (lane (s.rv a) (laneWidth src) (part.toNat * laneCount dst + i))) s (b := fun s =>
        if laneWidth src ≤ laneWidth dst then
          lanesInto d dst (fun _ => true) (fun i => cvtLane s.thr dst src (lane (s.rv a) (laneWidth src) (part.toNat * laneCount dst + i))) s
        else
          lanesInto d dst (fun i => decide (part.toNat * laneCount src ≤ i) && decide (i < part.toNat * laneCount src + laneCount src))
            (fun i => cvtLane s.thr dst src (lane (s.rv a) (laneWidth src) (i - part.toNat * laneCount src))) s) (if_pos hw)
    refine ⟨v, fl, hexec, fun j hj => ?_⟩
    rw [hlanes j hj, if_pos rfl, if_pos hw]
    rfl
  · obtain ⟨v, fl, hexec, hlanes, -⟩ := lanesInto_lanes q d dst
      (fun i => decide (part.toNat * laneCount src ≤ i) && decide (i < part.toNat * laneCount src + laneCount src))
      (fun i => cvtLane s.thr dst src (lane (s.rv a) (laneWidth src) (i - part.toNat * laneCount src))) s (b := fun s =>
        if laneWidth src ≤ laneWidth dst then
          lanesInto d dst (fun _ => true) (fun i => cvtLane s.thr dst src (lane (s.rv a) (laneWidth src) (part.toNat * laneCount dst + i))) s
        else
          lanesInto d dst (fun i => decide (part.toNat * laneCount src ≤ i) && decide (i < part.toNat * laneCount src + laneCount src))
            (fun i => cvtLane s.thr dst src (lane (s.rv a) (laneWidth src) (i - part.toNat * laneCount src))) s) (if_neg hw)
    refine ⟨v, fl, hexec, fun j hj => ?_⟩
    rw [hlanes j hj, if_neg hw]
    simp only [Bool.and_eq_true, decide_eq_true_eq]
    rfl

end Sys2Proof.Machine

namespace Sys2Proof
open Machine

/-- Settles O38: one rule for every instruction, the reductions of integers by what a tree combines (`stands_activeLanes`). -/
theorem lanesMasksReductions : Obligations.LanesMasksReductions := by
  unfold Obligations.LanesMasksReductions
  refine ⟨fun q t vd va vb d a b k kd ka kb cnd pd pb zx s => ?_, fun q t src vd va var part d k s => ?_⟩
  · intro w n x j0 on at_ c mask
    exact ⟨execVbcast_lanes .., execVins_lanes .., execVext_scalar .., execVcmp_mask .., toK_ran q kd (fun t => t.rk ka &&& t.rk kb) s,
      toK_ran q kd (fun t => t.rk ka ||| t.rk kb) s, toK_ran q kd (fun t => t.rk ka ^^^ t.rk kb) s, toK_ran q kd (fun t => ~~~ (t.rk ka)) s,
      toK_ran q kd (fun t => lo32 (t.rx a)) s, execKget_ran .., execKpop_ran .., execKtest_ran ..⟩
  · intro w n th la act xr best
    refine ⟨fun h => ⟨execVreds_int q t d va k s h, ?_⟩, fun h => ?_, execVcvt_lanes ..⟩
    · obtain ⟨v, hexec, hbest⟩ := execVredn_int q t var d va k s h
      refine ⟨v, hexec, ?_⟩
      have hcase (g : Nat → Int) (hi : Bool) (hle : ∀ x, rednLe w var.toNat v x → if hi then g x ≤ g v else g v ≤ g x) : best g v hi := by
        change if act = [] then _ else _
        split
        · rename_i hnil
          exact (if_pos (c := act = []) hnil).mp hbest
        · rename_i hnil
          obtain ⟨hmem, hall⟩ := (if_neg (c := act = []) hnil).mp hbest
          exact ⟨hmem, fun j hj => hle _ (hall j hj)⟩
      obtain h0 | h1 | h2 | h3 : var.toNat = 0 ∨ var.toNat = 1 ∨ var.toNat = 2 ∨ var.toNat = 3 := by omega
      · rw [h0] at hcase ⊢
        exact hcase (laneInt w) false fun x hx => hx
      · rw [h1] at hcase ⊢
        exact hcase (laneInt w) true fun x hx => hx
      · rw [h2] at hcase ⊢
        exact hcase (fun x => x) false fun x hx => Int.ofNat_le.mpr hx
      · rw [h3] at hcase ⊢
        exact hcase (fun x => x) true fun x hx => Int.ofNat_le.mpr hx
    · intro f ls fr
      have hfr {i : Instr} {r : Option Nat × FFlags} {e : Nat} (hi : exec i s = .next (s.ran q (fpReduced f d ls r e))) : fr i r e := by
        obtain ⟨_ | x, fl⟩ := r <;> exact hi
      exact ⟨hfr (execVreds_fp q t d va k s h), hfr (execVredn_fp q t var d va k s h)⟩

end Sys2Proof
end

section
/-! Rounding what a format holds (R59, R110). -/

namespace Sys2Proof.Machine

/-- A magnitude at its own place is rounded to itself. -/
theorem roundScaled_zero (rm : Nat) (neg : Bool) (mag : Nat) : roundScaled rm neg mag 0 = (mag, false) := by simp [roundScaled]

/-- The sign bit of a code. -/
def Fmt.signOf (f : Fmt) (neg : Bool) : Nat := if neg then f.signBit else 0

/-- A magnitude of at most `m + 1` bits at an exponent that the format has, its leading bit set unless the exponent is the least: it is
rounded to the code made of its parts, without a flag (R59). -/
theorem roundFin_exact (f : Fmt) (rm : Nat) (neg : Bool) {mag : Nat} (k : Nat) (hmag : mag < 2 ^ (f.m + 1)) (hlead : 2 ^ f.m ≤ mag ∨ k = 0)
    (hcode : mag + k * 2 ^ f.m < f.infCode) : f.roundFin rm false neg mag (f.qmin + k) = (f.signOf neg + (if mag = 0 then 0 else mag + k * 2 ^ f.m), 0) := by
  unfold Fmt.roundFin Fmt.signOf
  dsimp only
  by_cases h0 : mag = 0
  · rw [if_pos h0, if_pos h0, Nat.add_zero]
  · have hlog : Nat.log2 mag ≤ f.m := Nat.lt_succ_iff.mp ((Nat.log2_lt h0).mpr hmag)
    have hq : max (topExp mag (f.qmin + k) - f.m) f.qmin = f.qmin + k := by
      unfold topExp
      obtain hlead | rfl := hlead
      · rw [Nat.le_antisymm hlog ((Nat.le_log2 h0).mpr hlead), add_sub_cancel_left, max_eq_left (Int.le_add_of_nonneg_right (Int.natCast_nonneg k))]
      · rw [Nat.cast_zero, add_zero, Int.add_comm, max_eq_right (Int.sub_right_le_of_le_add (Int.add_le_add_left (Int.ofNat_le.mpr hlog) _))]
    rw [if_neg h0, if_neg h0, hq, Int.sub_self, roundScaled_zero]
    dsimp only
    rw [add_sub_cancel_left, Int.toNat_natCast, if_neg (Nat.not_le.mpr hcode), Bool.and_false, if_neg (by decide), if_neg (by decide)]

/-- The parts of a code: sign, exponent and fraction. -/
theorem code_parts (f : Fmt) (hs : f.sg = true) {code : Nat} (h : code < 2 ^ f.width) :
    f.signOf (decide (code / 2 ^ (f.e + f.m) % 2 = 1)) + (code / 2 ^ f.m % 2 ^ f.e * 2 ^ f.m + code % 2 ^ f.m) = code := by
  have hwidth : f.width = (f.e + f.m) + 1 := by
    unfold Fmt.width
    rw [if_pos hs]
    exact (Nat.add_assoc ..).trans (Nat.add_comm ..)
  have hbit : code / 2 ^ (f.e + f.m) < 2 := by
    rw [hwidth, pow_succ] at h
    exact Nat.div_lt_of_lt_mul h
  have hsign : f.signOf (decide (code / 2 ^ (f.e + f.m) % 2 = 1)) = code / 2 ^ (f.e + f.m) * 2 ^ (f.e + f.m) := by
    unfold Fmt.signOf Fmt.signBit
    rw [if_pos hs]
    obtain h0 | h1 := Nat.le_one_iff_eq_zero_or_eq_one.mp (Nat.lt_succ_iff.mp hbit)
    · simp [h0]
    · simp [h1]
  have hlow : code / 2 ^ f.m % 2 ^ f.e * 2 ^ f.m + code % 2 ^ f.m = code % 2 ^ (f.e + f.m) := by
    rw [pow_add, Nat.mul_comm (2 ^ f.e), Nat.mod_mul, Nat.mul_comm, Nat.add_comm]
  rw [hsign, hlow, Nat.mul_comm]
  exact Nat.div_add_mod code _

/-- The exact value of a code of a signed IEEE format rounds to that code. -/
theorem round_val (f : Fmt) (hi : f.ieee = true) (hs : f.sg = true) (rm : Nat) {code : Nat} (h : code < 2 ^ f.width) (hnan : (f.val code).isNan = false) :
    f.round rm false (f.val code) = (code, 0) := by
  have hparts := code_parts f hs h
  have hfrac : code % 2 ^ f.m < 2 ^ f.m := Nat.mod_lt _ (Nat.two_pow_pos _)
  have hex : code / 2 ^ f.m % 2 ^ f.e < 2 ^ f.e := Nat.mod_lt _ (Nat.two_pow_pos _)
  have hinf : f.infCode = (2 ^ f.e - 1) * 2 ^ f.m := if_pos hi
  unfold Fmt.val at hnan ⊢
  rw [hs, Bool.true_and] at hnan ⊢
  dsimp only at hnan ⊢
  generalize hneg : decide (code / 2 ^ (f.e + f.m) % 2 = 1) = neg at *
  generalize code / 2 ^ f.m % 2 ^ f.e = ex at *
  generalize code % 2 ^ f.m = fr at *
  by_cases hmax : ex = 2 ^ f.e - 1
  · rw [if_pos ⟨hi, hmax⟩] at hnan ⊢
    by_cases hfr : fr = 0
    · rw [if_pos hfr]
      unfold Fmt.round
      dsimp only
      rw [if_pos hi, hinf, ← hmax]
      rw [hfr, Nat.add_zero] at hparts
      exact congrArg (·, 0) hparts
    · rw [if_neg hfr] at hnan
      cases hnan
  · rw [if_neg fun h => hmax h.2]
    by_cases hzero : ex = 0
    · rw [if_pos hzero]
      have hcode : fr + 0 * 2 ^ f.m < f.infCode := by
        rw [hinf, Nat.zero_mul, Nat.add_zero]
        exact Nat.lt_of_lt_of_le hfrac (Nat.le_mul_of_pos_left _ (Nat.pos_of_ne_zero fun h => hmax (hzero.trans h.symm)))
      have hround := roundFin_exact f rm neg 0 (hfrac.trans (Nat.pow_lt_pow_succ (by decide))) (Or.inr rfl) hcode
      rw [Nat.cast_zero, add_zero] at hround
      refine hround.trans (congrArg (·, 0) ?_)
      rw [hzero, Nat.zero_mul, Nat.zero_add] at hparts
      rw [Nat.zero_mul, Nat.add_zero]
      split
      · rename_i hfr
        rwa [hfr] at hparts
      · exact hparts
    · rw [if_neg hzero]
      obtain ⟨k, rfl⟩ : ∃ k, ex = k + 1 := Nat.exists_eq_succ_of_ne_zero hzero
      rw [Nat.add_sub_cancel]
      have hcode : 2 ^ f.m + fr + k * 2 ^ f.m < f.infCode := by
        have htop : (k + 2) * 2 ^ f.m ≤ (2 ^ f.e - 1) * 2 ^ f.m := Nat.mul_le_mul_right _ (Nat.lt_of_le_of_ne (Nat.le_sub_one_of_lt hex) hmax)
        rw [Nat.add_mul, Nat.two_mul] at htop
        rw [hinf, Nat.add_comm]
        exact Nat.lt_of_lt_of_le (Nat.add_lt_add_left (Nat.add_lt_add_left hfrac _) _) htop
      have hround := roundFin_exact f rm neg k ((Nat.add_lt_add_left hfrac _).trans_eq ((pow_succ ..).trans (Nat.mul_two _)).symm) (Or.inl (Nat.le_add_right _ fr)) hcode
      refine hround.trans (congrArg (·, 0) ?_)
      rw [if_neg (Nat.add_pos_left (Nat.two_pow_pos _) _).ne']
      rw [Nat.add_mul, Nat.one_mul] at hparts
      exact (congrArg (_ + ·) ((Nat.add_comm ..).trans (Nat.add_assoc ..).symm)).trans hparts

end Sys2Proof.Machine

namespace Sys2Proof
open Machine

/-- Settles O36: the four formats are signed IEEE formats (`round_val`). -/
theorem roundingIsExact : Obligations.RoundingIsExact := by
  unfold Obligations.RoundingIsExact
  intro c rm code f hcode hnan
  have hf : f.ieee = true ∧ f.sg = true := by
    change (fmtOf c).ieee = true ∧ (fmtOf c).sg = true
    unfold fmtOf
    split <;> exact ⟨rfl, rfl⟩
  exact round_val f hf.1 hf.2 rm hcode hnan

end Sys2Proof
end

section
/-! Scalar floating point: the arithmetic, the bit moves, compares and conversions (O34, O35; spec 05). -/

namespace Sys2Proof.Machine

theorem fmtOf_sg (c : Nat) : (fmtOf c).sg = true := by unfold fmtOf; split <;> rfl

theorem fmtOf_width (c : Nat) : (fmtOf c).width = match c with | 0 => 64 | 1 => 32 | _ => 16 := by
  match c with
  | 0 | 1 | 2 => rfl
  | _ + 3 => rfl

theorem fmtOf_width_le (c : Nat) : (fmtOf c).width ≤ 64 := by
  unfold fmtOf; split <;> decide

theorem width_signed {f : Fmt} (hs : f.sg = true) : f.width = f.e + f.m + 1 := by
  simp only [Fmt.width, hs, if_true]; lia

section
variable {f : Fmt} (hs : f.sg = true) (hw : f.width ≤ 64) (t : Thread) (a b : BitVec 5) {j : Nat}

theorem testBit_fpIn (j : Nat) : (t.fpIn f a).testBit j = (decide (j < f.width) && (t.rf a).getLsbD j) := by
  rw [Thread.fpIn, Nat.testBit_mod_two_pow, BitVec.testBit_toNat]

include hs

theorem testBit_abs (j : Nat) : (f.abs (t.fpIn f a)).testBit j = (decide (j < f.width - 1) && (t.rf a).getLsbD j) := by
  simp only [Fmt.abs, Nat.testBit_mod_two_pow, testBit_fpIn, width_signed hs]
  by_cases h : j < f.e + f.m <;> simp [h]; lia

theorem testBit_negate (j : Nat) : (f.negate (t.fpIn f a)).testBit j =
    if j = f.width - 1 then !(t.rf a).getLsbD j else decide (j < f.width) && (t.rf a).getLsbD j := by
  simp only [Fmt.negate, Fmt.signBit, hs, if_true, Nat.testBit_xor, Nat.testBit_mod_two_pow, testBit_fpIn, width_signed hs, Nat.testBit_two_pow]
  by_cases h : j = f.e + f.m
  · subst h; simp
  · simp [h]; simp [Ne.symm h]

theorem testBit_copySign (j : Nat) : (f.copySign (t.fpIn f a) (t.fpIn f b)).testBit j =
    if j = f.width - 1 then (t.rf b).getLsbD j else decide (j < f.width) && (t.rf a).getLsbD j := by
  have hlt : t.fpIn f a % 2 ^ (f.e + f.m) < 2 ^ (f.e + f.m) := Nat.mod_lt _ (Nat.two_pow_pos _)
  rw [Fmt.copySign, Fmt.signBit, if_pos hs, Nat.mul_comm, Nat.add_comm, Nat.testBit_two_pow_mul_add _ hlt]
  simp only [Nat.testBit_mod_two_pow, testBit_fpIn, width_signed hs, Nat.testBit_div_two_pow]
  by_cases h : j < f.e + f.m
  · simp [h]; lia
  · by_cases he : j = f.e + f.m
    · subst he; simp
    · have hn : ¬ j < f.e + f.m + 1 := by lia
      have hj : j - (f.e + f.m) ≠ 0 := by lia
      simp [h, he, hn, hj]

end

theorem classOf_two_pow (f : Fmt) (a : Nat) : ∃ k : Nat, k < 10 ∧ f.classOf a = 2 ^ k := by
  unfold Fmt.classOf
  split
  · split <;> exact ⟨_, by decide, rfl⟩
  · split <;> exact ⟨_, by decide, rfl⟩
  · split
    · split <;> exact ⟨_, by decide, rfl⟩
    · split <;> split <;> exact ⟨_, by decide, rfl⟩

theorem retire_setThr (s : State) (t : Thread) : (s.setThr t).retire = .next (s.setThr t.retired) := by
  rw [State.retire, thr_setThr, setThr_setThr]

/-- An instruction that moves bits into an f register and raises no flag. -/
theorem toF_bits (q : BitVec 3) (d : BitVec 5) (s : State) {f : Thread → Nat} {g : Nat → Bool} (h : ∀ j, j < 64 → (f s.thr).testBit j = g j) :
    ∃ v : Word, toF q d (fun t => (f t, 0)) s = .next (s.ran q (fun t => t.wf d v)) ∧ ∀ j, j < 64 → v.getLsbD j = g j := by
  refine ⟨BitVec.ofNat 64 (f s.thr), ?_, fun j hj => ?_⟩
  · rw [toF_ran]; simp only [flag_zero]
  · rw [BitVec.getLsbD_ofNat, h j hj, decide_eq_true hj, Bool.true_and]

end Sys2Proof.Machine

namespace Sys2Proof
open Machine

/-- Settles O34: the arithmetic is `toF` of its operation; a bit move says bit by bit what it writes. -/
theorem scalarFloat : Obligations.ScalarFloat := by
  refine ⟨fun q fm rnd d a b s => ?_, fun q fm d a b s => ?_⟩
  · let f := fmtOf fm.toNat
    exact ⟨toF_ran q d (fun t => f.add t.rm t.daz t.ftz (t.fpIn f a) (t.fpIn f b)) s,
      toF_ran q d (fun t => f.sub t.rm t.daz t.ftz (t.fpIn f a) (t.fpIn f b)) s,
      toF_ran q d (fun t => f.mul t.rm t.daz t.ftz (t.fpIn f a) (t.fpIn f b)) s,
      toF_ran q d (fun t => f.div t.rm t.daz t.ftz (t.fpIn f a) (t.fpIn f b)) s,
      toF_ran q d (fun t => f.sqrt t.rm t.daz t.ftz (t.fpIn f a)) s,
      toF_ran q d (fun t => f.minMax t.daz false false (t.fpIn f a) (t.fpIn f b)) s,
      toF_ran q d (fun t => f.minMax t.daz true false (t.fpIn f a) (t.fpIn f b)) s,
      toF_ran q d (fun t => f.minMax t.daz false true (t.fpIn f a) (t.fpIn f b)) s,
      toF_ran q d (fun t => f.minMax t.daz true true (t.fpIn f a) (t.fpIn f b)) s,
      toF_ran q d (fun t => f.fma (t.roundMode rnd) t.daz t.ftz false false (t.fpIn f a) (t.fpIn f b) (t.fpIn f d)) s,
      toF_ran q d (fun t => f.fma (t.roundMode rnd) t.daz t.ftz false true (t.fpIn f a) (t.fpIn f b) (t.fpIn f d)) s,
      toF_ran q d (fun t => f.fma (t.roundMode rnd) t.daz t.ftz true false (t.fpIn f a) (t.fpIn f b) (t.fpIn f d)) s,
      toF_ran q d (fun t => f.fma (t.roundMode rnd) t.daz t.ftz true true (t.fpIn f a) (t.fpIn f b) (t.fpIn f d)) s⟩
  · intro w
    have hw : w = (fmtOf fm.toNat).width := (fmtOf_width _).symm
    clear_value w
    subst hw
    have hs := fmtOf_sg fm.toNat
    refine ⟨toF_bits (f := fun t => Fmt.abs _ (t.fpIn _ a)) q d s fun j _ => testBit_abs hs ..,
      toF_bits (f := fun t => Fmt.negate _ (t.fpIn _ a)) q d s fun j _ => testBit_negate hs ..,
      toF_bits (f := fun t => Fmt.copySign _ (t.fpIn _ a) (t.fpIn _ b)) q d s fun j _ => testBit_copySign hs ..,
      toF_bits (f := fun t => (t.rx a).toNat % 2 ^ _) q d s fun j _ => Nat.testBit_mod_two_pow .., ?_, ?_⟩
    · refine ⟨BitVec.ofNat 64 (s.thr.fpIn (fmtOf fm.toNat) a), toX_ran q d (fun t => BitVec.ofNat 64 (t.fpIn _ a)) s, fun j hj => ?_⟩
      rw [BitVec.getLsbD_ofNat, testBit_fpIn]; simp [hj]; rfl
    · obtain ⟨k, hk, hc⟩ := classOf_two_pow (fmtOf fm.toNat) (s.thr.fpIn (fmtOf fm.toNat) a)
      exact ⟨k, hk, hc ▸ toX_ran q d (fun t => BitVec.ofNat 64 (Fmt.classOf _ (t.fpIn _ a))) s⟩


/-- FCVT to an integer type: the source saturated to the range of the type. -/
theorem execFcvt_int (q src rnd : BitVec 3) (d a : BitVec 5) (s : State) {dst : BitVec 3} (hd : ¬ dst.toNat < 4) (h5 : dst ≠ 5#3) :
    execFcvt q dst src rnd d a s =
      let r := toRange (s.thr.roundMode rnd) (intRange dst.toNat).1 (intRange dst.toNat).2 (cvtSource s.thr src.toNat a)
      .next (s.ran q (fun t => (t.wx d (BitVec.ofInt 64 r.1)).flag r.2)) := by
  refine guarded_ran _ _ _ _ ?_
  have h5' : dst.toNat ≠ 5 := fun h => h5 (BitVec.eq_of_toNat_eq h)
  simp only [if_neg hd, if_neg h5', retire_setThr]

theorem toRange_within (rm : Nat) {lo hi : Int} (hlo : lo ≤ 0) (hhi : 0 ≤ hi) (v : FV) : lo ≤ (toRange rm lo hi v).1 ∧ (toRange rm lo hi v).1 ≤ hi := by
  cases v with
  | nan => exact ⟨hlo, hhi⟩
  | inf n => cases n <;> simp only [toRange] <;> simp <;> lia
  | fin n m e => simp only [toRange]; split <;> [skip; split] <;> dsimp only <;> lia

theorem setWidth_ofInt_word {i : Int} (h0 : 0 ≤ i) (hi : i ≤ 2 ^ 32 - 1) : ((BitVec.ofInt 32 i).setWidth 64 : Word) = BitVec.ofInt 64 i := by
  obtain ⟨n, rfl⟩ := Int.eq_ofNat_of_zero_le h0
  rw [BitVec.ofInt_natCast, BitVec.ofInt_natCast]
  exact BitVec.setWidth_ofNat_of_le_of_lt (by decide) (by omega)

/-- FCVT to u32. -/
theorem execFcvt_u32 (q src rnd : BitVec 3) (d a : BitVec 5) (s : State) :
    execFcvt q 5#3 src rnd d a s =
      let r := toRange (s.thr.roundMode rnd) 0 (2 ^ 32 - 1) (cvtSource s.thr src.toNat a)
      .next (s.ran q (fun t => (t.wx d (BitVec.ofInt 64 r.1)).flag r.2)) := by
  refine guarded_ran _ _ _ _ ?_
  obtain ⟨h0, hi⟩ := toRange_within (s.thr.roundMode rnd) (le_refl 0) (by norm_num : (0:Int) ≤ 2 ^ 32 - 1) (cvtSource s.thr src.toNat a)
  simp only [if_neg (by decide : ¬ (5#3).toNat < 4), if_pos (by decide : (5#3).toNat = 5), retire_setThr]
  rw [← setWidth_ofInt_word h0 hi]
  rfl

theorem execFcvt_fp (q src rnd : BitVec 3) (d a : BitVec 5) (s : State) {dst : BitVec 3} (hd : dst.toNat < 4) :
    execFcvt q dst src rnd d a s =
      let r := (fmtOf dst.toNat).finish (s.thr.roundMode rnd) s.thr.ftz (cvtSource s.thr src.toNat a, snanFlag [cvtSource s.thr src.toNat a])
      .next (s.ran q (fun t => (t.wf d (BitVec.ofNat 64 r.1)).flag r.2)) := by
  refine guarded_ran _ _ _ _ ?_
  simp only [if_pos hd, retire_setThr]

theorem ftrOp_true (fn : Nat) {q : BitVec 3} (c : BitVec 1) (d a : BitVec 5) {s : State} (hq : s.rp q = true) :
    ftrOp fn q c d a s =
      if c = 1#1 then
        let r := ftrCorrect fn s.thr.rm s.thr.daz s.thr.ftz ((s.rf a).toNat % 2 ^ 32)
        .next ((s.setThr (s.thr.parked (.ftr d r.1 r.2.toNat))).after 30 (.threadResume s.here s.slot.val))
      else
        let r := ftrApproximate fn s.thr.daz s.thr.ftz ((s.rf a).toNat % 2 ^ 32)
        .next (s.setThr ((s.thr.wf d (BitVec.ofNat 64 r.1)).flag r.2).retired) := by
  unfold ftrOp
  rw [guarded_true hq]
  dsimp only
  rw [retire_setThr]
  rfl

/-- Settles O35: the conversions by their three branches, the transcendentals by `ftrOp_true`. -/
theorem floatConversions : Obligations.FloatConversions := by
  intro q pd1 pd2 ty cnd dst src rnd c d a b s t cmp x fs v rm int ftr
  have hv : v = cvtSource s.thr src.toNat a := rfl
  refine ⟨retire_setThr .., retire_setThr .., fun h => execFcvt_fp q src rnd d a s h, ?_, ?_, ?_, ?_, ftrOp_true 0 c d a, ftrOp_true 1 c d a, ftrOp_true 2 c d a, ftrOp_true 3 c d a,
    ftrOp_true 4 c d a, ftrOp_true 5 c d a, ftrOp_true 6 c d a⟩
  · rintro rfl; exact execFcvt_int q src rnd d a s (by decide) (by decide)
  · rintro rfl; exact execFcvt_u32 q src rnd d a s
  · rintro rfl; exact execFcvt_int q src rnd d a s (by decide) (by decide)
  · rintro rfl; exact execFcvt_int q src rnd d a s (by decide) (by decide)

end Sys2Proof
end

section
/-! Monitors (O33; spec 08, R193-R199). -/

namespace Sys2Proof.Machine

/-! ### Numbers whose bits are conditions -/

/-- The number whose bit `i` is set where `p i` holds, for `i` below `n`. -/
def flagSum (p : Nat → Bool) (n : Nat) : Nat := ((List.range n).map fun i => if p i then 2 ^ i else 0).sum

theorem flagSum_succ (p : Nat → Bool) (n : Nat) : flagSum p (n + 1) = 2 ^ n * (p n).toNat + flagSum p n := by
  unfold flagSum
  rw [List.range_succ, List.map_append, List.sum_append, Nat.add_comm]
  cases h : p n <;> simp [h]

theorem flagSum_lt (p : Nat → Bool) (n : Nat) : flagSum p n < 2 ^ n := by
  induction n with
  | zero => simp [flagSum]
  | succ n ih =>
    rw [flagSum_succ, pow_succ]
    cases p n <;> simp <;> lia

theorem testBit_flagSum (p : Nat → Bool) (n j : Nat) : (flagSum p n).testBit j = (decide (j < n) && p j) := by
  induction n with
  | zero => simp [flagSum]
  | succ n ih =>
    rw [flagSum_succ, Nat.testBit_two_pow_mul_add _ (flagSum_lt p n), ih]
    obtain h | rfl | h := lt_trichotomy j n
    · simp [h, Nat.lt_succ_of_lt h]
    · cases p j <;> simp
    · have hsub : j - n ≠ 0 := by lia
      have hge : ¬ j < n + 1 := by lia
      have hone : Nat.testBit 1 (j - n) = false := Nat.testBit_lt_two_pow (Nat.one_lt_two_pow hsub)
      cases p n <;> simp [h.not_gt, hge, hone]

theorem flagSum_eq_zero (p : Nat → Bool) (n : Nat) : flagSum p n = 0 ↔ ∀ i, i < n → p i = false := by
  constructor
  · intro h i hi
    have hbit := testBit_flagSum p n i
    rw [h, Nat.zero_testBit, decide_eq_true hi, Bool.true_and] at hbit
    exact hbit.symm
  · intro h
    induction n with
    | zero => rfl
    | succ n ih => rw [flagSum_succ, h n (Nat.lt_succ_self n), ih fun i hi => h i (Nat.lt_succ_of_lt hi)]; rfl

/-! ### The monitors of a thread -/

@[simp] theorem mons_retired (t : Thread) : t.retired.mons = t.mons := by simp [Thread.retired]
@[simp] theorem intr_retired (t : Thread) : t.retired.intr = t.intr := by simp [Thread.retired]
@[simp] theorem wait_retired (t : Thread) : t.retired.wait = t.wait := by simp [Thread.retired]

theorem mon_congr {t u : Thread} (h : t.mons = u.mons) (i : Nat) : t.mon i = u.mon i := by unfold Thread.mon; rw [h]

theorem mon_setMon (t : Thread) {i : Nat} (hi : i < 4) (m : Monitor) (j : Nat) : (t.setMon i m).mon j = if j = i then m else t.mon j := by
  simp only [Thread.mon, Thread.setMon, Vector.toList_setIfInBounds, List.getElem?_set]
  by_cases h : j = i
  · subst h; simp [hi]
  · simp [h, Ne.symm h]

theorem mon_clearTrig (t : Thread) (j : Nat) (h : (t.mon j).armed = true) : (t.clearTrig.mon j).trig = false := by
  have hlist : t.clearTrig.mons.toList = t.mons.toList.map fun m => if m.armed then { m with trig := false } else m := by
    simp [Thread.clearTrig, vmap]
  unfold Thread.mon at h ⊢
  rw [hlist, List.getElem?_map]
  cases hm : t.mons.toList[j]? with
  | none => rfl
  | some m =>
    rw [hm] at h
    simp only [Option.map_some, Option.getD_some] at h ⊢
    rw [if_pos h]

/-! ### MONDIS (R198) -/

theorem thr_sendCancel (s : State) (i : Nat) : (s.sendCancel i).thr = s.thr := by
  unfold State.sendCancel
  dsimp only
  split
  · exact (keepsThreads_after ..).thr
  · rfl

/-- A thread whose monitor `i` has been disarmed. -/
def Thread.disarmed (t : Thread) (i : Nat) : Thread :=
  t.setMon i { t.mon i with armed := false, trig := false, gen := ((t.mon i).gen + 1) % 16 }

theorem thr_disarm (s : State) (i : Nat) : (s.disarm i).thr = s.thr.disarmed i := by
  unfold State.disarm
  dsimp only
  rw [thr_setThr, thr_sendCancel]
  rfl

theorem x_disarmed (t : Thread) (i : Nat) : (t.disarmed i).x = t.x := rfl

theorem mon_disarmed (t : Thread) {i : Nat} (hi : i < 4) (j : Nat) : (t.disarmed i).mon j =
    if j = i then { t.mon i with armed := false, trig := false, gen := ((t.mon i).gen + 1) % 16 } else t.mon j := mon_setMon t hi _ j

/-- Monitor `i` of a thread is disarmed. -/
def Thread.idle (t : Thread) (i : Nat) : Prop := (t.mon i).armed = false ∧ (t.mon i).trig = false

theorem idle_disarmed (t : Thread) {i : Nat} (hi : i < 4) {j : Nat} (h : j = i ∨ t.idle j) : (t.disarmed i).idle j := by
  unfold Thread.idle
  rw [mon_disarmed t hi]
  split
  · exact ⟨rfl, rfl⟩
  · exact h.resolve_left ‹_›

theorem foldl_disarm (l : List Nat) (hl : ∀ i ∈ l, i < 4) (s : State) :
    (l.foldl State.disarm s).thr.x = s.thr.x ∧ ∀ j, j ∈ l ∨ s.thr.idle j → (l.foldl State.disarm s).thr.idle j := by
  induction l generalizing s with
  | nil => exact ⟨rfl, fun j h => h.resolve_left (List.not_mem_nil)⟩
  | cons i l ih =>
    obtain ⟨hx, hidle⟩ := ih (fun k hk => hl k (List.mem_cons_of_mem i hk)) (s.disarm i)
    refine ⟨by rw [List.foldl_cons, hx, thr_disarm, x_disarmed], fun j h => hidle j ?_⟩
    rw [thr_disarm, List.mem_cons] at *
    obtain (h | h) | h := h
    · exact Or.inr (idle_disarmed _ (hl i List.mem_cons_self) (Or.inl h))
    · exact Or.inl h
    · exact Or.inr (idle_disarmed _ (hl i List.mem_cons_self) (Or.inr h))

/-! ### MONST and WAITM -/

theorem armedBits_eq (t : Thread) : t.armedBits = flagSum (fun i => (t.mon i).armed) 4 := rfl

/-- The bits that WAITM reports (Table 8.5). -/
def Thread.waitmBit (t : Thread) (lim : Word) (j : Nat) : Bool :=
  if j < 4 then (t.mon j).armed && (t.mon j).trig
  else if j = 4 then lim == 0 else if j = 5 then t.intr
  else if j = 6 then (!(t.mon 0).armed && !(t.mon 1).armed && !(t.mon 2).armed && !(t.mon 3).armed) && lim == BitVec.allOnes 64 else false

theorem armedBits_zero (t : Thread) : (t.armedBits == 0) = (!(t.mon 0).armed && !(t.mon 1).armed && !(t.mon 2).armed && !(t.mon 3).armed) := by
  rw [Bool.eq_iff_iff, beq_iff_eq, armedBits_eq, flagSum_eq_zero]
  simp only [Bool.and_eq_true, Bool.not_eq_true']
  constructor
  · exact fun h => ⟨⟨⟨h 0 (by lia), h 1 (by lia)⟩, h 2 (by lia)⟩, h 3 (by lia)⟩
  · rintro ⟨⟨⟨h0, h1⟩, h2⟩, h3⟩ i hi
    obtain rfl | rfl | rfl | rfl := (by decide : ∀ j < 4, j = 0 ∨ j = 1 ∨ j = 2 ∨ j = 3) i hi
    · exact h0
    · exact h1
    · exact h2
    · exact h3

theorem waitmBits_eq (t : Thread) (lim : Word) :
    t.trigBits + (if lim = 0 then 16 else 0) + (if t.intr then 32 else 0) +
      (if (t.armedBits == 0 && !(lim != BitVec.allOnes 64)) = true then 64 else 0) = flagSum (t.waitmBit lim) 7 := by
  rw [armedBits_zero, show t.trigBits = flagSum (fun i => (t.mon i).armed && (t.mon i).trig) 4 from rfl]
  simp only [flagSum, List.range_succ, List.range_zero, List.map_append, List.map_nil, List.map_cons, List.sum_append, List.sum_cons, List.sum_nil,
    Thread.waitmBit]
  simp

/-- What WAITM leaves when a condition holds. -/
def Thread.waitmDone (t : Thread) (d : BitVec 5) (lim : Word) : Thread :=
  (({ t.clearTrig with intr := false } : Thread).wx d (BitVec.ofNat 64 (flagSum (t.waitmBit lim) 7))).retired

theorem execWaitm_holds {q : BitVec 3} {d a : BitVec 5} {s : State} (hq : s.rp q = true) {i : Nat} (hi : i < 7) (h : s.thr.waitmBit (s.rx a) i = true) :
    execWaitm q d a s = .next (s.setThr (s.thr.waitmDone d (s.rx a))) := by
  have hbits : flagSum (s.thr.waitmBit (s.rx a)) 7 ≠ 0 := fun h0 => by
    rw [(flagSum_eq_zero _ _).mp h0 i hi] at h
    exact Bool.noConfusion h
  unfold execWaitm
  rw [guarded_true hq]
  dsimp only
  rw [waitmBits_eq, if_pos hbits, State.wx, State.retire, thr_setThr, thr_setThr, setThr_setThr, setThr_setThr]
  rfl

theorem execWaitm_parks {q : BitVec 3} {d a : BitVec 5} {s : State} (hq : s.rp q = true) (h : ∀ i, i < 7 → s.thr.waitmBit (s.rx a) i = false) :
    execWaitm q d a s =
      if s.rx a = BitVec.allOnes 64 then .next (s.setThr (s.thr.parked (.waitm d none)))
      else .next ((s.setThr (s.thr.parked (.waitm d (some (s.cycle + (s.rx a).toNat))))).after (s.rx a).toNat
        (.waitmTimeout (s.keyOf s.here s.slot.val).1 (s.keyOf s.here s.slot.val).2 s.slot.val)) := by
  unfold execWaitm
  rw [guarded_true hq]
  dsimp only
  rw [waitmBits_eq, if_neg (not_not.mpr ((flagSum_eq_zero _ _).mpr h))]
  by_cases hlim : s.rx a = BitVec.allOnes 64
  · rw [if_pos hlim, hlim, bne_self_eq_false]
    rfl
  · rw [if_neg hlim, bne_iff_ne.mpr hlim]
    rfl

theorem execMondis_one {q : BitVec 3} {s : State} (hq : s.rp q = true) (idx : BitVec 2) :
    execMondis q (idx.setWidth 3) s = .next ((s.disarm idx.toNat).setThr (s.disarm idx.toNat).thr.retired) := by
  have hlt := idx.isLt
  have hidx : (idx.setWidth 3).toNat = idx.toNat := by simp; lia
  unfold execMondis
  rw [guarded_true hq, hidx, if_neg (by lia)]
  rfl

theorem execMondis_all {q : BitVec 3} {s : State} (hq : s.rp q = true) : execMondis q 4#3 s = .next (s.disarmAll.setThr s.disarmAll.thr.retired) := by
  unfold execMondis
  rw [guarded_true hq, if_pos (by decide)]
  rfl

/-- The bits that MONST delivers: which monitors are armed, and which are triggered. -/
def Thread.monstBits (t : Thread) : Nat := 2 ^ 4 * flagSum (fun i => (t.mon i).trig) 4 + flagSum (fun i => (t.mon i).armed) 4

theorem execMonst_eq {q : BitVec 3} {d : BitVec 5} {s : State} (hq : s.rp q = true) :
    execMonst q d s = .next (s.setThr (s.thr.wx d (BitVec.ofNat 64 s.thr.monstBits)).retired) := by
  unfold execMonst
  rw [guarded_true hq]
  dsimp only
  rw [retire_wx, Thread.monstBits, Nat.add_comm]
  rfl

theorem getLsbD_monst (t : Thread) (j : Nat) (hj : j < 64) : (BitVec.ofNat 64 t.monstBits).getLsbD j =
    if j < 4 then (t.mon j).armed else if j < 8 then (t.mon (j - 4)).trig else false := by
  rw [BitVec.getLsbD_ofNat, decide_eq_true hj, Bool.true_and, Thread.monstBits, Nat.testBit_two_pow_mul_add _ (flagSum_lt _ 4), testBit_flagSum, testBit_flagSum]
  by_cases h4 : j < 4
  · simp [h4]
  · by_cases h8 : j < 8
    · have hsub : j - 4 < 4 := by omega
      simp [h4, h8, hsub]
    · have hsub : ¬ j - 4 < 4 := by omega
      simp [h4, h8, hsub]

theorem getLsbD_waitm {t : Thread} {lim : Word} {j : Nat} (hj : j < 64) : (BitVec.ofNat 64 (flagSum (t.waitmBit lim) 7)).getLsbD j = t.waitmBit lim j := by
  rw [BitVec.getLsbD_ofNat, decide_eq_true hj, Bool.true_and, testBit_flagSum]
  by_cases h : j < 7
  · rw [decide_eq_true h, Bool.true_and]
  · have hnot : ¬ j < 4 ∧ j ≠ 4 ∧ j ≠ 5 ∧ j ≠ 6 := by lia
    rw [decide_eq_false h, Bool.false_and, Thread.waitmBit, if_neg hnot.1, if_neg hnot.2.1, if_neg hnot.2.2.1, if_neg hnot.2.2.2]

theorem waitmBit_of_hit {t : Thread} {lim : Word}
    (h : (((t.mon 0).armed && (t.mon 0).trig) || ((t.mon 1).armed && (t.mon 1).trig) || ((t.mon 2).armed && (t.mon 2).trig) ||
      ((t.mon 3).armed && (t.mon 3).trig) || lim == 0 || t.intr ||
      ((!(t.mon 0).armed && !(t.mon 1).armed && !(t.mon 2).armed && !(t.mon 3).armed) && lim == BitVec.allOnes 64)) = true) :
    ∃ i, i < 7 ∧ t.waitmBit lim i = true := by
  rw [Bool.or_eq_true, Bool.or_eq_true, Bool.or_eq_true, Bool.or_eq_true, Bool.or_eq_true, Bool.or_eq_true] at h
  obtain (((((h | h) | h) | h) | h) | h) | h := h
  · exact ⟨0, by lia, h⟩
  · exact ⟨1, by lia, h⟩
  · exact ⟨2, by lia, h⟩
  · exact ⟨3, by lia, h⟩
  · exact ⟨4, by lia, h⟩
  · exact ⟨5, by lia, h⟩
  · exact ⟨6, by lia, h⟩

theorem waitmBit_none {t : Thread} {lim : Word} (hhit : ∀ j, j < 4 → ((t.mon j).armed && (t.mon j).trig) = false) (hlim : lim ≠ 0) (hintr : t.intr = false)
    (harmed : (t.mon 0).armed = true) (i : Nat) : t.waitmBit lim i = false := by
  unfold Thread.waitmBit
  split
  · exact hhit i ‹_›
  · simp [hintr, harmed]
    exact fun _ => hlim

/-! ### MONARM (R195, R199) -/

/-- Replacing the core in focus keeps the data where its process stays. -/
theorem keepsData_setCoreAt_here {s u : State} (h : KeepsData s u) {k : Core} (hocc : k.occupied = (u.coreAt s.here).occupied)
    (hproc : k.proc = (u.coreAt s.here).proc) : KeepsData s (u.setCoreAt s.here k) := by
  rw [← h.here, coreAt_here] at hocc hproc
  rw [← h.here, setCoreAt_here]
  exact h.trans ⟨rfl, rfl, rfl, rfl, hocc, congrArg Proc.gid hproc, congrArg Proc.lid hproc, congrArg Proc.win hproc⟩

/-- A wake that a window's own core sends leaves every byte where it is. -/
theorem keepsData_sendWake (s : State) (w : Watch) : KeepsData s (s.sendWake s.here w) := by
  unfold State.sendWake
  dsimp only
  split
  · exact ⟨rfl, rfl, rfl, rfl, rfl, rfl, rfl, rfl⟩
  · split
    · exact ⟨rfl, rfl, rfl, rfl, rfl, rfl, rfl, rfl⟩
    · split
      · exact ⟨rfl, rfl, rfl, rfl, rfl, rfl, rfl, rfl⟩
      · split
        · have huse (e : LocEnt) : KeepsData s (s.useLoc s.here e) := keepsData_setCoreAt_here (KeepsData.rfl' s) rfl rfl
          exact (huse _).trans ⟨rfl, rfl, rfl, rfl, rfl, rfl, rfl, rfl⟩
        · refine keepsData_setCoreAt_here ?_ rfl rfl
          unfold State.lookUp
          split
          · exact KeepsData.rfl' s
          · exact ⟨rfl, rfl, rfl, rfl, rfl, rfl, rfl, rfl⟩

theorem installWatch_here {s : State} {w : Watch} (h : w.home = s.here) :
    KeepsData s (s.installWatch w) ∧ (s.installWatch w).thr = s.thr ∧ w ∈ (s.installWatch w).watches := by
  have hmem (l : List Watch) : w ∈ l ++ [w] := List.mem_append_right l List.mem_cons_self
  unfold State.installWatch
  dsimp only
  split
  · rw [h]
    exact ⟨(keepsData_sendWake s _).trans ⟨rfl, rfl, rfl, rfl, rfl, rfl, rfl, rfl⟩, (keepsThreads_sendWake s s.here _).thr, hmem _⟩
  · exact ⟨⟨rfl, rfl, rfl, rfl, rfl, rfl, rfl, rfl⟩, rfl, hmem _⟩

theorem monGen_here (s : State) (i : Nat) : s.monGen s.here s.slot.val i = (s.thr.mon i).gen := by
  have hslot : s.core.slots.toList[s.slot.val]? = some s.thr := by
    rw [State.thr]
    simp
  unfold State.monGen Thread.mon
  rw [coreAt_here, hslot, Option.bind_some]
  cases s.thr.mons.toList[i]? <;> rfl

/-- What arming a free monitor of the thread in focus on a place at its own core leaves. -/
structure Arms (s u : State) (p : Place) (i : Nat) : Prop where
  data : KeepsData s u
  thr : u.thr = s.thr.setMon i { armed := true, line := p.align 256, gen := (s.thr.mon i).gen, trig := false }
  watch : ∃ w ∈ u.watches, w.line = p.align 256 ∧ w.slot = s.slot.val ∧ w.mon = i ∧ w.gen = (s.thr.mon i).gen

theorem Arms.x {s u : State} {p : Place} {i : Nat} (h : Arms s u p i) : u.thr.x = s.thr.x := by rw [h.thr]; rfl

theorem armMonitor_free {s : State} {p : Place} {i : Nat} (h : (s.thr.mon i).armed = false) : s.armMonitor p i =
    s.setThr (s.thr.setMon i { armed := true, line := p.align 256, gen := (s.thr.mon i).gen, trig := false }) := by
  have hno : s.sendCancel i = s := by
    unfold State.sendCancel
    dsimp only
    exact if_neg (by rw [show ((s.thr.mons.toList[i]?).getD {}).armed = false from h]; decide)
  unfold State.armMonitor
  dsimp only
  rw [hno, show (s.thr.mons.toList[i]?).getD {} = s.thr.mon i from rfl, h, if_neg (by decide)]
  rfl

theorem arms_armFor {s : State} {p : Place} {i : Nat} (hi : i < 4) (hhome : s.homeOf p = s.here) (h : (s.thr.mon i).armed = false) :
    Arms s (s.armFor p i (.thread s.here s.slot.val)) p i := by
  unfold State.armFor
  dsimp only
  rw [armMonitor_free h, hhome]
  generalize hm : s.thr.setMon i { armed := true, line := p.align 256, gen := (s.thr.mon i).gen, trig := false } = m
  have hgen : (s.setThr m).monGen s.here s.slot.val i = (s.thr.mon i).gen := by
    rw [show (s.setThr m).monGen s.here s.slot.val i = ((s.setThr m).thr.mon i).gen from monGen_here _ i, thr_setThr, ← hm, mon_setMon _ hi, if_pos rfl]
  rw [hgen]
  have hinstall (w : Watch) (hw : w.home = s.here) (hline : w.line = p.align 256) (hslot : w.slot = s.slot.val) (hmon : w.mon = i)
      (hg : w.gen = (s.thr.mon i).gen) : Arms s ((s.setThr m).installWatch w) p i := by
    obtain ⟨hdata, hthr, hwatch⟩ := installWatch_here (s := s.setThr m) hw
    exact ⟨(keepsData_setThr s m).trans hdata, by rw [hthr, thr_setThr, hm], w, hwatch, hline, hslot, hmon, hg⟩
  exact hinstall _ rfl rfl rfl rfl rfl

theorem OwnData.arm {s : State} {ea : Word} (h : OwnData s ea 8) {a : Acc} (who : Asker) (hp : a.place = s.ownPlace ea) (hs : a.size = 8) (hk : a.kind = .arm) :
    s.performHome a who = .done (s.armFor (s.ownPlace ea) a.mask who) (Memory.read s.proc.win (ea.toNat % 2 ^ 48) 8) {} true := by
  unfold State.performHome
  rw [hp, hs, hk]
  dsimp only
  rw [h.home]
  dsimp only
  rw [h.sound, if_neg (by decide), delivered_ownPlace, h.peek]

/-- The thread after an access of the own window has written a register. -/
def Thread.readDone (t : Thread) (d : BitVec 5) (v : Word) : Thread := (({ t with gotSig := {} } : Thread).wx d v).retired

theorem x_readDone (t : Thread) (d : BitVec 5) (v : Word) : (t.readDone d v).x = (t.wx d v).x := by
  unfold Thread.readDone
  rw [x_retired]
  exact x_wx_congr (t := { t with gotSig := {} }) (u := t) rfl d v

theorem mons_readDone (t : Thread) (d : BitVec 5) (v : Word) : (t.readDone d v).mons = t.mons := by
  unfold Thread.readDone
  rw [mons_retired, mons_wx]

/-- MONARM of a free monitor on the own window: the dword is read and the monitor armed in one action. -/
theorem execMonarm_own {s : State} {q : BitVec 3} {d a : BitVec 5} {idx : BitVec 2} (hq : s.rp q = true) (h : OwnData s (s.rx a) 8)
    (hfree : (s.thr.mon idx.toNat).armed = false) :
    ∃ u, Arms s u (s.ownPlace (s.rx a)) idx.toNat ∧ execMonarm q d a idx s =
      .next (u.setThr (u.thr.readDone d (BitVec.ofNat 64 (Memory.read s.proc.win ((s.rx a).toNat % 2 ^ 48) 8)))) := by
  refine ⟨_, arms_armFor idx.isLt (homeOf_own h.occupied _) hfree, ?_⟩
  unfold execMonarm
  rw [guarded_true hq]
  dsimp only
  rw [h.atAddr, if_neg (by simp), h.startAcc rfl (by simp) rfl (h.arm _ rfl rfl rfl) rfl, State.retire, thr_setThr, setThr_setThr, thr_setThr, setThr_setThr]
  rfl

end Sys2Proof.Machine

namespace Sys2Proof
open Machine

/-- Settles O33: MONARM by `execMonarm_own`, MONDIS by what `disarm` makes of the thread, MONST and WAITM by the bits of their numbers. -/
theorem monitors : Obligations.Monitors := by
  intro q d a idx s hq ea lim t armed trig line
  refine ⟨fun hown hfree => ?_, ?_, ?_, ?_, fun h => ?_, fun hhit hlim hintr harmed => ?_⟩
  · obtain ⟨u, harms, hexec⟩ := execMonarm_own (d := d) hq hown hfree
    obtain ⟨w, hw, hline, hslot, hmon, hgen⟩ := harms.watch
    have hm (v : Word) : ((u.setThr (u.thr.readDone d v)).thr.mon idx.toNat) = { armed := true, line := line, gen := (s.thr.mon idx.toNat).gen, trig := false } := by
      rw [thr_setThr, mon_congr (mons_readDone ..), harms.thr, mon_setMon _ idx.isLt, if_pos rfl]
    refine ⟨_, hexec, fun p => (harms.data.setThr _).peek p 1, fun r => ?_, ?_, ?_, ?_, w, hw, hline, hslot, hmon, ?_⟩
    · refine rx_congr ?_ r
      rw [thr_setThr, x_readDone]
      exact x_wx_congr harms.x d _
    all_goals rw [hm]
    exact hgen
  · refine ⟨_, execMondis_one hq idx, ?_, ?_, ?_, fun j hj hne => ?_⟩
    · rw [thr_setThr, x_retired, thr_disarm, x_disarmed]
    · rw [thr_setThr, mon_congr (mons_retired _), thr_disarm, mon_disarmed _ idx.isLt, if_pos rfl]
    · rw [thr_setThr, mon_congr (mons_retired _), thr_disarm, mon_disarmed _ idx.isLt, if_pos rfl]
    · rw [thr_setThr, mon_congr (mons_retired _), thr_disarm, mon_disarmed _ idx.isLt, if_neg hne]
  · obtain ⟨hx, hidle⟩ := foldl_disarm (List.range 4) (fun i hi => List.mem_range.mp hi) s
    refine ⟨_, execMondis_all hq, ?_, fun j hj => ?_⟩
    · rw [thr_setThr, x_retired]
      exact hx
    · have h := hidle j (Or.inl (List.mem_range.mpr hj))
      rw [thr_setThr, mon_congr (mons_retired _)]
      exact h
  · exact ⟨_, execMonst_eq hq, getLsbD_monst t⟩
  · obtain ⟨i, hi, hbit⟩ := waitmBit_of_hit (lim := lim) h
    refine ⟨_, execWaitm_holds hq hi hbit, ?_, ?_, fun r hr => ?_, fun hd j hj => ?_, fun j hj hhit => ?_⟩
    · rw [thr_setThr, Thread.waitmDone, intr_retired, intr_wx]
    · rw [thr_setThr, Thread.waitmDone, wait_retired, wait_wx]
      rfl
    · rw [State.rx, thr_setThr, Thread.waitmDone, rx_congr (x_retired _), rx_wx, if_neg (fun h => hr h.1)]
      rfl
    · rw [State.rx, thr_setThr, Thread.waitmDone, rx_congr (x_retired _), rx_wx, if_pos ⟨rfl, hd⟩, getLsbD_waitm hj]
      rfl
    · rw [thr_setThr, Thread.waitmDone, mon_congr (mons_retired _), mon_congr (mons_wx _ _ _)]
      exact mon_clearTrig t j (Bool.and_eq_true_iff.mp hhit).1
  · refine execWaitm_parks hq fun i hi => waitmBit_none (fun j hj => hhit j hj) hlim hintr harmed i

end Sys2Proof
end

section
/-! The machine after reset (O59). -/

namespace Sys2Proof.Machine

/-- Every thread of a core without a state of its own is the thread that has not run. -/
theorem thr_default (i : Nat) : ({} : Core).thr i = {} := by
  unfold Core.thr
  rw [show ({} : Core).slots = Vector.replicate 12 {} from rfl, Vector.toList_replicate, List.getElem?_replicate]
  split <;> rfl

theorem coreAt_reset (c : Nat) : State.reset.coreAt c = {} := by
  unfold State.coreAt
  split <;> rfl

theorem ok_slots_default (i : Fin 12) : ({} : Core).slots[i].ok = true := by
  have h : ({} : Core).slots[i] = {} := by simp
  rw [h]
  decide

/-- The invariant holds after reset: memory is empty, and no thread has run. -/
theorem inv_reset : State.reset.Inv where
  mem := rfl
  mbox := rfl
  mbind := rfl
  here := by decide
  others := fun _ h => absurd h List.not_mem_nil
  rising := List.Pairwise.nil
  apart := fun _ h => absurd h List.not_mem_nil
  threads := ok_slots_default
  otherThreads := fun _ h => absurd h List.not_mem_nil

end Sys2Proof.Machine

namespace Sys2Proof
open Machine

/-- Settles O59: reset is the state whose fields have their values of Table 21.1, and its cores and clusters are the default ones. -/
theorem resetState : Obligations.ResetState := by
  refine ⟨inv_reset, rfl, rfl, rfl, rfl, rfl, rfl, rfl, rfl, fun a => rfl, fun c => ?_, fun cl b => ?_⟩
  · rw [coreAt_reset]
    refine ⟨rfl, rfl, fun i => ?_⟩
    have hthr : State.reset.thrAt c i = {} := by rw [State.thrAt, coreAt_reset, thr_default]
    rw [hthr]
    exact ⟨rfl, fun r => by simp [Thread.rx]⟩
  · have hcl : State.reset.clusterAt cl = {} := rfl
    simp [hcl]

end Sys2Proof
end

section
/-! What a matrix op computes (O44; spec 13, R305-R310). -/

namespace Sys2Proof.Machine

/-! ### Arrays of digits -/

theorem digit_packDigits (w : Nat) (l : List Nat) (e : Nat) : digit (packDigits w l) w e = (l[e]?).getD 0 % 2 ^ w := by
  unfold digit
  induction l generalizing e with
  | nil => simp [packDigits]
  | cons d l ih =>
    have hlt : d % 2 ^ w < 2 ^ w := Nat.mod_lt _ (Nat.two_pow_pos w)
    cases e with
    | zero => simp [packDigits]
    | succ e =>
      have hdiv : packDigits w (d :: l) / 2 ^ (w * (e + 1)) = packDigits w l / 2 ^ (w * e) := by
        rw [Nat.mul_succ, pow_add, Nat.mul_comm, ← Nat.div_div_eq_div_mul, packDigits, Nat.add_mul_div_left _ _ (Nat.two_pow_pos w), Nat.div_eq_of_lt hlt, Nat.zero_add]
      rw [hdiv, ih, List.getElem?_cons_succ]

theorem digit_mod (v w i : Nat) : digit v w i % 2 ^ w = digit v w i := Nat.mod_mod _ _

/-- An element of the array after an MMA. -/
theorem digit_result (m : MmaIn) (w rows cols old : Nat) {i j : Nat} (hi : i < 16) (hj : j < 16) :
    digit (m.result w rows cols old).1 w (16 * i + j) =
      if rows.testBit i ∧ cols.testBit j then (m.element i j (digit old w (16 * i + j))).1 % 2 ^ w else digit old w (16 * i + j) := by
  have hdiv : (16 * i + j) / 16 = i := by lia
  have hmod : (16 * i + j) % 16 = j := by lia
  have hlt : 16 * i + j < 256 := by lia
  unfold MmaIn.result
  dsimp only
  rw [digit_packDigits, List.map_map, List.getElem?_map, List.getElem?_range hlt, Option.map_some, Option.getD_some, Function.comp_apply, hdiv, hmod]
  by_cases h : rows.testBit i ∧ cols.testBit j
  · rw [if_pos h, if_pos (by rw [h.1, h.2]; rfl)]
  · rw [if_neg h, if_neg (by rw [Bool.and_eq_true]; exact h)]
    exact digit_mod old w _

/-! ### Rounding looks at the value, not at its units -/

theorem roundsUp_exact (rm : Nat) (neg : Bool) (q : Nat) : roundsUp rm neg q 0 false = false := by
  unfold roundsUp
  split <;> simp

theorem roundScaled_units (rm : Nat) (neg : Bool) (mag k : Nat) (sh : Int) :
    roundScaled rm neg (mag * 2 ^ k) (sh - k) = roundScaled rm neg mag sh := by
  unfold roundScaled
  by_cases h : 0 ≤ sh
  · rw [if_pos h]
    obtain ⟨n, rfl⟩ := Int.eq_ofNat_of_zero_le h
    by_cases hk : (0 : Int) ≤ n - k
    · obtain ⟨j, rfl⟩ : ∃ j, n = k + j := Nat.exists_eq_add_of_le (by lia)
      rw [if_pos hk, show ((k + j : Nat) : Int) - k = (j : Nat) by lia, Int.toNat_natCast, Int.toNat_natCast, pow_add]
      simp [Nat.mul_assoc]
    · obtain ⟨j, rfl⟩ : ∃ j, k = n + j := Nat.exists_eq_add_of_le (by lia)
      rw [if_neg hk]
      dsimp only
      have hj : (-((n : Int) - ((n + j : Nat) : Int))).toNat = j := by lia
      have hdvd : mag * 2 ^ (n + j) = 2 ^ j * (mag * 2 ^ n) := by rw [pow_add]; ring
      rw [hj, hdvd, Nat.mul_div_cancel_left _ (Nat.two_pow_pos j), Nat.mul_mod_right]
      simp [roundsUp_exact]
  · obtain ⟨n, hn⟩ : ∃ n : Nat, sh = -(n : Int) := ⟨(-sh).toNat, by lia⟩
    subst hn
    rw [if_neg h, if_neg (by lia)]
    dsimp only
    have h1 : (-(-(n : Int) - k)).toNat = n + k := by lia
    have h2 : (-(-(n : Int))).toNat = n := by lia
    rw [h1, h2, pow_add, Nat.mul_div_mul_right _ _ (Nat.two_pow_pos k), Nat.mul_mod_mul_right]
    have hlt : 2 * (mag % 2 ^ n * 2 ^ k) < 2 ^ n * 2 ^ k ↔ 2 * (mag % 2 ^ n) < 2 ^ n := by
      rw [← Nat.mul_assoc]; exact Nat.mul_lt_mul_right (Nat.two_pow_pos k)
    have heq : 2 * (mag % 2 ^ n * 2 ^ k) = 2 ^ n * 2 ^ k ↔ 2 * (mag % 2 ^ n) = 2 ^ n := by
      rw [← Nat.mul_assoc]; exact Nat.mul_left_inj (Nat.two_pow_pos k).ne'
    have hne : mag % 2 ^ n * 2 ^ k ≠ 0 ↔ mag % 2 ^ n ≠ 0 := by simp
    simp only [hlt, heq, hne]

theorem topExp_units {mag : Nat} (h : mag ≠ 0) (k : Nat) (e : Int) : topExp (mag * 2 ^ k) (e - k) = topExp mag e := by
  have hlog : (mag * 2 ^ k).log2 = mag.log2 + k := by
    rw [Nat.log2_eq_log_two, Nat.log2_eq_log_two]
    induction k with
    | zero => simp
    | succ k ih => rw [pow_succ, ← Nat.mul_assoc, Nat.log_mul_base (by lia) (Nat.mul_ne_zero h (Nat.two_pow_pos k).ne'), ih, Nat.add_assoc]
  unfold topExp
  rw [hlog]
  push_cast
  lia

theorem roundFin_units (f : Fmt) (rm : Nat) (ftz neg : Bool) {mag : Nat} (h : mag ≠ 0) (k : Nat) (e : Int) :
    f.roundFin rm ftz neg (mag * 2 ^ k) (e - k) = f.roundFin rm ftz neg mag e := by
  have hk : mag * 2 ^ k ≠ 0 := Nat.mul_ne_zero h (Nat.two_pow_pos k).ne'
  have hscaled (q : Int) : roundScaled rm neg (mag * 2 ^ k) (e - k - q) = roundScaled rm neg mag (e - q) := by
    rw [show e - (k : Int) - q = e - q - k by ring, roundScaled_units]
  unfold Fmt.roundFin Fmt.isTiny
  rw [if_neg h, if_neg hk]
  simp only [topExp_units h, hscaled]

/-! ### The exact sum of R308 -/

/-- The number of units of 2^`e` of a finite term. -/
def Term.units (e : Int) (t : Term) : Int := match t.val with | .fin n m x => toSigned n (m * 2 ^ (x - e).toNat) | _ => 0

theorem sumTerms_eq (e : Int) (ts : List Term) : sumTerms e ts = (ts.map (Term.units e)).sum := by
  induction ts with
  | nil => rfl
  | cons t ts ih => rw [sumTerms, ih, List.map_cons, List.sum_cons]; rfl

/-- A list of finite terms, none of them invalid, whose exponents are not below `lo`. -/
def FiniteFrom (lo : Int) (ts : List Term) : Prop := ∀ t ∈ ts, t.bad = false ∧ ∃ n k e, t.val = .fin n k e ∧ lo ≤ e

theorem le_minExp {lo : Int} {ts : List Term} (h : FiniteFrom lo ts) {e : Int} (he : lo ≤ e) :
    lo ≤ minExp ts e ∧ minExp ts e ≤ e ∧ FiniteFrom (minExp ts e) ts := by
  induction ts generalizing e with
  | nil => exact ⟨he, le_refl e, fun _ h => absurd h List.not_mem_nil⟩
  | cons t ts ih =>
    obtain ⟨hbad, n, k, x, hval, hx⟩ := h t List.mem_cons_self
    obtain ⟨hlo, hle, hall⟩ := ih (fun u hu => h u (List.mem_cons_of_mem t hu)) (e := min e x) (le_min he hx)
    have hmin : minExp (t :: ts) e = minExp ts (min e x) := by rw [minExp, hval]
    rw [hmin]
    refine ⟨hlo, hle.trans (min_le_left e x), fun u hu => ?_⟩
    obtain rfl | hu := List.mem_cons.mp hu
    · exact ⟨hbad, n, k, x, hval, hle.trans (min_le_right e x)⟩
    · exact hall u hu

theorem toSigned_mul (n : Bool) (a b : Nat) : toSigned n (a * b) = toSigned n a * (b : Int) := by
  cases n <;> simp [toSigned]

/-- The same sum in smaller units. -/
theorem sum_units {lo : Int} {ts : List Term} (h : FiniteFrom lo ts) (k : Nat) : (ts.map (Term.units (lo - k))).sum = (ts.map (Term.units lo)).sum * 2 ^ k := by
  induction ts with
  | nil => simp
  | cons t ts ih =>
    obtain ⟨-, n, m, x, hval, hx⟩ := h t List.mem_cons_self
    have hk : (x - (lo - k)).toNat = (x - lo).toNat + k := by lia
    have hunits : t.units (lo - k) = t.units lo * 2 ^ k := by
      unfold Term.units
      rw [hval]
      dsimp only
      rw [hk, pow_add, ← Nat.mul_assoc, toSigned_mul]
      push_cast
      rfl
    rw [List.map_cons, List.sum_cons, List.map_cons, List.sum_cons, hunits, ih fun u hu => h u (List.mem_cons_of_mem t hu), add_mul]

/-- Whether all terms are negative zeros. -/
def negativeZeros (ts : List Term) : Bool :=
  ts.all (fun t => t.val.sign) && ts.all (fun t => match t.val with | .fin _ m _ => m == 0 | _ => false)

/-- Sum1 of finite terms rounds their exact sum. -/
theorem sum1_finite (rm : Nat) (ftz : Bool) {lo : Int} {ts : List Term} (hne : ts ≠ []) (h : FiniteFrom lo ts) :
    sum1 rm ftz ts =
      if sumTerms (minExp ts 0) ts = 0 then
        ((if negativeZeros ts || zeroSign rm then fp32.signBit else 0), 0)
      else fp32.round rm ftz (.fin (decide (sumTerms (minExp ts 0) ts < 0)) (sumTerms (minExp ts 0) ts).natAbs (minExp ts 0)) := by
  have hnone (p : Term → Bool) (hp : ∀ t n k e, t.bad = false → t.val = .fin n k e → p t = false) : ts.any p = false := by
    rw [List.any_eq_false]
    intro t ht
    obtain ⟨hbad, n, k, e, hval, -⟩ := h t ht
    rw [hp t n k e hbad hval]
    decide
  have hempty : ts.isEmpty = false := by rw [List.isEmpty_eq_false_iff]; exact hne
  have hbad : ts.any (·.bad) = false := hnone _ fun t n k e hb _ => hb
  have hnan : ts.any (fun t => t.val.isNan) = false := hnone _ fun t n k e _ hv => by rw [hv]; rfl
  have hinf (b : Bool) : ts.any (fun t => t.val == .inf b) = false := hnone _ fun t n k e _ hv => by rw [hv]; rfl
  unfold sum1
  simp only [hempty, hbad, hnan, hinf, Bool.false_and, Bool.false_eq_true, if_false]
  rfl

theorem sum1_bad (rm : Nat) (ftz : Bool) {ts : List Term} (h : ∃ t ∈ ts, t.bad = true) : sum1 rm ftz ts = (fp32.qnan, fNV) := by
  have hne : ¬ ts.isEmpty = true := by
    obtain ⟨t, ht, -⟩ := h
    rw [List.isEmpty_iff]
    exact List.ne_nil_of_mem ht
  unfold sum1
  dsimp only
  rw [if_neg hne, if_pos (List.any_eq_true.mpr h)]

/-- The exact sum counted in units of 2^-1000. -/
theorem sum1_total (rm : Nat) (ftz : Bool) {ts : List Term} (hne : ts ≠ []) (h : FiniteFrom (-1000) ts) :
    ((ts.map (Term.units (-1000))).sum ≠ 0 → sum1 rm ftz ts =
      fp32.round rm ftz (.fin (decide ((ts.map (Term.units (-1000))).sum < 0)) (ts.map (Term.units (-1000))).sum.natAbs (-1000))) ∧
    ((ts.map (Term.units (-1000))).sum = 0 → (sum1 rm ftz ts).1 % 2 ^ 31 = 0 ∧ (sum1 rm ftz ts).2 = 0) := by
  obtain ⟨hlo, -, hmin⟩ := le_minExp h (e := 0) (by decide)
  obtain ⟨k, hk⟩ : ∃ k : Nat, minExp ts 0 - k = -1000 := ⟨(minExp ts 0 + 1000).toNat, by lia⟩
  have htotal : (ts.map (Term.units (-1000))).sum = sumTerms (minExp ts 0) ts * 2 ^ k := by rw [← hk, sum_units hmin, sumTerms_eq]
  rw [sum1_finite rm ftz hne h, htotal]
  generalize sumTerms (minExp ts 0) ts = v
  have hpos : (0 : Int) < 2 ^ k := by positivity
  constructor
  · intro hv
    have hv0 : v ≠ 0 := fun h0 => hv (by rw [h0, Int.zero_mul])
    have hsign : decide (v * 2 ^ k < 0) = decide (v < 0) := by
      rw [decide_eq_decide]
      exact ⟨fun h => neg_of_mul_neg_left h hpos.le, fun h => mul_neg_of_neg_of_pos h hpos⟩
    have habs : (v * 2 ^ k).natAbs = v.natAbs * 2 ^ k := by rw [Int.natAbs_mul, Int.natAbs_pow]; rfl
    rw [if_neg hv0, hsign, habs, ← hk]
    exact (roundFin_units fp32 rm ftz _ (Int.natAbs_ne_zero.mpr hv0) k _).symm
  · intro hv
    rw [if_pos ((mul_eq_zero.mp hv).resolve_right hpos.ne')]
    dsimp only
    refine ⟨?_, rfl⟩
    split <;> rfl

end Sys2Proof.Machine

namespace Sys2Proof
open Machine

/-- Settles O44: an element by the digits of the array, the sum by its exactness in any units. -/
theorem matrixProducts : Obligations.MatrixProducts := by
  refine ⟨fun m w rows cols old i j hi hj _ => digit_result m w rows cols old hi hj, ?_, fun rm ftz ts h => sum1_bad rm ftz h⟩
  intro rm ftz ts hne hfin units total
  have hunits : units = Term.units (-1000) := by
    funext t
    obtain ⟨hbad, v⟩ := t
    cases v <;> rfl
  have htotal : total = (ts.map (Term.units (-1000))).sum := by rw [← hunits]
  rw [htotal]
  exact sum1_total rm ftz hne hfin

end Sys2Proof
end

section
/-! Task records, the task table and the ready queue (O23; spec 09 and 10, R240, R258, R269, R270). -/

namespace Sys2Proof.Machine

/-! ### Records in the own window -/

theorem read_append (m : Memory) (a off k : Nat) : Memory.read m a (off + k) = Memory.read m a off + 256 ^ off * Memory.read m (a + off) k := by
  induction off generalizing a with
  | zero => simp [Memory.read]
  | succ off ih =>
    rw [Nat.succ_add, Memory.read, ih, Memory.read, pow_succ, show a + (off + 1) = a + 1 + off by lia]
    ring

/-- A field of a record that has been read from memory is what memory holds at the field's offset. -/
theorem recField_read (m : Memory) (a : Nat) {n off k : Nat} (h : off + k ≤ n) : recField (Memory.read m a n) off k = Memory.read m (a + off) k := by
  obtain ⟨r, rfl⟩ := Nat.exists_eq_add_of_le h
  unfold recField
  rw [Nat.add_assoc, read_append, Nat.add_mul_div_left _ _ (pow_pos (by decide : 0 < 256) off), Nat.div_eq_of_lt (read_lt m a off), Nat.zero_add, read_append,
    Nat.add_mul_mod_self_left, Nat.mod_eq_of_lt (read_lt m _ k)]

theorem OwnData.withData {s : State} {ea : Word} {n : Nat} (h : OwnData s ea n) (hready : s.thr.ready = 0) (hgot : s.thr.got = []) {a : Acc}
    (hp : a.place = s.ownPlace ea) (hs : a.size = n) (hk : a.kind = .load) (hq : a.queued = false) (k : State → List Nat → Out) :
    Machine.withData 0 [a] s k = k s.sigCleared [Memory.read s.proc.win (ea.toNat % 2 ^ 48) n] := by
  have hwait : ([a].head?.bind s.queueWait) = none := by
    change s.queueWait a = none
    unfold State.queueWait
    rw [hq, if_neg (by decide), if_pos h.noStores]
  have hpump : pump [a] [] s = .done s.sigCleared [Memory.read s.proc.win (ea.toNat % 2 ^ 48) n] := by
    unfold pump
    rw [hq, if_neg (by decide), if_neg (not_not.mpr h.noStores), hp, if_pos h.isLocal, h.performs hp (by simp [hk]), h.load _ hp hs hk]
    rfl
  unfold Machine.withData
  rw [if_neg (by rw [hready]; decide), hwait, hgot, hpump]

/-- A record of the own window is read in the turn. -/
theorem OwnData.readRecord {s : State} {ea : Word} {n : Nat} (h : OwnData s ea n) (hready : s.thr.ready = 0) (hgot : s.thr.got = []) (k : State → Nat → Out) :
    Machine.readRecord n ea s k = k s.sigCleared (Memory.read s.proc.win (ea.toNat % 2 ^ 48) n) := by
  unfold Machine.readRecord
  rw [if_neg (by rw [hready]; decide), h.atAddr, h.withData hready hgot rfl rfl rfl rfl]
  rfl

theorem retire_wx_setThr (s : State) (t : Thread) (d : BitVec 5) (v : Word) : ((s.setThr t).wx d v).retire = .next (s.setThr (t.wx d v).retired) := by
  rw [retire_wx, thr_setThr, setThr_setThr]

theorem retire_wx_setThr_setProc (s : State) (t : Thread) (p : Proc) (d : BitVec 5) (v : Word) :
    (((s.setThr t).setProc p).wx d v).retire = .next ((s.setProc p).setThr (t.wx d v).retired) := by
  rw [setThr_setProc, retire_wx_setThr]

/-! ### The first free entry -/

theorem firstFree_some {f : Nat → Bool} {n i : Nat} (hi : i < n) (hf : f i = true) (hbelow : ∀ j, j < i → f j = false) : firstFree f n = some i := by
  unfold firstFree
  rw [List.find?_range_eq_some]
  exact ⟨hf, List.mem_range.mpr hi, fun j hj => by rw [hbelow j hj]; rfl⟩

theorem firstFree_none {f : Nat → Bool} {n : Nat} (h : ∀ j, j < n → f j = false) : firstFree f n = none := by
  unfold firstFree
  rw [List.find?_eq_none]
  intro j hj
  rw [h j (List.mem_range.mp hj)]
  decide

/-! ### TTSET (R240) -/

theorem afterOnce_setThr (s : State) (t : Thread) (n : Nat) (e : Instr) : (s.setThr t).afterOnce n e = (s.afterOnce n e).setThr t := by
  unfold State.afterOnce
  rw [show (s.setThr t).agenda = s.agenda from rfl, show (s.setThr t).cycle = s.cycle from rfl]
  split <;> rfl

/-- The entry that a record of TTSET describes, `n` bytes at `k` of it being `f k n`. -/
def ttEntOf (s : State) (f : Nat → Nat → Nat) : TtEnt :=
  { pc := BitVec.ofNat 64 (f 0 8), arg := BitVec.ofNat 64 (f 8 8), thr := BitVec.ofNat 32 (f 16 4), ctr := f 20 1, prio := f 21 1,
    trig := if reached (s.ctr (f 20 1)) (BitVec.ofNat 32 (f 16 4)) then some s.cycle else none }

/-- The state whose task table has an entry entered at `i`, with the step that moves it on where it is triggered. -/
def State.enteredAt (s : State) (i : Nat) (e : TtEnt) : State :=
  let s1 := s.setProc { s.proc with tt := s.proc.tt.setIfInBounds i (some e) }
  if e.trig.isSome then s1.afterOnce 1 (.readyQueueEnter s.proc.gid s.proc.lid) else s1

theorem enteredAt_setThr (s : State) (t : Thread) (i : Nat) (e : TtEnt) : (s.setThr t).enteredAt i e = (s.enteredAt i e).setThr t := by
  unfold State.enteredAt
  dsimp only
  rw [show (s.setThr t).proc = s.proc from rfl]
  split
  · rw [setThr_setProc, afterOnce_setThr]
  · rfl

theorem enteredAt_hit (s : State) (f : Nat → Nat → Nat) (i : Nat) : s.enteredAt i (ttEntOf s f) =
    let s1 := s.setProc { s.proc with tt := s.proc.tt.setIfInBounds i (some (ttEntOf s f)) }
    if reached (s.ctr (f 20 1)) (BitVec.ofNat 32 (f 16 4)) then s1.afterOnce 1 (.readyQueueEnter s.proc.gid s.proc.lid) else s1 := by
  unfold State.enteredAt
  simp [ttEntOf]

/-- The legality of the record of a TTSET or TRUN. -/
def LegalTask (f : Nat → Nat → Nat) : Prop := f 0 8 % 4 = 0 ∧ f 21 1 ≤ 3 ∧ f 22 10 = 0

/-- A field of the record that stands in the own window at an address. -/
def State.taskField (s : State) (ea : Word) (k n : Nat) : Nat := Memory.read s.proc.win (ea.toNat % 2 ^ 48 + k) n

variable {q : BitVec 3} {d a : BitVec 5} {s : State}

theorem execTtset_own (hq : s.rp q = true) (hready : s.thr.ready = 0) (hgot : s.thr.got = []) (h : OwnData s (s.rx a) 32) (hlegal : LegalTask (s.taskField (s.rx a)))
    (hctr : s.taskField (s.rx a) 20 1 ≤ 63) : execTtset q d a s =
      match firstFree (fun i => (s.proc.ttEnt i).isNone) 16 with
      | none => (s.sigCleared.wx d (-1)).retire
      | some i => ((s.sigCleared.enteredAt i (ttEntOf s (s.taskField (s.rx a)))).wx d (BitVec.ofNat 64 i)).retire := by
  obtain ⟨hpc, hprio, hzero⟩ := hlegal
  unfold State.taskField at *
  have hok : ¬ (Memory.read s.proc.win ((s.rx a).toNat % 2 ^ 48 + 0) 8 % 4 ≠ 0 ∨ 63 < Memory.read s.proc.win ((s.rx a).toNat % 2 ^ 48 + 20) 1 ∨
      3 < Memory.read s.proc.win ((s.rx a).toNat % 2 ^ 48 + 21) 1 ∨ Memory.read s.proc.win ((s.rx a).toNat % 2 ^ 48 + 22) 10 ≠ 0) := by
    rw [hpc, hzero]
    lia
  unfold execTtset
  rw [guarded_true hq, h.readRecord hready hgot]
  dsimp only
  rw [recField_read _ _ (by decide), recField_read _ _ (by decide), recField_read _ _ (by decide), recField_read _ _ (by decide),
    recField_read _ _ (by decide), recField_read _ _ (by decide), if_neg hok]
  rfl

theorem execTtset_enters (hq : s.rp q = true) (hready : s.thr.ready = 0) (hgot : s.thr.got = []) (h : OwnData s (s.rx a) 32) (hlegal : LegalTask (s.taskField (s.rx a)))
    (hctr : s.taskField (s.rx a) 20 1 ≤ 63) {i : Nat} (hi : i < 16) (hfree : s.proc.ttEnt i = none) (hbelow : ∀ j, j < i → s.proc.ttEnt j ≠ none) :
    execTtset q d a s = .next ((s.enteredAt i (ttEntOf s (s.taskField (s.rx a)))).setThr
      (({ s.thr with gotSig := {} } : Thread).wx d (BitVec.ofNat 64 i)).retired) := by
  have hfirst : firstFree (fun i => (s.proc.ttEnt i).isNone) 16 = some i :=
    firstFree_some hi (by rw [hfree]; rfl) fun j hj => by simpa [Option.isSome_iff_ne_none] using hbelow j hj
  rw [execTtset_own hq hready hgot h hlegal hctr, hfirst]
  dsimp only
  rw [State.sigCleared, enteredAt_setThr, retire_wx_setThr]

theorem execTtset_full (hq : s.rp q = true) (hready : s.thr.ready = 0) (hgot : s.thr.got = []) (h : OwnData s (s.rx a) 32) (hlegal : LegalTask (s.taskField (s.rx a)))
    (hctr : s.taskField (s.rx a) 20 1 ≤ 63) (hfull : ∀ j, j < 16 → s.proc.ttEnt j ≠ none) :
    execTtset q d a s = .next (s.setThr (({ s.thr with gotSig := {} } : Thread).wx d (-1)).retired) := by
  have hnone : firstFree (fun i => (s.proc.ttEnt i).isNone) 16 = none := firstFree_none fun j hj => by simpa [Option.isSome_iff_ne_none] using hfull j hj
  rw [execTtset_own hq hready hgot h hlegal hctr, hnone]
  dsimp only
  rw [State.sigCleared, retire_wx_setThr]

/-! ### TRUN (R269) -/

theorem askDispatch_setThr (s : State) (t : Thread) (n gid lid : Nat) : (s.setThr t).askDispatch n gid lid = (s.askDispatch n gid lid).setThr t := by
  unfold State.askDispatch
  dsimp only
  rw [show (s.setThr t).agenda = s.agenda from rfl, show (s.setThr t).cycle = s.cycle from rfl]
  split <;> rfl

theorem appendTask_setThr (s : State) (t : Thread) (pc arg : Word) (prio src : Nat) :
    (s.setThr t).appendTask pc arg prio src = (s.appendTask pc arg prio src).setThr t := by
  unfold State.appendTask
  dsimp only
  rw [setThr_setProc, askDispatch_setThr]
  rfl

theorem execTrun_own (hq : s.rp q = true) (hready : s.thr.ready = 0) (hgot : s.thr.got = []) (h : OwnData s (s.rx a) 32) (hlegal : LegalTask (s.taskField (s.rx a))) :
    execTrun q d a s =
      if s.rqFull then .next (s.setThr (({ s.thr with gotSig := {} } : Thread).wx d 2).retired)
      else .next ((s.appendTask (BitVec.ofNat 64 (s.taskField (s.rx a) 0 8)) (BitVec.ofNat 64 (s.taskField (s.rx a) 8 8)) (s.taskField (s.rx a) 21 1) 16).setThr
        (({ s.thr with gotSig := {} } : Thread).wx d 0).retired) := by
  obtain ⟨hpc, hprio, hzero⟩ := hlegal
  unfold State.taskField at *
  have hok : ¬ (Memory.read s.proc.win ((s.rx a).toNat % 2 ^ 48 + 0) 8 % 4 ≠ 0 ∨
      3 < Memory.read s.proc.win ((s.rx a).toNat % 2 ^ 48 + 21) 1 ∨ Memory.read s.proc.win ((s.rx a).toNat % 2 ^ 48 + 22) 10 ≠ 0) := by
    rw [hpc, hzero]
    lia
  unfold execTrun
  rw [guarded_true hq, h.readRecord hready hgot]
  dsimp only
  rw [recField_read _ _ (by decide), recField_read _ _ (by decide), recField_read _ _ (by decide), recField_read _ _ (by decide), if_neg hok,
    show s.sigCleared.rqFull = s.rqFull from rfl]
  unfold State.sigCleared
  rw [appendTask_setThr, retire_wx_setThr, retire_wx_setThr]

/-! ### TTCLR and TPRIO (R240, R270) -/

theorem execTtclr_eq (hq : s.rp q = true) (ha : (s.rx a).toNat ≤ 15) : execTtclr q d a s =
    if (s.proc.ttEnt (s.rx a).toNat).isSome then
      .next ((s.setProc { s.proc with tt := s.proc.tt.setIfInBounds (s.rx a).toNat none }).setThr (s.thr.wx d 0).retired)
    else .next (s.setThr (s.thr.wx d 1).retired) := by
  unfold execTtclr
  rw [guarded_true hq]
  dsimp only
  rw [if_neg (by lia), retire_wx, retire_wx]
  rfl

theorem ttEnt_setIfInBounds (p : Proc) {i : Nat} (hi : i < 16) (e : Option TtEnt) (j : Nat) :
    ({ p with tt := p.tt.setIfInBounds i e } : Proc).ttEnt j = if j = i then e else p.ttEnt j := by
  unfold Proc.ttEnt
  simp only [Vector.toList_setIfInBounds, List.getElem?_set]
  by_cases h : j = i
  · subst h; simp [hi]
  · simp [h, Ne.symm h]

/-- An entry of the ready queue whose priority TPRIO sets where it stands under the number. -/
def RqEnt.repri (e : RqEnt) (cycle i pr : Nat) : RqEnt := if e.src == i then { e with prio := pr, was := some (cycle, e.prioIn cycle) } else e

theorem repri_kept (e : RqEnt) (cycle i pr : Nat) : ((e.repri cycle i pr).pc, (e.repri cycle i pr).arg, (e.repri cycle i pr).src, (e.repri cycle i pr).stamp) =
    (e.pc, e.arg, e.src, e.stamp) := by
  unfold RqEnt.repri
  split <;> rfl

theorem repri_prio {e : RqEnt} {cycle i pr : Nat} (h : (e.repri cycle i pr).src = i) : (e.repri cycle i pr).prio = pr := by
  unfold RqEnt.repri at h ⊢
  by_cases he : e.src = i
  · simp [he]
  · rw [if_neg (by simpa using he)] at h
    exact absurd h he

/-- The process whose entries under a number have a new priority. -/
def State.reprioritized (s : State) (i pr : Nat) : Proc :=
  { s.proc with tt := s.proc.tt.setIfInBounds i ((s.proc.ttEnt i).map fun e => { e with prio := pr }), rq := s.proc.rq.map fun e => e.repri s.cycle i pr }

theorem execTprio_eq {b : BitVec 5} (hq : s.rp q = true) (ha : (s.rx a).toNat ≤ 15) (hb : (s.rx b).toNat ≤ 3) : execTprio q d a b s =
    .next ((s.setProc (s.reprioritized (s.rx a).toNat (s.rx b).toNat)).setThr (s.thr.wx d (BitVec.ofNat 64
      ((if (s.proc.ttEnt (s.rx a).toNat).isSome then 1 else 0) + (s.proc.rq.filter (fun e => e.src == (s.rx a).toNat)).length))).retired) := by
  unfold execTprio
  rw [guarded_true hq]
  dsimp only
  rw [if_neg (by lia), retire_wx]
  rfl

theorem ttEnt_reprioritized (s : State) {i : Nat} (hi : i < 16) (pr j : Nat) :
    (s.reprioritized i pr).ttEnt j = if j = i then (s.proc.ttEnt i).map (fun e => { e with prio := pr }) else s.proc.ttEnt j :=
  ttEnt_setIfInBounds s.proc hi _ j

end Sys2Proof.Machine

namespace Sys2Proof
open Machine

/-- Settles O23: TTSET and TRUN read their record in the turn (`OwnData.readRecord`); TTCLR and TPRIO change the tables alone. -/
theorem taskTable : Obligations.TaskTable := by
  intro q d a b s hq hready hgot ea off f wr legal
  refine ⟨fun hown hlegal hctr => ⟨fun i hi hfree hbelow => ?_, fun hfull => execTtset_full hq hready hgot hown hlegal hctr hfull⟩,
    fun hown hlegal => ⟨fun hroom => ?_, fun hfull => ?_⟩, fun hea => ⟨fun h => ?_, fun h => ?_, fun hb => ?_⟩⟩
  · refine (execTtset_enters hq hready hgot hown hlegal hctr hi hfree hbelow).trans ?_
    rw [enteredAt_hit]
    rfl
  · refine (execTrun_own hq hready hgot hown hlegal).trans (if_neg ?_)
    unfold State.rqFull
    simpa using hroom
  · refine (execTrun_own hq hready hgot hown hlegal).trans (if_pos ?_)
    unfold State.rqFull
    simpa using hfull
  · exact (execTtclr_eq hq hea).trans (if_pos (Option.isSome_iff_ne_none.mpr h))
  · exact (execTtclr_eq hq hea).trans (if_neg (by rw [h]; decide))
  · have hlt : ea.toNat < 16 := Nat.lt_succ_of_le hea
    refine ⟨_, execTprio_eq hq hea hb, ?_, fun e he => ?_, fun j hj => ?_, fun e he hsrc => ?_, ?_⟩
    · rw [thr_setThr]
      cases s.proc.ttEnt (s.rx a).toNat <;> rfl
    · rw [proc_setThr, proc_setProc, ttEnt_reprioritized s hlt, if_pos rfl, Option.map_eq_some_iff] at he
      obtain ⟨e0, -, rfl⟩ := he
      rfl
    · rw [proc_setThr, proc_setProc, ttEnt_reprioritized s hlt, if_neg hj]
    · obtain ⟨e0, -, rfl⟩ := List.mem_map.mp he
      exact repri_prio hsrc
    · rw [proc_setThr, proc_setProc, State.reprioritized, List.map_map]
      exact List.map_congr_left fun e _ => repri_kept e _ _ _

end Sys2Proof
end

section
/-! Deques (O24; spec 10, R261-R268). -/

namespace Sys2Proof.Machine

/-! ### Memory: what a write leaves elsewhere, in any list -/

theorem get_put_ne (m : Memory) {a c : Nat} (b : Byte) (h : c ≠ a) : (m.put a b).get c = m.get c := by
  induction m with
  | nil =>
    unfold Memory.put
    split
    · rfl
    · exact if_neg h.symm
  | cons e m ih =>
    obtain ⟨k, v⟩ := e
    unfold Memory.put
    split
    · split
      · rfl
      · exact if_neg h.symm
    · split
      · rename_i hak
        subst hak
        have hother : Memory.get ((a, v) :: m) c = Memory.get m c := if_neg h.symm
        split
        · exact hother.symm
        · rw [hother]
          exact if_neg h.symm
      · unfold Memory.get
        rw [ih]

theorem get_write_apart (m : Memory) (a n v : Nat) {c : Nat} (h : c < a ∨ a + n ≤ c) : (m.write a n v).get c = m.get c := by
  induction n generalizing m a v with
  | zero => rfl
  | succ n ih =>
    unfold Memory.write
    rw [ih _ _ _ (by lia), get_put_ne _ _ (by lia)]

theorem read_write_apart (m : Memory) (a n v : Nat) {c k : Nat} (h : c + k ≤ a ∨ a + n ≤ c) : (m.write a n v).read c k = m.read c k :=
  read_congr _ _ fun _ h1 h2 => get_write_apart m a n v (by lia)

/-! ### The own window when nothing is away, bad or watched -/

/-- The process of the core in focus is there, and no unit is away, marked or watched. -/
structure Undisturbed (s : State) : Prop where
  occupied : s.core.occupied = true
  units : s.units = []
  bad : s.bad = []
  watches : s.watches = []

/-- The state with one reserved entry of the ready queue fewer. -/
def State.released (s : State) : State := s.setProc { s.proc with rqRes := s.proc.rqRes - 1 }

/-- The state whose own window has the low `n` bytes of `v` at an offset. -/
def State.winPut (s : State) (off n v : Nat) : State := s.setWin (Memory.write s.proc.win off n v)

theorem released_setThr (s : State) (t : Thread) : (s.setThr t).released = s.released.setThr t := rfl

@[simp] theorem thr_released (s : State) : s.released.thr = s.thr := rfl

@[simp] theorem thr_winPut (s : State) (off n v : Nat) : (s.winPut off n v).thr = s.thr := rfl

theorem released_winPut (s : State) (off n v : Nat) : (s.winPut off n v).released = s.released.winPut off n v := by
  simp only [State.released, State.winPut, State.setWin, proc_setProc, setProc_setProc]

theorem winPut_setThr (s : State) (t : Thread) (off n v : Nat) : (s.setThr t).winPut off n v = (s.winPut off n v).setThr t := rfl

theorem Undisturbed.setThr {s : State} (h : Undisturbed s) (t : Thread) : Undisturbed (s.setThr t) := ⟨h.occupied, h.units, h.bad, h.watches⟩

theorem Undisturbed.setProc {s : State} (h : Undisturbed s) (p : Proc) : Undisturbed (s.setProc p) := ⟨h.occupied, h.units, h.bad, h.watches⟩

theorem Undisturbed.released {s : State} (h : Undisturbed s) : Undisturbed s.released := h.setProc _

theorem Undisturbed.winPut {s : State} (h : Undisturbed s) (off n v : Nat) : Undisturbed (s.winPut off n v) := h.setProc _

section
variable {s : State} (h : Undisturbed s)
include h

theorem Undisturbed.unitAway (p : Place) : s.unitAway p = none := by
  unfold State.unitAway
  rw [h.units]
  rfl

theorem Undisturbed.awayIn (p : Place) (n : Nat) : s.awayIn p n = none := by
  unfold State.awayIn
  rw [List.find?_eq_none]
  intro u _
  rw [h.unitAway]
  decide

theorem Undisturbed.isBad (p : Place) (n : Nat) : s.isBad p n = false := by
  unfold State.isBad
  rw [h.bad, List.any_eq_false]
  intro u _
  rw [List.contains_nil]
  decide

theorem Undisturbed.peek (off n : Nat) : s.peek (s.own off) n = Memory.read s.proc.win off n :=
  congrArg (fun m => Memory.read m off n) (window_own h.occupied)

theorem Undisturbed.poke (off n v : Nat) : s.poke (s.own off) n v = s.winPut off n v :=
  onProc_own h.occupied fun p => { p with win := Memory.write p.win off n v }

theorem Undisturbed.homeWrite (off n v : Nat) : s.homeWrite (s.own off) n v (2 ^ n - 1) = s.winPut off n v := by
  rw [homeWrite_plain, h.poke]
  · rw [h.poke]
    exact h.watches
  · rw [h.poke]
    exact h.bad

theorem Undisturbed.appendTask (pc arg : Word) (prio src : Nat) : Undisturbed (s.appendTask pc arg prio src) := by
  have hset (p : Proc) : Undisturbed ((s.setProc p).askDispatch 1 p.gid p.lid) := by
    unfold State.askDispatch
    dsimp only
    split <;> exact ⟨h.occupied, h.units, h.bad, h.watches⟩
  exact hset _

end

/-! ### Descriptors (R262) -/

/-- What a valid descriptor in the own window says. -/
theorem ownDeque_eq {s : State} (h : Undisturbed s) (dq : Nat) :
    s.ownDeque dq = if s.proc.winsize < dq + 32 then none else readDeque s.proc.winsize dq (Memory.read s.proc.win dq 32) := by
  unfold State.ownDeque
  rw [h.peek]

theorem ownDeque_fields {s : State} (h : Undisturbed s) {dq : Nat} {k : Deque} (hk : s.ownDeque dq = some k) :
    k.dq = dq ∧ k.top = Memory.read s.proc.win dq 8 ∧ k.bottom = Memory.read s.proc.win (dq + 16) 8 := by
  rw [ownDeque_eq h] at hk
  unfold readDeque at hk
  dsimp only at hk
  rw [recField_read _ _ (show 0 + 8 ≤ 32 by decide), recField_read _ _ (show 16 + 8 ≤ 32 by decide)] at hk
  split at hk
  · exact absurd hk (by simp)
  · split at hk
    · obtain rfl := Option.some.inj hk
      exact ⟨rfl, rfl, rfl⟩
    · exact absurd hk (by simp)

theorem slt_ofNat {a b : Nat} (ha : a < 2 ^ 63) (hb : b < 2 ^ 63) : (BitVec.ofNat 64 a : Word).slt (BitVec.ofNat 64 b) = decide (a < b) := by
  have ha' : (BitVec.ofNat 64 a : Word).toNat = a := by rw [BitVec.toNat_ofNat]; lia
  have hb' : (BitVec.ofNat 64 b : Word).toNat = b := by rw [BitVec.toNat_ofNat]; lia
  rw [BitVec.slt, BitVec.toInt_eq_toNat_of_lt (by lia), BitVec.toInt_eq_toNat_of_lt (by lia), ha', hb', decide_eq_decide]
  exact Int.ofNat_lt

theorem ofNat_word_inj {a b : Nat} (ha : a < 2 ^ 64) (hb : b < 2 ^ 64) : (BitVec.ofNat 64 a : Word) = BitVec.ofNat 64 b ↔ a = b := by
  constructor
  · intro h
    have := congrArg BitVec.toNat h
    rwa [BitVec.toNat_ofNat, BitVec.toNat_ofNat, Nat.mod_eq_of_lt ha, Nat.mod_eq_of_lt hb] at this
  · exact congrArg _

/-! ### SPAWN and SPAWNW (R264, R265) -/

/-- The offset of the record that an index names. -/
theorem rec_eq (k : Deque) (i : Nat) : k.rec_ i = k.base + 16 * (i % k.cap) := rfl

/-- A thread that begins an instruction on the deque of DQBASE, its descriptor being valid. -/
structure OnDeque (s : State) (k : Deque) : Prop extends Undisturbed s where
  fresh : s.thr.desc = none
  noStores : s.thr.storeQ = []
  named : k.dq = s.proc.dqbase.toNat
  valid : s.ownDeque k.dq = some k

theorem OnDeque.dequeAtIssue {s : State} {k : Deque} (h : OnDeque s k) : s.dequeAtIssue = k.dq := by
  unfold State.dequeAtIssue
  rw [h.fresh, h.named]
  rfl

section
variable {q : BitVec 3} {d a b : BitVec 5} {s : State} {k : Deque}

theorem dequeAway_none (h : Undisturbed s) (dq : Nat) : s.dequeAway dq none = none := by
  unfold State.dequeAway
  rw [h.awayIn]
  rfl

theorem aligned_low2 {v : Word} (h : v.toNat % 4 = 0) : ¬ v.extractLsb' 0 2 ≠ 0 := not_not.mpr ((low2_eq_zero_iff v).mpr h)

theorem spawnOn_room (hq : s.rp q = true) (h : OnDeque s k) (ha : (s.rx a).toNat % 4 = 0) (hroom : (k.bottom + 2 ^ 64 - k.top) % 2 ^ 64 < k.cap) (wait : Bool) :
    spawnOn q d a b wait s =
      (((s.winPut (k.rec_ k.bottom) 16 ((s.rx a).toNat + 2 ^ 64 * (s.rx b).toNat)).winPut (k.dq + 16) 8 (k.bottom + 1)).wx d 0).retire := by
  unfold spawnOn
  rw [guarded_true hq]
  dsimp only
  rw [if_neg (not_not.mpr h.noStores), h.dequeAtIssue, dequeAway_none h.toUndisturbed]
  dsimp only
  rw [h.valid]
  dsimp only
  rw [if_neg (aligned_low2 ha), h.isBad, if_neg (by decide), if_neg hroom.ne, h.awayIn]
  dsimp only
  rw [h.homeWrite, (h.winPut _ _ _).homeWrite]

theorem spawnOn_full (hq : s.rp q = true) (h : OnDeque s k) (ha : (s.rx a).toNat % 4 = 0) (hfull : (k.bottom + 2 ^ 64 - k.top) % 2 ^ 64 = k.cap) (wait : Bool) :
    spawnOn q d a b wait s = if wait then s.parkDeque .deque else (s.wx d 2).retire := by
  unfold spawnOn
  rw [guarded_true hq]
  dsimp only
  rw [if_neg (not_not.mpr h.noStores), h.dequeAtIssue, dequeAway_none h.toUndisturbed]
  dsimp only
  rw [h.valid]
  dsimp only
  rw [if_neg (aligned_low2 ha), h.isBad, if_neg (by decide), if_pos hfull]

theorem OnDeque.parkDeque (h : OnDeque s k) :
    s.parkDeque .deque = .next (s.setThr { s.thr with wait := some (.retry .deque), desc := some s.proc.dqbase, scvac := s.thr.scvac + 1 }) := by
  have hdesc : BitVec.ofNat 64 s.dequeAtIssue = s.proc.dqbase := by rw [h.dequeAtIssue, h.named, BitVec.ofNat_toNat, BitVec.setWidth_eq]
  unfold State.parkDeque State.parkRetry
  rw [hdesc]
  dsimp only
  rw [thr_setThr, setThr_setThr]
  rfl

/-! ### TAKE (R266) -/

/-- No entry of the task table waits with its trigger for room in the ready queue. -/
def NoneTriggered (s : State) : Prop := ∀ x ∈ s.proc.tt.toList, (x.bind (·.trig)) = none

theorem unreserve_quiet (h : NoneTriggered s) : s.unreserve = s.released := by
  unfold State.unreserve
  refine if_neg ?_
  rw [Bool.not_eq_true, List.any_eq_false]
  intro x hx
  rw [h x hx]
  decide

/-- The state after BOTTOM has been lowered, an entry of the ready queue being reserved. -/
def State.lowered (s : State) (k : Deque) : State := s.reserveEntry.winPut (k.dq + 16) 8 ((k.bottom + 2 ^ 64 - 1) % 2 ^ 64)

theorem takeIssued_full (h : OnDeque s k) : takeIssued d true s = (s.wx d 2).retire := by
  unfold takeIssued
  dsimp only
  rw [if_neg (not_not.mpr h.noStores), h.dequeAtIssue, h.awayIn]
  dsimp only
  rw [h.valid]
  dsimp only
  rw [h.isBad, if_neg (by decide), if_pos rfl]

theorem OnDeque.reserved (h : OnDeque s k) : OnDeque s.reserveEntry k := by
  have hr : Undisturbed s.reserveEntry := h.toUndisturbed.setProc _
  refine ⟨hr, h.fresh, h.noStores, h.named, ?_⟩
  rw [ownDeque_eq hr, ← h.valid, ownDeque_eq h.toUndisturbed]
  rfl

theorem takeIssued_room (h : OnDeque s k) : takeIssued d false s.reserveEntry = takePopped d { k with bottom := (k.bottom + 2 ^ 64 - 1) % 2 ^ 64 } (s.lowered k) := by
  have hr := h.reserved
  unfold takeIssued
  dsimp only
  rw [if_neg (not_not.mpr hr.noStores), hr.dequeAtIssue, hr.awayIn]
  dsimp only
  rw [hr.valid]
  dsimp only
  rw [hr.isBad, if_neg (by decide), if_neg (by decide), hr.homeWrite]
  rfl

theorem execTake_issue (hq : s.rp q = true) (hready : s.thr.ready = 0) :
    execTake q d s = takeIssued d s.rqFull (if s.rqFull then s else s.reserveEntry) := by
  have hstage : s.thr.takeStage = none := by
    unfold Thread.takeStage
    rw [hready]
    cases s.thr.got <;> rfl
  unfold execTake
  rw [guarded_true hq, hstage]

theorem takePopped_undisturbed (h : Undisturbed s) (k : Deque) : takePopped d k s =
    if Memory.read s.proc.win k.dq 8 = k.bottom then
      andThen (s.parkTake (.top k (Memory.read s.proc.win k.dq 8)) .more) (fun s1 => .next (s1.after 1 (.threadResume s1.here s1.slot.val)))
    else takeTop d k (Memory.read s.proc.win k.dq 8) s := by
  unfold takePopped
  rw [h.awayIn]
  dsimp only
  rw [h.isBad, if_neg (by decide), h.peek]

theorem takeTop_below (h : Undisturbed s) {t : Nat} (hlt : (BitVec.ofNat 64 t : Word).slt (BitVec.ofNat 64 k.bottom) = true) :
    takeTop d k t s = ((s.takeTask k).wx d 0).retire := by
  unfold takeTop
  dsimp only
  rw [if_pos hlt, h.awayIn]
  dsimp only
  rw [h.isBad, if_neg (by decide)]

theorem takeTop_above (h : Undisturbed s) (hquiet : NoneTriggered s) {t : Nat} (hlt : (BitVec.ofNat 64 t : Word).slt (BitVec.ofNat 64 k.bottom) = false)
    (hne : (BitVec.ofNat 64 t : Word) ≠ BitVec.ofNat 64 k.bottom) :
    takeTop d k t s = ((s.released.winPut (k.dq + 16) 8 t).wx d 1).retire := by
  unfold takeTop
  dsimp only
  rw [if_neg (by rw [hlt]; decide), if_neg hne, h.awayIn]
  dsimp only
  unfold takeEnds
  rw [unreserve_quiet hquiet, h.released.homeWrite]

/-- TAKE asks for the unit of TOP, which is at home and asked for by nobody else: the ACAS is performed. -/
theorem takeTop_swaps (h : Undisturbed s) {t : Nat} (hb : k.bottom = t) (hreq : ∀ u, s.requestedAt u = false) :
    takeTop d k t s = takeSwapped d k t (Memory.read s.proc.win k.dq 8)
      (s.winPut k.dq 8 (if Memory.read s.proc.win k.dq 8 = t then (t + 1) % 2 ^ 64 else Memory.read s.proc.win k.dq 8)) := by
  have hslt : (BitVec.ofNat 64 t : Word).slt (BitVec.ofNat 64 t) = false := by simp [BitVec.slt]
  unfold takeTop
  dsimp only
  rw [hb, hslt, if_neg (by decide), if_pos rfl, h.unitAway, hreq, if_pos (by decide), h.isBad, if_neg (by decide), h.peek, h.homeWrite]

/-- A dword that has been read is no mark of a fault. -/
theorem not_faultMark_le {v : Nat} (h : v < 2 ^ 64) : ¬ 2 ^ 512 ≤ v :=
  fun hv => absurd (lt_of_lt_of_le h (Nat.pow_le_pow_right (by decide) (by decide : 64 ≤ 512))) (not_lt.mpr hv)

theorem takeSwapped_own (h : Undisturbed s) {t : Nat} (ht : t < 2 ^ 64) :
    takeSwapped d k t t s = (((s.takeTask k).winPut (k.dq + 16) 8 ((t + 1) % 2 ^ 64)).wx d 0).retire := by
  have htask : Undisturbed (s.takeTask k) := (h.setProc _).appendTask ..
  unfold takeSwapped
  dsimp only
  rw [if_neg (not_faultMark_le ht), h.awayIn, h.awayIn, if_pos rfl]
  dsimp only [Option.or]
  rw [if_neg (not_not.mpr rfl), h.isBad, if_neg (by decide)]
  unfold takeEnds
  rw [htask.homeWrite]

theorem takeSwapped_lost (h : Undisturbed s) (hquiet : NoneTriggered s) {t old : Nat} (ho : old < 2 ^ 64) (hne : old ≠ t) : takeSwapped d k t old s =
    ((s.released.winPut (k.dq + 16) 8 ((t + 1) % 2 ^ 64)).wx d 3).retire := by
  unfold takeSwapped
  dsimp only
  rw [if_neg (not_faultMark_le ho), h.awayIn, if_neg hne]
  dsimp only [Option.or]
  rw [if_pos hne]
  unfold takeEnds
  rw [unreserve_quiet hquiet, h.released.homeWrite]

end

/-! ### The task of a TAKE -/

/-- The task that a TAKE has obtained from the record of `i`. -/
def State.tookTask (s : State) (k : Deque) (i : Nat) : State :=
  s.appendTask (BitVec.ofNat 64 (Memory.read s.proc.win (k.rec_ i) 16)) (BitVec.ofNat 64 (Memory.read s.proc.win (k.rec_ i) 16 / 2 ^ 64)) k.prio 17

theorem takeTask_eq {s : State} (h : Undisturbed s) (k : Deque) : s.takeTask k =
    s.released.appendTask (BitVec.ofNat 64 (Memory.read s.proc.win (k.rec_ k.bottom) 16))
      (BitVec.ofNat 64 (Memory.read s.proc.win (k.rec_ k.bottom) 16 / 2 ^ 64)) k.prio 17 := by
  unfold State.takeTask
  dsimp only
  rw [h.peek]
  rfl

theorem thr_appendTask (s : State) (pc arg : Word) (prio src : Nat) : (s.appendTask pc arg prio src).thr = s.thr := by
  have hset (p : Proc) : ((s.setProc p).askDispatch 1 p.gid p.lid).thr = s.thr := by
    unfold State.askDispatch
    dsimp only
    split <;> rfl
  exact hset _

/-- What a thread keeps of an instruction that it has executed before is gone when the instruction completes. -/
theorem retired_stage (t : Thread) (d : BitVec 5) (v : Word) (n : Nat) (l : List Nat) :
    (({ t with ready := n, got := l } : Thread).wx d v).retired = (t.wx d v).retired := by
  have hissued : (({ t with ready := n, got := l } : Thread).wx d v).issued = (t.wx d v).issued := by
    unfold Thread.wx Thread.issued
    split <;> rfl
  unfold Thread.retired
  rw [hissued]

theorem retire_stage (s : State) (d : BitVec 5) (v : Word) (n : Nat) (l : List Nat) :
    ((s.setThr { s.thr with ready := n, got := l }).wx d v).retire = .next (s.setThr (s.thr.wx d v).retired) := by
  rw [retire_wx_setThr, retired_stage]

/-! ### STEAL (R267) -/

theorem due_after (s : State) (n : Nat) (e : Instr) : (s.cycle + n, e) ∈ (s.after n e).agenda := (mem_agendaPut _ _ _ _).mpr (Or.inl rfl)

/-- Where a request to the window of a process goes: there, or into the list of those that wait for its placement entry (R333). -/
def SentTo (s t : State) (g l : Nat) (e : Instr) : Prop :=
  (∃ x ∈ t.agenda, x.2 = e) ∨ ((g, l, s.slot.val, e) ∈ t.core.seeking ∧ ∃ x ∈ t.agenda, x.2 = .locationLookupReply s.here g l)

theorem lookUp_asks (s : State) (c g l : Nat) : ∃ x ∈ (s.lookUp c g l).agenda, x.2 = .locationLookupReply c g l := by
  unfold State.lookUp
  split
  · rename_i hany
    obtain ⟨x, hx, heq⟩ := List.any_eq_true.mp hany
    exact ⟨x, hx, beq_iff_eq.mp heq⟩
  · exact ⟨_, due_after _ _ _, rfl⟩

theorem core_lookUp (s : State) (c g l : Nat) : (s.lookUp c g l).core = s.core := by
  unfold State.lookUp
  split <;> rfl

theorem request_window (s : State) (g l o n : Nat) (e : Instr) :
    (s.request (.win g l o) n e).proc = s.proc ∧ (∃ x, (s.request (.win g l o) n e).thr = { s.thr with sentTo := x }) ∧
    SentTo s (s.request (.win g l o) n e) g l e := by
  have hsent : ∀ u : State, u.proc = s.proc → u.here = s.here → u.slot = s.slot → (∃ x, u.thr = { s.thr with sentTo := x }) →
      ∀ v, (v = u.after n e ∨ (∃ x c, v = ((u.useLoc u.here x).setThr { u.thr with sentTo := some x.core }).after c e) ∨
        v = ({ u.lookUp u.here g l with core := { (u.lookUp u.here g l).core with
          seeking := (u.lookUp u.here g l).core.seeking ++ [(g, l, u.slot.val, e)] } } : State)) →
      v.proc = s.proc ∧ (∃ x, v.thr = { s.thr with sentTo := x }) ∧ SentTo s v g l e := by
    rintro u hproc hhere hslot ⟨y, hthr⟩ v (rfl | ⟨x, c, rfl⟩ | rfl)
    · exact ⟨hproc, ⟨y, hthr⟩, Or.inl ⟨_, due_after _ _ _, rfl⟩⟩
    · refine ⟨?_, ⟨some x.core, ?_⟩, Or.inl ⟨_, due_after _ _ _, rfl⟩⟩
      · rw [proc_after, proc_setThr, State.useLoc, setCoreAt_here, coreAt_here]
        exact hproc
      · rw [thr_after, thr_setThr, hthr]
    · refine ⟨?_, ⟨y, ?_⟩, Or.inr ⟨?_, ?_⟩⟩
      · exact (congrArg Core.proc (core_lookUp u u.here g l)).trans hproc
      · exact (keepsThreads_lookUp u u.here g l).thr.trans hthr
      · rw [← hslot]
        exact List.mem_append_right _ List.mem_cons_self
      · rw [← hhere]
        exact lookUp_asks u u.here g l
  refine hsent (s.setThr { s.thr with sentTo := none }) rfl rfl rfl ⟨none, thr_setThr _ _⟩ _ ?_
  unfold State.request
  dsimp only
  split
  · exact Or.inl rfl
  · split
    · exact Or.inr (Or.inl ⟨_, _, rfl⟩)
    · exact Or.inr (Or.inr rfl)

section
variable {q : BitVec 3} {d a : BitVec 5} {s : State}

theorem execSteal_goesOn (hq : s.rp q = true) (hready : s.thr.ready = 1) : execSteal q d a s = stealStage d (s.rx a).toNat s := by
  unfold execSteal
  rw [guarded_true hq]
  dsimp only
  rw [if_pos (by rw [hready]; decide)]

theorem execSteal_refuses (hq : s.rp q = true) (hready : s.thr.ready = 0) (hlid : s.proc.gsize ≤ (s.rx a).toNat ∨ (s.rx a).toNat = s.proc.lid) :
    execSteal q d a s = s.takeTrap .deque 0 := by
  unfold execSteal
  rw [guarded_true hq]
  dsimp only
  rw [if_neg (by rw [hready]; decide), if_pos hlid]

theorem execSteal_issue (hq : s.rp q = true) (hready : s.thr.ready = 0) (hlid : ¬ (s.proc.gsize ≤ (s.rx a).toNat ∨ (s.rx a).toNat = s.proc.lid)) :
    execSteal q d a s = if s.rqFull then (s.wx d 2).retire
      else stealStage d (s.rx a).toNat (s.reserveEntry.setThr { s.reserveEntry.thr with ready := 1, got := [] }) := by
  unfold execSteal
  rw [guarded_true hq]
  dsimp only
  rw [if_neg (by rw [hready]; decide), if_neg hlid]

theorem rqFull_eq_false (h : s.proc.rq.length + s.proc.rqRes < 16) : s.rqFull = false := by
  unfold State.rqFull
  rw [decide_eq_false_iff_not]
  lia

theorem rqFull_eq_true (h : 16 ≤ s.proc.rq.length + s.proc.rqRes) : s.rqFull = true := decide_eq_true h

/-- An access of a STEAL parks its thread, and goes to the victim's window. -/
theorem stealAccess_sent {r : Acc} {g l o : Nat} (hp : r.place = .win g l o) (hk : r.kind = .deque) : Yields (stealAccess r s) (fun t =>
    t.proc = s.proc ∧ t.thr.wait = some .access ∧ t.thr.pc = s.thr.pc ∧ t.thr.x = s.thr.x ∧ t.thr.pend = [r] ∧
    SentTo s t g l (.remoteAccessAtHome s.here s.slot.val)) := by
  generalize hu : ({ s.thr with cont := .again, wait := some .access, pend := [r] } : Thread) = u
  obtain ⟨hproc, ⟨x, hthr⟩, hsent⟩ := request_window (s.setThr u) g l o ((s.setThr u).reqTime r) (.remoteAccessAtHome s.here s.slot.val)
  rw [thr_setThr] at hthr
  have hstate : stealAccess r s = .next ((s.setThr u).request (.win g l o) ((s.setThr u).reqTime r) (.remoteAccessAtHome s.here s.slot.val)) := by
    unfold stealAccess
    rw [hp, hk, hu]
    rfl
  refine ⟨_, hstate, hproc, ?_, ?_, ?_, ?_, hsent⟩
  · rw [hthr, ← hu]
  · rw [hthr, ← hu]
  · rw [hthr, ← hu]
  · rw [hthr, ← hu]

/-- STEAL that begins with the read of the victim's descriptor. -/
theorem stealStage_asks (lid : Nat) (hgot : s.thr.got = []) (hst : s.thr.storeQ = []) :
    stealStage d lid s = stealAccess { kind := .deque, place := .win s.proc.gid lid 0, size := 32 } s := by
  unfold stealStage
  rw [hgot]
  dsimp only [faultIn]
  rw [if_neg (not_not.mpr hst)]

theorem execSteal_asks (hq : s.rp q = true) (hready : s.thr.ready = 0) (hlt : (s.rx a).toNat < s.proc.gsize) (hne : (s.rx a).toNat ≠ s.proc.lid)
    (hst : s.thr.storeQ = []) (hroom : s.proc.rq.length + s.proc.rqRes < 16) : Yields (execSteal q d a s) (fun t =>
      t.proc = s.reserveEntry.proc ∧ t.thr.wait = some .access ∧ t.thr.pc = s.thr.pc ∧ t.thr.x = s.thr.x ∧
      t.thr.pend = [{ kind := .deque, place := .win s.proc.gid (s.rx a).toNat 0, size := 32 }] ∧
      SentTo s t s.proc.gid (s.rx a).toNat (.remoteAccessAtHome s.here s.slot.val)) := by
  generalize hu : ({ s.reserveEntry.thr with ready := 1, got := [] } : Thread) = u
  have hthr : (s.reserveEntry.setThr u).thr = u := thr_setThr _ _
  obtain ⟨t, ht, hproc, hwait, hpc, hx, hpend, hsent⟩ := stealAccess_sent (s := s.reserveEntry.setThr u)
    (r := { kind := .deque, place := .win s.proc.gid (s.rx a).toNat 0, size := 32 }) rfl rfl
  refine ⟨t, ?_, hproc, hwait, ?_, ?_, hpend, hsent⟩
  · rw [execSteal_issue hq hready (by lia), rqFull_eq_false hroom, if_neg (by decide), hu, stealStage_asks _ (by rw [hthr, ← hu]) (by rw [hthr, ← hu]; exact hst)]
    exact ht
  · rw [hpc, hthr, ← hu]
    rfl
  · rw [hx, hthr, ← hu]
    rfl

theorem stealEnds_quiet (hquiet : NoneTriggered s) (v : Word) :
    stealEnds d v s = (s.released.wx d v).retire := by
  unfold stealEnds
  rw [unreserve_quiet hquiet]

/-- STEAL with the descriptor, the record and the old TOP at hand. -/
theorem stealStage_swapped (lid : Nat) {v w old : Nat} {k : Deque} (hquiet : NoneTriggered s) (hgot : s.thr.got = [v, w, old]) (hfault : faultIn [v, w, old] 0 = none)
    (hk : readDeque s.proc.winsize (v % 2 ^ 64) (v / 2 ^ 64) = some k) : stealStage d lid s =
      if old = k.top then
        ((s.released.appendTask (BitVec.ofNat 64 w) (BitVec.ofNat 64 (w / 2 ^ 64))
          (((s.ownDeque s.proc.dqbase.toNat).map (·.prio)).getD 0) 18).wx d 0).retire
      else (s.released.wx d 3).retire := by
  unfold stealStage
  rw [hgot]
  dsimp only
  rw [hfault]
  dsimp only
  rw [hk]
  dsimp only
  rw [stealEnds_quiet hquiet]
  rfl

/-- STEAL with the descriptor at hand, which is invalid, or names an empty deque. -/
theorem stealStage_refused (lid : Nat) {v : Nat} (hquiet : NoneTriggered s) (hgot : s.thr.got = [v]) (hfault : faultIn [v] 0 = none) :
    (readDeque s.proc.winsize (v % 2 ^ 64) (v / 2 ^ 64) = none →
      stealStage d lid s = (s.released.wx d 4).retire) ∧
    (∀ k, readDeque s.proc.winsize (v % 2 ^ 64) (v / 2 ^ 64) = some k → k.top = k.bottom →
      stealStage d lid s = (s.released.wx d 1).retire) := by
  unfold stealStage
  rw [hgot]
  dsimp only
  rw [hfault]
  dsimp only
  refine ⟨fun hnone => ?_, fun k hk hempty => ?_⟩
  · rw [hnone]
    exact stealEnds_quiet hquiet 4
  · have hslt (x : Word) : (!x.slt x) = true := by simp [BitVec.slt]
    rw [hk]
    dsimp only
    rw [hempty, if_pos (hslt _)]
    exact stealEnds_quiet hquiet 1

end

/-! ### The ways of a TAKE -/

section
variable {q : BitVec 3} {d : BitVec 5} {s : State} {k : Deque}

/-- A TAKE with room in the ready queue lowers BOTTOM and reads TOP. -/
theorem execTake_lowers (hq : s.rp q = true) (hready : s.thr.ready = 0) (h : OnDeque s k) (hroom : s.proc.rq.length + s.proc.rqRes < 16) :
    execTake q d s =
      if k.top = (k.bottom + 2 ^ 64 - 1) % 2 ^ 64 then
        andThen ((s.lowered k).parkTake (.top { k with bottom := (k.bottom + 2 ^ 64 - 1) % 2 ^ 64 } k.top) .more)
          (fun s1 => .next (s1.after 1 (.threadResume s1.here s1.slot.val)))
      else takeTop d { k with bottom := (k.bottom + 2 ^ 64 - 1) % 2 ^ 64 } k.top (s.lowered k) := by
  have hund : Undisturbed (s.lowered k) := (h.toUndisturbed.setProc _).winPut ..
  have htop : Memory.read (s.lowered k).proc.win k.dq 8 = k.top := by
    obtain ⟨-, htop, -⟩ := ownDeque_fields h.toUndisturbed h.valid
    rw [htop]
    exact read_write_apart _ _ _ _ (Or.inl (by lia))
  rw [execTake_issue hq hready, rqFull_eq_false hroom, if_neg (by decide), takeIssued_room h, takePopped_undisturbed hund, htop]

theorem parkTake_more (h : OnDeque s k) (b t : Nat) : (s.lowered k).parkTake (.top { k with bottom := b } t) .more =
    .next ((s.lowered k).setThr { s.thr with ready := 3, got := [k.dq, b, k.base, k.cap, k.prio, t], desc := some s.proc.dqbase, wait := some (.retry .more) }) := by
  generalize hu : ({ s.thr with ready := 3, got := [k.dq, b, k.base, k.cap, k.prio, t] } : Thread) = u
  have hstage : (s.lowered k).keepStage (.top { k with bottom := b } t) = (s.lowered k).setThr u := by
    unfold State.keepStage
    rw [← hu]
    rfl
  have hdesc : BitVec.ofNat 64 ((s.lowered k).setThr u).dequeAtIssue = s.proc.dqbase := by
    have hnone : ((s.lowered k).setThr u).thr.desc = none := by
      rw [thr_setThr, ← hu]
      exact h.fresh
    unfold State.dequeAtIssue
    rw [hnone, Option.getD_none, BitVec.ofNat_toNat, BitVec.setWidth_eq]
    rfl
  unfold State.parkTake State.parkDeque State.parkRetry
  rw [hstage, hdesc]
  dsimp only
  rw [thr_setThr, thr_setThr, setThr_setThr, setThr_setThr, ← hu]
  rfl

/-- A TAKE that gives its reserved entry back has lowered BOTTOM alone. -/
theorem lowered_released (s : State) (k : Deque) : (s.lowered k).released =
    s.winPut (k.dq + 16) 8 ((k.bottom + 2 ^ 64 - 1) % 2 ^ 64) := by
  simp only [State.released, State.lowered, State.reserveEntry, State.winPut, State.setWin, proc_setProc, setProc_setProc, Nat.add_sub_cancel]

theorem used_eq {t b u : Nat} (ht : t < 2 ^ 62) (hb : b < 2 ^ 62) (h : (b + 2 ^ 64 - t) % 2 ^ 64 = u) (hu : u < 2 ^ 62) : t + u = b := by lia

theorem last_succ {b l : Nat} (hb : b < 2 ^ 62) (h0 : 0 < b) (hl : l = (b + 2 ^ 64 - 1) % 2 ^ 64) : l + 1 = b := by lia

/-- TAKE of one of two records or more. -/
theorem execTake_below (hq : s.rp q = true) (hready : s.thr.ready = 0) (h : OnDeque s k) (hroom : s.proc.rq.length + s.proc.rqRes < 16)
    (htop : k.top < 2 ^ 62) (hbot : k.bottom < 2 ^ 62) (htwo : 2 ≤ (k.bottom + 2 ^ 64 - k.top) % 2 ^ 64) (hused : (k.bottom + 2 ^ 64 - k.top) % 2 ^ 64 < 2 ^ 62)
    {last w : Nat} (hlast : last = (k.bottom + 2 ^ 64 - 1) % 2 ^ 64) (hw : w = Memory.read s.proc.win (k.rec_ last) 16)
    (hapart : k.rec_ last + 16 ≤ k.dq ∨ k.dq + 32 ≤ k.rec_ last) : execTake q d s =
      (((s.winPut (k.dq + 16) 8 last).appendTask (BitVec.ofNat 64 w) (BitVec.ofNat 64 (w / 2 ^ 64)) k.prio 17).wx d 0).retire := by
  have hund : Undisturbed (s.lowered k) := (h.toUndisturbed.setProc _).winPut ..
  have hsum : k.top + _ = k.bottom := used_eq htop hbot rfl hused
  have hpos : 0 < k.bottom := Nat.lt_of_lt_of_le (Nat.lt_of_lt_of_le (by decide : 0 < 2) htwo) ((Nat.le_add_left _ _).trans_eq hsum)
  have hlast1 : last + 1 = k.bottom := last_succ hbot hpos hlast
  have hlt : k.top < last := Nat.le_of_succ_le_succ ((Nat.add_le_add_left htwo k.top).trans_eq (hsum.trans hlast1.symm))
  have hslt : (BitVec.ofNat 64 k.top : Word).slt (BitVec.ofNat 64 last) = true := by
    rw [slt_ofNat (htop.trans (by decide)) (((Nat.lt_succ_self last).trans_eq hlast1).trans (hbot.trans (by decide))), decide_eq_true hlt]
  have hread : Memory.read (s.lowered k).proc.win (k.rec_ last) 16 = w := by
    rw [hw]
    exact read_write_apart _ _ _ _ (hapart.imp (fun h => h.trans (Nat.le_add_right ..)) fun h => (Nat.add_assoc ..).trans_le ((Nat.add_le_add_left (by decide) _).trans h))
  rw [execTake_lowers hq hready h hroom, ← hlast, if_neg (Nat.ne_of_lt hlt), takeTop_below hund hslt, takeTask_eq hund]
  dsimp only
  rw [show Deque.rec_ { k with bottom := last } last = k.rec_ last from rfl, hread, lowered_released, hlast]

/-- TAKE of the last record stays parked between its read of TOP and its ACAS. -/
theorem execTake_last (hq : s.rp q = true) (hready : s.thr.ready = 0) (h : OnDeque s k) (hroom : s.proc.rq.length + s.proc.rqRes < 16)
    (htop : k.top < 2 ^ 62) (hbot : k.bottom < 2 ^ 62) (hone : (k.bottom + 2 ^ 64 - k.top) % 2 ^ 64 = 1) {last : Nat} (hlast : last = (k.bottom + 2 ^ 64 - 1) % 2 ^ 64) :
    execTake q d s = .next (((s.lowered k).setThr { s.thr with
      ready := 3, got := [k.dq, last, k.base, k.cap, k.prio, k.top], desc := some s.proc.dqbase, wait := some (.retry .more) }).after 1
        (.threadResume s.here s.slot.val)) := by
  have hsum : k.top + 1 = k.bottom := used_eq htop hbot hone (by decide)
  have hlast1 : last + 1 = k.bottom := last_succ hbot (hsum ▸ Nat.succ_pos _) hlast
  rw [execTake_lowers hq hready h hroom, ← hlast, if_pos (Nat.succ.inj (hsum.trans hlast1.symm)), parkTake_more h]
  simp only [andThen]
  rfl

/-- TAKE on an empty deque puts BOTTOM back. -/
theorem execTake_empty (hq : s.rp q = true) (hready : s.thr.ready = 0) (h : OnDeque s k) (hquiet : NoneTriggered s) (hroom : s.proc.rq.length + s.proc.rqRes < 16)
    (htop : k.top < 2 ^ 62) (hbot : k.bottom = k.top) {last : Nat} (hlast : last = (k.bottom + 2 ^ 64 - 1) % 2 ^ 64) :
    execTake q d s = (((s.winPut (k.dq + 16) 8 last).winPut (k.dq + 16) 8 k.bottom).wx d 1).retire := by
  have hund : Undisturbed (s.lowered k) := (h.toUndisturbed.setProc _).winPut ..
  have hlt : last < 2 ^ 64 := hlast ▸ Nat.mod_lt _ (by decide)
  have hcases : (k.top = 0 ∧ last = 2 ^ 64 - 1) ∨ last + 1 = k.top := by
    rw [← hbot] at htop ⊢
    rcases Nat.eq_zero_or_pos k.bottom with h0 | h0
    · rw [h0] at hlast
      exact Or.inl ⟨h0, hlast⟩
    · exact Or.inr (last_succ htop h0 hlast)
  have hne : k.top ≠ last := by lia
  have hslt : (BitVec.ofNat 64 k.top : Word).slt (BitVec.ofNat 64 last) = false := by
    rcases hcases with ⟨h0, hl⟩ | hsucc
    · rw [h0, hl]
      decide
    · have hbelow : last < k.top := hsucc ▸ Nat.lt_succ_self last
      rw [slt_ofNat (htop.trans (by decide)) (hbelow.trans (htop.trans (by decide))), decide_eq_false_iff_not]
      exact Nat.lt_asymm hbelow
  have hword : (BitVec.ofNat 64 k.top : Word) ≠ BitVec.ofNat 64 last := fun he => hne ((ofNat_word_inj (htop.trans (by decide)) hlt).mp he)
  rw [execTake_lowers hq hready h hroom, ← hlast, if_neg hne, takeTop_above hund hquiet hslt hword, lowered_released, hlast, ← hbot]

theorem thrAt_amo_setThr {t : Thread} (h : t.amo = s.thr.amo) (c i : Nat) : ((s.setThr t).thrAt c i).amo = (s.thrAt c i).amo := by
  by_cases hc : c = s.here
  · subst hc
    by_cases hi : i = s.slot.val
    · subst hi
      rw [thrAt_here_slot s, ← h]
      exact congrArg Thread.amo ((thrAt_here_slot (s.setThr t)).trans (thr_setThr s t))
    · have hslots : (s.setThr t).core.thr i = s.core.thr i := by
        unfold Core.thr State.setThr
        simp [Ne.symm hi]
      unfold State.thrAt
      rw [coreAt_here, show s.here = (s.setThr t).here from rfl, coreAt_here, hslots]
  · unfold State.thrAt State.coreAt
    rw [if_neg hc, if_neg (show c ≠ (s.setThr t).here from hc)]
    rfl

theorem requestedAt_setThr {t : Thread} (h : t.amo = s.thr.amo) (u : Place) : (s.setThr t).requestedAt u = s.requestedAt u := by
  unfold State.requestedAt
  refine congrArg (List.any s.agenda) (funext fun e => congrArg (decide (e.1 ≤ s.cycle) && ·) ?_)
  congr 1
  funext c i
  rw [thrAt_amo_setThr h]

/-- The thread of a TAKE that has read TOP. -/
def Thread.atTop (u : Thread) (e : Deque) (t : Nat) : Thread := { u with ready := 3, got := [e.dq, e.bottom, e.base, e.cap, e.prio, t] }

theorem execTake_atTop (hq : s.rp q = true) (e : Deque) (t : Nat) :
    execTake q d (s.setThr (s.thr.atTop e t)) = takeTop d { e with top := 0 } t (s.setThr (s.thr.atTop e t)) := by
  have hrp : (s.setThr (s.thr.atTop e t)).rp q = true := by
    rw [← hq, State.rp, thr_setThr]
    rfl
  unfold execTake
  rw [guarded_true hrp, thr_setThr]
  rfl

/-- The ACAS of TOP finds it as it was: the last record is this process's. -/
theorem execTake_won (hq : s.rp q = true) (h : Undisturbed s) (hreq : ∀ u, s.requestedAt u = false) {e : Deque} {t w : Nat} (ht : t < 2 ^ 62) (he : e.bottom = t)
    (hw : w = Memory.read s.proc.win (e.rec_ t) 16) (hapart : e.rec_ t + 16 ≤ e.dq ∨ e.dq + 32 ≤ e.rec_ t) (hold : Memory.read s.proc.win e.dq 8 = t) :
    execTake q d (s.setThr (s.thr.atTop e t)) =
      ((((s.released.winPut e.dq 8 (t + 1)).appendTask (BitVec.ofNat 64 w) (BitVec.ofNat 64 (w / 2 ^ 64)) e.prio 17).winPut
        (e.dq + 16) 8 (t + 1)).wx d 0).retire := by
  have hund : Undisturbed ((s.winPut e.dq 8 (t + 1)).setThr (s.thr.atTop e t)) := (h.winPut ..).setThr _
  have hread : Memory.read ((s.winPut e.dq 8 (t + 1)).setThr (s.thr.atTop e t)).proc.win (e.rec_ t) 16 = w := by
    rw [hw]
    exact read_write_apart _ _ _ _ (by lia)
  have hsucc : (t + 1) % 2 ^ 64 = t + 1 := Nat.mod_eq_of_lt (by lia)
  rw [execTake_atTop hq, takeTop_swaps (k := { e with top := 0 }) (h.setThr _) (t := t) he fun u => (requestedAt_setThr (by rfl) u).trans (hreq u)]
  dsimp only
  rw [show (s.setThr (s.thr.atTop e t)).proc = s.proc from rfl, hold, if_pos rfl, hsucc, winPut_setThr, takeSwapped_own hund (by lia), takeTask_eq hund]
  dsimp only
  rw [he, show Deque.rec_ { dq := e.dq, top := 0, bottom := t, base := e.base, cap := e.cap, prio := e.prio } t = e.rec_ t from rfl, hread, hsucc,
    released_setThr, released_winPut, appendTask_setThr, winPut_setThr, Thread.atTop, retire_wx_setThr, retired_stage, retire_wx, thr_winPut, thr_appendTask,
    thr_winPut, thr_released]

/-- The ACAS of TOP finds another value: another party has obtained the last record. -/
theorem execTake_lost (hq : s.rp q = true) (h : Undisturbed s) (hquiet : NoneTriggered s) (hreq : ∀ u, s.requestedAt u = false) {e : Deque} {t : Nat} (ht : t < 2 ^ 62)
    (he : e.bottom = t) (hold : Memory.read s.proc.win e.dq 8 ≠ t) :
    execTake q d (s.setThr (s.thr.atTop e t)) =
      (((s.released.winPut e.dq 8 (Memory.read s.proc.win e.dq 8)).winPut
        (e.dq + 16) 8 (t + 1)).wx d 3).retire := by
  have hund : Undisturbed ((s.winPut e.dq 8 (Memory.read s.proc.win e.dq 8)).setThr (s.thr.atTop e t)) := (h.winPut ..).setThr _
  have hsucc : (t + 1) % 2 ^ 64 = t + 1 := Nat.mod_eq_of_lt (by lia)
  rw [execTake_atTop hq, takeTop_swaps (k := { e with top := 0 }) (h.setThr _) (t := t) he fun u => (requestedAt_setThr (by rfl) u).trans (hreq u)]
  dsimp only
  rw [show (s.setThr (s.thr.atTop e t)).proc = s.proc from rfl, if_neg hold, winPut_setThr, takeSwapped_lost hund hquiet (read_lt _ _ 8) hold]
  dsimp only
  rw [hsucc, released_setThr, released_winPut, winPut_setThr, Thread.atTop, retire_wx_setThr, retired_stage, retire_wx, thr_winPut, thr_winPut, thr_released]

/-- A TAKE whose ACAS another party has answered, with another value than it had read. -/
theorem execTake_swappedLost (hq : s.rp q = true) (h : Undisturbed s) (hquiet : NoneTriggered s) {e : Deque} {t old : Nat} (ho : old < 2 ^ 64) (hne : old ≠ t) :
    execTake q d (s.setThr { s.thr with ready := 4, got := [e.dq, e.bottom, e.base, e.cap, e.prio, t, old] }) =
      ((s.released.winPut (e.dq + 16) 8 ((t + 1) % 2 ^ 64)).wx d 3).retire := by
  have hrp : (s.setThr { s.thr with ready := 4, got := [e.dq, e.bottom, e.base, e.cap, e.prio, t, old] }).rp q = true := by
    rw [← hq, State.rp, thr_setThr]
    rfl
  have hstage : ({ s.thr with ready := 4, got := [e.dq, e.bottom, e.base, e.cap, e.prio, t, old] } : Thread).takeStage =
      some (.swapped { e with top := 0 } t old) := rfl
  unfold execTake
  rw [guarded_true hrp, thr_setThr, hstage]
  dsimp only
  rw [takeSwapped_lost (h.setThr _) hquiet ho hne]
  dsimp only
  rw [released_setThr, winPut_setThr, retire_wx_setThr, retired_stage, retire_wx, thr_winPut, thr_released]

theorem empty_of_used {b t : Nat} (hb : b < 2 ^ 64) (ht : t < 2 ^ 62) (h : (b + 2 ^ 64 - t) % 2 ^ 64 = 0) : b = t := by lia

/-- What BOTTOM put back leaves of every byte. -/
theorem read_restored (hm : s.proc.win.wf = true) (a b v o : Nat) (hv : v = Memory.read s.proc.win a 8) :
    Memory.read ((s.winPut a 8 b).winPut a 8 v).proc.win o 1 = Memory.read s.proc.win o 1 := by
  have hwin : ((s.winPut a 8 b).winPut a 8 v).proc.win = (s.proc.win.write a 8 b).write a 8 v := rfl
  rw [hwin]
  generalize s.proc.win = m at hm hv
  rw [read_one, read_one, get_write _ _ _ _ (wf_write _ _ _ hm), get_write _ _ _ _ hm]
  split
  · rename_i hin
    have hbyte := read_byte m a 8 (o - a) (by lia)
    rw [BitVec.toNat_ofNat, hv, show (2 : Nat) ^ 8 = 256 from rfl, hbyte, read_one, show a + (o - a) = o by lia]
  · rfl

end

end Sys2Proof.Machine

namespace Sys2Proof
open Machine

/-- Settles O24: SPAWN by `spawnOn_room` and `spawnOn_full`, TAKE by its ways (`execTake_below` and those after it), STEAL by its stages. -/
theorem deques : Obligations.Deques := by
  refine ⟨fun q d a b s k hq hready hgot hdesc hst hunits hbad hwatches hocc hdq hk => ?_, fun q d a s hq => ?_⟩
  · have h : OnDeque s k := ⟨⟨hocc, hunits, hbad, hwatches⟩, hdesc, hst, hdq, hk⟩
    have hund : Undisturbed s := h.toUndisturbed
    intro put wr used last at_
    have hput : put = State.winPut := rfl
    have hwr : wr = fun u v => (u.wx d v).retire := funext₂ fun u v => (retire_wx u d v).symm
    clear_value put wr
    subst hput hwr
    refine ⟨?_, ?_, ?_, ?_, ?_, ?_, ?_, ?_⟩
    · exact fun ha hroom => ⟨spawnOn_room hq h ha hroom false, spawnOn_room hq h ha hroom true⟩
    · exact fun ha hfull => ⟨spawnOn_full hq h ha hfull false, (spawnOn_full hq h ha hfull true).trans h.parkDeque⟩
    · intro hroom htop hbot htwo hused w hapart
      exact execTake_below hq hready h hroom htop hbot htwo hused rfl rfl hapart
    · intro hroom htop hbot hone
      exact execTake_last hq hready h hroom htop hbot hone rfl
    · intro e t ht he hreq hquiet s0 r w less hapart
      have hless : less = s.released := rfl
      clear_value less
      subst hless
      exact ⟨fun hold => execTake_won (d := d) hq hund hreq ht he rfl hapart hold,
        fun hold => execTake_lost (d := d) hq hund hquiet hreq ht he hold⟩
    · intro hroom htop hused hquiet
      obtain ⟨-, htopr, hbotr⟩ := ownDeque_fields hund hk
      have hlt : k.bottom < 2 ^ 64 := hbotr ▸ read_lt _ _ 8
      have hempty : k.bottom = k.top := empty_of_used hlt htop hused
      exact ⟨execTake_empty hq hready h hquiet hroom htop hempty rfl,
        fun hwf o => read_restored hwf (k.dq + 16) last k.bottom o hbotr⟩
    · intro t old e ho hne hquiet s0 less
      have hless : less = s.released := rfl
      clear_value less
      subst hless
      exact execTake_swappedLost (d := d) hq hund hquiet ho hne
    · intro hfull
      refine (execTake_issue hq hready).trans ?_
      rw [rqFull_eq_true hfull, if_pos rfl, takeIssued_full h]
  · intro lid wr less
    have hwr : wr = fun u v => (u.wx d v).retire := funext₂ fun u v => (retire_wx u d v).symm
    have hless : less = s.released := rfl
    clear_value less wr
    subst hless hwr
    refine ⟨fun hready hlid => execSteal_refuses hq hready hlid, fun hready hlt hne hst => ⟨fun hfull => ?_, fun hroom => ?_⟩,
      fun hready hquiet v w old k hk hfault hgot => ⟨fun hold => ?_, fun hold => ?_⟩, fun hready hquiet v hfault hgot => ⟨fun hk => ?_, fun k hk hempty => ?_⟩⟩
    · exact (execSteal_issue hq hready (by lia)).trans (if_pos (rqFull_eq_true hfull))
    · obtain ⟨t, ht, hproc, hwait, hpc, hx, hpend, hsent⟩ := execSteal_asks (d := d) hq hready hlt hne hst hroom
      exact ⟨t, ht, congrArg Proc.rqRes hproc, hwait, hpc, hx, ⟨_, hpend, rfl, rfl⟩, hsent⟩
    · exact (execSteal_goesOn hq hready).trans ((stealStage_swapped _ hquiet hgot hfault hk).trans (if_pos hold))
    · exact (execSteal_goesOn hq hready).trans ((stealStage_swapped _ hquiet hgot hfault hk).trans (if_neg hold))
    · exact (execSteal_goesOn hq hready).trans ((stealStage_refused _ hquiet hgot hfault).1 hk)
    · exact (execSteal_goesOn hq hready).trans ((stealStage_refused _ hquiet hgot hfault).2 k hk hempty)

end Sys2Proof
end

section
/-! Receives (O42; spec 09, R235). -/

namespace Sys2Proof.Machine

/-- A PRECV of the record of `wRecv` issues in slot 0, under whose number an earlier search of the slot still waits for a slot of the B latch. -/
def searchedBefore : State := wP (wRecv 256) fun p => { p with mq := { p.mq with latchWait := [precvKey 0] } }

/-- Who waits for a slot of the B latch after an outcome. -/
def latchWaitAfter : Out → List Nat
  | .next t => t.proc.mq.latchWait
  | _ => []

theorem precv_leaves_latchWait : latchWaitAfter (execPrecv 0 5 6 searchedBefore) = [] := by decide +kernel

/-- Refutes O42: a PRECV that posts its record also withdraws its thread's number from the line for a slot of the B latch. -/
theorem not_receives : ¬ Obligations.Receives := by
  unfold Obligations.Receives
  intro h
  have hown : OwnData searchedBefore (searchedBefore.rx 6) 32 := own_of (by decide)
  obtain ⟨hprecv, -⟩ := h 0 5 6 searchedBefore (by decide)
  obtain ⟨-, hlegal⟩ := hprecv hown (by decide) (by decide) (by decide)
  obtain ⟨hempty, -⟩ := hlegal (by decide +kernel) (by decide +kernel) (by decide +kernel) (by decide +kernel) (by decide +kernel)
    (Or.inl (by decide +kernel))
  obtain ⟨hposts, -⟩ := hempty (by decide) (by decide) (by decide) (by decide)
  have hleft := precv_leaves_latchWait
  rw [show execPrecv 0 5 6 searchedBefore = _ from hposts 0 (by decide) (by decide) (fun j hj => absurd hj (Nat.not_lt_zero j))] at hleft
  exact absurd hleft (by decide +kernel)

end Sys2Proof.Machine
end

section
/-! Accesses to places that are not local (O28; spec 07, R152, R333). -/

namespace Sys2Proof.Machine

/-- x6 names the window of process 3 of the group, and an earlier request of the thread has been sent to core 1. -/
def askedBefore : State := wT fun t => { t.wx 6 (0xFFFE000000000000 + 3 * 2 ^ 18) with sentTo := some 1 }

theorem ldd_forgets_sentTo : sentAfter (execLdd 0 5 6 0 askedBefore) = none := by decide

/-- Refutes O28: a load of another process's window that waits for the placement entry also forgets the core that an earlier request of its
thread was sent to. -/
theorem not_nonLocalAccesses : ¬ Obligations.NonLocalAccesses := by
  unfold Obligations.NonLocalAccesses
  intro h
  obtain ⟨-, hload⟩ := h 0 5 6 0 askedBefore (.win 1 3 0) false 0 16 (by decide) (by decide)
  obtain ⟨-, hwindow, -⟩ := hload (by decide) (by decide)
  obtain ⟨-, hmiss⟩ := hwindow 1 3 0 (by decide) rfl (by decide)
  have hforgets := ldd_forgets_sentTo
  rw [show execLdd 0 5 6 0 askedBefore = _ from hmiss (by decide)] at hforgets
  exact absurd hforgets (by decide)

end Sys2Proof.Machine
end

section
/-! The calls on channels (O40; spec 09, R217-R220). -/

namespace Sys2Proof.Machine

variable {q : BitVec 3} {d a : BitVec 5} {s : State}

/-! ### CHOPEN (R218) -/

theorem hasChannel_iff (p : Proc) (lid ch : Nat) : p.hasChannel lid ch = true ↔ ∃ h o, p.handle h = some o ∧ o.lid = lid ∧ o.ch = ch := by
  unfold Proc.hasChannel Proc.handle
  rw [List.any_eq_true]
  constructor
  · rintro ⟨x, hx, hmatch⟩
    obtain ⟨h, hlt, rfl⟩ := List.getElem_of_mem hx
    cases ho : p.handles.toList[h] with
    | none => simp [ho] at hmatch
    | some o =>
      simp only [ho, Bool.and_eq_true, beq_iff_eq] at hmatch
      exact ⟨h, o, by rw [List.getElem?_eq_getElem hlt, ho]; rfl, hmatch⟩
  · rintro ⟨h, o, ho, hlid, hch⟩
    by_cases hlt : h < p.handles.toList.length
    · rw [List.getElem?_eq_getElem hlt, Option.getD_some] at ho
      refine ⟨_, List.getElem_mem hlt, ?_⟩
      simp [ho, hlid, hch]
    · rw [List.getElem?_eq_none (not_lt.mp hlt)] at ho
      exact absurd ho (by simp)

theorem freeHandle_none_iff (p : Proc) : p.freeHandle.isNone = true ↔ ¬ ∃ h, h < 32 ∧ p.handle h = none := by
  unfold Proc.freeHandle
  rw [Option.isNone_iff_eq_none, List.find?_eq_none]
  constructor
  · rintro h ⟨i, hi, hnone⟩
    exact h i (List.mem_range.mpr hi) (by rw [hnone]; rfl)
  · intro h i hi hnone
    exact h ⟨i, List.mem_range.mp hi, Option.isNone_iff_eq_none.mp hnone⟩

/-- What CHOPEN tests by itself: a bad control word, a lid outside the group, no free handle, an open channel (R218). -/
theorem execChopen_eq (hq : s.rp q = true) : execChopen q d a s =
    if 2 ^ 20 ≤ (s.rx a).toNat ∨ ((s.rx a).toNat / 2 ^ 19 % 2 = 1 ∧ (s.rx a).toNat / 8 % 2 ^ 16 = 0xFFFE) then .next (s.setThr (s.thr.wx d (-5)).retired)
    else if (s.rx a).toNat / 8 % 2 ^ 16 ≠ 0xFFFE ∧ s.proc.gsize ≤ (s.rx a).toNat / 8 % 2 ^ 16 then .next (s.setThr (s.thr.wx d (-2)).retired)
    else if s.proc.freeHandle.isNone then .next (s.setThr (s.thr.wx d (-1)).retired)
    else if s.proc.hasChannel ((s.rx a).toNat / 8 % 2 ^ 16) ((s.rx a).toNat % 8) then .next (s.setThr (s.thr.wx d (-3)).retired)
    else if s.thr.storeQ ≠ [] then .next (s.parkRetry .storeEmpty)
    else
      let s1 := s.setThr { s.thr.parked (.chopen d) with got := [(s.rx a).toNat] }
      let e : Instr := .chopenRequest s.here s.slot.val
      if (s.rx a).toNat / 8 % 2 ^ 16 = 0xFFFE then .next (s1.after (transit s.here 0 + 4) e)
      else .next (s1.request (.win s.proc.gid ((s.rx a).toNat / 8 % 2 ^ 16) 0) (s.transitTo (.win s.proc.gid ((s.rx a).toNat / 8 % 2 ^ 16) 0)) e) := by
  have hhigh : s.rx a >>> 20 ≠ 0 ↔ 2 ^ 20 ≤ (s.rx a).toNat := by
    rw [Ne, BitVec.toNat_eq, BitVec.toNat_ushiftRight, Nat.shiftRight_eq_div_pow]
    simp
  have hlatch : (s.rx a).getLsbD 19 = true ↔ (s.rx a).toNat / 2 ^ 19 % 2 = 1 := by
    rw [BitVec.getLsbD, Nat.testBit_eq_decide_div_mod_eq, decide_eq_true_iff]
  unfold execChopen
  rw [guarded_true hq]
  dsimp only
  simp only [hhigh, hlatch, retire_wx]
  rfl

theorem parkRetry_storeEmpty (s : State) : s.parkRetry .storeEmpty = s.setThr { s.thr with wait := some (.retry .storeEmpty), scmem := s.thr.scmem + 1 } := rfl

/-- Where a request goes in the time of its way, and what it leaves beside the thread, the agenda and the location cache. -/
theorem request_window_due (s : State) (g l o n : Nat) (e : Instr) :
    (s.request (.win g l o) n e).here = s.here ∧ (s.request (.win g l o) n e).slot = s.slot ∧ (s.request (.win g l o) n e).mem = s.mem ∧
    ((∃ x ∈ (s.request (.win g l o) n e).agenda, s.cycle ≤ x.1 ∧ x.2 = e) ∨
      ((g, l, s.slot.val, e) ∈ (s.request (.win g l o) n e).core.seeking ∧
        ∃ x ∈ (s.request (.win g l o) n e).agenda, x.2 = .locationLookupReply s.here g l)) := by
  have hdue (v : State) (m : Nat) (hv : v.cycle = s.cycle) : ∃ x ∈ (v.after m e).agenda, s.cycle ≤ x.1 ∧ x.2 = e :=
    ⟨_, due_after v m e, by rw [hv]; lia, rfl⟩
  unfold State.request
  dsimp only
  split
  · exact ⟨rfl, rfl, rfl, Or.inl (hdue _ n rfl)⟩
  · split
    · exact ⟨(keepsThreads_useLoc (still := True) _ _ _).here, (keepsThreads_useLoc (still := True) _ _ _).slot, mem_setCoreAt _ _ _, Or.inl (hdue _ _ (cycle_setCoreAt _ _ _))⟩
    · refine ⟨(keepsThreads_lookUp (still := True) _ _ _ _).here, (keepsThreads_lookUp (still := True) _ _ _ _).slot, ?_, Or.inr ⟨List.mem_append_right _ List.mem_cons_self, ?_⟩⟩
      · unfold State.lookUp
        split <;> rfl
      · exact lookUp_asks (s.setThr { s.thr with sentTo := none }) s.here g l

/-- CHOPEN whose request leaves (R218): the thread parks, and the request is due, or waits for the placement entry. -/
theorem chopen_form {v : Nat} (hv : v < 2 ^ 20) (hhost : ¬ (v / 2 ^ 19 % 2 = 1 ∧ v / 8 % 2 ^ 16 = 0xFFFE)) :
    ¬ (2 ^ 20 ≤ v ∨ (v / 2 ^ 19 % 2 = 1 ∧ v / 8 % 2 ^ 16 = 0xFFFE)) := not_or.mpr ⟨Nat.not_le.mpr hv, hhost⟩

theorem chopen_lid {l n : Nat} (h : l = 0xFFFE ∨ l < n) : ¬ (l ≠ 0xFFFE ∧ n ≤ l) := fun ⟨hne, hge⟩ => h.elim hne (Nat.not_lt.mpr hge)

theorem execChopen_sent (hq : s.rp q = true) (hv : (s.rx a).toNat < 2 ^ 20)
    (hhost : ¬ ((s.rx a).toNat / 2 ^ 19 % 2 = 1 ∧ (s.rx a).toNat / 8 % 2 ^ 16 = 0xFFFE))
    (hlid : (s.rx a).toNat / 8 % 2 ^ 16 = 0xFFFE ∨ (s.rx a).toNat / 8 % 2 ^ 16 < s.proc.gsize) (hroom : s.proc.freeHandle.isNone ≠ true)
    (hopen : s.proc.hasChannel ((s.rx a).toNat / 8 % 2 ^ 16) ((s.rx a).toNat % 8) ≠ true) (hst : s.thr.storeQ = []) :
    Yields (execChopen q d a s) (fun t =>
      t.here = s.here ∧ t.slot = s.slot ∧ t.mem = s.mem ∧ t.proc = s.proc ∧ t.thr.wait = some (.chopen d) ∧ t.thr.got = [(s.rx a).toNat] ∧
      t.thr.x = s.thr.x ∧ t.thr.pc = s.thr.pc ∧ t.thr.sciss = s.thr.sciss + 1 ∧
      ((∃ e ∈ t.agenda, s.cycle ≤ e.1 ∧ e.2 = .chopenRequest s.here s.slot.val) ∨
       ((s.proc.gid, (s.rx a).toNat / 8 % 2 ^ 16, s.slot.val, Instr.chopenRequest s.here s.slot.val) ∈ t.core.seeking ∧
         ∃ e ∈ t.agenda, e.2 = .locationLookupReply s.here s.proc.gid ((s.rx a).toNat / 8 % 2 ^ 16)))) := by
  rw [execChopen_eq hq, if_neg (chopen_form hv hhost), if_neg (chopen_lid hlid), if_neg hroom, if_neg hopen, if_neg (not_not.mpr hst)]
  dsimp only
  generalize hu : ({ s.thr.parked (.chopen d) with got := [(s.rx a).toNat] } : Thread) = u
  have hfacts : u.wait = some (.chopen d) ∧ u.got = [(s.rx a).toNat] ∧ u.x = s.thr.x ∧ u.pc = s.thr.pc ∧ u.sciss = s.thr.sciss + 1 := by
    rw [← hu]
    exact ⟨rfl, rfl, rfl, rfl, rfl⟩
  obtain ⟨hwait, hgot, hx, hpc, hsciss⟩ := hfacts
  split
  · refine ⟨_, rfl, rfl, rfl, rfl, rfl, ?_⟩
    rw [thr_after, thr_setThr]
    exact ⟨hwait, hgot, hx, hpc, hsciss, Or.inl ⟨_, due_after _ _ _, by dsimp only [cycle_setThr]; lia, rfl⟩⟩
  · obtain ⟨hproc, ⟨y, hthr⟩, -⟩ := request_window (s.setThr u) s.proc.gid ((s.rx a).toNat / 8 % 2 ^ 16) 0
      (s.transitTo (.win s.proc.gid ((s.rx a).toNat / 8 % 2 ^ 16) 0)) (.chopenRequest s.here s.slot.val)
    obtain ⟨hhere, hslot, hmem, hsent⟩ := request_window_due (s.setThr u) s.proc.gid ((s.rx a).toNat / 8 % 2 ^ 16) 0
      (s.transitTo (.win s.proc.gid ((s.rx a).toNat / 8 % 2 ^ 16) 0)) (.chopenRequest s.here s.slot.val)
    refine ⟨_, rfl, hhere, hslot, hmem, hproc, ?_⟩
    rw [hthr, thr_setThr]
    exact ⟨hwait, hgot, hx, hpc, hsciss, hsent⟩

/-! ### CHCLOSE (R219) -/

theorem handle_lt {p : Proc} {h : Nat} {o : OutCh} (ho : p.handle h = some o) : h < 32 := by
  by_contra hge
  unfold Proc.handle at ho
  rw [List.getElem?_eq_none (by simpa using not_lt.mp hge)] at ho
  exact absurd ho (by simp)

theorem handle_setHandle_same (p : Proc) {h : Nat} {o : OutCh} (ho : p.handle h = some o) (v : Option OutCh) : (p.setHandle h v).handle h = v := by
  have hlt := handle_lt ho
  unfold Proc.handle Proc.setHandle
  simp [hlt]

theorem handle_setHandle_ne (p : Proc) {h i : Nat} (hne : i ≠ h) (v : Option OutCh) : (p.setHandle h v).handle i = p.handle i := by
  unfold Proc.handle Proc.setHandle
  simp [Ne.symm hne]

theorem setSender_here (s : State) (p : Proc) (hocc : s.core.occupied = true) (hgid : s.proc.gid = p.gid) (hlid : s.proc.lid = p.lid) :
    s.setSender s.here p = s.setProc p := by
  unfold State.setSender
  rw [coreAt_here]
  dsimp only
  rw [if_pos (by simp [hocc, ← hgid, ← hlid, State.proc]), setCoreAt_here]
  rfl

/-- A packet that leaves changes no thread, no process and no memory. -/
theorem emit_frame {still : Prop} (s : State) (pkt : Packet) (n : Nat) : KeepsThreads s (s.emit s.here pkt n) still ∧ (s.emit s.here pkt n).mem = s.mem ∧
    (s.emit s.here pkt n).proc = s.proc := by
  have hwaits (k : Core) (hkept : CoreKept (s.coreAt s.here) k still) (hproc : k.proc = s.proc) {g l : Nat} :
      KeepsThreads s ((s.setCoreAt s.here k).lookUp s.here g l) still ∧ ((s.setCoreAt s.here k).lookUp s.here g l).mem = s.mem ∧
        ((s.setCoreAt s.here k).lookUp s.here g l).proc = s.proc := by
    refine ⟨(keepsThreads_setCoreAt s hkept).trans (keepsThreads_lookUp _ _ _ _), ?_, ?_⟩
    · rw [setCoreAt_here]
      unfold State.lookUp
      split <;> rfl
    · rw [setCoreAt_here]
      exact (congrArg Core.proc (core_lookUp _ _ _ _)).trans hproc
  unfold State.emit
  split
  · exact ⟨keepsThreads_after _ _ _, rfl, rfl⟩
  · split
    · exact ⟨keepsThreads_after _ _ _, rfl, rfl⟩
    · dsimp only
      split
      · refine ⟨(keepsThreads_useLoc _ _ _).trans (keepsThreads_after _ _ _), mem_setCoreAt _ _ _, ?_⟩
        rw [proc_after, State.useLoc, setCoreAt_here, coreAt_here]
        rfl
      · refine hwaits _ ?_ ?_
        · exact {}
        · show (s.coreAt s.here).proc = s.proc
          rw [coreAt_here]
          rfl

/-- What stands once a CHCLOSE has parked: the handle is `o`, and the other handles are as they were. -/
def Parks (s t : State) (h : Nat) (o : OutCh) : Prop :=
  t.here = s.here ∧ t.slot = s.slot ∧ t.thr = s.thr.parked (.chclose h) ∧ t.mem = s.mem ∧ t.proc.win = s.proc.win ∧
    t.proc.handle h = some o ∧ ∀ i, i ≠ h → t.proc.handle i = s.proc.handle i

theorem parks_of {t : State} {h : Nat} {o : OutCh} {p : Proc} (hk : KeepsThreads (s.park (.chclose h)) t) (hmem : t.mem = s.mem) (hproc : t.proc = p)
    (hwin : p.win = s.proc.win) (hsame : p.handle h = some o) (hne : ∀ i, i ≠ h → p.handle i = s.proc.handle i) : Parks s t h o := by
  subst hproc
  exact ⟨hk.here, hk.slot, hk.thr.trans (thr_setThr _ _), hmem, hwin, hsame, hne⟩

/-- The thread that parks in CHCLOSE has no SEND under way. -/
theorem sendsOn_park_chclose (s : State) (h : Nat) (hidle : ∀ i : Fin 12, s.core.slots[i].sendsOn h = false) :
    (s.park (.chclose h)).core.slots.toList.any (fun t => t.sendsOn h) = false := by
  rw [List.any_eq_false]
  intro t ht
  obtain ⟨i, hi, rfl⟩ := List.getElem_of_mem ht
  rw [Vector.length_toList] at hi
  have hget : (s.park (.chclose h)).core.slots.toList[i] = if s.slot.val = i then s.thr.parked (.chclose h) else s.core.slots[i] := by
    rw [Vector.getElem_toList]
    exact Vector.getElem_set s.slot.isLt hi
  rw [hget]
  split
  · simp [Thread.sendsOn, Thread.parked]
  · simpa using hidle ⟨i, hi⟩

theorem execChclose_closes (hq : s.rp q = true) {o : OutCh} (ho : s.proc.handle (s.rx a).toNat = some o) (hc : o.closing = false) :
    execChclose q a s = .next ((s.park (.chclose (s.rx a).toNat)).inject s.here
      (s.proc.setHandle (s.rx a).toNat (some { o with closing := true })) (s.rx a).toNat) := by
  unfold execChclose
  rw [guarded_true hq]
  dsimp only
  rw [ho]
  dsimp only
  rw [hc]
  rfl

/-- The sends that keep a CHCLOSE from sending its CLOSE at once. -/
theorem inject_busy {t : State} {c h : Nat} {p : Proc} {o : OutCh} (ho : p.handle h = some o)
    (hbusy : 32 ≤ o.unack ∨ ∃ x k, o.cur = some x ∧ x.inj = some k) : t.inject c p h = t.setSender c p := by
  unfold State.inject
  rw [ho]
  dsimp only
  split
  · rfl
  · rename_i hunack
    obtain ⟨x, k, hx, hk⟩ := hbusy.resolve_left hunack
    rw [hx]
    dsimp only
    rw [hk]
    rfl

/-- The CLOSE of a handle on which nothing is under way. -/
theorem inject_close {t : State} {c h : Nat} {p : Proc} {o : OutCh} (ho : p.handle h = some o) (hunack : o.unack < 32) (hcur : o.cur = none)
    (hclosing : o.closing = true) (hsent : o.closeSent = false) (hwaits : (t.coreAt c).slots.toList.any (fun u => u.sendsOn h) = false)
    (hhold : p.hold = none) : t.inject c p h =
      (t.setSender c (p.setHandle h (some { o.sent with closeSent := true }))).emit c
        (o.packet p.gid p.lid false false false true false 0 0 [] {}) 0 := by
  unfold State.inject
  rw [ho]
  dsimp only
  rw [if_neg (not_le.mpr hunack), hcur]
  dsimp only
  rw [if_pos (by simp [hclosing, hsent, hwaits, State.closeHeld, hhold])]

theorem execChclose_parks (hq : s.rp q = true) (hocc : s.core.occupied = true) {o : OutCh} (ho : s.proc.handle (s.rx a).toNat = some o)
    (hc : o.closing = false) :
    ((32 ≤ o.unack ∨ ∃ c p, o.cur = some c ∧ c.inj = some p) →
      Yields (execChclose q a s) (fun t => Parks s t (s.rx a).toNat { o with closing := true })) ∧
    (o.unack < 32 → o.cur = none → o.closeSent = false → (∀ i : Fin 12, s.core.slots[i].sendsOn (s.rx a).toNat = false) → s.proc.hold = none →
      Yields (execChclose q a s) (fun t => Parks s t (s.rx a).toNat
        { o with closing := true, closeSent := true, seq := (o.seq + 1) % 4096, unack := o.unack + 1 })) := by
  generalize hh : (s.rx a).toNat = h at ho
  have hset (p : Proc) (hgid : s.proc.gid = p.gid) (hlid : s.proc.lid = p.lid) :
      (s.park (.chclose h)).setSender s.here p = (s.park (.chclose h)).setProc p :=
    setSender_here (s.park (.chclose h)) p hocc hgid hlid
  have ho1 : (s.proc.setHandle h (some { o with closing := true })).handle h = some { o with closing := true } := handle_setHandle_same _ ho _
  have hexec := execChclose_closes (a := a) hq (hh ▸ ho) hc
  rw [hh] at hexec
  rw [hexec]
  constructor
  · intro hbusy
    rw [inject_busy ho1 hbusy, hset (s.proc.setHandle h _) rfl rfl]
    exact ⟨_, rfl, parks_of (keepsThreads_setProc _ rfl rfl) rfl rfl rfl ho1 fun i hi => handle_setHandle_ne _ hi _⟩
  · intro hunack hcur hsent hidle hhold
    rw [inject_close ho1 hunack hcur rfl hsent (by rw [show s.here = (s.park (.chclose h)).here from rfl, coreAt_here]; exact sendsOn_park_chclose s h hidle) hhold,
      hset ((s.proc.setHandle h _).setHandle h _) rfl rfl]
    obtain ⟨hkeeps, hmem, hproc⟩ := emit_frame (still := False) ((s.park (.chclose h)).setProc ((s.proc.setHandle h (some { o with closing := true })).setHandle h
      (some { ({ o with closing := true } : OutCh).sent with closeSent := true })))
      (({ o with closing := true } : OutCh).packet s.proc.gid s.proc.lid false false false true false 0 0 [] {}) 0
    refine ⟨_, rfl, parks_of (.trans ?_ hkeeps) hmem hproc rfl (handle_setHandle_same _ ho1 _) fun i hi => ?_⟩
    · exact keepsThreads_setProc _ rfl rfl
    · exact (handle_setHandle_ne _ hi _).trans (handle_setHandle_ne _ hi _)

/-! ### CHINFO and CHTRAF (R220, R336) -/

/-- A flag in a word. -/
def flagAt (c : Bool) (k : Nat) : Nat := if c then 2 ^ k else 0

/-- The word of Table 9.2. -/
def infoNat (o : OutCh) : Nat :=
  2 ^ 63 + flagAt o.latch 62 + flagAt o.cur.isSome 61 + flagAt o.closing 60 + o.seq * 2 ^ 38 + o.unack * 2 ^ 32 + o.lid * 8 + o.ch

def infoWord (o : OutCh) : Word := BitVec.ofNat 64 (infoNat o)

/-- Its fields, low field first. -/
def infoFields (o : OutCh) : List (Nat × Nat) :=
  [(3, o.ch), (16, o.lid), (13, 0), (6, o.unack), (12, o.seq), (10, 0), (1, o.closing.toNat), (1, o.cur.isSome.toNat), (1, o.latch.toNat), (1, 1)]

theorem flagAt_div (c : Bool) (k : Nat) : flagAt c k = c.toNat * 2 ^ k := by
  cases c <;> simp [flagAt]

theorem infoWord_fits {o : OutCh} (hch : o.ch < 8) (hlid : o.lid < 2 ^ 16) (hunack : o.unack < 64) (hseq : o.seq < 4096) : Fits (infoFields o) :=
  ⟨hch, hlid, by decide, hunack, hseq, by decide, Bool.toNat_lt _, Bool.toNat_lt _, Bool.toNat_lt _, by decide, trivial⟩

theorem infoWord_toNat {o : OutCh} (h : Fits (infoFields o)) : (infoWord o).toNat = packed (infoFields o) := by
  refine toNat_ofNat_packed ?_ h (by decide : 64 ≤ 64)
  simp only [infoNat, flagAt_div, infoFields, packed]
  lia

theorem infoWord_fields {o : OutCh} (hch : o.ch < 8) (hlid : o.lid < 2 ^ 16) (hunack : o.unack < 64) (hseq : o.seq < 4096) :
    (infoWord o).toNat % 2 ^ 3 = o.ch ∧ (infoWord o).toNat / 2 ^ 3 % 2 ^ 16 = o.lid ∧ (infoWord o).toNat / 2 ^ 32 % 2 ^ 6 = o.unack ∧
      (infoWord o).toNat / 2 ^ 38 % 2 ^ 12 = o.seq ∧ (infoWord o).getLsbD 60 = o.closing ∧ (infoWord o).getLsbD 61 = o.cur.isSome ∧
      (infoWord o).getLsbD 62 = o.latch ∧ (infoWord o).getLsbD 63 = true := by
  have h := infoWord_fits hch hlid hunack hseq
  have hn := infoWord_toNat h
  exact ⟨low_of_packed hn h (3, o.ch) rfl, field_of_packed hn h 1 (16, o.lid) rfl, field_of_packed hn h 3 (6, o.unack) rfl,
    field_of_packed hn h 4 (12, o.seq) rfl, bit_of_packed hn h 6 o.closing rfl, bit_of_packed hn h 7 o.cur.isSome rfl, bit_of_packed hn h 8 o.latch rfl,
    bit_of_packed hn h 9 true rfl⟩

theorem execChinfo_bad (hq : s.rp q = true) (hv : 32 ≤ (s.rx a).toNat) : execChinfo q d a s = s.takeTrap .channel 0 := by
  unfold execChinfo
  rw [guarded_true hq]
  exact if_pos (by lia)

theorem execChinfo_free (hq : s.rp q = true) (hv : (s.rx a).toNat < 32) (ho : s.proc.handle (s.rx a).toNat = none) :
    execChinfo q d a s = .next (s.setThr (s.thr.wx d 0).retired) := by
  unfold execChinfo
  rw [guarded_true hq]
  dsimp only
  rw [if_neg (by lia), ho]
  exact retire_wx ..

theorem execChinfo_open (hq : s.rp q = true) (hv : (s.rx a).toNat < 32) {o : OutCh} (ho : s.proc.handle (s.rx a).toNat = some o) :
    execChinfo q d a s = .next (s.setThr (s.thr.wx d (infoWord o)).retired) := by
  unfold execChinfo
  rw [guarded_true hq]
  dsimp only
  rw [if_neg (by lia), ho]
  exact retire_wx ..

theorem execChtraf_bad (hq : s.rp q = true) (hv : 32 ≤ (s.rx a).toNat) : execChtraf q d a s = s.takeTrap .channel 0 := by
  unfold execChtraf
  rw [guarded_true hq]
  exact if_pos (by lia)

theorem execChtraf_free (hq : s.rp q = true) (hv : (s.rx a).toNat < 32) (ho : s.proc.handle (s.rx a).toNat = none) :
    execChtraf q d a s = .next (s.setThr (s.thr.wx d (-1)).retired) := by
  unfold execChtraf
  rw [guarded_true hq]
  dsimp only
  rw [if_neg (by lia), ho]
  exact retire_wx ..

theorem execChtraf_open (hq : s.rp q = true) (hv : (s.rx a).toNat < 32) {o : OutCh} (ho : s.proc.handle (s.rx a).toNat = some o) :
    execChtraf q d a s = .next (s.setThr (s.thr.wx d (BitVec.ofNat 64 o.total)).retired) := by
  unfold execChtraf
  rw [guarded_true hq]
  dsimp only
  rw [if_neg (by lia), ho]
  exact retire_wx ..

theorem execChclose_traps (hq : s.rp q = true) (ho : ∀ o, s.proc.handle (s.rx a).toNat = some o → o.closing = true) :
    execChclose q a s = s.takeTrap .channel 0 := by
  unfold execChclose
  rw [guarded_true hq]
  dsimp only
  split
  · rfl
  · rename_i o hsome
    rw [if_pos (ho o hsome)]

/-- Settles O40: CHOPEN by its tests in their order and the way of its request, CHCLOSE by what keeps its CLOSE back, CHINFO by the fields
of its word. -/
theorem channelCalls : Obligations.ChannelCalls := by
  unfold Obligations.ChannelCalls
  intro q d a s hq
  dsimp only
  have hsome {o : OutCh} (ho : s.proc.handle (s.rx a).toNat = some o) : (s.rx a).toNat < 32 := handle_lt ho
  have hroom : (∃ h, h < 32 ∧ s.proc.handle h = none) → s.proc.freeHandle.isNone ≠ true := fun hr hn => (freeHandle_none_iff s.proc).mp hn hr
  have hopen := hasChannel_iff s.proc ((s.rx a).toNat / 8 % 2 ^ 16) ((s.rx a).toNat % 8)
  refine ⟨fun hbad => ?_, fun hv hhost => ⟨fun hne hge => ?_, fun hlid => ⟨fun hnone => ?_, fun hr ho => ?_, fun hr ho hst => ?_, fun hr ho hst _ => ?_⟩⟩,
    fun hnone => ?_, fun o ho => ⟨fun hc => ?_, fun hc hocc => ?_, ?_, fun hch hlid hunack hseq => ⟨infoWord o, ?_, infoWord_fields hch hlid hunack hseq⟩⟩,
    fun hv hnone => ⟨execChinfo_free hq hv hnone, execChtraf_free hq hv hnone⟩, fun hv => ⟨execChinfo_bad hq hv, execChtraf_bad hq hv⟩⟩
  · exact (execChopen_eq hq).trans (if_pos hbad)
  · exact (execChopen_eq hq).trans (by rw [if_neg (chopen_form hv hhost), if_pos ⟨hne, hge⟩])
  · exact (execChopen_eq hq).trans (by rw [if_neg (chopen_form hv hhost), if_neg (chopen_lid hlid), if_pos ((freeHandle_none_iff s.proc).mpr hnone)])
  · exact (execChopen_eq hq).trans (by rw [if_neg (chopen_form hv hhost), if_neg (chopen_lid hlid), if_neg (hroom hr), if_pos (hopen.mpr ho)])
  · exact (execChopen_eq hq).trans
      (by rw [if_neg (chopen_form hv hhost), if_neg (chopen_lid hlid), if_neg (hroom hr), if_neg (fun h => ho (hopen.mp h)), if_pos hst, parkRetry_storeEmpty])
  · exact execChopen_sent hq hv hhost hlid (hroom hr) (fun h => ho (hopen.mp h)) hst
  · exact execChclose_traps hq fun o ho => absurd (hnone.symm.trans ho) (by simp)
  · exact execChclose_traps hq fun o1 ho1 => by rw [← Option.some.inj (ho.symm.trans ho1)]; exact hc
  · exact execChclose_parks hq hocc ho hc
  · exact execChtraf_open hq (hsome ho) ho
  · exact execChinfo_open hq (hsome ho) ho

end Sys2Proof.Machine
end

section
/-! The PLC instructions and the runtime's (O46, O47; spec 15 and 19). -/

namespace Sys2Proof.Machine

/-- An earlier request of the thread has been sent to core 1. -/
def plcBefore : State := wT fun t => { t with sentTo := some 1 }

theorem annget_forgets_sentTo : sentAfter (execAnnget 0 5 6 plcBefore) = none := by decide

/-- Refutes O46: an ANNGET that leaves for its unit also forgets the core that an earlier request of its thread was sent to. -/
theorem not_placementWords : ¬ Obligations.PlacementWords := by
  unfold Obligations.PlacementWords
  intro h
  obtain ⟨-, -, -, -, -, -, -, -, -, -, -, ⟨hasks, -⟩, -⟩ := h 0 5 6 7 plcBefore (by decide)
  have hforgets := annget_forgets_sentTo
  rw [show execAnnget 0 5 6 plcBefore = _ from hasks rfl] at hforgets
  exact absurd hforgets (by decide)

/-- An empty core whose last process had a store to another module's vault outstanding, before the save area of lid 2. -/
def loadBefore : State := wP wLoad fun p => { p with remoteStores := 1 }

/-- The state of that core as its CTXLOAD reads the area. -/
def loadStep : State := loadBefore.asStep

theorem loadStep_walk {va : Nat} (hv : va < 2 ^ 26) : loadStep.walk true va = .ok (0xF#64, true) := by
  have hroot : vaIndex va 1 = 0 := by simp only [vaIndex]; lia
  have hleaf : vaIndex va 2 = 0 := by simp only [vaIndex]; lia
  have hdir : loadStep.delivered (.phys 0x100000) 8 1 = 0x110001 := by decide +kernel
  have hentry : loadStep.delivered (.phys 0x110000) 8 2 = 0xF := by decide +kernel
  have b1 : loadStep.isBad (.phys 0x100000) 8 = false := rfl
  have b2 : loadStep.isBad (.phys 0x110000) 8 = false := rfl
  have p1 : placeOf loadStep 0x100000 = .phys 0x100000 := rfl
  have p2 : placeOf loadStep 0x110000 = .phys 0x110000 := rfl
  have t1 : loadStep.tableReadable (.phys 0x100000) = true := rfl
  have t2 : loadStep.tableReadable (.phys 0x110000) = true := rfl
  have r1 : loadStep.rootFor true = 0x100000 := rfl
  have hp : loadStep.module.phase = 0 := rfl
  simp [State.walk, walkFrom, r1, hroot, hleaf, b1, b2, p1, p2, t1, t2, hdir, hentry, hp]

theorem loadStep_bankBusy (p : Place) : loadStep.bankBusy p = none := by
  unfold State.bankBusy; cases bankOf p <;> rfl

/-- Where no bank is being changed a walk is not kept waiting. -/
theorem walkBusy_none {s : State} (h : ∀ p, s.bankBusy p = none) (va n e : Nat) : walkBusy s va n e = none := by
  induction n generalizing e with
  | zero => rfl
  | succ n ih => simp only [walkBusy, h, ih, ite_self]

/-- An engine's read of memory that nothing delays changes nothing. -/
theorem engRead_uncached {s : State} {sv : Bool} {va : Word} {pa n i sc : Nat} (hresolve : s.resolveNow sv .r n va i = .ok (.phys pa) false sc 0)
    (hobstacle : s.obstacle { kind := .load, place := .phys pa, size := n } = .none) (hanswer : s.farAnswer (.phys pa) = none)
    (hbad : s.isBad (.phys pa) n = false) (hseek : s.seek s.here (.phys pa) = (s, 0)) :
    ∃ t, s.engRead sv va n i = .ok s (s.delivered (.phys pa) n i) t := by
  unfold State.engRead
  simp only [hresolve, hobstacle, hanswer, hbad, hseek]
  exact ⟨_, rfl⟩

/-- The first 64 MB are mapped to themselves and read without a change. -/
theorem loadStep_reads {va : Nat} (hv : va + 16 < 2 ^ 25) : ∃ t, loadStep.engRead true (BitVec.ofNat 64 va) 16 0 = .ok loadStep (loadStep.delivered (.phys va) 16 0) t := by
  have hlt : va < 2 ^ 25 := (Nat.le_add_right va 16).trans_lt hv
  have hva : (BitVec.ofNat 64 va).toNat = va := Nat.mod_eq_of_lt (hlt.trans (by decide))
  have hspace : loadStep.space (BitVec.ofNat 64 va) = .global := by
    unfold State.space; simp only [hva]; rw [show va / 2 ^ 48 = 0 from Nat.div_eq_of_lt (hlt.trans (by decide))]; rfl
  have hleaf : leafPa 0xF#64 true va = va := by simp [leafPa]; lia
  have hbelow {k : Nat} (hk : 25 ≤ k) : va / 2 ^ k = 0 := Nat.div_eq_of_lt (hlt.trans_le (Nat.pow_le_pow_right (by decide) hk))
  have htype : paType va = 0 := congrArg (· % 16) (hbelow (by decide))
  have hframe : frameValid va 16 true = true := by
    have h3 : paCore va = 0 := congrArg (· % 2 ^ 12) (hbelow (by decide))
    have h4 : paMid va = 0 := congrArg (· % 2 ^ 16) (hbelow (by decide))
    have h5 : va / 2 ^ 60 = 0 := hbelow (by decide)
    have h6 : paOff va + 16 ≤ vaultSize := (Nat.add_le_add_right (Nat.mod_le va (2 ^ 28)) 16).trans (hv.le.trans (by decide))
    simp only [frameValid, htype, h3, h4, h5, h6]; decide
  have hp : loadStep.module.phase = 0 := rfl
  have hcheck : checkLeaf loadStep true .r 16 va 0xF#64 true = .ok va 0xF#64 := by simp [checkLeaf, hleaf, hframe, hp]
  have hmiss : loadStep.xlate true .r 16 (BitVec.ofNat 64 va) 0 = .miss := rfl
  have hfree := walkBusy_none loadStep_bankBusy va 3 (loadStep.rootFor true)
  have hxlate : loadStep.xlateNow true .r 16 (BitVec.ofNat 64 va) 0 = .ok va 0xF#64 := by
    unfold State.xlateNow; simp [hmiss, hva, loadStep_walk (hlt.trans (by decide) : va < 2 ^ 26), hcheck, hfree]
  have hplace : placeOf loadStep va = .phys va := by unfold placeOf; simp [htype]
  have hresolve : loadStep.resolveNow true .r 16 (BitVec.ofNat 64 va) 0 = .ok (.phys va) false 0 0 := by
    unfold State.resolveNow; simp only [hspace, hxlate]
    have hoff : cacheable va 0xF#64 = false := by simp [cacheable]
    simp [resolvePa, htype, hplace, pteScope, Resolved.now, hoff]
  have hfar : farPlace (.phys va) = false := by simp [farPlace, htype]
  have haway (k : Nat) : loadStep.awayIn (.phys va) k = none := by
    unfold State.awayIn; rw [List.find?_eq_none]; intro x _; exact Bool.false_ne_true
  have hnone : loadStep.obstacle { kind := .load, place := .phys va, size := 16 } = .none := by
    simp [State.obstacle, haway, loadStep_bankBusy, State.farAt, hfar]
  have hseek : loadStep.seek loadStep.here (.phys va) = (loadStep, 0) := rfl
  have hanswer : loadStep.farAnswer (.phys va) = none := rfl
  have hclean : loadStep.bad = [] := rfl
  have hbad : loadStep.isBad (.phys va) 16 = false := by simp [State.isBad, hclean]
  exact engRead_uncached hresolve hnone hanswer hbad hseek

theorem loadStep_readArea_succ {n off : Nat} {l : List Byte} (h : off + 16 < 2 ^ 24) (hl : readArea 0x200000 n (off + 16) loadStep = .ok loadStep l) :
    readArea 0x200000 (n + 1) off loadStep = .ok loadStep (leBytes 16 (loadStep.delivered (.phys (0x200000 + off)) 16 0) ++ l) := by
  have haddr : (0x200000 : Word) + BitVec.ofNat 64 off = BitVec.ofNat 64 (0x200000 + off) := by simp [BitVec.ofNat_add]
  obtain ⟨t, ht⟩ := loadStep_reads (va := 0x200000 + off) (by lia)
  simp only [readArea, haddr, ht, hl]

/-- The area is read without a change. -/
theorem loadStep_readArea (n off : Nat) (h : off + 16 * n < 2 ^ 24) : ∃ l, readArea 0x200000 n off loadStep = .ok loadStep l := by
  induction n generalizing off with
  | zero => exact ⟨[], rfl⟩
  | succ n ih =>
    obtain ⟨l, hl⟩ := ih (off + 16) (by lia)
    exact ⟨_, loadStep_readArea_succ (by lia) hl⟩

/-- The head of the area: lid 2 of group 1. -/
theorem loadHead_read : ∃ h, readArea 0x200000 16 0 loadStep = .ok loadStep h ∧ numAt h 0 4 = 1 ∧ numAt h 8 2 = 1 ∧ numAt h 4 4 = 2 := by
  obtain ⟨l, hl⟩ := loadStep_readArea 15 16 (by decide)
  have hfirst : loadStep.delivered (.phys (0x200000 + 0)) 16 0 = 1 + 2 * 2 ^ 32 + 2 ^ 64 := by decide +kernel
  refine ⟨_, loadStep_readArea_succ (by decide) hl, ?_⟩
  rw [hfirst]
  exact ⟨rfl, rfl, rfl⟩

/-- The group that the head names, and its parked process. -/
def loadProc : Proc := { lid := 2, gid := 1 }
def loadGroup : Group := { g1 with phase := .parked, store := [(2, loadProc, Vector.replicate 12 {})] }

theorem loadStep_groups : loadStep.groups = [loadGroup] := rfl
theorem loadStep_groupOf : loadStep.groupOf 1 = some loadGroup := by
  unfold State.groupOf
  rw [loadStep_groups]
  rfl

/-- Whether a flush is over while a store to another module is outstanding, on an empty core. -/
def flushedWaiting : Except Place (State × Nat) → Bool
  | .ok (t, _) => decide (0 < t.proc.remoteStores) && !t.core.occupied
  | .error _ => false

theorem loadStep_flush_waits : flushedWaiting (loadStep.areaDone.flushDest loadProc loadBefore.here) = true := by decide +kernel

/-- Whether a process is on the core in focus after an instruction. -/
def occupiedAfter : Out → Bool
  | .next t => t.core.occupied
  | _ => true

/-- A CTXLOAD that has read all that it loads waits for the stores to other modules. -/
theorem ctxload_remoteAcks {q : BitVec 3} {d a : BitVec 5} {s s1 s2 s3 : State} {h l : List Byte} {g : Group} {lid n : Nat} {p : Proc}
    {ths : Vector Thread 12} (hslot : s.slot.val = 11) (hq : s.rp q = true) (haligned : (s.rx a).toNat % 256 = 0)
    (hempty : (s.core.occupied || s.core.reserved) = false) (hstores : s.thr.storeQ = [])
    (hhead : readArea (s.rx a) 16 0 s.asStep = .ok s1 h) (hword : numAt h 0 4 = 1)
    (hgroup : (s1.groupOf (numAt h 8 2)).filter (fun g => g.phase == .parked && g.cores.contains s.here) = some g)
    (hentry : g.store.find? (fun e => e.1 == numAt h 4 4) = some (lid, p, ths))
    (hbody : readArea (s.rx a) ((24576 + p.winsize + p.winsize / 128) / 16) 0 s1 = .ok s2 l)
    (hflush : s2.areaDone.flushDest p s.here = .ok (s3, n)) (hacks : 0 < s3.proc.remoteStores) :
    execCtxload q d a s = .next (s3.parkRetry .remoteAcks) := by
  unfold execCtxload
  rw [superv_true hslot hq]
  simp only [haligned, hempty, hstores, hhead, hword, hgroup, hentry, hbody, hflush, hacks, ne_eq, not_true_eq_false, if_false, if_true,
    Bool.false_eq_true]

/-- Refutes O47: with a store to another module's vault not acknowledged a CTXLOAD that could load waits for it first. -/
theorem not_runtimeWords : ¬ Obligations.RuntimeWords := by
  unfold Obligations.RuntimeWords
  intro hall
  obtain ⟨-, -, -, -, hload, -⟩ := hall 0 5 6 7 loadBefore (by decide) rfl
  have hea : loadBefore.rx 6 = 0x200000 := by decide
  obtain ⟨h, hhead, hword, hgid, hlid⟩ := loadHead_read
  obtain ⟨l, hbody⟩ := loadStep_readArea 1536 0 (by decide)
  rw [← hea] at hhead hbody
  have hgroup : loadStep.groupOf (numAt h 8 2) = some loadGroup := by rw [hgid]; exact loadStep_groupOf
  have hentry : loadGroup.store.find? (fun e => e.1 == numAt h 4 4) = some (2, loadProc, Vector.replicate 12 {}) := by rw [hlid]; rfl
  obtain ⟨-, -, hloads⟩ := hload (by decide) rfl rfl rfl loadStep h hhead
  obtain ⟨t, ht, hocc, -⟩ := hloads hword loadGroup (2, loadProc, Vector.replicate 12 {}) loadStep l hgroup rfl (by decide) hentry hbody (by decide)
  have hwaits := loadStep_flush_waits
  cases hflush : loadStep.areaDone.flushDest loadProc loadBefore.here with
  | error u => rw [hflush] at hwaits; exact absurd hwaits (by simp [flushedWaiting])
  | ok r =>
    obtain ⟨u, n⟩ := r
    rw [hflush] at hwaits
    simp only [flushedWaiting, Bool.and_eq_true, decide_eq_true_eq, Bool.not_eq_true'] at hwaits
    obtain ⟨hacks, hempty⟩ := hwaits
    have hparks := ctxload_remoteAcks (q := 0) (d := 5) rfl (by decide) (by decide) rfl rfl hhead hword
      (by rw [hgroup, Option.filter_some, if_pos (by decide)]) hentry hbody hflush hacks
    have hnext : Host.Outcome.next (u.parkRetry .remoteAcks) = .next t := hparks.symm.trans ht
    have hsame : occupiedAfter (.next (u.parkRetry .remoteAcks)) = t.core.occupied := congrArg occupiedAfter hnext
    exact absurd (hocc.symm.trans (hsame.symm.trans hempty)) (by simp)

end Sys2Proof.Machine
end

section
/-! Steps that are not what they are stated to be: homes, channels, annealers and groups (O48, O51, O53, O55). -/

namespace Sys2Proof.Machine

/-- The times of what is due after an outcome. -/
def dueAfter : Out → List Nat
  | .next t => t.agenda.map Prod.fst
  | _ => []

/-- A load from the window of a process that is gone, which has waited at its home. -/
def goneAcc : Acc := { kind := .load, place := .win 1 3 0, waited := true }
def goneBefore : State := wAcc goneAcc

theorem waited_access_answered_sooner :
    dueAfter (exec (.remoteAccessAtHome 0 0) goneBefore) =
      [min ((goneBefore.focusSlot 0 0).reqTime goneAcc) ((goneBefore.focusSlot 0 0).backTime goneAcc true)] ∧
    (goneBefore.focusSlot 0 0).reqTime goneAcc < (goneBefore.focusSlot 0 0).backTime goneAcc true := by decide

/-- Refutes O48: an access that has waited at its home and finds its window gone is answered after the way back alone. -/
theorem not_homeSteps : ¬ Obligations.HomeSteps := by
  unfold Obligations.HomeSteps
  intro h
  obtain ⟨hhome, -⟩ := h
  obtain ⟨-, -, hgone⟩ := hhome 0 0 goneBefore (by decide)
  obtain ⟨hdue, -⟩ := waited_access_answered_sooner
  rw [hgone goneAcc 1 3 0 (by decide) rfl (Or.inl rfl) (by decide) (by decide)] at hdue
  exact absurd hdue (by decide)

/-- The last packet of a send of slot 0 goes out while the thread is to be killed. -/
def killedSender : State :=
  w2 (wP (wT fun t => { t with wait := some (.send 31), kpend := true }) fun p =>
    { p with handles := p.handles.set 31 (some { chan with cur := some cur0 }) })

/-- Whether the thread of slot 0 of core 0 lives after an outcome. -/
def livesAfter : Out → Bool
  | .next t => (t.thrAt 0 0).live
  | _ => true

theorem sent_thread_is_killed : livesAfter (exec (.packetInject 1 0 31) killedSender) = false := by decide

/-- Refutes O51: a thread with a kill pending does not go on when its send is done: it ends. -/
theorem not_channelSteps : ¬ Obligations.ChannelSteps := by
  unfold Obligations.ChannelSteps
  intro h
  obtain ⟨hsender, -⟩ := h
  obtain ⟨-, hinject, -⟩ := hsender killedSender 1 0 0 (by decide) (by decide) (by decide) (by decide)
  obtain ⟨hlast, -⟩ := hinject 31 { chan with cur := some cur0 } cur0 pkt0 (by decide) rfl (by decide) (by decide)
  obtain ⟨t, ht, -, -, -, hgoes⟩ := hlast (by decide) (by decide) (by decide) (by decide)
  have hlives := sent_thread_is_killed
  rw [ht] at hlives
  change (t.thrAt 0 0).live = false at hlives
  rw [show t.thrAt 0 0 = _ from hgoes (by decide) (by decide)] at hlives
  exact absurd hlives (by decide)

/-- A unit whose group is no more. -/
def orphanUnit : AUnit := { die := 0, idx := 7, gid := 1, gx := 0, gy := 0, w := 2, h := 2 }
def orphaned : State := { w0 with aunits := [orphanUnit] }

/-- The folds in progress after an outcome. -/
def foldsAfter : Out → List (Option (List (Nat × Nat × Nat × Nat)))
  | .next t => t.aunits.map (·.fold)
  | _ => []

theorem orphan_starts_no_fold : foldsAfter (exec (.fold 0 7) orphaned) = [none] := by decide

/-- Refutes O53: a unit whose group does not run, and which has nothing in flight, starts no fold. -/
theorem not_annealerSteps : ¬ Obligations.AnnealerSteps := by
  unfold Obligations.AnnealerSteps
  intro h
  obtain ⟨-, -, hfold, -⟩ := h orphaned 0 7 orphanUnit (by decide)
  obtain ⟨t, ht, -, -, -, ⟨v, hv, hstarted, -⟩, -⟩ := hfold (by decide)
  have hfolds := orphan_starts_no_fold
  rw [ht] at hfolds
  change t.aunits.map (·.fold) = [none] at hfolds
  have hnone : v.fold = none := by
    simpa [hfolds] using List.mem_map_of_mem (f := (·.fold)) (List.mem_of_find?_eq_some hv)
  exact absurd (hstarted.symm.trans hnone) (by simp)

/-- The unit of a running group has a proposal in flight and a fold in progress. -/
def foldingUnit : AUnit := { die := 0, idx := 7, gid := 1, gx := 0, gy := 0, w := 2, h := 2, inFlight := true, fold := some [] }
def foldingGroup : State := { wG w0 g1 with aunits := [foldingUnit] }

/-- The groups that have a fold in progress after an outcome. -/
def foldersAfter : Out → List Nat
  | .next t => (t.aunits.filter fun u => decide (u.fold ≠ none)).map (·.gid)
  | _ => []

theorem preempt_keeps_fold : foldersAfter (exec (.preempt 1 0 0 0 0) foldingGroup) = [1] := by decide

/-- Refutes O55: a PREEMPT leaves the fold of a unit that has a proposal in flight. -/
theorem not_groupSteps : ¬ Obligations.GroupSteps := by
  unfold Obligations.GroupSteps
  intro h
  obtain ⟨-, hrunning⟩ := h foldingGroup 1
  obtain ⟨hpreempt, -⟩ := hrunning g1 (by decide)
  obtain ⟨t, ht, -, -, -, -, habandoned, -⟩ := hpreempt 0 0 0 0 (by decide)
  have hfolders := preempt_keeps_fold
  rw [ht] at hfolders
  change (t.aunits.filter _).map (·.gid) = [1] at hfolders
  obtain ⟨u, hu, hgid⟩ := List.mem_map.1 (hfolders ▸ List.mem_singleton_self 1)
  obtain ⟨hmem, hfold⟩ := List.mem_filter.1 hu
  exact of_decide_eq_true hfold (habandoned u hmem hgid)

end Sys2Proof.Machine
end

section
/-! A step of the copy engine that is not what it is stated to be (O52). -/

namespace Sys2Proof.Machine

/-- A COPY of one byte inside the own window. -/
def copyByte : CopyReq := { req9 with w0 := 1 <<< 40, state := 2 }

/-- Its process is on a core whose number has more than 12 bits, so that the engine asks where the own window is. -/
def farCopier : State := { wFifo w0 [copyByte] with here := 4096 }

theorem copy_acknowledged_later : dueAfter (exec (.engineAccessReply 1 0 copyByte.id) farCopier) = [70, 71] := by decide

/-- Refutes O52: the write of a chunk is acknowledged 71 cycles later where the engine reads the placement entry of its own process. -/
theorem not_engineSteps : ¬ Obligations.EngineSteps := by
  unfold Obligations.EngineSteps
  intro h
  obtain ⟨hcopies, -⟩ := h
  obtain ⟨-, hchunk, -⟩ := hcopies farCopier 1 0 4096 copyByte (by decide) rfl rfl rfl (by decide) (by decide) (by decide) rfl rfl
  obtain ⟨t, ht, -, -, -, -, hack⟩ := hchunk rfl (by decide) rfl rfl (by decide) (by decide) rfl rfl rfl rfl (by decide) (by decide) rfl (by decide)
    (by decide) (by decide) (by decide) (by decide)
  have hdue := copy_acknowledged_later
  rw [ht] at hdue
  change t.agenda.map Prod.fst = [70, 71] at hdue
  exact absurd (hdue ▸ List.mem_map_of_mem (f := Prod.fst) hack) (by decide)

end Sys2Proof.Machine
end

section
/-! The instructions of the copy engine (O45; spec 12, R275, R276, R290, R293-R297). -/

namespace Sys2Proof.Machine

/-! ### Words of a push and of a status -/

/-- The condition on word 3 of a push. -/
def word3Ok (winsize kind : Nat) (w3 : Word) : Bool :=
  match kind with
  | 0 | 4 => w3 == 0
  | 2 | 3 => ownBlock winsize w3 32
  | 5 => ownBlock winsize w3 64
  | 6 => w3.toNat / 2 ^ 48 == 0 && w3.toNat % 8 == 0
  | _ => true

def OwnBlock (winsize : Nat) (w3 : Word) (k : Nat) : Prop := w3.toNat / 2 ^ 48 = 0xFFFF ∧ w3.toNat % k = 0 ∧ w3.toNat % 2 ^ 48 + k ≤ winsize

theorem ownBlock_iff (winsize : Nat) (w3 : Word) (k : Nat) : ownBlock winsize w3 k = true ↔ OwnBlock winsize w3 k := by
  simp only [ownBlock, OwnBlock, Bool.and_eq_true, beq_iff_eq, decide_eq_true_eq, and_assoc]

theorem word3Ok_iff (winsize kind : Nat) (w3 : Word) : word3Ok winsize kind w3 = true ↔
    (kind = 0 ∨ kind = 4 → w3 = 0) ∧ (kind = 2 ∨ kind = 3 → OwnBlock winsize w3 32) ∧ (kind = 5 → OwnBlock winsize w3 64) ∧
      (kind = 6 → w3.toNat / 2 ^ 48 = 0 ∧ w3.toNat % 8 = 0) := by
  rw [← ownBlock_iff, ← ownBlock_iff]
  match kind with
  | 0 | 1 | 2 | 3 | 4 | 5 | 6 | n + 7 => simp [word3Ok]

theorem pushOk_eq (winsize : Nat) (w w3 : Word) : pushOk winsize w w3 =
    (w.toNat % 8 != 7 && w.toNat / 2 ^ 32 % 256 == 0 && w.toNat / 2 ^ 6 % 4 == 0 && w.toNat / 2 ^ 4 % 2 == 0 &&
    !(w.toNat / 2 ^ 5 % 2 == 1 && w.toNat % 8 != 5) && !(w.toNat / 2 ^ 8 % 2 ^ 16 != 0 && w.toNat % 8 != 1 && w.toNat % 8 != 2 && w.toNat % 8 != 3) &&
    !(w.toNat % 8 == 5 && w.toNat / 2 ^ 40 != 0) && !(w.toNat / 2 ^ 24 % 2 == 1 && w.toNat / 2 ^ 25 % 2 ^ 7 != 0) && word3Ok winsize (w.toNat % 8) w3) := rfl

/-- A push that meets R290, as its rule says it. -/
def PushLegal (winsize : Nat) (w w3 : Word) : Prop :=
  let n := w.toNat
  let kind := n % 8
  let aux := n / 2 ^ 8 % 2 ^ 16
  let own (k : Nat) : Prop := w3.toNat / 2 ^ 48 = 0xFFFF ∧ w3.toNat % k = 0 ∧ w3.toNat % 2 ^ 48 + k ≤ winsize
  kind ≠ 7 ∧ n / 2 ^ 32 % 256 = 0 ∧ n / 2 ^ 6 % 4 = 0 ∧ n / 2 ^ 4 % 2 = 0 ∧ (n / 2 ^ 5 % 2 = 1 → kind = 5) ∧
  (aux ≠ 0 → kind = 1 ∨ kind = 2 ∨ kind = 3) ∧ (kind = 5 → n / 2 ^ 40 = 0) ∧ (n / 2 ^ 24 % 2 = 1 → n / 2 ^ 25 % 2 ^ 7 = 0) ∧
  (kind = 0 ∨ kind = 4 → w3 = 0) ∧ (kind = 2 ∨ kind = 3 → own 32) ∧ (kind = 5 → own 64) ∧
  (kind = 6 → w3.toNat / 2 ^ 48 = 0 ∧ w3.toNat % 8 = 0)

theorem pushOk_iff (winsize : Nat) (w w3 : Word) : pushOk winsize w w3 = true ↔ PushLegal winsize w w3 := by
  rw [pushOk_eq]
  simp only [PushLegal, Bool.and_eq_true, word3Ok_iff, OwnBlock, bne_iff_ne, beq_iff_eq, and_assoc, Bool.not_eq_true', Bool.and_eq_false_imp, bne_eq_false_iff_eq,
    ne_eq, and_imp, or_iff_not_imp_left]

/-- The fields of a status word, low field first. -/
def statusFields (r : CopyReq) : List (Nat × Nat) :=
  [(4, r.state), (1, r.aborted.toNat), (3, r.kind), (8, if r.state = 3 then r.cause else 0), (24, r.oor), (24, r.cursor % 2 ^ 24)]

theorem status_fits {r : CopyReq} (hoor : r.oor < 2 ^ 24) (hcause : r.cause < 2 ^ 8) (hstate : r.state < 16) : Fits (statusFields r) := by
  refine ⟨hstate, Bool.toNat_lt _, Nat.mod_lt _ (by decide), ?_, hoor, Nat.mod_lt _ (by decide), trivial⟩
  split
  · exact hcause
  · decide

theorem status_toNat {r : CopyReq} (h : Fits (statusFields r)) : r.status.toNat = packed (statusFields r) := by
  refine toNat_ofNat_packed ?_ h (by decide : 64 ≤ 64)
  have hcause : (if r.state = 3 then r.cause * 2 ^ 8 else 0) = (if r.state = 3 then r.cause else 0) * 2 ^ 8 := (ite_zero_mul ..).symm
  have habort : (if r.aborted then 2 ^ 4 else 0) = r.aborted.toNat * 2 ^ 4 := by cases r.aborted <;> rfl
  simp only [statusFields, packed]
  rw [hcause, habort]
  generalize (if r.state = 3 then r.cause else 0) = c
  lia

theorem status_fields (r : CopyReq) (hoor : r.oor < 2 ^ 24) (hcause : r.cause < 2 ^ 8) (hstate : r.state < 16) :
    r.status.toNat % 2 ^ 4 = r.state ∧ r.status.getLsbD 4 = r.aborted ∧ r.status.toNat / 2 ^ 5 % 2 ^ 3 = r.kind ∧
      r.status.toNat / 2 ^ 8 % 2 ^ 8 = (if r.state = 3 then r.cause else 0) ∧ r.status.toNat / 2 ^ 16 % 2 ^ 24 = r.oor ∧
      r.status.toNat / 2 ^ 40 = r.cursor % 2 ^ 24 := by
  have h := status_fits hoor hcause hstate
  have hn := status_toNat h
  exact ⟨low_of_packed hn h (4, r.state) rfl, bit_of_packed hn h 1 r.aborted rfl, field_of_packed hn h 2 (3, r.kind) rfl, field_of_packed hn h 3 (8, _) rfl,
    field_of_packed hn h 4 (24, r.oor) rfl, last_of_packed hn h 5 (24, r.cursor % 2 ^ 24) rfl rfl⟩

/-! ### The FIFO -/

@[simp] theorem thr_startNext (s : State) (n : Nat) : (s.startNext n).thr = s.thr := by
  unfold State.startNext State.thr; split <;> simp
@[simp] theorem core_startNext (s : State) (n : Nat) : (s.startNext n).core = s.core := by unfold State.startNext; split <;> simp
@[simp] theorem proc_startNext (s : State) (n : Nat) : (s.startNext n).proc = s.proc := by unfold State.proc; simp
@[simp] theorem slot_startNext (s : State) (n : Nat) : (s.startNext n).slot = s.slot := by unfold State.startNext; split <;> simp
@[simp] theorem mem_startNext (s : State) (n : Nat) : (s.startNext n).mem = s.mem := by unfold State.startNext; split <;> simp

theorem due_afterOnce (s : State) (n : Nat) (e : Instr) : (s.cycle + n, e) ∈ (s.afterOnce n e).agenda := by
  unfold State.afterOnce
  split
  case isTrue h => exact List.contains_iff_mem.mp h
  case isFalse => exact due_after s n e

/-- A request that enters an empty FIFO starts. -/
theorem nextReq_enqueue_of_empty (p : Proc) (r : CopyReq) (hempty : p.fifo = []) (hwr : r.wr = none) (hab : r.aborted = false)
    (hst : r.state = 1) : (p.enqueue r).nextReq.isSome = true := by
  simp [Proc.nextReq, Proc.enqueue, CopyReq.busy, hempty, hwr, hab, hst]

/-- The request that a push makes. -/
def pushReq (s : State) (a : BitVec 5) : CopyReq :=
  { id := 0, w0 := s.rx a, w1 := s.rx (a + 1), w2 := s.rx (a + 2), w3 := s.rx (a + 3), slot := s.slot.val, fms := s.proc.fm }

theorem pushOn_illegal {q : BitVec 3} {d a : BitVec 5} {busy : Bool} {s : State} (hq : s.rp q = true)
    (h : ¬ PushLegal s.proc.winsize (s.rx a) (s.rx (a + 3))) : pushOn q d a busy s = s.takeTrap .engine 0 := by
  have hbad : pushOk s.proc.winsize (s.rx a) (s.rx (a + 3)) = false := by rwa [← pushOk_iff, Bool.not_eq_true] at h
  unfold pushOn
  rw [guarded_true hq]
  dsimp only [State.fourX]
  rw [hbad]
  rfl

section Legal
variable {q : BitVec 3} {d a : BitVec 5} {busy : Bool} {s : State} (hq : s.rp q = true) (hf : s.thr.fms = none)
  (h : PushLegal s.proc.winsize (s.rx a) (s.rx (a + 3)))
include hq hf h

theorem pushOn_stores (hstores : s.thr.storeQ ≠ []) : pushOn q d a busy s =
    .next (s.setThr { s.thr with wait := some (.retry .storeEmpty), fms := some s.proc.fm, scmem := s.thr.scmem + 1 }) := by
  unfold pushOn
  rw [guarded_true hq]
  dsimp only [State.fourX]
  rw [(pushOk_iff ..).mpr h, hf, if_neg (by simp), if_pos hstores, parkRetry_storeEmpty]
  simp only [thr_setThr, setThr_setThr, Option.getD_none]

theorem pushOn_full (hstores : s.thr.storeQ = []) (hfull : 8 ≤ s.proc.fifo.length) : pushOn q d a busy s =
    if busy then .next (s.setThr (s.thr.wx d 0).retired)
    else .next ((s.setProc { s.proc with pushQ := s.proc.pushQ ++ [pushReq s a] }).setThr (s.thr.parked (.push d))) := by
  unfold pushOn
  rw [guarded_true hq]
  dsimp only [State.fourX]
  rw [(pushOk_iff ..).mpr h, hf]
  simp only [Bool.not_true, Bool.false_eq_true, if_false, hstores, ne_eq, not_true_eq_false, if_pos hfull, retire_wx]
  rfl

theorem pushOn_enters (hstores : s.thr.storeQ = []) (hroom : s.proc.fifo.length < 8) : pushOn q d a busy s =
    .next (((s.setProc (s.proc.enqueue (pushReq s a))).startNext 4).setThr (s.thr.wx d (BitVec.ofNat 64 s.proc.nextId)).retired) := by
  unfold pushOn
  rw [guarded_true hq]
  dsimp only [State.fourX]
  rw [(pushOk_iff ..).mpr h, hf]
  simp only [Bool.not_true, Bool.false_eq_true, if_false, hstores, ne_eq, not_true_eq_false, if_neg (Nat.not_le.mpr hroom), retire_wx]
  simp [pushReq]

end Legal

/-- Where a request has entered, its thread holds its id, and into an empty FIFO it starts. -/
theorem entered_yields (s : State) (r : CopyReq) (t : Thread) (hwr : r.wr = none) (hab : r.aborted = false) (hst : r.state = 1) :
    let u := ((s.setProc (s.proc.enqueue r)).startNext 4).setThr t
    u.thr = t ∧ u.mem = s.mem ∧ u.proc = s.proc.enqueue r ∧
      (s.proc.fifo = [] → (s.cycle + 4, .copyRequestStart s.proc.gid s.proc.lid) ∈ u.agenda) := by
  refine ⟨by simp, by simp, by simp, fun hempty => ?_⟩
  have hnext : (s.setProc (s.proc.enqueue r)).proc.nextReq.isSome = true := nextReq_enqueue_of_empty s.proc r hempty hwr hab hst
  rw [agenda_setThr, State.startNext, if_pos hnext]
  exact due_afterOnce (s.setProc (s.proc.enqueue r)) 4 _

/-! ### CPWAIT, CPSTAT and CPABORT -/

theorem cpstat_unissued {q : BitVec 3} {d a : BitVec 5} {s : State} (hq : s.rp q = true) (h : s.proc.idIssued ((s.rx a).toNat % 2 ^ 32) = false) :
    execCpwait q d a s = .next (s.setThr (s.thr.wx d (-1)).retired) ∧ execCpstat q d a s = .next (s.setThr (s.thr.wx d 5).retired) := by
  unfold execCpwait execCpstat
  simp only [guarded_true hq, h, Bool.not_false, if_true, retire_wx, and_self]

theorem cpwait_issued {q : BitVec 3} {d a : BitVec 5} {s : State} (hq : s.rp q = true) (h : s.proc.idIssued ((s.rx a).toNat % 2 ^ 32) = true) :
    execCpwait q d a s = if s.proc.idRetired ((s.rx a).toNat % 2 ^ 32) then .next (s.setThr (s.thr.wx d 0).retired)
      else .next (s.setThr (s.thr.parked (.cpwait d ((s.rx a).toNat % 2 ^ 32)))) := by
  unfold execCpwait
  simp only [guarded_true hq, h, Bool.not_true, Bool.false_eq_true, if_false, retire_wx]
  rfl

theorem cpstat_found {q : BitVec 3} {d a : BitVec 5} {s : State} {r : CopyReq} (hq : s.rp q = true)
    (h : s.proc.idIssued ((s.rx a).toNat % 2 ^ 32) = true)
    (hfind : (s.proc.fifo ++ s.proc.done).find? (fun r => r.id == (s.rx a).toNat % 2 ^ 32) = some r)
    (hnew : s.proc.idAge ((s.rx a).toNat % 2 ^ 32) < 16 ∨ r.state ≠ 0) : execCpstat q d a s = .next (s.setThr (s.thr.wx d r.status).retired) := by
  have hfull : (decide (16 ≤ s.proc.idAge ((s.rx a).toNat % 2 ^ 32)) && r.state == 0) = false := by
    rw [Bool.and_eq_false_iff, decide_eq_false_iff_not, beq_eq_false_iff_ne]
    exact hnew.imp Nat.not_le.mpr id
  unfold execCpstat
  simp only [guarded_true hq, h, hfind, hfull, Bool.not_true, Bool.false_eq_true, if_false, retire_wx]

theorem idAge_eq (p : Proc) (id : Nat) : p.idAge id = if id ≤ p.lastId then p.lastId - id else p.lastId + (2 ^ 32 - 1) - id := by
  unfold Proc.idAge
  split
  case isTrue => rfl
  case isFalse => exact congrArg (· - id) (Nat.add_sub_assoc (by decide) p.lastId)

theorem abortReq_completed {s : State} {id : Nat} (h : ∀ r ∈ s.proc.fifo, r.id = id → r.state = 4) : s.abortReq id = none := by
  unfold State.abortReq
  cases hfind : s.proc.fifo.find? (fun r => r.id == id) with
  | none => rfl
  | some r =>
    have hid : r.id = id := by simpa using List.find?_some hfind
    simp [h r (List.mem_of_find?_eq_some hfind) hid]

/-- What CPABORT leaves of a request. -/
def CopyReq.abort (x : CopyReq) : CopyReq :=
  { x with aborted := true, cause := 0, wr := x.wr.filter (·.sent), state := if x.state == 3 then 2 else x.state }

theorem find_mapReq {p : Proc} {id : Nat} {r : CopyReq} (f : CopyReq → CopyReq) (hf : ∀ x, (f x).id = x.id)
    (h : p.fifo.find? (fun r => r.id == id) = some r) : (p.mapReq id f).fifo.find? (fun r => r.id == id) = some (f r) := by
  have hkey : ((fun r : CopyReq => r.id == id) ∘ fun r => if r.id == id then f r else r) = fun r => r.id == id := by
    funext x
    simp only [Function.comp_apply]
    split <;> simp [hf]
  have hid : (r.id == id) = true := List.find?_some (p := fun r : CopyReq => r.id == id) h
  simp only [Proc.mapReq, List.find?_map, hkey, h, Option.map_some, hid, if_true]

/-- A request with writes outstanding does not complete. -/
theorem completeReq_outstanding {s : State} {id : Nat} {r : CopyReq} (h : s.proc.fifo.find? (fun r => r.id == id) = some r)
    (hout : r.issued ≠ r.acked) : s.completeReq id = s := by
  unfold State.completeReq
  rw [h]
  simp [Ne.symm hout]

theorem copyLanded_nobody (s : State) (id : Nat) (h : s.proc.defs = []) : s.copyLanded id = s := by simp [State.copyLanded, h]

theorem abortReq_outstanding {s : State} {id : Nat} {r : CopyReq} (hfind : s.proc.fifo.find? (fun r => r.id == id) = some r)
    (hab : r.aborted = false) (hst : r.state ≠ 4) (hmore : r.lastIssued = false) (hout : r.issued ≠ r.acked) (hdefs : s.proc.defs = []) :
    ∃ t, s.abortReq id = some t ∧ t.thr = s.thr ∧ t.proc = s.proc.mapReq id CopyReq.abort ∧ t.mem = s.mem := by
  have hfound := find_mapReq (p := s.proc) CopyReq.abort (fun _ => rfl) hfind
  unfold State.abortReq
  rw [hfind]
  simp only [hab, hst, hmore, Bool.false_eq_true, false_and, or_self, if_false]
  have hrequest : (fun x : CopyReq => { x with aborted := true, cause := 0, wr := x.wr.filter (·.sent), state := if x.state == 3 then 2 else x.state }) =
      CopyReq.abort := rfl
  rw [hrequest, copyLanded_nobody (s.setProc (s.proc.mapReq id CopyReq.abort)) id (by simpa [Proc.mapReq] using hdefs)]
  generalize (if r.kind = 6 then s.putMissing r else 0) = n
  have hadd (u : State) (hu : u = s.setProc (s.proc.mapReq id CopyReq.abort) ∨
      ∃ e, u = (s.setProc (s.proc.mapReq id CopyReq.abort)).after 0 e) :
      ∃ t, some ((u.completeReq id).startNext 1) = some t ∧ t.thr = s.thr ∧ t.proc = s.proc.mapReq id CopyReq.abort ∧ t.mem = s.mem := by
    refine ⟨_, rfl, ?_⟩
    rcases hu with rfl | ⟨e, rfl⟩ <;> rw [completeReq_outstanding (r := r.abort) hfound hout] <;> simp
  apply hadd
  split
  case isTrue => exact Or.inl rfl
  case isFalse => exact Or.inr ⟨_, rfl⟩

/-- Settles O45: each word by what it finds of its request. -/
theorem copyWords : Obligations.CopyWords := by
  unfold Obligations.CopyWords
  intro q d a s hq hf
  dsimp only
  refine ⟨fun h => ⟨pushOn_illegal hq h, pushOn_illegal hq h⟩, fun h hst => ⟨pushOn_stores hq hf h hst, pushOn_stores hq hf h hst⟩,
    fun h hst => ⟨fun hroom => ?_, fun hfull => pushOn_full (busy := true) hq hf h hst hfull, fun hfull => pushOn_full (busy := false) hq hf h hst hfull⟩,
    cpstat_unissued hq, fun h => ⟨fun hret => ?_, fun hret => ?_, fun r hfind hnew hoor hcause hstate => ?_⟩, fun h => ?_, ?_⟩
  · have hin := entered_yields s (pushReq s a) (s.thr.wx d (BitVec.ofNat 64 s.proc.nextId)).retired rfl rfl rfl
    exact ⟨⟨_, pushOn_enters (busy := false) hq hf h hst hroom, hin⟩, ⟨_, pushOn_enters (busy := true) hq hf h hst hroom, hin⟩⟩
  · exact (cpwait_issued hq h).trans (if_pos hret)
  · exact (cpwait_issued hq h).trans (if_neg (ne_true_of_eq_false hret))
  · have hage := idAge_eq s.proc ((s.rx a).toNat % 2 ^ 32)
    exact ⟨r.status, cpstat_found hq h hfind (hnew.imp hage.trans_lt id), status_fields r hoor hcause hstate⟩
  · change execCpabort q d a s = _
    unfold execCpabort
    rw [guarded_true hq, abortReq_completed h]
    exact retire_wx s d 1
  · intro r hfind hab hst hmore hout hdefs
    obtain ⟨t, ht, hthr, hproc, hmem⟩ := abortReq_outstanding hfind hab hst hmore hout hdefs
    have hid : r.id = (s.rx a).toNat % 2 ^ 32 := eq_of_beq (List.find?_some (p := fun r : CopyReq => r.id == (s.rx a).toNat % 2 ^ 32) hfind)
    refine ⟨t.setThr (t.thr.wx d 0).retired, ?_, ?_, ?_, hmem, ?_⟩
    · change execCpabort q d a s = _
      unfold execCpabort
      rw [guarded_true hq, ht]
      exact retire_wx t d 0
    · rw [thr_setThr, hthr]
    · rw [proc_setThr, hproc]
      rfl
    · rw [proc_setThr, hproc]
      exact ⟨r.abort, List.mem_of_find?_eq_some (find_mapReq CopyReq.abort (fun _ => rfl) hfind), hid, rfl, rfl⟩

end Sys2Proof.Machine
end

section
/-! ## O49: reservation units, monitors, FIFO ports and bank modes away from their instructions -/

namespace Sys2Proof.Machine

/-! ### The reservation unit of a word of a vault -/

theorem vault_no_bank {pa : Nat} (h : paType pa = 0) : bankOf (.phys pa) = none := if_neg (by lia)

/-- The bits above a unit are those of its first byte. -/
theorem unit_div (pa k : Nat) : (pa - pa % 16) / (16 * k) = pa / (16 * k) := by
  rw [← Nat.div_div_eq_div_mul, ← Nat.div_eq_sub_mod_div, Nat.div_div_eq_div_mul]

theorem unit_aligned (pa : Nat) : (pa - pa % 16) % 16 = 0 := Nat.sub_mod_eq_zero_of_mod_eq (Nat.mod_mod _ _).symm

theorem paCore_unit (pa : Nat) : paCore (pa - pa % 16) = paCore pa := congrArg (· % 2 ^ 12) (unit_div pa (2 ^ 24))

theorem paType_unit (pa : Nat) : paType (pa - pa % 16) = paType pa := congrArg (· % 16) (unit_div pa (2 ^ 52))

/-- The record of a unit that a request takes from the vault. -/
def takenUnit (s : State) (base core slot : Nat) : RUnit :=
  { unit := .phys base, bytes := Memory.read s.mem base 16, sig0 := s.foundSig (.phys base), sig1 := s.foundSig (.phys (base + 8)),
    holder := some (core, slot), queue := [], notices := [], waiting := [], back := paCore base }

section
variable {core slot pa : Nat} {s : State} {r : AmoReq} (hamo : (s.focusSlot core slot).thr.amo = some r) (hp : r.place = .phys pa)
  (h0 : paType pa = 0)
include hamo hp h0

theorem atomicRequest_takes (haway : (s.focusSlot core slot).unitAway (.phys (pa - pa % 16)) = none)
    (hbad : (s.focusSlot core slot).isBad (.phys (pa - pa % 16)) 16 = false) :
    exec (.atomicRequestAtHome core slot) s =
      .next (({ s.focusSlot core slot with units := (s.focusSlot core slot).units ++ [takenUnit (s.focusSlot core slot) (pa - pa % 16) core slot] } :
        State).after (70 + transit core (paCore pa)) (.atomicUnitArrival core slot)) := by
  change execAtomicRequestAtHome core slot s = _
  have hbase : paType (pa - pa % 16) = 0 := (paType_unit pa).trans h0
  have htime : serviceTime (.phys (pa - pa % 16)) + transit core (paCore pa) + 4 = 70 + transit core (paCore pa) := by
    rw [serviceTime, hbase, if_neg Nat.zero_ne_one, Nat.add_right_comm]
  unfold execAtomicRequestAtHome
  simp only [hamo, hp, Place.align, vault_no_bank hbase, State.unitFault, vault_no_bank h0, haway, hbad, State.amoTransit, State.homeOf, htime,
    Option.filter_none]
  rfl

theorem atomicRequest_queues {w : RUnit} {h : Nat × Nat} (haway : (s.focusSlot core slot).unitAway (.phys (pa - pa % 16)) = some w)
    (hh : w.queue.getLast? = some h ∨ (w.queue = [] ∧ w.holder = some h)) :
    exec (.atomicRequestAtHome core slot) s = .next (((s.focusSlot core slot).setUnit { w with queue := w.queue ++ [(core, slot)] }).after
      (transit (paCore pa) h.1) (.forwardNotice (.phys (pa - pa % 16)) h.1 h.2 core slot)) := by
  change execAtomicRequestAtHome core slot s = _
  have hbase : paType (pa - pa % 16) = 0 := (paType_unit pa).trans h0
  unfold execAtomicRequestAtHome
  simp only [hamo, hp, Place.align, vault_no_bank hbase, State.unitFault, vault_no_bank h0, haway, State.homeOf, paCore_unit, Option.filter_none]
  rcases hh with hlast | ⟨hnil, hholder⟩
  · simp only [hlast]
  · simp only [hnil, hholder, List.getLast?_nil]

end

/-- Where a record replaces the one of its unit, it is the one that is found. -/
theorem unitAway_setUnit {s : State} {p : Place} {w x : RUnit} (h : s.unitAway p = some w) (hx : x.unit = w.unit) :
    (s.setUnit x).unitAway p = some x := by
  have hu : w.unit = p.align 16 := eq_of_beq (List.find?_some (p := fun u : RUnit => u.unit == p.align 16) h)
  have key : ∀ l : List RUnit, l.find? (fun u => u.unit == p.align 16) = some w →
      (l.map (fun r => if r.unit == x.unit then x else r)).find? (fun u => u.unit == p.align 16) = some x := by
    intro l
    induction l with
    | nil => intro h; cases h
    | cons r l ih =>
      intro h
      by_cases hr : r.unit = p.align 16
      · simp [hr, hx, hu]
      · rw [List.find?_cons_of_neg (by simpa using hr)] at h
        rw [List.map_cons, if_neg (by simpa [hx, hu] using hr), List.find?_cons_of_neg (by simpa using hr)]
        exact ih h
  exact key s.units h

theorem unit_of_away {s : State} {p : Place} {w : RUnit} (h : s.unitAway p = some w) : w.unit = p.align 16 :=
  eq_of_beq (List.find?_some (p := fun u : RUnit => u.unit == p.align 16) h)

/-- The value of a word in a unit's bytes is replaced. -/
theorem word_replaced (w off n new : Nat) : w + new * 256 ^ off - (w / 256 ^ off % 256 ^ n) * 256 ^ off + (w / 256 ^ off % 256 ^ n) * 256 ^ off =
    w + new * 256 ^ off := by
  have hle : (w / 256 ^ off % 256 ^ n) * 256 ^ off ≤ w :=
    (Nat.mul_le_mul_right _ (Nat.mod_le _ _)).trans (Nat.div_mul_le_self _ _)
  omega

theorem passUnit_home {s : State} {w : RUnit} {core slot : Nat} (h : ∀ n ∈ w.notices, n.1 ≠ (core, slot)) :
    s.passUnit w core slot = (s.setUnit { w with holder := none, from_ := core, notices := w.notices.filter (fun m => m.1 != (core, slot)) }).after
      (transit core w.back) (.atomicUnitReturn w.unit) := by
  have hnone : w.notices.find? (fun n => n.1 == (core, slot) && w.queue.contains n.2) = none :=
    List.find?_eq_none.mpr fun n hn => by simp [h n hn]
  simp only [State.passUnit, hnone]

theorem passUnit_next {s : State} {w : RUnit} {core slot : Nat} {n : Nat × Nat} (h : w.notices = [((core, slot), n)]) (hq : n ∈ w.queue) :
    s.passUnit w core slot = (s.setUnit { w with holder := some n, queue := w.queue.filter (· != n), notices := [] }).after
      (transit core n.1 + 4) (.atomicUnitArrival n.1 n.2) := by
  have hfind : w.notices.find? (fun n => n.1 == (core, slot) && w.queue.contains n.2) = some ((core, slot), n) := by simp [h, hq]
  simp only [State.passUnit, hfind]
  simp [h]

/-- What the unit of a word holds after an operation on `n` bytes of it that orders nothing. -/
def RUnit.operated (w : RUnit) (off n new : Nat) : RUnit :=
  { w with bytes := w.bytes + new * 256 ^ off - (w.bytes / 256 ^ off % 256 ^ n) * 256 ^ off }

/-- An operation that orders nothing: the new value stands in the unit, which goes on, and the thread completes. -/
theorem atomicArrival_done {core slot : Nat} {s : State} {r : AmoReq} {w : RUnit} (hamo : (s.focusSlot core slot).thr.amo = some r)
    (haway : (s.focusSlot core slot).unitAway r.place = some w) (hhalt : (s.focusSlot core slot).core.halted = false)
    (hagain : r.again = false) (hord : r.ord = 0) :
    let f := s.focusSlot core slot
    let old := w.bytes / 256 ^ r.place.inUnit % 256 ^ r.n
    let g := f.passUnit (w.operated r.place.inUnit r.n (r.compute old).1) core slot
    exec (.atomicUnitArrival core slot) s =
      .next (g.setThr { (g.thr.amoResult r.op r.n r.d old (r.compute old).2.toNat).resumed with amo := none }) := by
  change execAtomicUnitArrival core slot s = _
  have hheld : (s.focusSlot core slot).repliesHeld = false := by simp [State.repliesHeld, hhalt]
  have hleaves (g : Option Sig) : r.leaves g = g := by simp [AmoReq.leaves, hord, ordRel]
  have hend (x : State) (g : Option Sig) (old : Nat) (fl : FFlags) :
      x.amoEnd r g old fl = .ok (x.setThr (x.thr.amoResult r.op r.n r.d old fl.toNat)) := by simp [State.amoEnd, hord, ordRel, ordAcq]
  unfold execAtomicUnitArrival
  simp only [hheld, hamo, haway, hagain, hleaves, hend, Bool.false_eq_true, if_false]
  split <;> simp [RUnit.operated, setThr_setThr]

theorem thr_passUnit (s : State) (w : RUnit) (core slot : Nat) : (s.passUnit w core slot).thr = s.thr := by
  unfold State.passUnit
  split <;> rfl

theorem mem_passUnit (s : State) (w : RUnit) (core slot : Nat) : (s.passUnit w core slot).mem = s.mem := by
  unfold State.passUnit
  split <;> rfl

theorem mem_focusSlot (s : State) (c i : Nat) : (s.focusSlot c i).mem = s.mem := mem_focus s c
theorem cycle_focusSlot (s : State) (c i : Nat) : (s.focusSlot c i).cycle = s.cycle := cycle_focus s c
theorem units_focusSlot (s : State) (c i : Nat) : (s.focusSlot c i).units = s.units := units_focus s c
theorem clusterAt_focusSlot (s : State) (c i d : Nat) : (s.focusSlot c i).clusterAt d = s.clusterAt d := by
  unfold State.clusterAt
  rw [show (s.focusSlot c i).clusters = s.clusters from clusters_focus s c]

theorem foundSig_focusSlot (s : State) (c i : Nat) (p : Place) : (s.focusSlot c i).foundSig p = s.foundSig p := by
  unfold State.foundSig State.focusSlot State.focus
  split <;> rfl

/-- Where the unit goes after an operation: home, or to the requester of the notice that its holder has received. -/
theorem passUnit_goes {s : State} {p : Place} {w x : RUnit} {core slot : Nat} (h : s.unitAway p = some w) (hx : x.unit = w.unit)
    (hq : x.queue = w.queue) (hn : x.notices = w.notices) (hb : x.back = w.back) :
    ∃ y, (s.passUnit x core slot).unitAway p = some y ∧ y.bytes = x.bytes ∧ y.sig0 = x.sig0 ∧ y.sig1 = x.sig1 ∧
      ((∀ n ∈ w.notices, n.1 ≠ (core, slot)) → y.holder = none ∧ y.queue = w.queue ∧
        (s.cycle + transit core w.back, .atomicUnitReturn (p.align 16)) ∈ (s.passUnit x core slot).agenda) ∧
      (∀ c2 s2, w.notices = [((core, slot), (c2, s2))] → (c2, s2) ∈ w.queue → y.holder = some (c2, s2) ∧ y.notices = [] ∧
        y.queue = w.queue.filter (· != (c2, s2)) ∧
        (s.cycle + transit core c2 + 4, .atomicUnitArrival c2 s2) ∈ (s.passUnit x core slot).agenda) := by
  have hunit := unit_of_away h
  have haway (y : RUnit) (n : Nat) (e : Instr) (hy : y.unit = w.unit) : ((s.setUnit y).after n e).unitAway p = some y := unitAway_setUnit h hy
  unfold State.passUnit
  split
  case h_1 n hfind =>
    have hsat := List.find?_some hfind
    simp only [Bool.and_eq_true, beq_iff_eq, List.contains_iff_mem] at hsat
    refine ⟨_, haway _ _ _ hx, rfl, rfl, rfl, fun hnone => ?_, fun c2 s2 hone hmem => ?_⟩
    · exact absurd hsat.1 (hnone n (hn ▸ List.mem_of_find?_eq_some hfind))
    · have hmem' : n ∈ x.notices := List.mem_of_find?_eq_some hfind
      rw [hn, hone, List.mem_singleton] at hmem'
      subst hmem'
      refine ⟨rfl, by simp [hn, hone], by simp [hq], ?_⟩
      exact (mem_agenda_after _ _ _ _).mpr (Or.inl (by rw [Nat.add_assoc]; rfl))
  case h_2 hfind =>
    refine ⟨_, haway _ _ _ hx, rfl, rfl, rfl, fun _ => ⟨rfl, hq, ?_⟩, fun c2 s2 hone hmem => ?_⟩
    · exact (mem_agenda_after _ _ _ _).mpr (Or.inl (by rw [hx, hunit, hb]; rfl))
    · rw [hn, hone] at hfind
      simp [hq, hmem] at hfind

theorem forwardNotice_counts {s : State} {u : Place} {h n : Nat × Nat} {w : RUnit} (haway : s.unitAway u = some w) (hh : w.holder = some h)
    (hq : n ∈ w.queue) : exec (.forwardNotice u h.1 h.2 n.1 n.2) s = .next (s.setUnit { w with notices := w.notices ++ [(h, n)] }) := by
  change execForwardNotice u h.1 h.2 n.1 n.2 s = _
  unfold execForwardNotice
  simp [haway, hh, hq]

/-- A unit without signatures is written home, and what waits for it follows. -/
theorem unitReturn_vault {s : State} {pa : Nat} {w : RUnit} (h0 : paType pa = 0) (halign : pa % 16 = 0) (haway : s.unitAway (.phys pa) = some w)
    (hs0 : w.sig0 = none) (hs1 : w.sig1 = none) (hbad : s.bad = []) (hwatch : s.watches = []) :
    exec (.atomicUnitReturn (.phys pa)) s = .next { s with
      mem := Memory.write s.mem pa 16 w.bytes, units := s.units.filter (fun r => r.unit != .phys pa),
      agenda := (w.waiting ++ w.queue.map (fun r => Instr.atomicRequestAtHome r.1 r.2)).map (fun e => (s.cycle, e)) ++ s.agenda } := by
  change execAtomicUnitReturn (.phys pa) s = _
  have hunit : w.unit = .phys pa := by rw [unit_of_away haway, Place.align, halign, Nat.sub_zero]
  have hwrite : s.homeWrite w.unit 16 w.bytes (2 ^ 16 - 1) = s.poke (.phys pa) 16 w.bytes := by
    rw [hunit]; exact homeWrite_plain s _ 16 w.bytes (by rw [poke_phys]; exact hwatch) (by rw [poke_phys]; exact hbad)
  unfold execAtomicUnitReturn
  simp only [haway, hunit]
  unfold State.unitHome
  rw [hwrite, hs0, hs1, hunit, vault_no_bank h0]
  simp only [poke_phys, State.storeSig, Option.filter_none]

/-- The first part of O49: a request, a notice, an operation and a return of a unit of the vault. -/
theorem requests_of_units {core slot : Nat} {s : State} {r : AmoReq} {pa : Nat} (hamo : (s.focusSlot core slot).thr.amo = some r)
    (hp : r.place = .phys pa) {w : RUnit} (haway : (s.focusSlot core slot).unitAway (.phys (pa - pa % 16)) = some w)
    (hhalt : (s.focusSlot core slot).core.halted = false) (hagain : r.again = false) (hord : r.ord = 0) :
    let f := s.focusSlot core slot
    let u : Place := .phys (pa - pa % 16)
    let old := w.bytes / 256 ^ (pa % 16) % 256 ^ r.n
    Yields (exec (.atomicUnitArrival core slot) s) (fun t =>
      t.thr = { (f.thr.amoResult r.op r.n r.d old (r.compute old).2.toNat).resumed with amo := none } ∧ t.mem = s.mem ∧
      (∃ x, t.unitAway u = some x ∧ x.bytes + old * 256 ^ (pa % 16) = w.bytes + (r.compute old).1 * 256 ^ (pa % 16) ∧ x.sig0 = w.sig0 ∧
        x.sig1 = w.sig1 ∧
        ((∀ n ∈ w.notices, n.1 ≠ (core, slot)) → x.holder = none ∧ x.queue = w.queue ∧
          (s.cycle + transit core w.back, .atomicUnitReturn u) ∈ t.agenda) ∧
        (∀ c2 s2, w.notices = [((core, slot), (c2, s2))] → (c2, s2) ∈ w.queue → x.holder = some (c2, s2) ∧ x.notices = [] ∧
          x.queue = w.queue.filter (· != (c2, s2)) ∧ (s.cycle + transit core c2 + 4, .atomicUnitArrival c2 s2) ∈ t.agenda))) := by
  intro f u old
  have hin : r.place.inUnit = pa % 16 := by rw [hp]; rfl
  have hu : u.align 16 = u := congrArg Place.phys (by rw [unit_aligned, Nat.sub_zero])
  have hplace : f.unitAway r.place = some w := by
    rw [← haway, hp]
    simp only [State.unitAway, show (Place.phys pa).align 16 = u from rfl, show (Place.phys (pa - pa % 16)).align 16 = u from hu]
    rfl
  have hdone := atomicArrival_done hamo hplace hhalt hagain hord
  rw [hin] at hdone
  obtain ⟨y, hy, hbytes, h0, h1, hhome, hnext⟩ := passUnit_goes (core := core) (slot := slot) (x := w.operated (pa % 16) r.n (r.compute old).1)
    haway rfl rfl rfl rfl
  rw [hu, cycle_focusSlot] at hhome
  rw [cycle_focusSlot] at hnext
  refine ⟨_, hdone, ?_, ?_, y, hy, ?_, h0, h1, hhome, hnext⟩
  · rw [thr_setThr, thr_passUnit]
  · rw [mem_setThr, mem_passUnit, mem_focusSlot]
  · rw [hbytes]
    exact word_replaced w.bytes (pa % 16) r.n _

end Sys2Proof.Machine
end

section
/-! ## O49: monitors, FIFO ports and bank modes away from their instructions -/

namespace Sys2Proof.Machine

/-! ### Monitors (R196-R198) -/

theorem here_focusSlot (s : State) (c i : Nat) : (s.focusSlot c i).here = c := (focus_core s c).2

theorem inTransfer_focusSlot (s : State) (c i d : Nat) : (s.focusSlot c i).inTransfer d = s.inTransfer d := by
  unfold State.inTransfer
  rw [show (s.focusSlot c i).moves = s.moves from moves_focus s c]

theorem testWaitm_idle {s : State} (h : s.thr.wait = none) : s.testWaitm = s := by
  unfold State.testWaitm
  split
  · rfl
  · rw [h]

section
variable {s : State} {gid lid slot mon gen c : Nat} (hc : s.coreOfKey gid lid = some c)
  (hw : ∀ w ∈ s.wakes, w.1 ≠ .monitorWake gid lid slot mon gen)
include hc hw

omit hc in
/-- A wake that no core forwards acts at the core that holds its thread. -/
theorem monitorWake_acts : exec (.monitorWake gid lid slot mon gen) s = s.wakeActs gid lid slot mon gen := by
  change execMonitorWake gid lid slot mon gen s = _
  have hnone : s.wakes.find? (fun w => w.1 == .monitorWake gid lid slot mon gen) = none :=
    List.find?_eq_none.mpr fun w hm => by simpa using hw w hm
  simp only [execMonitorWake, hnone]

theorem monitorWake_held (h : ¬ (gid < 65536 → s.inTransfer c = false)) :
    exec (.monitorWake gid lid slot mon gen) s = .next ((s.focusSlot c slot).after 1 (.monitorWake gid lid slot mon gen)) := by
  have hmove : gid < 65536 ∧ s.inTransfer c = true := by simpa using h
  rw [monitorWake_acts hw]
  simp only [State.wakeActs, State.focusKey, hc, Option.map_some, here_focusSlot, inTransfer_focusSlot]
  exact if_pos hmove

theorem monitorWake_here (h : gid < 65536 → s.inTransfer c = false) :
    exec (.monitorWake gid lid slot mon gen) s = .next
      (if (((s.focusSlot c slot).thr.mon mon).armed && ((s.focusSlot c slot).thr.mon mon).gen == gen) = true then
        ((s.focusSlot c slot).setThr ((s.focusSlot c slot).thr.setMon mon { (s.focusSlot c slot).thr.mon mon with trig := true })).testWaitm
      else s.focusSlot c slot) := by
  rw [monitorWake_acts hw]
  simp only [State.wakeActs, State.focusKey, hc, Option.map_some, here_focusSlot, inTransfer_focusSlot]
  rw [if_neg (fun hm => absurd (h hm.1) (by simp [hm.2]))]
  exact (apply_ite Host.Outcome.next _ _ _).symm

end

theorem pc_advance_congr {t u : Thread} (hpc : t.pc = u.pc) (hf : t.frame = u.frame) : t.advance.pc = u.advance.pc := by
  unfold Thread.advance
  rw [hf]
  split
  · simp only [hpc]
  · split
    · exact hpc
    · split
      · exact hpc
      · simp only [hpc]

/-- A WAITM whose time is over, and nothing else, completes with bit 4. -/
theorem waitmTimeout_ends {s : State} {gid lid slot c dl : Nat} {d : BitVec 5} (hc : s.coreOfKey gid lid = some c)
    (hwait : (s.focusSlot c slot).thr.wait = some (.waitm d (some dl))) (hdl : dl ≤ s.cycle)
    (hdbg : ((s.focusSlot c slot).clusterAt (clusterOf c)).dbgHalted = false) (hhold : (s.focusSlot c slot).proc.hold = none)
    (htrig : (s.focusSlot c slot).thr.trigBits = 0) (hintr : (s.focusSlot c slot).thr.intr = false) :
    exec (.waitmTimeout gid lid slot) s = .next ((s.focusSlot c slot).setThr
      (({ (s.focusSlot c slot).thr.clearTrig with intr := false }.wx d 16).resumedAfter s.cycle)) := by
  change execWaitmTimeout gid lid slot s = _
  unfold execWaitmTimeout State.focusKey
  rw [hc]
  simp only [Option.map_some, State.testWaitm, hhold, hwait, here_focusSlot, hdbg, htrig, hintr, cycle_focusSlot]
  simp [hdl]

theorem rx_resumedAfter (t : Thread) (c : Nat) (d : BitVec 5) : (t.resumedAfter c).rx d = t.rx d := rx_congr (x_advance t) d

/-! ### The FIFO port (R160) -/

/-- The machine after a pop of a bank's FIFO that leaves `l`, and after its accessor is parked no longer. -/
def State.popped (s : State) (cl b : Nat) (l : List (BitVec 128)) : State :=
  { s.setCluster cl { s.clusterAt cl with fifos := (s.clusterAt cl).fifos.setIfInBounds b l } with bad := s.bad.map (markAfterPop cl b) }

/-- The machine after an accessor of a bank's FIFO is parked no longer. -/
def State.unparkedFrom (s : State) (cl c sl : Nat) : State :=
  s.setCluster cl { s.clusterAt cl with fifoWait := (s.clusterAt cl).fifoWait.filter (fun w => !(w.2 == (c, sl))) }

/-- A parked pop, alone at its bank, gets the two entries at the front. -/
theorem fifoPortServe_pops {s : State} {cl b c sl : Nat} {a : Acc} {e0 e1 : BitVec 128} {l : List (BitVec 128)}
    (hwait : (s.clusterAt cl).fifoWait = [(b, c, sl)]) (hpend : (s.focusSlot c sl).thr.pend = [a]) (hkind : a.kind = .fifoPop)
    (hq : (s.clusterAt cl).fifos[b]? = some (e0 :: e1 :: l)) (hbad : (s.focusSlot c sl).isBad (.phys (bankBase cl b)) 32 = false) :
    exec (.fifoPortServe cl b) s = .next (((((s.focusSlot c sl).popped cl b l).unparkedFrom cl c sl).after ((s.focusSlot c sl).backTime a true)
      (.nonlocalReply c sl (e0.toNat + 2 ^ 128 * e1.toNat) 0 {})).after 0 (.fifoPortServe cl b)) := by
  have hserve : (s.focusSlot c sl).fifoServe cl b a = .done ((s.focusSlot c sl).popped cl b l) (e0.toNat + 2 ^ 128 * e1.toNat) := by
    unfold State.fifoServe State.popped
    simp only [hkind, clusterAt_focusSlot, hq, hbad]
    rfl
  change execFifoPortServe cl b s = _
  unfold execFifoPortServe
  rw [hwait]
  simp only [serveFifo, ne_eq, not_true_eq_false, if_false, hpend, List.head?_cons, hserve, if_true]
  rfl

theorem clusterAt_popped {s : State} {cl b c sl : Nat} (l : List (BitVec 128)) (hwait : (s.clusterAt cl).fifoWait = [(b, c, sl)]) :
    ((s.popped cl b l).unparkedFrom cl c sl).clusterAt cl =
      { s.clusterAt cl with fifos := (s.clusterAt cl).fifos.setIfInBounds b l, fifoWait := [] } := by
  have hpop : (s.popped cl b l).clusterAt cl = { s.clusterAt cl with fifos := (s.clusterAt cl).fifos.setIfInBounds b l } := by
    exact (clusterAt_setCluster s cl cl _).trans (if_pos rfl)
  rw [State.unparkedFrom, clusterAt_setCluster, if_pos rfl, hpop]
  simp [hwait]

/-! ### The change of a bank's mode (R161) -/

theorem kvGet_kvDel {α : Type} (l : List (Nat × α)) {c d : Nat} (h : d ≠ c) : kvGet (kvDel l c) d = kvGet l d := by
  induction l with
  | nil => rfl
  | cons e l ih =>
    obtain ⟨k, v⟩ := e
    unfold kvDel
    split
    · rename_i hk
      rw [kvGet, if_neg (fun hd => h (hd.symm.trans hk.symm))]
    · rw [kvGet, kvGet, ih]

theorem coreAt_focus (s : State) (c d : Nat) : (s.focus c).coreAt d = s.coreAt d := by
  unfold State.focus
  split
  · rfl
  · rename_i hc
    unfold State.coreAt
    dsimp only
    by_cases hd : d = c
    · rw [if_pos hd, hd]
    · rw [if_neg hd, kvGet_kvPut]
      by_cases hh : d = s.here
      · rw [if_pos hh, if_pos hh]
        rfl
      · rw [if_neg hh, if_neg hh, kvGet_kvDel _ hd]

/-- Memory, clusters and every thread are the same in two states. -/
structure KeepsBanks (s t : State) : Prop where
  mem : t.mem = s.mem
  clusters : t.clusters = s.clusters
  slots : ∀ c, (t.coreAt c).slots = (s.coreAt c).slots

theorem KeepsBanks.refl (s : State) : KeepsBanks s s := ⟨rfl, rfl, fun _ => rfl⟩

theorem KeepsBanks.trans {s t u : State} (h : KeepsBanks s t) (k : KeepsBanks t u) : KeepsBanks s u :=
  ⟨k.mem.trans h.mem, k.clusters.trans h.clusters, fun c => (k.slots c).trans (h.slots c)⟩

theorem KeepsBanks.clusterAt {s t : State} (h : KeepsBanks s t) (cl : Nat) : t.clusterAt cl = s.clusterAt cl := by
  unfold State.clusterAt
  rw [h.clusters]

theorem keepsBanks_ite {p : Prop} [Decidable p] {s t u : State} (ht : KeepsBanks s t) (hu : KeepsBanks s u) : KeepsBanks s (if p then t else u) := by
  split
  · exact ht
  · exact hu

theorem keepsBanks_foldl {α : Type} (f : State → α → State) (l : List α) (h : ∀ (s : State) (a : α), KeepsBanks s (f s a)) (s : State) :
    KeepsBanks s (l.foldl f s) := by
  induction l generalizing s with
  | nil => exact KeepsBanks.refl s
  | cons a l ih => exact (h s a).trans (ih _)

theorem keepsBanks_focus (s : State) (c : Nat) : KeepsBanks s (s.focus c) :=
  ⟨mem_focus s c, clusters_focus s c, fun d => by rw [coreAt_focus]⟩

theorem keepsBanks_after (s : State) (n : Nat) (e : Instr) : KeepsBanks s (s.after n e) := ⟨rfl, rfl, fun _ => rfl⟩

theorem keepsBanks_linkSend (s : State) (c ch d : Nat) (i : LinkItem) : KeepsBanks s (s.linkSend c ch d i) := ⟨rfl, rfl, fun _ => rfl⟩

theorem keepsBanks_linkReply (s : State) (home : Nat) (r : LinkReq) (v f : Nat) (g : Sig) : KeepsBanks s (s.linkReply home r v f g) := by
  unfold State.linkReply
  split
  · exact KeepsBanks.refl s
  · exact keepsBanks_linkSend ..

theorem keepsBanks_setCoreAt (s : State) {c : Nat} {k : Core} (h : k.slots = (s.coreAt c).slots) : KeepsBanks s (s.setCoreAt c k) := by
  refine ⟨mem_setCoreAt s c k, ?_, fun d => ?_⟩
  · unfold State.setCoreAt
    split <;> rfl
  · rw [coreAt_setCoreAt]
    split
    next hd => rw [hd, h]
    next => rfl

theorem keepsBanks_sendWake (s : State) (home : Nat) (w : Watch) : KeepsBanks s (s.sendWake home w) := by
  unfold State.sendWake
  dsimp only
  split
  · exact keepsBanks_after ..
  · split
    · exact keepsBanks_linkSend ..
    · split
      · exact ⟨rfl, rfl, fun _ => rfl⟩
      · split
        · rename_i x hx
          exact (keepsBanks_setCoreAt s (c := home) (k := { s.coreAt home with loc := putLoc (s.coreAt home).loc x 64 }) rfl).trans
            ⟨rfl, rfl, fun _ => rfl⟩
        · refine KeepsBanks.trans ?_ (keepsBanks_setCoreAt _ rfl)
          unfold State.lookUp
          split
          · exact KeepsBanks.refl s
          · exact keepsBanks_after ..

/-- The watch entries of a bank are dropped with nothing of memory, clusters or threads changed. -/
theorem keepsBanks_dropWatches (s : State) (cl b : Nat) : KeepsBanks s (s.dropWatches cl b) := by
  unfold State.dropWatches
  exact (keepsBanks_foldl _ _ (fun t w => keepsBanks_sendWake ..) s).trans ⟨rfl, rfl, fun _ => rfl⟩

/-- Parked accessors of a bank have their answers, and its cluster keeps none of them. -/
theorem keepsBanks_endParked (s : State) (cl b : Nat) : KeepsBanks
    (s.setCluster cl { s.clusterAt cl with fifoWait := (s.clusterAt cl).fifoWait.filter (fun w => w.1 != b) }) (s.endParked cl b) := by
  unfold State.endParked
  have hparked := keepsBanks_foldl (fun (acc : State) (w : Nat × Nat × Nat) => acc.after (clusterTransit (clusterCore cl (b % 4)) w.2.1)
    (.nonlocalReply w.2.1 w.2.2 0 Trap.protect.code {})) ((s.clusterAt cl).fifoWait.filter (fun w => w.1 == b)) (fun t w => keepsBanks_after ..) s
  dsimp only
  refine KeepsBanks.trans (t := State.setCluster _ cl _) ⟨hparked.mem, ?_, hparked.slots⟩
    ((keepsBanks_foldl _ _ (fun t w => ?_) _).trans ⟨rfl, rfl, fun _ => rfl⟩)
  · simp only [State.setCluster, hparked.clusters]
  · split
    · exact keepsBanks_linkReply ..
    · exact keepsBanks_after ..

theorem get_filter (f : Nat → Bool) (m : Memory) (a : Nat) :
    Memory.get (m.filter (fun e => !f e.1)) a = if f a = true then 0 else Memory.get m a := by
  induction m with
  | nil => simp [Memory.get]
  | cons e m ih =>
    obtain ⟨k, v⟩ := e
    by_cases hk : k = a
    · subst hk
      cases hf : f k <;> simp [hf, Memory.get, ih]
    · cases hf : f k <;> simp [hf, Memory.get, hk, ih]

theorem keepsBanks_bankDone (s : State) (core b : Nat) : (s.bankDone core b).mem = s.mem ∧ (s.bankDone core b).clusters = s.clusters := by
  have hset (t : Thread) : (s.setThrAt core 11 t).mem = s.mem ∧ (s.setThrAt core 11 t).clusters = s.clusters := by
    unfold State.setThrAt State.setCoreAt
    split <;> exact ⟨rfl, rfl⟩
  unfold State.bankDone
  extract_lets t
  cases t.wait with
  | none => exact ⟨rfl, rfl⟩
  | some w =>
    cases w with
    | bankcfg d n =>
      dsimp only
      split
      · exact hset _
      · exact ⟨rfl, rfl⟩
    | _ => exact ⟨rfl, rfl⟩

theorem bankDone_goes {s : State} {core b : Nat} {d : BitVec 5} (h : (s.thrAt core 11).wait = some (.bankcfg d b)) :
    (s.bankDone core b).thrAt core 11 = ((s.thrAt core 11).wx d 0).resumed := by
  unfold State.bankDone
  dsimp only
  rw [h]
  simp only [if_true]
  unfold State.thrAt State.setThrAt
  rw [coreAt_setCoreAt, if_pos rfl]
  simp [Core.thr]

/-- The cluster after the change at the head of a bank's list is over. -/
def Cluster.changeOver (k : Cluster) (b : Nat) : Cluster :=
  { k with
    change := k.change.filter (fun c => c.1 != b) ++ (k.change.filter (fun c => c.1 == b)).tail
    bankWait := k.bankWait.filter (fun e => e.1 != b)
    passing := k.passing.filter (fun e => e.1 != b) ++
      (if (k.change.filter (fun c => c.1 == b)).tail.isEmpty then [] else k.bankWait.filter (fun e => e.1 == b)) }

/-- The end of a change: the core that asked goes on, and what waited follows. -/
theorem keepsBanks_endChange (s : State) (cl b core : Nat) :
    KeepsBanks ((s.setCluster cl ((s.clusterAt cl).changeOver b)).bankDone core b) (s.endChange cl b core) := by
  unfold State.endChange
  have hfold := keepsBanks_foldl (fun (acc : State) (e : Nat × Instr) => acc.after 0 e.2) ((s.clusterAt cl).bankWait.filter (fun e => e.1 == b))
    (fun t e => keepsBanks_after t 0 e.2) ((s.setCluster cl ((s.clusterAt cl).changeOver b)).bankDone core b)
  exact keepsBanks_ite hfold (hfold.trans (keepsBanks_after ..))

/-- A change of mode that nothing delays: the bank has the new mode and is empty, and the core that asked goes on. -/
theorem bankModeSwitch_changes {s : State} {cl b c : Nat} {m : BankMode} {l : List (Nat × BankMode × Nat)} (hb : b < 8)
    (hch : (s.clusterAt cl).change = (b, m, c) :: l) (hunits : s.bankUnits cl b = []) (hold : s.bankMode cl b ≠ m)
    (hlines : s.bankMode cl b ≠ .cache ∨ (s.clusterAt cl).lines = []) :
    Yields (exec (.bankModeSwitch cl b) s) (fun t => t.bankMode cl b = m ∧ (t.clusterAt cl).fifos[b]? = some [] ∧
      (t.clusterAt cl).change = l.filter (fun e => e.1 != b) ++ l.filter (fun e => e.1 == b) ∧
      (∀ a, Memory.get t.mem a = if inBank cl b a then 0 else Memory.get s.mem a) ∧
      (∀ d, (s.thrAt c 11).wait = some (.bankcfg d b) → t.thrAt c 11 = ((s.thrAt c 11).wx d 0).resumed)) := by
  have hwb : ∃ s1 x, (if s.bankMode cl b = .cache then (s.focus (clusterCore cl 0)).writeBackAll cl (fun _ => true) true else .done s false) = .done s1 x ∧
      KeepsBanks s s1 := by
    split
    · rename_i hcache
      have hempty : ((s.focus (clusterCore cl 0)).clusterAt cl).lines = [] := by
        rw [(keepsBanks_focus s _).clusterAt]; exact hlines.resolve_left (fun h => h hcache)
      exact ⟨_, _, writeBackAll_empty hempty _ _, keepsBanks_focus s _⟩
    · exact ⟨_, _, rfl, KeepsBanks.refl s⟩
  obtain ⟨s1, x, hwb, hk1⟩ := hwb
  have hk2 := (keepsBanks_endParked s1 cl b).trans (keepsBanks_dropWatches (s1.endParked cl b) cl b)
  generalize hs2 : (s1.endParked cl b).dropWatches cl b = s2 at hk2
  have hmem2 : s2.mem = s.mem := hk2.mem.trans hk1.mem
  have hcl2 : s2.clusterAt cl = { s.clusterAt cl with fifoWait := (s.clusterAt cl).fifoWait.filter (fun w => w.1 != b) } := by
    rw [hk2.clusterAt, clusterAt_setCluster, if_pos rfl, hk1.clusterAt]
  have hthr2 (i : Nat) : s2.thrAt c i = s.thrAt c i := by
    unfold State.thrAt Core.thr
    rw [hk2.slots]
    exact congrArg (fun v : Vector Thread 12 => (v.toList[i]?).getD {}) (hk1.slots c)
  have hrun : exec (.bankModeSwitch cl b) s = .next (((s2.clearBank cl b).setCluster cl
      { (s2.clearBank cl b).clusterAt cl with modes := ((s2.clearBank cl b).clusterAt cl).modes.setIfInBounds b m }).endChange cl b c) := by
    change execBankModeSwitch cl b s = _
    unfold execBankModeSwitch
    rw [hch]
    simp only [List.find?_cons_of_pos, beq_self_eq_true, hunits, List.isEmpty_nil, Bool.not_true, Bool.false_eq_true, if_false, hold, hwb, hs2]
  have hclear : (s2.clearBank cl b).clusterAt cl = { s2.clusterAt cl with fifos := (s2.clusterAt cl).fifos.setIfInBounds b [] } :=
    (clusterAt_setCluster s2 cl cl _).trans (if_pos rfl)
  generalize hs3 : (s2.clearBank cl b).setCluster cl _ = s3 at hrun
  have hcl3 : s3.clusterAt cl = { s2.clusterAt cl with
      fifos := (s2.clusterAt cl).fifos.setIfInBounds b [], modes := (s2.clusterAt cl).modes.setIfInBounds b m } := by
    rw [← hs3, clusterAt_setCluster, if_pos rfl, hclear]
  have hk4 := keepsBanks_endChange s3 cl b c
  obtain ⟨hdm, hdc⟩ := keepsBanks_bankDone (s3.setCluster cl ((s3.clusterAt cl).changeOver b)) c b
  have hcl4 : (s3.endChange cl b c).clusterAt cl = (s3.clusterAt cl).changeOver b := by
    rw [hk4.clusterAt]
    unfold State.clusterAt at hdc ⊢
    rw [hdc]
    simp [State.setCluster, kvGet_kvPut]
  refine ⟨_, hrun, ?_, ?_, ?_, fun a => ?_, fun d hd => ?_⟩
  · simp [State.bankMode, hcl4, hcl3, Cluster.changeOver, hb]
  · simp [hcl4, hcl3, Cluster.changeOver, hb]
  · simp [hcl4, hcl3, hcl2, Cluster.changeOver, hch]
  · rw [hk4.mem, hdm, ← hs3]
    exact (get_filter (inBank cl b) s2.mem a).trans (by rw [hmem2])
  · have hthr3 : s3.thrAt c 11 = s.thrAt c 11 := by rw [← hs3, ← hthr2]; rfl
    have hthr4 := hk4.slots c
    have hgo := bankDone_goes (s := s3.setCluster cl ((s3.clusterAt cl).changeOver b)) (core := c) (b := b) (d := d) (by rw [← hd, ← hthr3]; rfl)
    unfold State.thrAt Core.thr at hgo ⊢
    rw [hthr4, hgo]
    exact congrArg (fun t : Thread => (t.wx d 0).resumed) hthr3

end Sys2Proof.Machine

namespace Sys2Proof
open Machine

/-- Settles O49: the ways of a unit, then each step by its own lemma. -/
theorem unitsAndMonitors : Obligations.UnitsAndMonitors := by
  unfold Obligations.UnitsAndMonitors
  refine ⟨fun core slot s hslot => ⟨fun r pa hamo hp h0 => ⟨fun haway hbad => ?_, fun w h haway hh => ?_, fun w haway hhalt hagain hord _ => ?_⟩,
    fun u hc hs w haway hh hq => forwardNotice_counts haway hh hq, fun pa w h0 halign haway hs0 hs1 hbad hwatch =>
      unitReturn_vault h0 halign haway hs0 hs1 hbad hwatch⟩, fun s gid lid slot mon gen hslot => ⟨rfl, fun c hc hw =>
    ⟨fun hhere hwait harmed hgen => ?_, fun hhere hgen => ?_, monitorWake_held hc hw, fun d dl hwait hdl hdbg hhold htrig hintr => ?_⟩,
    fun cl b c sl a e0 e1 l hb hwait hpend hkind hq hbad => ?_, fun cl b c m l hb hch hunits hold hlines =>
      bankModeSwitch_changes hb hch hunits hold hlines⟩⟩
  · have htaken (b : Nat) : takenUnit (s.focusSlot core slot) b core slot = takenUnit s b core slot := by
      simp only [takenUnit, foundSig_focusSlot, mem_focusSlot]
    rw [atomicRequest_takes hamo hp h0 haway hbad, units_focusSlot, htaken]
    rfl
  · exact atomicRequest_queues hamo hp h0 haway hh
  · exact requests_of_units hamo hp haway hhalt hagain hord
  · rw [monitorWake_here hc hw hhere, harmed, hgen, beq_self_eq_true]
    exact congrArg Host.Outcome.next (testWaitm_idle (by rw [thr_setThr]; exact hwait))
  · rw [monitorWake_here hc hw hhere, beq_false_of_ne hgen, Bool.and_false]
    rfl
  · refine ⟨_, waitmTimeout_ends hc hwait hdl hdbg hhold htrig hintr, ?_⟩
    simp only [thr_setThr]
    refine ⟨rfl, pc_advance_congr ?_ ?_, fun hd => ?_, mem_focusSlot s c slot, rfl⟩
    · exact pc_wx _ d 16
    · exact frame_wx _ d 16
    · rw [rx_resumedAfter, rx_wx, if_pos ⟨rfl, hd⟩]
  · have hcl := clusterAt_popped (s := s.focusSlot c sl) l (by rw [clusterAt_focusSlot]; exact hwait)
    rw [clusterAt_focusSlot] at hcl
    refine ⟨_, fifoPortServe_pops hwait hpend hkind hq hbad, ?_, ?_, _,
      (mem_agenda_after _ _ _ _).mpr (Or.inr ((mem_agenda_after _ _ _ _).mpr (Or.inl rfl)))⟩
    · exact congrArg Cluster.fifoWait hcl
    · refine (congrArg (fun k : Cluster => k.fifos[b]?) hcl).trans ?_
      simp [hb]

end Sys2Proof
end

section
/-! ## O50: a process of the same ids on a second core -/

namespace Sys2Proof.Machine

/-- A process whose control thread has ended and whose engine has still an aborted request; a second core holds a process of the same ids,
with a send that reads its bytes in the window. -/
def heldTwice : State :=
  let s := wG (wP w0 fun p => { p with ctlEnded := true, fifo := [{ req9 with aborted := true }] }) g1
  { s with others := [(1, { occupied := true, proc := { w0.proc with
      handles := Vector.replicate 32 (some { chan with cur := some { cur0 with addr := some 0xFFFF000000000100, inj := none } }) } })] }

/-- Whether the core in focus holds a process, after an outcome. -/
def focusOccupied : Out → Bool
  | .next t => t.core.occupied
  | _ => false

set_option maxRecDepth 4000 in
/-- What is left of the process closes its handles; its ids find the second core, which reads for its send in focus. -/
theorem ended_process_leaves_other_in_focus : focusOccupied (exec (.processEnd 1 0) heldTwice) = true := by decide

end Sys2Proof.Machine

namespace Sys2Proof
open Machine

/-- Refutes O50: where a second core holds a process of the same ids, that core is in focus after the end of the first, and it is not empty. -/
theorem not_threadAndTaskSteps : ¬ Obligations.ThreadAndTaskSteps := by
  unfold Obligations.ThreadAndTaskSteps
  rintro ⟨-, htask⟩
  obtain ⟨hcore, -⟩ := htask 1 0 heldTwice
  obtain ⟨-, -, hend⟩ := hcore 0 (by decide)
  obtain ⟨t, hnext, hempty, -⟩ := hend g1 (by decide) (by decide) (by decide) (by decide) (by decide)
  have hocc := ended_process_leaves_other_in_focus
  rw [hnext] at hocc
  exact absurd (hempty.symm.trans hocc) (by decide)

end Sys2Proof
end

section
/-! Memory written with a list of bytes. -/

namespace Sys2Proof.Machine

/-! ### Lists of bytes in memory -/

theorem get_writeBytes_below {m : Memory} {a c : Nat} (l : List Byte) (h : m.wf = true) (hc : c < a) : (m.writeBytes a l).get c = m.get c := by
  induction l generalizing m a with
  | nil => rfl
  | cons b t ih => exact (ih (wf_put a b h) (Nat.lt_succ_of_lt hc)).trans ((get_put a c b h).trans (if_neg (Nat.ne_of_lt hc)))

theorem get_writeBytes_above {m : Memory} {a c : Nat} (l : List Byte) (h : m.wf = true) (hc : a + l.length ≤ c) :
    (m.writeBytes a l).get c = m.get c := by
  induction l generalizing m a with
  | nil => rfl
  | cons b t ih =>
    rw [List.length_cons] at hc
    exact (ih (wf_put a b h) (by lia)).trans ((get_put a c b h).trans (if_neg (by lia)))

/-- The bytes of a list that is written, from byte `k` of it on. -/
theorem bytes_writeBytes {m : Memory} {l : List Byte} {k n : Nat} (a : Nat) (h : m.wf = true) (hl : k + n ≤ l.length) :
    (m.writeBytes a l).bytes (a + k) n = (l.drop k).take n := by
  induction l generalizing m a k n with
  | nil =>
    obtain ⟨rfl, rfl⟩ : k = 0 ∧ n = 0 := Nat.add_eq_zero_iff.mp (Nat.le_zero.mp hl)
    rfl
  | cons b t ih =>
    rw [List.length_cons] at hl
    have ih' {k n : Nat} (hl : k + n ≤ t.length) := ih (a + 1) (wf_put a b h) hl
    cases k with
    | succ k => rw [← Nat.add_assoc, Nat.add_right_comm]; exact ih' (by lia)
    | zero =>
      cases n with
      | zero => rfl
      | succ n =>
        have hget : (m.writeBytes a (b :: t)).get a = b := (get_writeBytes_below t (wf_put a b h) (Nat.lt_succ_self a)).trans ((get_put a a b h).trans (if_pos rfl))
        exact congrArg₂ List.cons hget (ih' (k := 0) (by lia))

theorem read_eq_leNat (m : Memory) (a n : Nat) : m.read a n = leNat (m.bytes a n) := by
  induction n generalizing a with
  | zero => rfl
  | succ n ih => exact congrArg (fun x => (m.get a).toNat + 256 * x) (ih (a + 1))

theorem leNat_leBytes (n v : Nat) : leNat (leBytes n v) = v % 256 ^ n := by
  induction n generalizing v with
  | zero => exact (Nat.mod_one v).symm
  | succ n ih => rw [leBytes, leNat, ih, BitVec.toNat_ofNat, show 256 ^ (n + 1) = 256 * 256 ^ n from Nat.pow_succ', Nat.mod_mul]

theorem length_leBytes (n v : Nat) : (leBytes n v).length = n := by
  induction n generalizing v with
  | zero => rfl
  | succ n ih => exact congrArg (· + 1) (ih (v / 256))

/-- A number among the bytes that are written. -/
theorem read_writeBytes {m : Memory} {l : List Byte} {k n v : Nat} (a : Nat) (h : m.wf = true) (hl : k + n ≤ l.length)
    (hv : (l.drop k).take n = leBytes n v) (hlt : v < 256 ^ n) : (m.writeBytes a l).read (a + k) n = v := by
  rw [read_eq_leNat, bytes_writeBytes a h hl, hv, leNat_leBytes, Nat.mod_eq_of_lt hlt]

/-- A byte outside a list that is written. -/
theorem read_writeBytes_other {m : Memory} (l : List Byte) {a c : Nat} (h : m.wf = true) (hc : c < a ∨ a + l.length ≤ c) :
    (m.writeBytes a l).read c 1 = m.read c 1 := by
  rw [read_one, read_one]
  rcases hc with hc | hc
  · rw [get_writeBytes_below l h hc]
  · rw [get_writeBytes_above l h hc]

/-! ### The ring is looked at again -/

theorem moreDue_retryRing (s : State) : MoreDue s s.retryRing := moreDue_foldl _ (fun s _ => moreDue_afterOnce s 0 _) _ s

end Sys2Proof.Machine
end

section
/-! ## O57: the host ring and attestation -/

namespace Sys2Proof.Machine

/-- Memory and cores are as they were. -/
def SameCores (s t : State) : Prop := t.mem = s.mem ∧ t.core = s.core ∧ t.others = s.others

theorem MoreDue.sameCores {s t : State} (h : MoreDue s t) : SameCores s t := by
  obtain ⟨l, -, rfl⟩ := h
  exact ⟨rfl, rfl, rfl⟩

theorem MoreDue.module {s t : State} (h : MoreDue s t) : t.module = s.module := by
  obtain ⟨l, -, rfl⟩ := h
  rfl

/-! ### The host is told -/

/-- The host has been signalled of what the ring holds, or will be when the vector is unmasked. -/
def Told (m n : Module) : Prop :=
  n.notify = true ∧ (m.masked = true → n.msiPending = true ∧ n.msiSent = m.msiSent) ∧ (m.masked = false → n.msiSent = m.msiSent + 1)

/-- A notice changes the module alone, and its ring not. -/
theorem notifyHost_ring (s : State) : SameCores s s.notifyHost ∧ s.notifyHost.module.hrhead = s.module.hrhead ∧
    s.notifyHost.module.hrtail = s.module.hrtail := by
  unfold State.notifyHost
  split
  · exact ⟨⟨rfl, rfl, rfl⟩, rfl, rfl⟩
  · unfold State.signal
    split <;> exact ⟨⟨rfl, rfl, rfl⟩, rfl, rfl⟩

theorem notifyHost_tells {s : State} {m : Module} (h : s.module.notify = false) (hmask : s.module.masked = m.masked) (hsent : s.module.msiSent = m.msiSent) :
    Told m s.notifyHost.module := by
  unfold Told
  rw [← hmask, ← hsent]
  unfold State.notifyHost
  rw [if_neg (by rw [h]; exact Bool.false_ne_true)]
  unfold State.signal
  split
  next hm =>
    have hm : s.module.masked = true := hm
    exact ⟨rfl, fun _ => ⟨rfl, rfl⟩, fun hu => absurd (hm.symm.trans hu) (by decide)⟩
  next hm => exact ⟨rfl, fun hm' => absurd hm' hm, fun _ => rfl⟩

/-! ### The registers of the ring -/

section
variable (s : State) (v : Word)

/-- How far a position is after HRHEAD in ring order. -/
def Module.fromHead (m : Module) (x : Nat) : Nat := (x + m.hrsize - m.hrhead) % m.hrsize

theorem hrheadWrite_taken (h64 : v.toNat % 64 = 0) (hlt : v.toNat < s.module.hrsize)
    (hd : s.module.fromHead v.toNat ≤ s.module.fromHead s.module.hrtail) :
    Yields (exec (.hrheadWrite v) s) (fun t => SameCores s t ∧ t.module.hrhead = v.toNat ∧ t.module.hrtail = s.module.hrtail ∧
      (v.toNat ≠ s.module.hrtail → Told s.module t.module) ∧ (v.toNat = s.module.hrtail → t.module.notify = false)) := by
  have hok : v.toNat % 64 = 0 ∧ (v.toNat = s.module.hrhead ∨ v.toNat < s.module.hrsize ∧ s.module.fromHead v.toNat ≤ s.module.fromHead s.module.hrtail) :=
    ⟨h64, Or.inr ⟨hlt, hd⟩⟩
  refine yields_of_eq (if_pos hok) ?_
  rw [(moreDue_retryRing _).module]
  obtain ⟨hmem, hcore, hoth⟩ := (moreDue_retryRing (if s.module.hrtail ≠ v.toNat then
    ({ s with module := { s.module with hrhead := v.toNat, notify := false } } : State).notifyHost else
      { s with module := { s.module with hrhead := v.toNat, notify := false } })).sameCores
  by_cases htail : s.module.hrtail = v.toNat
  · rw [if_neg (not_not.mpr htail)] at hmem hcore hoth ⊢
    exact ⟨⟨hmem, hcore, hoth⟩, rfl, rfl, fun h => absurd htail.symm h, fun _ => rfl⟩
  · rw [if_pos htail] at hmem hcore hoth ⊢
    obtain ⟨⟨hm, hc, ho⟩, hhead, htl⟩ := notifyHost_ring { s with module := { s.module with hrhead := v.toNat, notify := false } }
    exact ⟨⟨hmem.trans hm, hcore.trans hc, hoth.trans ho⟩, hhead, htl, fun _ => notifyHost_tells rfl rfl rfl, fun h => absurd h.symm htail⟩

theorem hrheadWrite_ignored (hne : v.toNat ≠ s.module.hrhead)
    (h : v.toNat % 64 ≠ 0 ∨ s.module.hrsize ≤ v.toNat ∨ s.module.fromHead s.module.hrtail < s.module.fromHead v.toNat) :
    exec (.hrheadWrite v) s = .next s := by
  refine if_neg ?_
  rintro ⟨h64, heq | ⟨hlt, hd⟩⟩
  · exact hne heq
  · rcases h with h | h | h
    · exact h h64
    · exact absurd h (Nat.not_le.mpr hlt)
    · exact absurd h (Nat.not_lt.mpr hd)

/-- What a register write leaves that has the ring looked at again. -/
theorem yields_retryRing (m : Module) : Yields (.next ({ s with module := m } : State).retryRing) (fun t => SameCores s t ∧ t.module = m) :=
  ⟨_, rfl, (moreDue_retryRing { s with module := m }).sameCores, (moreDue_retryRing { s with module := m }).module⟩

theorem hrbaseWrite_ignored (h : s.module.hrtail ≠ s.module.hrhead ∨ v.toNat % 4096 ≠ 0) : exec (.hrbaseWrite v) s = .next s := if_pos h

theorem hrbaseWrite_taken (h : s.module.hrtail = s.module.hrhead) (h' : v.toNat % 4096 = 0) :
    Yields (exec (.hrbaseWrite v) s) (fun t => SameCores s t ∧ t.module = { s.module with hrbase := v, hrtail := 0, hrhead := 0 }) := by
  have hn : ¬ (s.module.hrtail ≠ s.module.hrhead ∨ v.toNat % 4096 ≠ 0) := not_or.mpr ⟨not_not.mpr h, not_not.mpr h'⟩
  rw [show exec (.hrbaseWrite v) s = _ from if_neg hn]
  exact yields_retryRing s _

theorem ringSizeOk_iff (n : Nat) : ringSizeOk n = true ↔ n = 0 ∨ ∃ i, i ≤ 18 ∧ n = 2 ^ (12 + i) := by
  unfold ringSizeOk
  rw [Bool.or_eq_true, List.any_eq_true, beq_iff_eq]
  refine or_congr Iff.rfl (exists_congr fun i => ?_)
  rw [List.mem_range, beq_iff_eq, Nat.lt_succ_iff]

theorem hrsizeWrite_taken (h : s.module.hrtail = s.module.hrhead) (h' : v = 0 ∨ ∃ i, i ≤ 18 ∧ v.toNat = 2 ^ (12 + i)) :
    Yields (exec (.hrsizeWrite v) s) (fun t => SameCores s t ∧ t.module = { s.module with hrsize := v.toNat, hrtail := 0, hrhead := 0 }) := by
  have hsize : ringSizeOk v.toNat = true := (ringSizeOk_iff _).mpr (h'.imp_left fun h0 => congrArg BitVec.toNat h0)
  have hn : ¬ (s.module.hrtail ≠ s.module.hrhead ∨ (!ringSizeOk v.toNat) = true) := not_or.mpr ⟨not_not.mpr h, by rw [hsize]; decide⟩
  rw [show exec (.hrsizeWrite v) s = _ from if_neg hn]
  exact yields_retryRing s _

theorem hrsizeWrite_ignored (h : s.module.hrtail ≠ s.module.hrhead ∨ (v ≠ 0 ∧ ∀ i, i ≤ 18 → v.toNat ≠ 2 ^ (12 + i))) :
    exec (.hrsizeWrite v) s = .next s := by
  refine if_pos (h.imp_right fun ⟨h0, hi⟩ => ?_)
  rw [Bool.not_eq_true', ← Bool.not_eq_true, ringSizeOk_iff]
  rintro (hz | ⟨i, hle, he⟩)
  · exact h0 (BitVec.eq_of_toNat_eq hz)
  · exact hi i hle he

theorem slotcapWrite_limited : Yields (exec (.slotcapWrite v) s) (fun t => SameCores s t ∧ t.module = { s.module with slotcap := min 10 (v.toNat % 16) }) := by
  have hmore := moreDue_foldl (fun (acc : State) e => if e.2.occupied then acc.askDispatch 1 e.2.proc.gid e.2.proc.lid else acc)
    (fun s e => moreDue_ite _ (moreDue_askDispatch s 1 _ _) (.refl s))
    ({ s with module := { s.module with slotcap := min 10 (v.toNat % 16) } } : State).allCores
    { s with module := { s.module with slotcap := min 10 (v.toNat % 16) } }
  exact ⟨_, rfl, hmore.sameCores, hmore.module⟩

/-! ### Attestation -/

theorem attctlWrite_taken (h : v.getLsbD 0 = true) (h' : s.module.attctl = false) :
    Yields (exec (.attctlWrite v) s) (fun t => SameCores s t ∧ t.module = { s.module with attctl := true } ∧ ∃ e ∈ t.agenda, e.2 = .attestationReport) := by
  have hc : (v.getLsbD 0 && !s.module.attctl) = true := by rw [h, h']; rfl
  exact ⟨_, if_pos hc, ⟨rfl, rfl, rfl⟩, rfl, _, due_after _ 250 _, rfl⟩

theorem attctlWrite_ignored (h : v.getLsbD 0 = false ∨ s.module.attctl = true) : exec (.attctlWrite v) s = .next s := by
  refine if_neg ?_
  rw [Bool.and_eq_true, Bool.not_eq_true']
  rintro ⟨h0, h1⟩
  rcases h with h | h
  · exact Bool.false_ne_true (h.symm.trans h0)
  · exact Bool.false_ne_true (h1.symm.trans h)
end

/-- The bytes of a report. -/
def State.attestBytes (s : State) : List Byte :=
  (s.module.attnonce.toList.map (fun w => leBytes 8 w.toNat)).flatten ++ leBytes 8 s.module.modid ++
    (List.range 2008).map (fun i => Config.attestByte (s.free + i))

theorem attnonce_toList (n : Vector Word 4) : n.toList = [n[0], n[1], n[2], n[3]] := by
  obtain ⟨⟨l⟩, hl⟩ := n
  match l, hl with
  | [a, b, c, d], _ => rfl

theorem attestBytes_eq (s : State) : s.attestBytes = leBytes 8 s.module.attnonce[0].toNat ++ (leBytes 8 s.module.attnonce[1].toNat ++
    (leBytes 8 s.module.attnonce[2].toNat ++ (leBytes 8 s.module.attnonce[3].toNat ++ (leBytes 8 s.module.modid ++
      (List.range 2008).map (fun i => Config.attestByte (s.free + i)))))) := by
  unfold State.attestBytes
  rw [attnonce_toList]
  rfl

theorem length_attestBytes (s : State) : s.attestBytes.length = 2048 := by
  rw [attestBytes_eq, List.length_append, List.length_append, List.length_append, List.length_append, List.length_append, List.length_map,
    List.length_range, length_leBytes, length_leBytes, length_leBytes, length_leBytes, length_leBytes]

/-- A number of 8 bytes that a report holds. -/
theorem read_attestation {s : State} (hwf : s.mem.wf = true) (k : Nat) {x : Nat} (hk : k + 8 ≤ 2048) (hx : (s.attestBytes.drop k).take 8 = leBytes 8 x)
    (hlt : x < 2 ^ 64) : Memory.read (s.hostWrite s.module.attaddr.toNat s.attestBytes).mem (4 * 2 ^ 56 + s.module.attaddr.toNat + k) 8 = x :=
  read_writeBytes _ hwf (by rw [length_attestBytes]; exact hk) hx hlt

theorem attestationReport_written (s : State) (hwf : s.mem.wf = true) (hmod : s.module.modid < 2 ^ 16) :
    Yields (exec .attestationReport s) (fun t => t.module = { s.module with attctl := false } ∧ t.core = s.core ∧ t.others = s.others ∧
      (∀ i : Fin 4, Memory.read t.mem (4 * 2 ^ 56 + s.module.attaddr.toNat + 8 * i.val) 8 = s.module.attnonce[i].toNat) ∧
      Memory.read t.mem (4 * 2 ^ 56 + s.module.attaddr.toNat + 32) 8 = s.module.modid ∧
      ∀ a, a < 4 * 2 ^ 56 + s.module.attaddr.toNat ∨ 4 * 2 ^ 56 + s.module.attaddr.toNat + 2048 ≤ a → Memory.read t.mem a 1 = Memory.read s.mem a 1) := by
  refine ⟨_, rfl, rfl, rfl, rfl, fun i => ?_, ?_, fun a ha => ?_⟩
  · have hk : 8 * i.val + 8 ≤ 2048 := by lia
    refine read_attestation hwf (8 * i.val) hk ?_ (BitVec.isLt _)
    rw [attestBytes_eq]
    match i with
    | 0 | 1 | 2 | 3 => rfl
  · exact read_attestation hwf 32 (by decide) (by rw [attestBytes_eq]; rfl) (hmod.trans (by decide))
  · exact read_writeBytes_other s.attestBytes hwf (by rw [length_attestBytes]; exact ha)

/-! ### A message for the host -/

section
variable {s : State} {g : GateCh} (hg : s.module.gate.find? (fun x => x.gid == g.gid && x.lid == g.lid && x.ch == g.ch) = some g)
include hg

theorem hostRingWrite_nothing (h : g.full = [] ∨ s.module.hrsize = 0) : exec (.hostRingWrite g.gid g.lid g.ch) s = .next s := by
  change execHostRingWrite g.gid g.lid g.ch s = .next s
  unfold execHostRingWrite
  rw [hg]
  dsimp only
  cases hfull : g.full with
  | nil => rfl
  | cons e rest =>
    obtain ⟨tag, len, bytes, ab⟩ := e
    exact if_pos (Or.inl (h.resolve_left (by rw [hfull]; exact List.cons_ne_nil _ _)))

/-- What an entry of the ring holds, from its header on. -/
def ringEntry (g : GateCh) (tag len : Nat) (bytes : List Byte) (ab : Bool) : List Byte :=
  ringHeader g.lid g.gid tag (if ab then 1 else 0) len ((16 + bytes.length + 63) / 64 * 64) ++ (bytes ++
    List.replicate ((16 + bytes.length + 63) / 64 * 64 - (16 + bytes.length)) 0)

omit hg in
theorem padTo_ring (tag len : Nat) (bytes : List Byte) (ab : Bool) : padTo ((16 + bytes.length + 63) / 64 * 64)
    (ringHeader g.lid g.gid tag (if ab then 1 else 0) len ((16 + bytes.length + 63) / 64 * 64) ++ bytes) = ringEntry g tag len bytes ab := by
  have hl : (ringHeader g.lid g.gid tag (if ab then 1 else 0) len ((16 + bytes.length + 63) / 64 * 64) ++ bytes).length = 16 + bytes.length := by
    rw [List.length_append]
    rfl
  unfold padTo
  rw [hl, List.take_of_length_le (by rw [hl]; lia), List.append_assoc]
  rfl

omit hg in
theorem length_ringEntry (tag len : Nat) (bytes : List Byte) (ab : Bool) : (ringEntry g tag len bytes ab).length = (16 + bytes.length + 63) / 64 * 64 := by
  have hh : (ringHeader g.lid g.gid tag (if ab then 1 else 0) len ((16 + bytes.length + 63) / 64 * 64)).length = 16 := rfl
  unfold ringEntry
  rw [List.length_append, List.length_append, List.length_replicate, hh]
  lia

omit hg in
/-- The acknowledgement that a channel owes changes nothing of the cores or the ring. -/
theorem gateAck_ring (s : State) (g : GateCh) : SameCores s (s.gateAck g) ∧ ∃ l, (s.gateAck g).module = { s.module with gate := l } := by
  unfold State.gateAck
  split
  · exact ⟨⟨rfl, rfl, rfl⟩, _, rfl⟩
  · split
    · exact ⟨⟨rfl, rfl, rfl⟩, _, rfl⟩
    · exact ⟨⟨rfl, rfl, rfl⟩, _, rfl⟩

omit hg in
/-- What follows the notice changes nothing of the cores or the ring, whether an acknowledgement is owed or not. -/
theorem acked_ring (s : State) (g : GateCh) : SameCores s (if g.due then s.gateAck g else s.setGate g) ∧
    ∃ l, (if g.due then s.gateAck g else s.setGate g).module = { s.module with gate := l } := by
  split
  · exact gateAck_ring s g
  · exact ⟨⟨rfl, rfl, rfl⟩, _, rfl⟩

omit hg in
/-- An entry of the ring in memory: its fields, its bytes, and what is around it. -/
theorem ringEntry_read {m : Memory} {tag len : Nat} {bytes : List Byte} {ab : Bool} (a : Nat) (hwf : m.wf = true) (hlid : g.lid < 2 ^ 16)
    (htag : tag < 2 ^ 16) : let n := m.writeBytes a (ringEntry g tag len bytes ab)
    n.read a 2 = g.lid ∧ n.read (a + 4) 2 = tag ∧ n.read (a + 6) 1 = (if ab then 1 else 0) ∧ n.bytes (a + 16) bytes.length = bytes ∧
    ∀ c, c < a ∨ a + (16 + bytes.length + 63) / 64 * 64 ≤ c → n.read c 1 = m.read c 1 := by
  have hlen : 16 + bytes.length ≤ (ringEntry g tag len bytes ab).length := by rw [length_ringEntry]; lia
  have h8 : 8 ≤ (ringEntry g tag len bytes ab).length := (Nat.le_add_right_of_le (by decide)).trans hlen
  have hflag : (if ab then 1 else 0 : Nat) < 256 ^ 1 := by cases ab <;> decide
  refine ⟨read_writeBytes (k := 0) a hwf (le_trans (by decide) h8) rfl hlid, read_writeBytes (k := 4) a hwf (le_trans (by decide) h8) rfl htag,
    read_writeBytes (k := 6) a hwf (le_trans (by decide) h8) rfl hflag, (bytes_writeBytes (k := 16) a hwf hlen).trans (List.take_left' rfl),
    fun c hc => read_writeBytes_other _ hwf (by rw [length_ringEntry]; exact hc)⟩

/-- A message that fits behind HRTAIL: the state in which it is written, before the host is told. -/
def State.ringWritten (s : State) (g : GateCh) (tag len : Nat) (bytes : List Byte) (ab : Bool) : State :=
  let s1 := s.hostWrite (s.module.hrbase.toNat + s.module.hrtail) (ringEntry g tag len bytes ab)
  { s1 with module := { s1.module with hrtail := (s.module.hrtail + (16 + bytes.length + 63) / 64 * 64) % s.module.hrsize } }

omit hg in
theorem mem_ringWritten (tag len : Nat) (bytes : List Byte) (ab : Bool) : (s.ringWritten g tag len bytes ab).mem =
    Memory.writeBytes s.mem (4 * 2 ^ 56 + s.module.hrbase.toNat + s.module.hrtail) (ringEntry g tag len bytes ab) := by
  unfold State.ringWritten State.hostWrite hostKey
  dsimp only
  rw [Nat.add_assoc]

theorem hostRingWrite_eq {tag len : Nat} {bytes : List Byte} {ab : Bool} (hfull : g.full = [(tag, len, bytes, ab)])
    (hend : s.module.hrtail + (16 + bytes.length + 63) / 64 * 64 ≤ s.module.hrsize)
    (hroom : s.module.fromHead s.module.hrtail + (16 + bytes.length + 63) / 64 * 64 < s.module.hrsize) :
    exec (.hostRingWrite g.gid g.lid g.ch) s =
      .next (if ({ g with full := [] } : GateCh).due then (s.ringWritten g tag len bytes ab).notifyHost.gateAck { g with full := [] }
        else (s.ringWritten g tag len bytes ab).notifyHost.setGate { g with full := [] }) := by
  change execHostRingWrite g.gid g.lid g.ch s = _
  unfold execHostRingWrite
  rw [hg]
  dsimp only
  rw [hfull]
  dsimp only
  have hn : ¬ (s.module.hrsize = 0 ∨ s.module.hrsize ≤ (s.module.hrtail + s.module.hrsize - s.module.hrhead) % s.module.hrsize + 0 +
      (16 + bytes.length + 63) / 64 * 64) := not_or.mpr ⟨by omega, Nat.not_le.mpr hroom⟩
  rw [if_neg (Nat.not_lt.mpr hend), if_neg hn, if_pos rfl, if_pos rfl, padTo_ring]
  rfl

theorem hostRingWrite_written {tag len : Nat} {bytes : List Byte} {ab : Bool} (hfull : g.full = [(tag, len, bytes, ab)]) (hlid : g.lid < 2 ^ 16)
    (htag : tag < 2 ^ 16) (hwf : s.mem.wf = true) (hend : s.module.hrtail + (16 + bytes.length + 63) / 64 * 64 ≤ s.module.hrsize)
    (hroom : s.module.fromHead s.module.hrtail + (16 + bytes.length + 63) / 64 * 64 < s.module.hrsize) :
    Yields (exec (.hostRingWrite g.gid g.lid g.ch) s) (fun t =>
      t.module.hrtail = (s.module.hrtail + (16 + bytes.length + 63) / 64 * 64) % s.module.hrsize ∧ t.module.hrhead = s.module.hrhead ∧
      (s.module.notify = false → Told s.module t.module) ∧ t.core = s.core ∧ t.others = s.others ∧
      Memory.read t.mem (4 * 2 ^ 56 + s.module.hrbase.toNat + s.module.hrtail) 2 = g.lid ∧
      Memory.read t.mem (4 * 2 ^ 56 + s.module.hrbase.toNat + s.module.hrtail + 4) 2 = tag ∧
      Memory.read t.mem (4 * 2 ^ 56 + s.module.hrbase.toNat + s.module.hrtail + 6) 1 = (if ab then 1 else 0) ∧
      Memory.bytes t.mem (4 * 2 ^ 56 + s.module.hrbase.toNat + s.module.hrtail + 16) bytes.length = bytes ∧
      ∀ a, a < 4 * 2 ^ 56 + s.module.hrbase.toNat + s.module.hrtail ∨
          4 * 2 ^ 56 + s.module.hrbase.toNat + s.module.hrtail + (16 + bytes.length + 63) / 64 * 64 ≤ a →
        Memory.read t.mem a 1 = Memory.read s.mem a 1) := by
  obtain ⟨⟨hmem, hcore, hoth⟩, hhead, htail⟩ := notifyHost_ring (s.ringWritten g tag len bytes ab)
  have htold : s.module.notify = false → Told s.module (s.ringWritten g tag len bytes ab).notifyHost.module := fun hn =>
    notifyHost_tells hn rfl rfl
  have hentry := ringEntry_read (len := len) (ab := ab) (bytes := bytes) (4 * 2 ^ 56 + s.module.hrbase.toNat + s.module.hrtail) hwf hlid htag
  rw [hostRingWrite_eq hg hfull hend hroom]
  refine ⟨_, rfl, ?_⟩
  obtain ⟨⟨hm1, hc1, ho1⟩, l, hm⟩ := acked_ring (s.ringWritten g tag len bytes ab).notifyHost { g with full := [] }
  rw [hm1, hc1, ho1, hm, hmem, hcore, hoth, mem_ringWritten]
  exact ⟨htail, hhead, htold, rfl, rfl, hentry⟩
end

end Sys2Proof.Machine
end

section
/-! ## O57: mailboxes and the edge queue -/

namespace Sys2Proof.Machine

theorem phase_not_marked {s : State} {gid : Nat} {g : Group} (hg : s.groupOf gid = some g) (hrun : g.phase = .running) : s.marked gid = false := by
  unfold State.marked
  rw [hg]
  dsimp only
  rw [hrun]
  rfl

/-- A message whose group runs enters the edge queue. -/
theorem takeMail_queued {s : State} (mb : Nat) {msg : HostMsg} {g : Group} (hg : s.groupOf msg.gid = some g) (hrun : g.phase = .running)
    (hroom : s.module.edgeQ.length < 8192) :
    s.takeMail mb msg = some (({ s with module := { s.module with edgeQ := s.module.edgeQ ++ [msg] } } : State).after 32 .edgeQueueSend) := by
  unfold State.takeMail
  rw [hg, phase_not_marked hg hrun]
  exact (if_neg Bool.false_ne_true).trans (if_pos hroom)

theorem takeMail_full {s : State} (mb : Nat) {msg : HostMsg} {g : Group} (hg : s.groupOf msg.gid = some g) (hrun : g.phase = .running)
    (hfull : 8192 ≤ s.module.edgeQ.length) : s.takeMail mb msg = none := by
  unfold State.takeMail
  rw [hg, phase_not_marked hg hrun]
  exact (if_neg Bool.false_ne_true).trans (if_neg (Nat.not_lt.mpr hfull))

/-! ### A whole mailbox is written -/

theorem mailHeader_taken {s t : State} {mb : Nat} {msg : HostMsg} (hbusy : s.module.mbBusy = []) (hmsg : s.mailOf mb (s.boundTo mb) = some msg)
    (htake : s.takeMail mb msg = some t) : s.mailHeader mb = t := by
  unfold State.mailHeader
  dsimp only
  rw [hmsg]
  dsimp only
  rw [hbusy, htake]
  exact if_neg Bool.false_ne_true

theorem mailHeader_dropped {s : State} {mb : Nat} (hmsg : s.mailOf mb (s.boundTo mb) = none) : s.mailHeader mb = s.dropMail := by
  unfold State.mailHeader
  dsimp only
  rw [hmsg]

section
variable (s : State) {mb : Nat} (hmb : mb < 4096)

/-- The state in which a whole mailbox has been written, before the edge looks at it. -/
def State.boxWritten (s : State) (mb h : Nat) (pay : List Byte) : State :=
  { s with module := { s.module with mbox := Memory.writeBytes s.module.mbox (64 * mb) (leBytes 8 h ++ pay) } }

include hmb in
theorem mailboxWrite_part {l : List Byte} (hl : l.length = 64) : exec (.mailboxWrite (64 * mb) l) s = .next (mailPart (64 * mb) l s mb) := by
  change execMailboxWrite (64 * mb) l s = _
  have hfirst : 64 * mb / 64 = mb := Nat.mul_div_cancel_left mb (by decide)
  have hcount : (64 * mb + 64 - 1) / 64 + 1 - mb = 1 := (congrArg (· + 1 - mb) (Nat.mul_add_div (by decide) mb 63)).trans (Nat.add_sub_cancel_left mb 1)
  unfold execMailboxWrite
  dsimp only
  rw [hl, hfirst, hcount, if_neg (by decide)]
  exact congrArg (fun t => (.next t : Out)) (if_pos hmb)

theorem mailPart_whole {h : Nat} {pay : List Byte} (hpay : pay.length = 56) (hphase : s.module.phase ≠ 0) (hbusy : s.module.mbBusy = []) :
    mailPart (64 * mb) (leBytes 8 h ++ pay) s mb = (s.boxWritten mb h pay).mailHeader mb := by
  have hl : (leBytes 8 h ++ pay).length = 64 := by rw [List.length_append, length_leBytes, hpay]
  unfold mailPart
  have hfree : ¬ (s.module.phase = 0 ∨ ([] : List (Nat × Nat)).any (fun e => e.1 == mb) = true) := not_or.mpr ⟨hphase, Bool.false_ne_true⟩
  rw [hbusy, if_neg hfree]
  dsimp only
  rw [Nat.max_self, Nat.sub_self, List.drop_zero, Nat.add_sub_cancel_left, List.take_of_length_le (Nat.le_of_eq hl), hl]
  exact if_pos ⟨rfl, by decide⟩

variable {h : Nat} {pay : List Byte} (hpay : pay.length = 56) (hh : h < 2 ^ 64) (hwf : s.module.mbox.wf = true)

include hpay hh hwf in
theorem boxWritten_header : Memory.read (s.boxWritten mb h pay).module.mbox (64 * mb) 8 = h :=
  read_writeBytes (k := 0) (l := leBytes 8 h ++ pay) (64 * mb) hwf (by rw [List.length_append, length_leBytes, hpay]; decide) rfl hh

include hpay hwf in
theorem boxWritten_payload {n : Nat} (hn : n ≤ 56) : Memory.bytes (s.boxWritten mb h pay).module.mbox (64 * mb + 8) n = pay.take n :=
  bytes_writeBytes (k := 8) (l := leBytes 8 h ++ pay) (64 * mb) hwf (by rw [List.length_append, length_leBytes, hpay]; lia)

include hpay hh hwf in
/-- A legal header gives the message that it says. -/
theorem mailOf_legal {gid : Nat} {g : Group} (hg : s.groupOf gid = some g) (hgid : gid ≠ 0) (h38 : h < 2 ^ 38) (hlen : h / 2 ^ 32 ≤ 56)
    (hlid : h % 2 ^ 16 < g.n) : (s.boxWritten mb h pay).mailOf mb gid =
      some { gid := gid, lid := h % 2 ^ 16, tag := h / 2 ^ 16 % 2 ^ 16, len := h / 2 ^ 32, payload := pay.take (h / 2 ^ 32) } := by
  have hmod : h / 2 ^ 32 % 64 = h / 2 ^ 32 := Nat.mod_eq_of_lt (Nat.lt_of_le_of_lt hlen (by decide))
  have hok : ¬ (gid = 0 ∨ h / 2 ^ 38 ≠ 0 ∨ 56 < h / 2 ^ 32 ∨ g.n ≤ h % 2 ^ 16) := by
    rintro (h0 | h0 | h0 | h0)
    · exact hgid h0
    · exact h0 (Nat.div_eq_of_lt h38)
    · exact absurd h0 (Nat.not_lt.mpr hlen)
    · exact absurd h0 (Nat.not_le.mpr hlid)
  unfold State.mailOf
  rw [boxWritten_header s hpay hh hwf, show (s.boxWritten mb h pay).groupOf gid = some g from hg]
  dsimp only
  rw [hmod, if_neg hok, boxWritten_payload s hpay hwf hlen]

include hpay hh hwf in
/-- One that is not gives none. -/
theorem mailOf_illegal {gid : Nat} (hbad : 2 ^ 38 ≤ h ∨ 56 < h / 2 ^ 32 ∨ gid = 0 ∨ (∀ g, s.groupOf gid = some g → g.n ≤ h % 2 ^ 16)) :
    (s.boxWritten mb h pay).mailOf mb gid = none := by
  unfold State.mailOf
  rw [boxWritten_header s hpay hh hwf, show (s.boxWritten mb h pay).groupOf gid = s.groupOf gid from rfl]
  dsimp only
  split
  · rfl
  next g hg =>
    by_cases h38 : h < 2 ^ 38
    · have hmod : h / 2 ^ 32 % 64 = h / 2 ^ 32 := Nat.mod_eq_of_lt (Nat.div_lt_of_lt_mul h38)
      rw [hmod]
      refine if_pos ?_
      rcases hbad with hb | hb | hb | hb
      · exact absurd h38 (Nat.not_lt.mpr hb)
      · exact Or.inr (Or.inr (Or.inl hb))
      · exact Or.inl hb
      · exact Or.inr (Or.inr (Or.inr (hb g hg)))
    · exact if_pos (Or.inr (Or.inl (Nat.div_pos (Nat.not_lt.mp h38) (Nat.two_pow_pos 38)).ne'))

include hmb hpay hh hwf in
theorem mailboxWrite_queued {g : Group} (hbusy : s.module.mbBusy = []) (hroom : s.module.edgeQ.length < 8192)
    (hg : s.groupOf (Memory.read s.module.mbind (2 * mb) 2) = some g) (hgid : Memory.read s.module.mbind (2 * mb) 2 ≠ 0) (hrun : g.phase = .running)
    (h38 : h < 2 ^ 38) (hlen : h / 2 ^ 32 ≤ 56) (hlid : h % 2 ^ 16 < g.n) (hphase : s.module.phase ≠ 0) :
    Yields (exec (.mailboxWrite (64 * mb) (leBytes 8 h ++ pay)) s) (fun t => SameCores s t ∧ t.module.mbdrop = s.module.mbdrop ∧
      t.module.edgeQ = s.module.edgeQ ++ [{
        gid := Memory.read s.module.mbind (2 * mb) 2, lid := h % 2 ^ 16, tag := h / 2 ^ 16 % 2 ^ 16, len := h / 2 ^ 32, payload := pay.take (h / 2 ^ 32) }]) := by
  have hbox := mailHeader_taken (s := s.boxWritten mb h pay) hbusy (mailOf_legal s hpay hh hwf hg hgid h38 hlen hlid) (takeMail_queued mb hg hrun hroom)
  rw [mailboxWrite_part s hmb (by rw [List.length_append, length_leBytes, hpay]), mailPart_whole s hpay hphase hbusy, hbox]
  exact ⟨_, rfl, ⟨rfl, rfl, rfl⟩, rfl, rfl⟩

include hmb hpay hh hwf in
theorem mailboxWrite_dropped (hbusy : s.module.mbBusy = []) (hbad : s.module.phase = 0 ∨ 2 ^ 38 ≤ h ∨ 56 < h / 2 ^ 32 ∨
      Memory.read s.module.mbind (2 * mb) 2 = 0 ∨ (∀ g, s.groupOf (Memory.read s.module.mbind (2 * mb) 2) = some g → g.n ≤ h % 2 ^ 16)) :
    Yields (exec (.mailboxWrite (64 * mb) (leBytes 8 h ++ pay)) s) (fun t => SameCores s t ∧ t.module.mbdrop = s.module.mbdrop + 1 ∧
      t.module.edgeQ = s.module.edgeQ) := by
  rw [mailboxWrite_part s hmb (by rw [List.length_append, length_leBytes, hpay])]
  by_cases hphase : s.module.phase = 0
  · rw [show mailPart (64 * mb) (leBytes 8 h ++ pay) s mb = s.dropMail from if_pos (Or.inl hphase)]
    exact ⟨_, rfl, ⟨rfl, rfl, rfl⟩, rfl, rfl⟩
  · have hbox := mailHeader_dropped (s := s.boxWritten mb h pay) (mailOf_illegal s hpay hh hwf (hbad.resolve_left hphase))
    rw [mailPart_whole s hpay hphase hbusy, hbox]
    exact ⟨_, rfl, ⟨rfl, rfl, rfl⟩, rfl, rfl⟩

/-! ### A message that its mailbox holds -/

theorem mailboxTake_none (hbusy : s.module.mbBusy = []) : exec .mailboxTake s = .next s := by
  change (.next (s.module.mbBusy.foldl takeHeld s) : Out) = _
  rw [hbusy]
  rfl

variable {gid : Nat} {msg : HostMsg} {g : Group} (hheld : s.module.mbBusy = [(mb, gid)]) (hmsg : s.mailOf mb gid = some msg)
  (hg : s.groupOf msg.gid = some g) (hrun : g.phase = .running)
include hheld hmsg hg hrun

theorem mailboxTake_queued (hroom : s.module.edgeQ.length < 8192) : Yields (exec .mailboxTake s) (fun t => SameCores s t ∧
    t.module = { s.module with mbBusy := [], edgeQ := s.module.edgeQ ++ [msg] }) := by
  have hrest : s.module.mbBusy.filter (· != (mb, gid)) = [] := by
    rw [hheld]
    simp
  change Yields (.next (s.module.mbBusy.foldl takeHeld s) : Out) _
  rw [hheld]
  change Yields (.next (takeHeld s (mb, gid)) : Out) _
  unfold takeHeld
  rw [hmsg]
  dsimp only
  rw [takeMail_queued mb hg hrun hroom]
  exact ⟨_, rfl, ⟨rfl, rfl, rfl⟩, congrArg (fun l => ({ s.module with mbBusy := l, edgeQ := s.module.edgeQ ++ [msg] } : Module)) hrest⟩

theorem mailboxTake_full (hfull : 8192 ≤ s.module.edgeQ.length) : exec .mailboxTake s = .next s := by
  change (.next (s.module.mbBusy.foldl takeHeld s) : Out) = _
  rw [hheld]
  change (.next (takeHeld s (mb, gid)) : Out) = _
  unfold takeHeld
  rw [hmsg]
  dsimp only
  rw [takeMail_full mb hg hrun hfull]
end

/-! ### The edge queue sends -/

theorem pickMail_none (s : State) (l : List HostMsg) (h : ∀ x ∈ l, s.canSend x = false) : pickMail s l = none := by
  induction l with
  | nil => rfl
  | cons x l ih =>
    unfold pickMail
    rw [h x List.mem_cons_self, ih fun y hy => h y (List.mem_cons_of_mem _ hy)]
    rfl

theorem pickMail_first (s : State) {pre rest : List HostMsg} {x : HostMsg} (hpre : ∀ y ∈ pre, s.canSend y = false) (hx : s.canSend x = true) :
    pickMail s (pre ++ x :: rest) = some (x, pre ++ rest) := by
  induction pre with
  | nil => exact if_pos hx
  | cons y pre ih =>
    rw [List.cons_append, pickMail, hpre y List.mem_cons_self, ih fun z hz => hpre z (List.mem_cons_of_mem _ hz)]
    rfl

/-- The HOST channel of a lid names it. -/
theorem hostChan_names (s : State) (gid lid : Nat) : { s.hostChan gid lid with gid := gid, lid := lid } = s.hostChan gid lid := by
  unfold State.hostChan
  cases hk : s.module.hostCh.find? (fun k => k.gid == gid && k.lid == lid) with
  | none => rfl
  | some k =>
    have hids := List.find?_some hk
    rw [Bool.and_eq_true, beq_iff_eq, beq_iff_eq] at hids
    obtain ⟨rfl, rfl⟩ := hids
    rfl

theorem hostChan_setHostChan (s : State) (k : HostCh) : (s.setHostChan k).hostChan k.gid k.lid = k := by
  unfold State.hostChan State.setHostChan
  dsimp only
  rw [List.find?_cons_of_pos (by rw [beq_self_eq_true, beq_self_eq_true]; rfl)]
  rfl

theorem edgeQueueSend_none (s : State) (h : ∀ x ∈ s.module.edgeQ, s.canSend x = false) : exec .edgeQueueSend s = .next s := by
  change execEdgeQueueSend s = _
  unfold execEdgeQueueSend
  rw [pickMail_none s _ h]

/-- The state in which a message has left the edge queue for core `c`. -/
def State.edgeSent (s : State) (x : HostMsg) (rest : List HostMsg) (c : Nat) : State :=
  let k := s.hostChan x.gid x.lid
  (({ s with module := { s.module with edgeQ := rest } } : State).setHostChan { k with seq := (k.seq + 1) % 4096, unack := k.unack + 1 }).after
    (transit 0 c + 9) (.channelPacketArrival c (k.packet x))

/-- What follows a message that leaves: the next one, and the mailboxes. -/
theorem moreDue_sent (s : State) (b : Bool) : MoreDue s (if (if b then s else s.afterOnce 1 .edgeQueueSend).module.mbBusy.isEmpty
    then (if b then s else s.afterOnce 1 .edgeQueueSend) else (if b then s else s.afterOnce 1 .edgeQueueSend).afterOnce 0 .mailboxTake) :=
  have h := moreDue_ite (b = true) (.refl s) (moreDue_afterOnce s 1 .edgeQueueSend)
  moreDue_ite _ h (h.trans (moreDue_afterOnce _ 0 .mailboxTake))

theorem edgeQueueSend_sends (s : State) {pre rest : List HostMsg} {x : HostMsg} {c : Nat} (hq : s.module.edgeQ = pre ++ x :: rest)
    (hpre : ∀ y ∈ pre, s.canSend y = false) (hx : s.canSend x = true) (hc : s.coreOf x.gid x.lid = some c) :
    Yields (exec .edgeQueueSend s) (fun t => SameCores s t ∧ t.module.edgeQ = pre ++ rest ∧
      t.hostChan x.gid x.lid = { s.hostChan x.gid x.lid with
        gid := x.gid, lid := x.lid, seq := ((s.hostChan x.gid x.lid).seq + 1) % 4096, unack := (s.hostChan x.gid x.lid).unack + 1 } ∧
      (s.cycle + transit 0 c + 9, .channelPacketArrival c ((s.hostChan x.gid x.lid).packet x)) ∈ t.agenda) := by
  change Yields (execEdgeQueueSend s) _
  unfold execEdgeQueueSend
  rw [hq, pickMail_first s hpre hx]
  dsimp only
  rw [hc, Option.getD_some]
  obtain ⟨l, hl, ht⟩ := moreDue_sent (s.edgeSent x (pre ++ rest) c) (pre ++ rest).isEmpty
  have hchan := hostChan_setHostChan { s with module := { s.module with edgeQ := pre ++ rest } } { s.hostChan x.gid x.lid with
    gid := x.gid, lid := x.lid, seq := ((s.hostChan x.gid x.lid).seq + 1) % 4096, unack := (s.hostChan x.gid x.lid).unack + 1 }
  have hnamed := congrArg (fun k : HostCh => { k with seq := (k.seq + 1) % 4096, unack := k.unack + 1 }) (hostChan_names s x.gid x.lid).symm
  refine ⟨{ s.edgeSent x (pre ++ rest) c with agenda := l }, congrArg (fun t => (.next t : Out)) ht, ⟨rfl, rfl, rfl⟩, rfl, ?_, hl _ ?_⟩
  · exact (congrArg (fun k => (State.setHostChan { s with module := { s.module with edgeQ := pre ++ rest } } k).hostChan x.gid x.lid) hnamed).trans hchan
  · rw [Nat.add_assoc]
    exact due_after _ _ _

end Sys2Proof.Machine

namespace Sys2Proof
open Machine

/-- Settles O57: the ring's registers, the report, an entry of the ring, a mailbox and the edge queue, each by the lemma about its step. -/
theorem hostSide : Obligations.HostSide := by
  unfold Obligations.HostSide
  refine ⟨fun s => ⟨fun v => ⟨fun h64 hlt hd => hrheadWrite_taken s v h64 hlt hd, fun hne h => hrheadWrite_ignored s v hne h, fun h => hrbaseWrite_ignored s v h,
      fun h h' => hrbaseWrite_taken s v h h', fun h h' => hrsizeWrite_taken s v h h', fun h => hrsizeWrite_ignored s v h, slotcapWrite_limited s v,
      fun h h' => attctlWrite_taken s v h h', fun h => attctlWrite_ignored s v h⟩, rfl, fun hwf hmod => attestationReport_written s hwf hmod,
      fun g tag len bytes ab hg hfull hlid htag hwf hend hroom => hostRingWrite_written hg hfull hlid htag hwf hend hroom,
      fun g hg h => hostRingWrite_nothing hg h⟩,
    fun s mb hmb => ⟨fun h pay hpay hh hwf hbusy hroom => ⟨fun g hg hgid hrun h38 hlen hlid hphase =>
        mailboxWrite_queued s hmb hpay hh hwf hbusy hroom hg hgid hrun h38 hlen hlid hphase,
        fun hbad => mailboxWrite_dropped s hmb hpay hh hwf hbusy hbad⟩, mailboxTake_none s,
      fun gid msg g hheld hmsg hg hrun => ⟨mailboxTake_queued s hheld hmsg hg hrun, mailboxTake_full s hheld hmsg hg hrun⟩, edgeQueueSend_none s,
      fun pre x rest c hq hpre hx hc => edgeQueueSend_sends s hq hpre hx hc⟩⟩

end Sys2Proof
end

section
/-! ## What an engine's accesses leave as it is

A landing reads and writes memory, answers those that wait and sends messages, at any place, and no thread of any core changes by it. -/

namespace Sys2Proof.Machine

variable {still : Prop}

theorem keepsThreads_linkReply (s : State) (home : Nat) (r : LinkReq) (v f : Nat) (g : Sig) : KeepsThreads s (s.linkReply home r v f g) still :=
  keepsThreads_ite _ (.refl s) (keepsThreads_linkSend ..)

theorem keepsThreads_afterOnce (s : State) (n : Nat) (e : Instr) : KeepsThreads s (s.afterOnce n e) still := (moreDue_afterOnce s n e).keepsThreads

theorem keepsThreads_raise (s : State) (c : Nat) (r : TrapRec) : KeepsThreads s (s.raise c r) still :=
  MoreDue.keepsThreads ⟨_, fun _ he => (mem_recordPut ..).mpr (Or.inr he), rfl⟩

/-! ### The way to a process (R215, R333) -/

theorem keepsThreads_forwardTo (s : State) (c g l : Nat) : KeepsThreads s (s.forwardTo c g l).1 still := by
  unfold State.forwardTo
  dsimp only
  split
  · exact keepsThreads_setCoreAt s {}
  · exact .refl s

theorem keepsThreads_chase (c g l a f cur t : Nat) (s : State) : KeepsThreads s (State.chase c g l a f cur t s).1 still := by
  induction f generalizing cur t s with
  | zero => exact .refl s
  | succ f ih =>
    unfold State.chase
    dsimp only
    split
    · exact .refl s
    · split
      · exact keepsThreads_forwardTo ..
      · exact (keepsThreads_forwardTo s cur g l).trans ((keepsThreads_after ..).trans (ih ..))

theorem keepsThreads_seek (s : State) (c : Nat) (p : Place) : KeepsThreads s (s.seek c p).1 still := by
  unfold State.seek
  dsimp only
  split
  · split
    · exact .refl s
    · split
      · exact .refl s
      · split
        · exact keepsThreads_lookUp ..
        · split
          · exact keepsThreads_useLoc ..
          · exact (keepsThreads_useLoc ..).trans (keepsThreads_chase ..)
  · exact .refl s

theorem keepsThreads_sendAck (s : State) (c : Nat) (a : Ack) (d : Nat) : KeepsThreads s (s.sendAck c a d) := by
  unfold State.sendAck
  dsimp only
  refine keepsThreads_ite _ (keepsThreads_after ..) (keepsThreads_ite _ (keepsThreads_after ..) ?_)
  split
  · exact (keepsThreads_useLoc ..).trans (keepsThreads_after ..)
  · exact keepsThreads_ite _ (keepsThreads_linkSend ..) (keepsThreads_after ..)

/-! ### Granules (R169, R170) -/

theorem keepsThreads_setBit (s : State) (p : Place) (full : Bool) : KeepsThreads s (s.setBit p full) still := by
  unfold State.setBit
  split
  · exact keepsThreads_onProc s _ _ (fun _ => rfl) fun _ => rfl
  · exact keepsThreads_of rfl rfl rfl rfl rfl rfl rfl
  · exact .refl s

theorem keepsThreads_answerWaiter (s : State) (home : Nat) (bad : Bool) (w : GWaiter) : KeepsThreads s (s.answerWaiter home bad w) still := by
  unfold State.answerWaiter
  dsimp only
  split
  · exact keepsThreads_linkReply ..
  · exact keepsThreads_after ..

theorem keepsThreads_waiters (s : State) (l : List GWaiter) : KeepsThreads s { s with waiters := l } still := keepsThreads_of rfl rfl rfl rfl rfl rfl rfl

theorem keepsThreads_fillGranule (s : State) (p : Place) : KeepsThreads s (s.fillGranule p) still := by
  unfold State.fillGranule
  dsimp only
  refine (keepsThreads_setBit s (p.align 16) true).trans ?_
  generalize s.setBit (p.align 16) true = s1
  split
  · refine .trans ?_ (keepsThreads_foldl _ _ (fun s w => keepsThreads_answerWaiter s _ _ w) _)
    exact keepsThreads_ite _ (keepsThreads_waiters ..) ((keepsThreads_waiters ..).trans (keepsThreads_noteError ..))
  · have hw := (keepsThreads_waiters (still := still) s1 (headWaiters (p.align 16) s1.waiterHeld s1.waiters).2).trans
      (keepsThreads_foldl (fun (acc : State) w => acc.answerWaiter (s1.homeOf (p.align 16)) false w) (headWaiters (p.align 16) s1.waiterHeld s1.waiters).1
        (fun s w => keepsThreads_answerWaiter s _ _ w) _)
    exact keepsThreads_ite _ (hw.trans (keepsThreads_setBit ..)) hw

theorem keepsThreads_landAt (s : State) (p : Place) (n v : Nat) (fill : Bool) : KeepsThreads s (s.landAt p n v fill) := by
  have hw := keepsThreads_homeWrite s p n v (2 ^ n - 1)
  unfold State.landAt
  dsimp only
  refine keepsThreads_ite _ hw ?_
  split
  · exact hw.trans (keepsThreads_fillGranule ..)
  · exact keepsThreads_ite _ (hw.trans (keepsThreads_fillGranule ..)) hw
  · exact hw

/-! ### Waits -/

theorem keepsThreads_waitUnit (s : State) (u : Place) (e : Instr) : KeepsThreads s (s.waitUnit u e) still := keepsThreads_of rfl rfl rfl rfl rfl rfl rfl

theorem keepsThreads_askFor (s : State) (a : Acc) (e : Instr) : KeepsThreads s (s.askFor a e) still :=
  keepsThreads_ite _ (.refl s) ((keepsThreads_linkAsk _ _ _ _).start rfl rfl rfl rfl rfl rfl rfl)

theorem keepsThreads_waitOn (s : State) (w : EWait) (e : Instr) : KeepsThreads s (s.waitOn w e) still := by
  cases w with
  | unit u => exact keepsThreads_waitUnit ..
  | bank cl b => exact keepsThreads_setCluster s rfl
  | moving => exact keepsThreads_after ..
  | link a => exact keepsThreads_askFor ..

/-! ### Reads and writes of an engine -/

theorem keepsThreads_passCache (s : State) (cl pa n v : Nat) : KeepsThreads s (s.passCache cl pa n v) := by
  unfold State.passCache
  dsimp only
  split
  · exact .refl s
  · exact keepsThreads_setLine ..

/-- What a cache has done of an access. -/
def CacheRes.Kept (s : State) (still : Prop) : CacheRes → Prop
  | .ok t _ _ => KeepsThreads s t still
  | .machine t => KeepsThreads s t still
  | _ => True

theorem cacheLoad_kept (s : State) (cl pa n scope : Nat) : (s.cacheLoad cl pa n scope).Kept s still := by
  unfold State.cacheLoad
  dsimp only
  split
  · split
    · exact keepsThreads_noteError ..
    · exact KeepsThreads.refl s
  · split
    · trivial
    · split
      · trivial
      · split
        · exact keepsThreads_noteError ..
        · split
          · exact KeepsThreads.refl s
          · exact keepsThreads_setLine ..

theorem cacheLoad_ok {s t : State} {cl pa n scope v : Nat} {hit : Bool} (h : s.cacheLoad cl pa n scope = .ok t v hit) :
    KeepsThreads s t still := by
  have hk := cacheLoad_kept (still := still) s cl pa n scope
  rwa [h] at hk

theorem cacheLoad_machine {s t : State} {cl pa n scope : Nat} (h : s.cacheLoad cl pa n scope = .machine t) : KeepsThreads s t still := by
  have hk := cacheLoad_kept (still := still) s cl pa n scope
  rwa [h] at hk

/-- A write that lands, its way looked for where it is not another module's. -/
theorem keepsThreads_seek_landAt (s : State) (p : Place) (n v : Nat) (fill : Bool) :
    KeepsThreads s (if (s.farAnswer p).isSome then (s, 0) else ((s.seek s.here p).1.landAt p n v fill, (s.seek s.here p).2)).1 := by
  split
  · exact .refl s
  · exact (keepsThreads_seek ..).trans (keepsThreads_landAt ..)

/-- What an engine has done of an access. -/
def ERes.Kept (s : State) (r : ERes) (still : Prop := False) : Prop :=
  match r with
  | .ok t _ _ => KeepsThreads s t still
  | .fault t _ _ => KeepsThreads s t still
  | .wait _ => True

theorem ERes.Kept.after {s t : State} {r : ERes} (h : KeepsThreads s t still) (hr : r.Kept t still) : r.Kept s still := by
  cases r with
  | ok u v n => exact h.trans hr
  | fault u c va => exact h.trans hr
  | wait w => trivial

@[simp] theorem uqbase_enterR (p : Proc) (l : Nat) : (p.enterR l).uqbase = p.uqbase := by unfold Proc.enterR; split <;> rfl
@[simp] theorem uqsize_enterR (p : Proc) (l : Nat) : (p.enterR l).uqsize = p.uqsize := by unfold Proc.enterR; split <;> rfl
@[simp] theorem uqbase_enterScoped (p : Proc) (l sc : Nat) : (p.enterScoped l sc).uqbase = p.uqbase := by
  unfold Proc.enterScoped; dsimp only; split <;> rfl
@[simp] theorem uqsize_enterScoped (p : Proc) (l sc : Nat) : (p.enterScoped l sc).uqsize = p.uqsize := by
  unfold Proc.enterScoped; dsimp only; split <;> rfl

theorem sameWho_enterR (p : Proc) (l : Nat) : SameWho p (p.enterR l) := by unfold Proc.enterR; split <;> exact {}
theorem windowKept_enterR (p : Proc) (l : Nat) : WindowKept p (p.enterR l) := by unfold Proc.enterR; split <;> exact {}
theorem sameWho_enterScoped (p : Proc) (l sc : Nat) : SameWho p (p.enterScoped l sc) := by
  unfold Proc.enterScoped; dsimp only; split <;> exact {}

theorem engRead_kept (s : State) (sv : Bool) (va : Word) (n i : Nat) : (s.engRead sv va n i).Kept s still := by
  unfold State.engRead
  dsimp only
  split
  · exact KeepsThreads.refl s
  · trivial
  · split
    · split
      next hload =>
        refine KeepsThreads.trans ?_ ((cacheLoad_ok hload).trans (keepsThreads_ite _ (.refl _) (keepsStill_setProc _ (uqbase_enterR ..) (uqsize_enterR ..) (sameWho_enterR ..) (windowKept_enterR ..))))
        split
        · exact keepsThreads_setLine ..
        · exact .refl s
      next hload =>
        refine KeepsThreads.trans ?_ (cacheLoad_machine hload)
        split
        · exact keepsThreads_setLine ..
        · exact .refl s
      · trivial
      · split
        · exact KeepsThreads.refl s
        · trivial
    · split
      · exact KeepsThreads.refl s
      · trivial
      · split
        · exact KeepsThreads.refl s
        · split
          · exact keepsThreads_noteError ..
          · exact keepsThreads_seek ..

theorem engWrite_kept (s : State) (sv : Bool) (va : Word) (n v i : Nat) (bypass fill : Bool) : (s.engWrite sv va n v i bypass fill).Kept s := by
  unfold State.engWrite
  dsimp only
  split
  · exact KeepsThreads.refl s
  · trivial
  · split
    · exact KeepsThreads.refl s
    · refine KeepsThreads.trans ?_ (keepsThreads_ite _ (.refl _) (keepsThreads_setProc _ (uqbase_enterScoped ..) (uqsize_enterScoped ..) (sameWho_enterScoped ..)))
      exact keepsThreads_setLine ..
    · split
      · exact KeepsThreads.refl s
      · trivial
      · split
        · exact (keepsThreads_seek_landAt ..).trans (keepsThreads_passCache ..)
        · exact keepsThreads_seek_landAt ..

theorem readPieces_kept (sv : Bool) (l : List (Word × Nat)) (s : State) (pos acc tm : Nat) : (readPieces sv l s pos acc tm).Kept s still := by
  induction l generalizing s pos acc tm with
  | nil => exact KeepsThreads.refl s
  | cons e l ih =>
    obtain ⟨va, k⟩ := e
    have h := engRead_kept (still := still) s sv va k pos
    unfold readPieces
    split
    next hread => rw [hread] at h; exact (ih ..).after h
    next => exact h

theorem writePieces_kept (sv bypass fill : Bool) (l : List (Word × Nat)) (s : State) (pos v tm : Nat) : (writePieces sv bypass fill l s pos v tm).Kept s := by
  induction l generalizing s pos v tm with
  | nil => exact KeepsThreads.refl s
  | cons e l ih =>
    obtain ⟨va, k⟩ := e
    have h := engWrite_kept s sv va k (v % 256 ^ k) pos bypass fill
    unfold writePieces
    split
    next hwrite => rw [hwrite] at h; exact (ih ..).after h
    next => exact h

theorem engReadRange_kept (s : State) (sv : Bool) (va : Word) (n : Nat) : (s.engReadRange sv va n).Kept s still := readPieces_kept ..

/-- What stands in the way of a write is found without a change. -/
theorem writeObstacle_kept {s : State} {sv bypass fill : Bool} {ps : List (Word × Nat)} {v : Nat} {r : ERes}
    (h : s.writeObstacle sv ps v bypass fill = some r) : r.Kept s := by
  unfold State.writeObstacle at h
  obtain ⟨e, -, he⟩ := List.exists_of_findSome?_eq_some h
  dsimp only at he
  split at he
  · cases he; exact KeepsThreads.refl s
  · cases he; trivial
  · split at he
    · cases he; exact KeepsThreads.refl s
    · split at he
      · contradiction
      · split at he
        · cases he; exact KeepsThreads.refl s
        · cases he; trivial
        · contradiction

theorem engWriteRange_kept (s : State) (sv : Bool) (va : Word) (n v : Nat) (bypass fill : Bool) : (s.engWriteRange sv va n v bypass fill).Kept s := by
  unfold State.engWriteRange
  dsimp only
  split
  next h => exact writeObstacle_kept h
  next => exact writePieces_kept ..

theorem engWriteRange_ok {s t : State} {sv bypass fill : Bool} {va : Word} {n v x y : Nat} (h : s.engWriteRange sv va n v bypass fill = .ok t x y) :
    KeepsThreads s t := by
  have hk := engWriteRange_kept s sv va n v bypass fill
  rwa [h] at hk

end Sys2Proof.Machine
end

section
/-! ## What the receive engine leaves as it is -/

namespace Sys2Proof.Machine

/-! ### Its process (R213, R226, R230) -/

/-- The process is the same one, and its unexpected queue has the base and the size that it had. -/
structure SameRing (p q : Proc) : Prop where
  base : q.uqbase = p.uqbase := by rfl
  size : q.uqsize = p.uqsize := by rfl
  who : SameWho p q := by exact {}

theorem SameRing.trans {p q r : Proc} (h : SameRing p q) (h' : SameRing q r) : SameRing p r :=
  ⟨h'.base.trans h.base, h'.size.trans h.size, h.who.trans h'.who⟩

theorem SameRing.set {s : State} {p : Proc} (h : SameRing s.proc p) : KeepsThreads s (s.setProc p) := keepsThreads_setProc s h.base h.size h.who

theorem sameRing_setInbound (p : Proc) (i : InCh) : SameRing p (p.setInbound i) := by
  unfold Proc.setInbound
  split <;> exact {}

theorem sameRing_setLandRec (p : Proc) (id : Nat) (r : Option Posted) : SameRing p (p.setLandRec id r) := by
  unfold Proc.setLandRec
  split <;> exact {}

theorem sameRing_enterSig (p : Proc) (g : Sig) : SameRing p (p.enterSig g) := by
  have hfold (l : List Nat) : ∀ p : Proc, SameRing p (l.foldl Proc.enterW p) := by
    induction l with
    | nil => exact fun _ => {}
    | cons x l ih => exact fun p => .trans ({} : SameRing p (p.enterW x)) (ih _)
  unfold Proc.enterSig
  dsimp only
  split
  · exact (hfold g.lines p).trans {}
  · exact hfold g.lines p

theorem sameRing_grantLatch (n : Nat) (p : Proc) : SameRing p (p.grantLatch n) := by
  induction n generalizing p with
  | zero => exact {}
  | succ n ih =>
    unfold Proc.grantLatch
    split
    · split
      · exact .trans {} (ih _)
      · exact {}
    · exact {}

theorem sameRing_reserveLatch (p : Proc) (key : Nat) : SameRing p (p.reserveLatch key).1 := by
  unfold Proc.reserveLatch
  dsimp only
  split
  all_goals split <;> exact {}

/-- A process whose queue stands where it stood is put in place. -/
theorem keepsThreads_sameProc (s : State) {p : Proc} (h : SameRing s.proc p) : KeepsThreads s (s.setProc p) := h.set

/-! ### Headers of the unexpected queue (R231, R232) -/

theorem keepsThreads_putHeader (s : State) (e : UqEnt) : KeepsThreads s (s.putHeader e) := by
  unfold State.putHeader
  dsimp only
  split
  · exact .trans (keepsThreads_setProc s (p := { s.proc with hdrs := s.proc.hdrs ++ [e] }) rfl rfl) (keepsThreads_waitUnit ..)
  · exact (((keepsThreads_homeWrite ..).trans (keepsThreads_fillGranule ..)).trans (keepsThreads_homeWrite ..)).trans (keepsThreads_fillGranule ..)

theorem keepsThreads_setUq (s : State) (e : UqEnt) : KeepsThreads s (s.setUq e) := by
  refine .trans ?_ (keepsThreads_putHeader _ e)
  exact keepsThreads_setProc s rfl rfl

theorem keepsThreads_retryLater (s : State) : KeepsThreads s s.retryLater := keepsThreads_afterOnce ..

theorem keepsThreads_reclaim (s : State) : KeepsThreads s s.reclaim := by
  have hset := keepsThreads_setProc s (p := { s.proc with uq := (uqReclaim s.proc.uq).1 }) rfl rfl
  exact keepsThreads_ite _ (hset.trans (keepsThreads_retryLater _)) hset

theorem uqAlloc_kept {s t : State} {src ch tag len off : Nat} {release : Bool} (h : s.uqAlloc src ch tag len release = some (t, off)) : KeepsThreads s t := by
  unfold State.uqAlloc at h
  dsimp only at h
  generalize (if s.proc.uqsize < s.proc.uqtail + (32 + (len + 31) / 32 * 32) then s.proc.uqsize - s.proc.uqtail else 0) = pad at h
  split at h
  · contradiction
  · injection h with h
    injection h with ht
    rw [← ht]
    refine .trans ?_ (keepsThreads_putHeader _ _)
    refine keepsThreads_ite _ ?_ (.trans ?_ (keepsThreads_putHeader _ _)) <;> exact keepsThreads_setProc s rfl rfl

/-! ### Bytes land (R228) -/

/-- What has come of the landing of some bytes. -/
def Landed.Kept (s : State) : Landed → Prop
  | .ok t _ _ => KeepsThreads s t
  | .fault t _ _ => KeepsThreads s t
  | .wait _ => True

/-- What has come of it where a fault or a wait ends it. -/
def ERes.KeptOr (s : State) : Except ERes State → Prop
  | .ok t => KeepsThreads s t
  | .error r => r.Kept s

theorem keptOr_after {s t : State} {r : Except ERes State} (h : KeepsThreads s t) (hr : ERes.KeptOr t r) : ERes.KeptOr s r := by
  cases r with
  | ok u => exact h.trans hr
  | error r => exact ERes.Kept.after h hr

theorem landRuns_kept (v : Nat) (runs : List (Word × Nat × Nat)) (s : State) : ERes.KeptOr s (landRuns v runs s) := by
  unfold landRuns
  dsimp only
  have hw := writePieces_kept false false true (runs.flatMap (fun e => pieces (e.2.1 + 1) e.1 e.2.1)) s 0 v 0
  split
  next h => exact writeObstacle_kept h
  next =>
    split
    next h => rw [h] at hw; exact hw
    next => exact hw

theorem landXacc_kept (dest : Word) (v : Nat) (n j off : Nat) (s : State) (p : Bool) : ERes.KeptOr s ((landXacc dest v n j off s p).map Prod.fst) := by
  induction n generalizing j s p with
  | zero => exact KeepsThreads.refl s
  | succ n ih =>
    have hread := engReadRange_kept (still := False) s false (dest + BitVec.ofNat 64 (off + 64 * j)) 64
    unfold landXacc
    dsimp only
    split
    next h1 =>
      rw [h1] at hread
      split
      next h2 => exact keptOr_after (KeepsThreads.trans hread (engWriteRange_ok h2)) (ih ..)
      next => exact ERes.Kept.after hread (engWriteRange_kept ..)
    next => exact hread

theorem xaccObstacle_kept {s : State} {dest : Word} {off n : Nat} {r : ERes} (h : s.xaccObstacle dest off n = some r) : r.Kept s := by
  unfold State.xaccObstacle at h
  dsimp only at h
  split at h
  · exact writeObstacle_kept h
  · injection h with h
    exact h ▸ engReadRange_kept ..

theorem landedErr_kept {s : State} {r : ERes} (h : r.Kept s) : (landedErr s r).Kept s := by
  cases r with
  | ok t v n => exact KeepsThreads.refl s
  | fault t c va => exact h
  | wait w => trivial

theorem land_kept (s : State) (r : RecvRec) (off : Nat) (bytes : List Byte) : (s.land r off bytes).Kept s := by
  unfold State.land
  dsimp only
  split
  · split
    next h => exact landedErr_kept (xaccObstacle_kept h)
    next =>
      have hx := landXacc_kept r.dest (leNat bytes) (min bytes.length (r.maxlen - off) / 64) 0 off s false
      split
      next h => rw [h] at hx; exact hx
      next h => rw [h] at hx; exact landedErr_kept hx
  · have hr := landRuns_kept (leNat bytes) (r.runs (min bytes.length (r.maxlen - off) + 1) off (min bytes.length (r.maxlen - off))) s
    split
    next h => rw [h] at hr; exact hr
    next h => rw [h] at hr; exact landedErr_kept hr

/-! ### Pieces of a packet and of a copy -/

/-- What a delivery has come to. -/
def Delivered.Kept (s : State) : Delivered → Prop
  | .ok t => KeepsThreads s t
  | .stuck t => KeepsThreads s t
  | .blocked t => KeepsThreads s t
  | .faulted t _ _ => KeepsThreads s t

theorem keepsThreads_holdDelivery (s : State) (w : EWait) : KeepsThreads s (s.holdDelivery w) := keepsThreads_waitOn ..

theorem keepsThreads_counts (s : State) (id : Nat) (r : Posted) (ends last : Bool) : KeepsThreads s (s.counts id r ends last) :=
  keepsThreads_ite _ (sameRing_setLandRec ..).set ((sameRing_setLandRec ..).set.trans (keepsThreads_after ..))

theorem keepsThreads_landed (s : State) (k : Nat) : KeepsThreads s (s.landed k) := keepsThreads_setProc s rfl rfl

theorem keepsThreads_nextPiece (s : State) (l : Landing) (d : Nat) : KeepsThreads s (s.nextPiece l d) := by
  have hset (x : Landing) := keepsThreads_setProc s (p := { s.proc with stream := some x }) rfl rfl
  exact keepsThreads_ite _ (hset _) ((hset _).trans (keepsThreads_afterOnce _ _ _))

theorem landPacket_kept (s : State) (pkt : Packet) (ends : Bool) (i : InCh) (m : InMsg) (id : Nat) (r : Posted) :
    (s.landPacket pkt ends i m id r).Kept s := by
  have hland := land_kept s r.rcd m.got pkt.payload
  unfold State.landPacket
  split
  next h => rw [h] at hland; exact hland
  next => exact keepsThreads_holdDelivery ..
  next h =>
    rw [h] at hland
    exact ((KeepsThreads.trans hland (sameRing_setInbound ..).set).trans (keepsThreads_landed ..)).trans (keepsThreads_counts ..)

theorem keepsThreads_queued (s : State) (pkt : Packet) (e : UqEnt) : KeepsThreads s (s.queued pkt e) := by
  refine keepsThreads_ite _ ((keepsThreads_setUq ..).trans (keepsThreads_reclaim _)) ?_
  exact keepsThreads_setProc s rfl rfl

theorem landQueued_kept (s : State) (pkt : Packet) (ends : Bool) (i : InCh) (m : InMsg) (off : Nat) : (s.landQueued pkt ends i m off).Kept s := by
  unfold State.landQueued
  split
  · exact (sameRing_setInbound ..).set
  · split
    next id r hrec =>
      have hp := landPacket_kept s pkt ends i m id r
      split
      next h => rw [h] at hp; exact KeepsThreads.trans hp (keepsThreads_queued ..)
      next => exact hp
    next =>
      dsimp only
      have hw := engWriteRange_kept s false (BitVec.ofNat 64 (0xFFFF * 2 ^ 48 + off + 32 + m.got)) pkt.payload.length (leNat pkt.payload) false true
      split
      next => exact keepsThreads_holdDelivery ..
      next h => rw [h] at hw; exact hw
      next h => rw [h] at hw; exact (KeepsThreads.trans hw (sameRing_setInbound ..).set).trans (keepsThreads_queued ..)

theorem landLatch_kept (s : State) (pkt : Packet) (ends : Bool) (i : InCh) (m : InMsg) (id : Nat) (rcd : Option Nat) :
    (s.landLatch pkt ends i m id rcd).Kept s := by
  have hp (q : Proc) (hq : SameRing s.proc q) (j : InCh) : SameRing s.proc (q.setInbound j) := hq.trans (sameRing_setInbound ..)
  have hs0 (b : Bool) (q : Proc) (hq : SameRing s.proc q) : KeepsThreads s (s.setProc (if b then q.dropLatch id else q)) := by
    cases b
    · exact hq.set
    · exact (hq.trans ({} : SameRing q (q.dropLatch id))).set
  have hlatch : SameRing s.proc (s.proc.mapLatch id (fun e => { e with bytes := e.bytes ++ pkt.payload })) := {}
  unfold State.landLatch
  dsimp only
  split
  · refine KeepsThreads.trans (.trans ?_ (keepsThreads_landed _ _)) (keepsThreads_counts _ _ _ _ _)
    refine keepsThreads_ite _ (.trans ?_ (keepsThreads_after _ _ _)) ?_
    all_goals
      split
      · exact (hs0 _ _ (hp _ hlatch _)).trans (keepsThreads_queued ..)
      · exact hs0 _ _ (hp _ hlatch _)
  · change KeepsThreads s _
    refine keepsThreads_ite _ (.trans ?_ (keepsThreads_after _ _ _)) ?_
    all_goals
      split
      · exact (hs0 _ _ (hp _ hlatch _)).trans (keepsThreads_queued ..)
      · exact hs0 _ _ (hp _ hlatch _)

theorem landMore_kept (s : State) (pkt : Packet) (ends : Bool) (i : InCh) (m : InMsg) : (s.landMore pkt ends i m).Kept s := by
  unfold State.landMore
  split
  · split
    · exact landPacket_kept ..
    · exact (sameRing_setInbound ..).set
  · exact landQueued_kept ..
  · exact landLatch_kept ..
  · exact (sameRing_setInbound ..).set

theorem keepsThreads_afterDelivery (s : State) (pkt : Packet) : KeepsThreads s (s.afterDelivery pkt) := by
  unfold State.afterDelivery
  dsimp only
  split
  · exact .refl s
  next i _ =>
    have hset (j : InCh) : KeepsThreads s (s.setProc (if pkt.close then { s.proc with inb := s.proc.inb.filter (fun x => !(x.src == pkt.src && x.ch == pkt.ch)) }
        else s.proc.setInbound j)) := by
      split
      · exact keepsThreads_setProc s rfl rfl
      · exact (sameRing_setInbound ..).set
    exact keepsThreads_ite _ ((hset _).trans (keepsThreads_sendAck ..)) ((hset _).trans (keepsThreads_after ..))

theorem packetPiece_kept (s : State) (k : Packet) (off n : Nat) (ends : Bool) : (s.packetPiece k off n ends).Kept s := by
  unfold State.packetPiece
  split
  · exact KeepsThreads.refl s
  next i _ =>
    have hend (t : State) (h : KeepsThreads s t) : KeepsThreads s (if ends then t.afterDelivery k else t) :=
      keepsThreads_ite _ (h.trans (keepsThreads_afterDelivery ..)) h
    dsimp only
    cases i.msg with
    | none => exact hend s (.refl s)
    | some m =>
      dsimp only
      by_cases hc : k.close = true
      · rw [if_pos hc]
        exact hend s (.refl s)
      · have hmore := landMore_kept s { k with payload := (k.payload.drop off).take n, last := k.last && ends, abort := k.abort && ends } ends i m
        rw [if_neg hc]
        split
        next h => rw [h] at hmore; exact hend _ hmore
        next => exact hmore

theorem keepsThreads_copyOver (s : State) (id : Nat) (slot : Option Nat) (e : UqEnt) (r : Posted) : KeepsThreads s (s.copyOver id slot e r) := by
  unfold State.copyOver
  dsimp only
  refine .trans ?_ (keepsThreads_reclaim _)
  refine .trans ?_ (keepsThreads_setProc _ rfl rfl)
  generalize ({ r with flags := r.flags ||| ((if s.proc.copySize id < e.got then fTrunc else 0) ||| (if e.abort then fAbort else 0)) } : Posted) = r1
  refine (keepsThreads_counts s id r1 true e.complete).trans ?_
  generalize s.counts id r1 true e.complete = s1
  have hp : SameRing s1.proc { s1.proc with copies := s1.proc.copies.tail } := {}
  split
  · exact hp.set
  · refine keepsThreads_ite _ (.trans ?_ (keepsThreads_after _ _ _)) ?_
    · split
      · exact hp.set
      · exact SameRing.set {}
    · split
      · exact (hp.trans (sameRing_setInbound ..)).set
      · exact hp.set

theorem copyPiece_kept (s : State) (off n : Nat) (ends : Bool) : (s.copyPiece off n ends).Kept s := by
  unfold State.copyPiece
  split
  · exact KeepsThreads.refl s
  next id slot _ _ =>
    split
    next e r _ _ =>
      have hfin (s1 : State) (k fl : Nat) (h : KeepsThreads s s1) : KeepsThreads s (if ends then
          ((s1.setProc (s1.proc.setLandRec id (some { r with flags := r.flags ||| fl }))).landed k).copyOver id slot e { r with flags := r.flags ||| fl }
          else (s1.setProc (s1.proc.setLandRec id (some { r with flags := r.flags ||| fl }))).landed k) := by
        have hset := (h.trans (sameRing_setLandRec s1.proc id (some { r with flags := r.flags ||| fl })).set).trans (keepsThreads_landed _ k)
        exact keepsThreads_ite _ (hset.trans (keepsThreads_copyOver ..)) hset
      dsimp only
      have hread : (if n = 0 then ERes.ok s 0 0 else s.engReadRange false (BitVec.ofNat 64 (0xFFFF * 2 ^ 48 + e.off + 32 + off)) n).Kept s := by
        split
        · exact KeepsThreads.refl s
        · exact engReadRange_kept ..
      generalize (if n = 0 then ERes.ok s 0 0 else s.engReadRange false (BitVec.ofNat 64 (0xFFFF * 2 ^ 48 + e.off + 32 + off)) n) = res at hread ⊢
      cases res with
      | wait w => exact keepsThreads_holdDelivery ..
      | fault t c va => exact hread
      | ok s1 v x =>
        dsimp only
        by_cases hmode : r.rcd.mode = 3
        · rw [if_pos hmode]
          cases slot with
          | none => exact hfin s1 n 0 hread
          | some l => exact hfin _ n 0 (KeepsThreads.trans hread (keepsThreads_setProc s1 rfl rfl))
        · rw [if_neg hmode]
          have hland := land_kept s1 r.rcd off (leBytes n v)
          split
          next h => rw [h] at hland; exact hfin _ _ _ (KeepsThreads.trans hread hland)
          next => exact keepsThreads_holdDelivery ..
          next h => rw [h] at hland; exact KeepsThreads.trans hread hland
    next => exact keepsThreads_setProc s rfl rfl

theorem keepsThreads_suspendLanding (s : State) (src ch : Nat) (t : Trap) (va : Word) : KeepsThreads s (s.suspendLanding src ch t va) := by
  refine .trans ?_ (keepsThreads_raise _ _ _)
  exact keepsThreads_setProc s rfl rfl

theorem landPiece_kept (s : State) (l : Landing) : (s.landPiece l).Kept s := by
  unfold State.landPiece
  dsimp only
  have hpiece (d : Delivered) (h : (match l.pkt with
      | some k => s.packetPiece k l.off (s.proc.pieceSize l) (decide (s.proc.landSize l ≤ l.off + s.proc.pieceSize l))
      | none => s.copyPiece l.off (s.proc.pieceSize l) (decide (s.proc.landSize l ≤ l.off + s.proc.pieceSize l))) = d) : d.Kept s := by
    rw [← h]
    split
    · exact packetPiece_kept ..
    · exact copyPiece_kept ..
  split
  next s1 h =>
    have hk : KeepsThreads s s1 := hpiece _ h
    split
    · exact hk.trans (keepsThreads_setProc s1 rfl rfl)
    · change KeepsThreads s _
      split
      · exact hk.trans (keepsThreads_nextPiece ..)
      · exact hk
  next s1 t va h => exact KeepsThreads.trans (hpiece _ h) (keepsThreads_suspendLanding ..)
  next => exact hpiece _ rfl

/-! ### A delivery begins (R213, R227, R230) -/

/-- What the steps of an acquire have done. -/
def AcqRes.Kept (s : State) : AcqRes → Prop
  | .ok t => KeepsThreads s t
  | .machine t => KeepsThreads s t
  | .wait t _ => KeepsThreads s t

theorem acquireSteps_kept (s : State) (g : Sig) : (s.acquireSteps g).Kept s := by
  unfold State.acquireSteps
  dsimp only
  split
  · exact KeepsThreads.refl s
  next h => exact keepsThreads_writeBackAll h
  next s1 h =>
    have hw := keepsThreads_writeBackAll h
    split
    · split
      · exact hw
      · exact hw.trans (SameRing.trans (q := { s1.proc with sigR := {} }) {} (sameRing_enterSig ..)).set
    · exact hw

/-- What a FIRST packet's acquire has done, over or not. -/
def EitherKept (s : State) : Except State State → Prop
  | .ok t => KeepsThreads s t
  | .error t => KeepsThreads s t

theorem firstAcquire_kept (s : State) (pkt : Packet) : EitherKept s (s.firstAcquire pkt) := by
  unfold State.firstAcquire
  split
  · exact KeepsThreads.refl s
  · have h := acquireSteps_kept s pkt.sig
    split
    next h1 => rw [h1] at h; exact h
    next s1 h1 =>
      rw [h1] at h
      exact KeepsThreads.trans h (SameRing.trans (q := { s1.proc with sigR := {} }) {} (sameRing_enterSig ..)).set
    next h1 => rw [h1] at h; exact KeepsThreads.trans h (keepsThreads_holdDelivery ..)
    next h1 => rw [h1] at h; exact KeepsThreads.trans h (keepsThreads_after ..)
    next h1 => rw [h1] at h; exact KeepsThreads.trans h (keepsThreads_afterOnce ..)

theorem keepsThreads_beginMsg (s : State) (pkt : Packet) (i : InCh) (a : LandAt) : KeepsThreads s (s.beginMsg pkt i a) := (sameRing_setInbound ..).set

theorem firstInLatch_kept {s sa : State} (h : KeepsThreads s sa) (pkt : Packet) (i : InCh) (rcd : Option (Nat × Posted)) :
    (s.firstInLatch sa pkt i rcd).Kept s := by
  unfold State.firstInLatch
  dsimp only
  split
  next p1 hres =>
    have hp := sameRing_reserveLatch s.proc (latchKey pkt.src pkt.ch)
    rw [hres] at hp
    exact SameRing.set hp
  next =>
    have hp := sameRing_reserveLatch sa.proc (latchKey pkt.src pkt.ch)
    refine (h.trans ?_).trans (keepsThreads_beginMsg ..)
    split
    · exact (hp.trans (sameRing_setLandRec ..)).set
    · exact hp.set

/-! ### The whole of what the engine does in a cycle

A latch slot that comes free is granted to a thread, which goes on later for it. -/

/-- A core on which the receive engine has acted in cycle `now`. -/
structure CoreRuns (now : Nat) (k l : Core) : Prop where
  halted : l.halted = k.halted
  base : l.proc.uqbase = k.proc.uqbase
  size : l.proc.uqsize = k.proc.uqsize
  slots : ∀ i : Fin 12, l.slots[i] = k.slots[i] ∨ l.slots[i] = { k.slots[i] with notBefore := max k.slots[i].notBefore (now + 1) }

theorem CoreKept.runs {k l : Core} (h : CoreKept k l) (now : Nat) : CoreRuns now k l :=
  ⟨h.halted, h.base, h.size, fun i => Or.inl (congrArg (fun v : Vector Thread 12 => v[i]) h.slots)⟩

theorem CoreRuns.trans {now : Nat} {k l m : Core} (h : CoreRuns now k l) (h' : CoreRuns now l m) : CoreRuns now k m := by
  refine ⟨h'.halted.trans h.halted, h'.base.trans h.base, h'.size.trans h.size, fun i => ?_⟩
  rcases h.slots i with hi | hi
  · rw [← hi]
    exact h'.slots i
  · rcases h'.slots i with hj | hj
    · exact Or.inr (hj.trans hi)
    · rw [hi] at hj
      dsimp only at hj
      rw [Nat.max_assoc, Nat.max_self] at hj
      exact Or.inr hj

/-- A machine on which the receive engine of the core in focus has acted. -/
structure RunsOn (s t : State) : Prop where
  here : t.here = s.here
  cycle : t.cycle = s.cycle
  due : ∀ e ∈ s.agenda, e ∈ t.agenda
  halts : ∀ cl, (t.clusterAt cl).dbgHalted = (s.clusterAt cl).dbgHalted
  core : CoreRuns s.cycle s.core t.core
  fixed : Fixed s t

theorem KeepsThreads.runsOn {s t : State} (h : KeepsThreads s t) : RunsOn s t := ⟨h.here, h.cycle, h.due, h.halts, h.core.runs _, h.fixed⟩

theorem RunsOn.trans {s t u : State} (h : RunsOn s t) (h' : RunsOn t u) : RunsOn s u :=
  ⟨h'.here.trans h.here, h'.cycle.trans h.cycle, fun e he => h'.due e (h.due e he), fun cl => (h'.halts cl).trans (h.halts cl),
    h.core.trans (h.cycle ▸ h'.core), h.fixed.trans h'.fixed⟩

theorem runsOn_noteGrants (s : State) (m : MatQ) : RunsOn s (s.noteGrants m) := by
  unfold State.noteGrants
  dsimp only
  split
  · exact (KeepsThreads.refl s).runsOn
  · refine ⟨rfl, rfl, fun _ h => h, fun _ => rfl, ⟨rfl, rfl, rfl, fun i => ?_⟩, {}⟩
    rw [getElem_vmapIdx]
    split
    · exact Or.inr rfl
    · exact Or.inl rfl

theorem runsOn_leaveLatchWait (s : State) (key : Nat) : RunsOn s (s.leaveLatchWait key) := by
  unfold State.leaveLatchWait
  dsimp only
  split
  · have hgrant := (SameRing.trans (p := s.proc) (q := { s.proc with mq := { s.proc.mq with latchWait := s.proc.mq.latchWait.filter (· != key) } }) {}
      (sameRing_grantLatch 2 _)).set
    exact (hgrant.runsOn.trans (runsOn_noteGrants ..)).trans (keepsThreads_retryLater _).runsOn
  · exact (KeepsThreads.refl s).runsOn

/-- What a delivery has come to where latch slots are granted. -/
def Delivered.Runs (s : State) : Delivered → Prop
  | .ok t => RunsOn s t
  | .stuck t => RunsOn s t
  | .blocked t => RunsOn s t
  | .faulted t _ _ => RunsOn s t

theorem Delivered.Kept.runs {s : State} {d : Delivered} (h : d.Kept s) : d.Runs s := by
  cases d <;> exact KeepsThreads.runsOn h

theorem deliverFirst_runs (s : State) (pkt : Packet) (i : InCh) : (s.deliverFirst pkt i).Runs s := by
  have hacq := firstAcquire_kept s pkt
  unfold State.deliverFirst
  split
  next h => rw [h] at hacq; exact KeepsThreads.runsOn hacq
  next sa h =>
    rw [h] at hacq
    have hleave := (KeepsThreads.runsOn hacq).trans (runsOn_leaveLatchWait sa (latchKey pkt.src pkt.ch))
    split
    · exact (firstInLatch_kept hacq pkt i none).runs
    · split
      · dsimp only
        split
        · exact (firstInLatch_kept hacq ..).runs
        · exact hleave.trans ((sameRing_setLandRec ..).set.trans (keepsThreads_beginMsg ..)).runsOn
      · split
        · exact (keepsThreads_holdDelivery ..).runsOn
        · dsimp only
          split
          · exact runsOn_leaveLatchWait ..
          next h => exact hleave.trans ((uqAlloc_kept h).trans (keepsThreads_beginMsg ..)).runsOn

theorem deliver_runs (s : State) (pkt : Packet) (i : InCh) : (s.deliver pkt i).Runs s := by
  unfold State.deliver
  split
  · exact deliverFirst_runs ..
  · exact (KeepsThreads.refl s).runsOn

theorem keepsThreads_forgetBreak (s : State) (pkt : Packet) : KeepsThreads s (s.forgetBreak pkt) := keepsThreads_core {}

theorem keepsThreads_breakAt (s : State) (pkt : Packet) : KeepsThreads s (s.breakAt pkt) := by
  refine .trans ?_ (keepsThreads_after _ _ _)
  exact keepsThreads_core {}

theorem deliverHeld_runs (s : State) (pkt : Packet) : (s.deliverHeld pkt).Runs s := by
  unfold State.deliverHeld
  split
  · exact (KeepsThreads.refl s).runsOn
  next i _ =>
    have hd := deliver_runs s pkt i
    split
    next s1 h =>
      rw [h] at hd
      exact RunsOn.trans hd (((SameRing.set ({} : SameRing s1.proc (s1.proc.unhold pkt))).trans (keepsThreads_forgetBreak ..)).trans
        (keepsThreads_nextPiece ..)).runsOn
    next s1 h =>
      rw [h] at hd
      refine RunsOn.trans hd (KeepsThreads.runsOn ?_)
      exact keepsThreads_setProc s1 rfl rfl
    next => exact hd

theorem runsOn_drainFrom (n : Nat) (retry : Bool) (skip : List Packet) (s : State) : RunsOn s (drainFrom n retry skip s) := by
  induction n generalizing skip s with
  | zero => exact (KeepsThreads.refl s).runsOn
  | succ n ih =>
    unfold drainFrom
    split
    · exact (KeepsThreads.refl s).runsOn
    · split
      next l _ =>
        split
        · exact (KeepsThreads.refl s).runsOn
        · have hp := landPiece_kept s l
          split
          all_goals
            next h => rw [h] at hp; first | exact (KeepsThreads.runsOn hp).trans (ih ..) | exact KeepsThreads.runsOn hp
      next =>
        split
        · split
          · exact (KeepsThreads.refl s).runsOn
          · exact (keepsThreads_afterOnce ..).runsOn
        · split
          · exact (keepsThreads_nextPiece ..).runsOn.trans (ih ..)
          · split
            · exact (KeepsThreads.refl s).runsOn
            · split
              · exact (KeepsThreads.refl s).runsOn
              next pkt _ =>
                split
                · exact (keepsThreads_breakAt ..).runsOn
                · have hd := deliverHeld_runs s pkt
                  split
                  next h => rw [h] at hd; exact RunsOn.trans hd (ih ..)
                  next h =>
                    rw [h] at hd
                    split
                    · exact hd
                    · exact RunsOn.trans hd (ih ..)
                  next h => rw [h] at hd; exact hd
                  next h => rw [h] at hd; exact hd

theorem runsOn_retryBlocked (s : State) : RunsOn s s.retryBlocked := by
  unfold State.retryBlocked State.engineGoes
  split
  · exact runsOn_drainFrom ..
  · exact (KeepsThreads.refl s).runsOn

theorem keepsThreads_kickCopy {still : Prop} (s : State) : KeepsThreads s s.kickCopy still := by
  unfold State.kickCopy
  split
  · exact keepsThreads_ite _ (.refl s) (keepsThreads_after ..)
  · exact keepsThreads_ite _ (keepsThreads_afterOnce ..) (.refl s)

end Sys2Proof.Machine
end

section
/-! ## O56: writes of registers that are steps of their own, and repair -/

namespace Sys2Proof.Machine

/-! ### UQCFG (R231, R233) -/

/-- The unexpected queue of a process has the base and the size of that of another. -/
def RingAt (p q : Proc) : Prop := q.uqbase = p.uqbase ∧ q.uqsize = p.uqsize

theorem RunsOn.ring {s t : State} (h : RunsOn s t) : RingAt s.core.proc t.core.proc := ⟨h.core.base, h.core.size⟩

theorem writeUqcfg_held {s : State} (v : Word) (h : ∃ e ∈ s.core.proc.uq, e.pad = false) : RingAt s.core.proc (s.writeUqcfg v).core.proc := by
  have hany : s.proc.uq.any (fun e => !e.pad) = true := by simpa [State.proc] using h
  unfold State.writeUqcfg
  dsimp only
  rw [if_pos hany]
  exact (runsOn_retryBlocked s).ring

theorem writeUqcfg_free {s : State} {v : Word} {base size : Nat} (h : ∀ e ∈ s.core.proc.uq, e.pad = true)
    (hb : base = v.toNat % 2 ^ 18 / 256 * 256) (hs : size = v.toNat / 2 ^ 32 % 2 ^ 18 / 256 * 256) :
    RingAt { s.core.proc with uqbase := base, uqsize := if s.core.proc.winsize < base + size then (s.core.proc.winsize - base) / 256 * 256 else size }
      (s.writeUqcfg v).core.proc := by
  have hany : ¬ s.proc.uq.any (fun e => !e.pad) = true := by simpa [State.proc] using h
  unfold State.writeUqcfg
  dsimp only
  rw [if_neg hany, ← hb, ← hs]
  exact (runsOn_retryBlocked _).ring

/-! ### INTPOST (R385) -/

theorem setThr_unless (s : State) (c : Prop) [Decidable c] (t : Thread) :
    (if c then s else s.setThr t) = s ∨ ∃ u, (if c then s else s.setThr t) = s.setThr u := by
  split
  · exact Or.inl rfl
  · exact Or.inr ⟨t, rfl⟩

theorem testWaitm_form (s : State) : s.testWaitm = s ∨ ∃ t, s.testWaitm = s.setThr t := by
  unfold State.testWaitm
  split
  · exact Or.inl rfl
  · cases s.thr.wait with
    | none => exact Or.inl rfl
    | some w =>
      cases w with
      | waitm d dl => exact setThr_unless ..
      | _ => exact Or.inl rfl

/-- A WAITM to which an interrupt is posted ends and takes it. -/
theorem testWaitm_ends {s : State} {d : BitVec 5} {dl : Option Nat} (hintr : s.thr.intr = true) (hwait : s.thr.wait = some (.waitm d dl))
    (hh : s.proc.hold = none ∨ s.slot.val = 11) : ∃ t : Thread, s.testWaitm = s.setThr t ∧ t.wait = none ∧ t.intr = false := by
  have hhold : ¬ (s.proc.hold.isSome && s.slot.val != 11) = true := by
    rcases hh with h | h <;> simp [h]
  unfold State.testWaitm
  rw [if_neg hhold, hwait]
  simp only [hintr, if_true]
  rw [if_neg (by lia)]
  exact ⟨_, rfl, rfl, by unfold Thread.resumedAfter Thread.resumed; simp⟩

/-- The thread of a slot of the core in focus is another. -/
theorem setThrAt_here (s : State) (i : Fin 12) (t : Thread) : s.setThrAt s.here i.val t = { ({ s with slot := i } : State).setThr t with slot := s.slot } := by
  refine (if_pos rfl).trans ?_
  rw [coreAt_here, setIfInBounds_eq_set]
  rfl

theorem focusSlot_setThrAt (s : State) (i : Fin 12) (t : Thread) : (s.setThrAt s.here i.val t).focusSlot s.here i.val = ({ s with slot := i } : State).setThr t := by
  rw [setThrAt_here]
  exact (focusSlot_here _ i.val).trans (by rw [show Fin.ofNat 12 i.val = i from Fin.ofNat_val_eq_self i]; rfl)

theorem slots_setThrAt (s : State) (i : Fin 12) (t : Thread) : (s.setThrAt s.here i.val t).core.slots[i] = t := by
  rw [setThrAt_here]
  exact thr_setThr _ t

theorem slots_setThrAt_other (s : State) {i j : Fin 12} (h : j ≠ i) (t : Thread) : (s.setThrAt s.here i.val t).core.slots[j] = s.core.slots[j] := by
  rw [setThrAt_here]
  exact slots_setThr_other _ t h

/-- What an interrupt makes of the machine: the thread of its slot, and no other, may be another. -/
theorem postInt_form (s : State) (i : Fin 12) : s.postInt i = s ∨ ∃ t, s.postInt i = s.setThrAt s.here i t := by
  by_cases hlive : (!(s.core.thr i.val).live) = true
  · exact Or.inl (if_pos hlive)
  · rw [show s.postInt i = _ from if_neg hlive]
    split
    · exact Or.inr ⟨_, rfl⟩
    · have hfocus := congrArg (fun u : State => ({ u.testWaitm with slot := s.slot } : State)) (focusSlot_setThrAt s i { s.core.thr i.val with intr := true })
      rcases testWaitm_form (({ s with slot := i } : State).setThr { s.core.thr i.val with intr := true }) with h | ⟨t, h⟩
      · exact Or.inr ⟨_, hfocus.trans (by rw [h, setThrAt_here])⟩
      · exact Or.inr ⟨t, hfocus.trans (by rw [h, setThr_setThr, setThrAt_here])⟩

/-- Interrupts that are posted, none of them to slot `i`. -/
structure PostsPast (i : Fin 12) (s t : State) : Prop where
  mem : t.mem = s.mem
  here : t.here = s.here
  proc : t.core.proc = s.core.proc
  thr : t.core.slots[i] = s.core.slots[i]

theorem PostsPast.refl (i : Fin 12) (s : State) : PostsPast i s s := ⟨rfl, rfl, rfl, rfl⟩

theorem PostsPast.trans {i : Fin 12} {s t u : State} (h : PostsPast i s t) (h' : PostsPast i t u) : PostsPast i s u :=
  ⟨h'.mem.trans h.mem, h'.here.trans h.here, h'.proc.trans h.proc, h'.thr.trans h.thr⟩

theorem mem_postInt (s : State) (i : Fin 12) : (s.postInt i).mem = s.mem := by
  rcases postInt_form s i with h | ⟨t, h⟩
  · rw [h]
  · rw [h, setThrAt_here]; rfl

theorem proc_postInt (s : State) (i : Fin 12) : (s.postInt i).core.proc = s.core.proc := by
  rcases postInt_form s i with h | ⟨t, h⟩
  · rw [h]
  · rw [h, setThrAt_here]; rfl

theorem postsPast_postInt (s : State) {i j : Fin 12} (h : i ≠ j) : PostsPast i s (s.postInt j) := by
  refine ⟨mem_postInt s j, ?_, proc_postInt s j, ?_⟩
  all_goals rcases postInt_form s j with hs | ⟨t, hs⟩
  · rw [hs]
  · rw [hs, setThrAt_here]; rfl
  · rw [hs]
  · rw [hs, slots_setThrAt_other s h]

/-- The interrupts of the bits of `v` for the slots of a list. -/
def State.postAll (v : Word) (l : List (Fin 12)) (s : State) : State := l.foldl (fun acc i => if v.getLsbD i.val then acc.postInt i.val else acc) s

theorem writeIntpost_eq (s : State) (v : Word) : s.writeIntpost v = s.postAll v (List.finRange 12) := by
  unfold State.writeIntpost State.postAll
  rw [← List.map_coe_finRange_eq_range, List.foldl_map]

theorem postsPast_postAll (v : Word) {i : Fin 12} (l : List (Fin 12)) (h : i ∉ l) (s : State) : PostsPast i s (s.postAll v l) := by
  induction l generalizing s with
  | nil => exact .refl i s
  | cons j l ih =>
    obtain ⟨hj, hl⟩ := List.ne_and_not_mem_of_not_mem_cons h
    refine .trans ?_ (ih hl _)
    dsimp only
    split
    · exact postsPast_postInt s hj
    · exact .refl i s

/-- The thread of slot `i` after a write of INTPOST is as its own interrupt, if any, leaves it. -/
theorem writeIntpost_at (s : State) (v : Word) (i : Fin 12) : ∃ u, PostsPast i s u ∧ (s.writeIntpost v).mem = s.mem ∧
    (s.writeIntpost v).core.proc = s.core.proc ∧ (s.writeIntpost v).core.slots[i] = (if v.getLsbD i.val then u.postInt i.val else u).core.slots[i] := by
  obtain ⟨a, b, hab⟩ := List.append_of_mem (List.mem_finRange i)
  obtain ⟨-, hnb, hdis⟩ := List.nodup_append.mp (hab ▸ List.nodup_finRange 12)
  have hb : i ∉ b := (List.nodup_cons.mp hnb).1
  have ha : i ∉ a := fun hi => hdis i hi i (List.mem_cons_self ..) rfl
  have h1 := postsPast_postAll v a ha s
  have h2 := postsPast_postAll v b hb (if v.getLsbD i.val then (s.postAll v a).postInt i.val else s.postAll v a)
  rw [writeIntpost_eq, hab, show s.postAll v (a ++ i :: b) =
    (if v.getLsbD i.val then (s.postAll v a).postInt i.val else s.postAll v a).postAll v b from List.foldl_append ..]
  refine ⟨s.postAll v a, h1, h2.mem.trans ?_, h2.proc.trans ?_, h2.thr⟩
  all_goals split
  · exact (mem_postInt ..).trans h1.mem
  · exact h1.mem
  · exact (proc_postInt ..).trans h1.proc
  · exact h1.proc

theorem thr_slot (s : State) (i : Fin 12) : s.core.thr i.val = s.core.slots[i] := core_thr_slot { s with slot := i }

theorem postInt_dead {s : State} {i : Fin 12} (h : s.core.slots[i].live = false) : s.postInt i = s := if_pos (by rw [thr_slot, h]; rfl)

/-- An interrupt is posted to a thread that is parked in no TRGET. -/
theorem postInt_live {s : State} {i : Fin 12} (h : s.core.slots[i].live = true) (hw : ∀ d, s.core.slots[i].wait ≠ some (.trget d)) :
    (s.postInt i).core = (({ s with slot := i } : State).setThr { s.core.slots[i] with intr := true }).testWaitm.core := by
  refine (congrArg State.core (if_neg (by rw [thr_slot, h]; decide))).trans ?_
  split
  next d hd => exact absurd (thr_slot s i ▸ hd) (hw d)
  next => exact congrArg (fun u : State => u.testWaitm.core) ((focusSlot_setThrAt ..).trans (by rw [thr_slot]))

theorem postInt_idle {s : State} {i : Fin 12} (h : s.core.slots[i].live = true) (hw : s.core.slots[i].wait = none) :
    (s.postInt i).core.slots[i] = { s.core.slots[i] with intr := true } := by
  rw [postInt_live h (fun d hd => nomatch hw.symm.trans hd), testWaitm_idle (by rw [thr_setThr]; exact hw)]
  exact thr_setThr ({ s with slot := i } : State) _

theorem postInt_waitm {s : State} {i : Fin 12} {d : BitVec 5} {dl : Option Nat} (h : s.core.slots[i].live = true)
    (hw : s.core.slots[i].wait = some (.waitm d dl)) (hh : s.core.proc.hold = none ∨ i.val = 11) :
    (s.postInt i).core.slots[i].wait = none ∧ (s.postInt i).core.slots[i].intr = false := by
  obtain ⟨t, ht, hnone, hintr⟩ := testWaitm_ends (s := ({ s with slot := i } : State).setThr { s.core.slots[i] with intr := true }) (d := d) (dl := dl)
    (by rw [thr_setThr]) (by rw [thr_setThr]; exact hw) hh
  rw [postInt_live h (fun e he => nomatch hw.symm.trans he), ht, setThr_setThr]
  rw [show (({ s with slot := i } : State).setThr t).core.slots[i] = t from thr_setThr ({ s with slot := i } : State) t]
  exact ⟨hnone, hintr⟩

theorem rx_trgetNone (t : Thread) (d : BitVec 5) {j : Nat} (hj : j < 4) : (t.trgetNone d).rx (d + BitVec.ofNat 5 j) = 0 := by
  have hkeep {u : Thread} {r : BitVec 5} (e : BitVec 5) (h : u.rx r = 0) : (u.wx e 0).rx r = 0 := by
    rw [rx_wx]
    split
    · rfl
    · exact h
  have hself (u : Thread) (r : BitVec 5) : (u.wx r 0).rx r = 0 := by
    by_cases h : r = 0#5
    · rw [h]; rfl
    · rw [rx_wx, if_pos ⟨rfl, h⟩]
  obtain rfl | rfl | rfl | rfl := (by decide : ∀ i < 4, i = 0 ∨ i = 1 ∨ i = 2 ∨ i = 3) j hj
  · exact hkeep _ (hkeep _ (hkeep _ (by rw [BitVec.add_zero]; exact hself _ _)))
  · exact hkeep _ (hkeep _ (hself _ _))
  · exact hkeep _ (hself _ _)
  · exact hself _ _

theorem postInt_trget {s : State} {i : Fin 12} {d : BitVec 5} (h : s.core.slots[i].live = true) (hw : s.core.slots[i].wait = some (.trget d)) :
    (s.postInt i).core.slots[i] = { (s.core.slots[i].trgetNone d).resumed with got := [] } := by
  refine (congrArg (fun u : State => u.core.slots[i]) (if_neg (by rw [thr_slot, h]; decide))).trans ?_
  rw [thr_slot, hw]
  exact slots_setThrAt ..

/-! ### TXVAL, FPCTL and BAR2 (R88, R385, R399) -/

theorem txThread_of {s : State} {i : Fin 12} (hi : s.core.txsel.toNat % 16 = i.val) :
    s.txThread = if s.core.slots[i].trap.isSome then some i.val else none := by
  unfold State.txThread
  dsimp only
  rw [hi, thr_slot]
  simp [i.isLt]

theorem writeTxval_of {s : State} {i : Fin 12} (v : Word) (hi : s.core.txsel.toNat % 16 = i.val) (ht : s.core.slots[i].trap.isSome = true) :
    s.writeTxval v = s.setThrAt s.here i.val
      (if s.core.txsel.getLsbD 8 then s.core.slots[i].wf (s.core.txsel.extractLsb' 16 5) v else s.core.slots[i].wx (s.core.txsel.extractLsb' 16 5) v) := by
  unfold State.writeTxval
  rw [txThread_of hi, if_pos ht]
  dsimp only
  rw [thr_slot]
  rfl

theorem writeTxval_none {s : State} (v : Word) (h : ∀ i : Fin 12, s.core.txsel.toNat % 16 = i.val → s.core.slots[i].trap = none) : s.writeTxval v = s := by
  have hnone : s.txThread = none := by
    by_cases hlt : s.core.txsel.toNat % 16 < 12
    · rw [txThread_of (i := ⟨_, hlt⟩) rfl, h ⟨_, hlt⟩ rfl]
      rfl
    · unfold State.txThread
      dsimp only
      rw [if_neg fun hc => hlt hc.1]
  unfold State.writeTxval
  rw [hnone]

theorem fpctlStored_eq (v : Word) : fpctlStored v = (v &&& 0x1F18#64) ||| (if v.toNat % 8 ≤ 4 then v &&& 7#64 else 0) := by
  have hrm : (v.extractLsb' 0 3).toNat = v.toNat % 8 := by simp [BitVec.extractLsb'_toNat]
  have hlow : (v.extractLsb' 0 3).setWidth 64 = v &&& 7#64 := BitVec.eq_of_toNat_eq (by
    rw [BitVec.toNat_setWidth, hrm, BitVec.toNat_and]
    exact (Nat.mod_eq_of_lt ((Nat.mod_lt _ (by decide)).trans (by decide))).trans (Nat.and_two_pow_sub_one_eq_mod v.toNat 3).symm)
  unfold fpctlStored
  dsimp only
  rw [hrm]
  split
  · rw [hlow]
  · rfl

theorem statusTrap_priv {slot n : Nat} (hn : 0x800 ≤ n) (hs : slot ≠ 11) : statusTrap slot n = some .priv := by
  unfold statusTrap
  rw [if_neg (Nat.not_lt.mpr hn), if_pos hs]

theorem writeBar2_nonce (s : State) (n : Fin 4) (v : Word) :
    s.writeBar2 (0x0060 + 8 * n.val) v = { s with module := { s.module with attnonce := s.module.attnonce.set n v n.isLt } } := by
  obtain rfl | rfl | rfl | rfl : n = 0 ∨ n = 1 ∨ n = 2 ∨ n = 3 := by decide +revert
  all_goals rfl

theorem exec_registerWrite_status {core num : Nat} {i : Fin 12} {v : Word} {s : State} :
    exec (.registerWrite (.status core i.val num) v) s = (match statusTrap i.val num with
      | some t => if (s.focus core).core.slots[i].live then ({ s.focus core with slot := i } : State).takeTrap t 0 else .next { s.focus core with slot := i }
      | none => .next (({ s.focus core with slot := i } : State).writeStatus num v)) := by
  change execRegisterWrite (.status core i.val num) v s = _
  unfold execRegisterWrite State.focusSlot
  dsimp only
  rw [show Fin.ofNat 12 i.val = i from Fin.ofNat_val_eq_self i]
  rfl

/-! ### Repair (R386, R387) -/

theorem keepsThreads_takeReplies (s : State) : KeepsThreads s s.takeReplies :=
  (keepsThreads_core (k := { s.core with replies := [] }) {}).trans
    (keepsThreads_foldl _ _ (fun s e => keepsThreads_after s 0 e) _)

/-- Slot 11 has started, and no grant of a latch slot delays it. -/
theorem RunsOn.started {s t : State} (h : RunsOn s t) {i : Fin 12} (hn : s.core.slots[i].notBefore = s.cycle + 1) : t.core.slots[i] = s.core.slots[i] := by
  rcases h.core.slots i with hi | hi
  · exact hi
  · rw [hi, hn, Nat.max_self, ← hn]

/-- The core in focus after its slot 11 is started again. -/
def State.restart11 (s : State) : State :=
  { s.setThrAt s.here 11 ((s.core.thr 11).restarted (s.cycle + 1)) with
    core := { (s.setThrAt s.here 11 ((s.core.thr 11).restarted (s.cycle + 1))).core with halted := false } }

theorem here_setThrAt (s : State) (c i : Nat) (t : Thread) : (s.setThrAt c i t).here = s.here := by
  unfold State.setThrAt State.setCoreAt
  split <;> rfl

theorem repaired {s t : State} (h : RunsOn s.restart11 t) : (t.coreAt s.here).halted = false ∧ t.thrAt s.here 11 = (s.core.thr 11).restarted (s.cycle + 1) := by
  have hslot : s.restart11.core.slots[(11 : Fin 12)] = (s.core.thr 11).restarted (s.cycle + 1) := slots_setThrAt s 11 _
  have hcore : t.coreAt s.here = t.core := by
    rw [← (h.here.trans (here_setThrAt ..) : t.here = s.here)]
    exact coreAt_here t
  have hcyc : s.restart11.cycle = s.cycle := cycle_setCoreAt ..
  refine ⟨hcore ▸ h.core.halted, ?_⟩
  unfold State.thrAt
  rw [hcore, show t.core.thr 11 = t.core.slots[(11 : Fin 12)] from thr_slot t 11,
    h.started (i := 11) (by rw [hslot, hcyc]; rfl), hslot]

theorem execCoreRepair_restarts {s : State} {core : Nat} (target : Nat) (h : (s.focus core).core.halted = true) :
    exec (.coreRepair core target true) s = .next (if (s.focus core).restart11.core.occupied then (s.focus core).restart11.takeReplies.kickCopy.retryBlocked
      else (s.focus core).restart11.takeReplies) := by
  change execCoreRepair core target true s = _
  unfold execCoreRepair
  dsimp only
  rw [h, if_neg (by decide), if_pos rfl]
  unfold State.restart11
  rw [(focus_core s core).2]

theorem execCoreRepair_leaves {s : State} {core : Nat} (target : Nat) (h : (s.focus core).core.halted = true) :
    exec (.coreRepair core target false) s = if !(s.focus core).core.occupied then .next { s.focus core with core := { (s.focus core).core with oos := true } }
      else if (s.focus core).eligible none target && (s.focus core).proc.regionCores.contains target && (s.focus core).core.moving.isNone then
        .next ((s.focus core).startMove .repair target).takeReplies
      else .next (s.focus core) := by
  change execCoreRepair core target false s = _
  unfold execCoreRepair
  dsimp only
  rw [h, if_neg (by decide), if_neg (by decide)]

theorem takeReplies_frame (s : State) : s.takeReplies.mem = s.mem ∧ s.takeReplies.moves = s.moves := by
  have hfold (l : List Instr) (t : State) : (l.foldl (fun acc e => acc.after 0 e) t).mem = t.mem ∧ (l.foldl (fun acc e => acc.after 0 e) t).moves = t.moves := by
    induction l generalizing t with
    | nil => exact ⟨rfl, rfl⟩
    | cons e l ih => exact ih (t.after 0 e)
  exact hfold ..

theorem moves_setCoreAt (s : State) (c : Nat) (k : Core) : (s.setCoreAt c k).moves = s.moves := by unfold State.setCoreAt; split <;> rfl
theorem mem_moves_ite {c : Prop} [Decidable c] {a b s : State} (ha : a.mem = s.mem ∧ a.moves = s.moves) (hb : b.mem = s.mem ∧ b.moves = s.moves) :
    (if c then a else b).mem = s.mem ∧ (if c then a else b).moves = s.moves := by
  split
  · exact ha
  · exact hb
theorem startMove_moves (s : State) (kind : MoveKind) (target : Nat) : (s.startMove kind target).mem = s.mem ∧
    (s.startMove kind target).moves = s.moves ++ [{ id := s.nextMove, kind := kind, a := s.here, b := target, swto := s.swtoOf s.proc }] := by
  have h : (s.setCoreAt target { s.coreAt target with reserved := true, moving := some s.nextMove }).mem = s.mem ∧
      (s.setCoreAt target { s.coreAt target with reserved := true, moving := some s.nextMove }).moves = s.moves := ⟨mem_setCoreAt .., moves_setCoreAt ..⟩
  obtain ⟨hm, hv⟩ := mem_moves_ite (s := s) (c := (s.setCoreAt target { s.coreAt target with reserved := true, moving := some s.nextMove }).core.moving.isNone = true)
    (a := { s.setCoreAt target { s.coreAt target with reserved := true, moving := some s.nextMove } with
      core := { (s.setCoreAt target { s.coreAt target with reserved := true, moving := some s.nextMove }).core with moving := some s.nextMove } }) h h
  exact ⟨hm, congrArg (· ++ _) hv⟩

end Sys2Proof.Machine

namespace Sys2Proof
open Machine

/-- Settles O56. The receive engine, which runs after a write of UQCFG and after a restart, leaves the queue's place and slot 11 as they are;
the other registers hold what is written. -/
theorem registerSteps : Obligations.RegisterSteps := by
  unfold Obligations.RegisterSteps
  intro s core v f only
  have hhere : f.here = core := (focus_core s core).2
  refine ⟨fun h => ⟨_, rfl, writeUqcfg_held v h⟩, fun h _ _ base size hb hs => ⟨_, rfl, writeUqcfg_free h hb hs⟩, ⟨_, rfl, ?_⟩, fun i hi ht => ?_,
    fun h => congrArg Host.Outcome.next (writeTxval_none v h), rfl, fun i => ?_, fun i n hocc => ?_, rfl, fun i num hlive hn hi => ?_, rfl, rfl, fun cl n b => ?_, rfl,
    fun n => congrArg Host.Outcome.next (writeBar2_nonce s n v), fun target restart h => ?_, fun target h => ⟨?_, fun hocc => ?_, fun hocc hel hreg hmov => ?_⟩⟩
  · have hat := writeIntpost_at f v
    refine ⟨?_, (hat 0).elim fun _ h => h.2.2.1, fun i => ?_⟩
    · obtain ⟨_, _, hmem, _⟩ := hat 0
      exact hmem.trans (mem_focus s core)
    obtain ⟨u, hpast, -, -, hthr⟩ := hat i
    have hu : u.core.slots[i] = f.core.slots[i] := hpast.thr
    have hposted (hv : v.getLsbD i.val = true) : (f.writeIntpost v).core.slots[i] = (u.postInt i.val).core.slots[i] := by rw [hthr, if_pos hv]
    refine ⟨fun h => ?_, fun hv hlive hw => ?_, fun d hv hlive hw => ?_, fun d dl hv hlive hw hh => ?_⟩
    · refine hthr.trans (Eq.trans ?_ hu)
      split
      next hv =>
        have hdead : f.core.slots[i].live = false := h.resolve_left (by rw [hv]; decide)
        rw [postInt_dead (hu ▸ hdead)]
      next => rfl
    · rw [← hu] at hlive hw ⊢
      exact (hposted hv).trans (postInt_idle hlive hw)
    · rw [← hu] at hlive hw
      change (f.writeIntpost v).core.slots[i].wait = none ∧ ∀ j, j < 4 → (f.writeIntpost v).core.slots[i].rx (d + BitVec.ofNat 5 j) = 0
      rw [hposted hv, postInt_trget hlive hw]
      exact ⟨rfl, fun j hj => (rx_congr (x_advance _) _).trans (rx_trgetNone _ d hj)⟩
    · rw [← hu] at hlive hw
      rw [← hpast.proc] at hh
      change (f.writeIntpost v).core.slots[i].wait = none ∧ (f.writeIntpost v).core.slots[i].intr = false
      rw [hposted hv]
      exact postInt_waitm hlive hw hh
  · refine congrArg Host.Outcome.next ((writeTxval_of v hi ht).trans ?_)
    rw [hhere]
  · rw [exec_registerWrite_status, statusTrap_of_status (by decide) rfl, ← fpctlStored_eq]
    rfl
  · have hnone : statusTrap i.val (0x010 + n.val) = none := statusTrap_of_status (by lia) (isStatus_fm n)
    have hw : exec (.registerWrite (.status core i.val (0x010 + n.val)) v) s = .next (({ f with slot := i } : State).setProc
        { f.proc with fm := f.proc.fm.set n (fmStored v) }) := by
      rw [exec_registerWrite_status, hnone]
      exact congrArg Host.Outcome.next (writeStatus_fm _ n v hocc)
    exact ⟨_, hw, rfl, mem_focus s core⟩
  · rw [exec_registerWrite_status, statusTrap_priv hn hi]
    exact if_pos hlive
  · refine ⟨_, rfl, ?_, rfl, rfl⟩
    rw [clusterAt_setCluster, if_pos rfl]
    simp
  · change execCoreRepair core target restart s = _
    unfold execCoreRepair
    dsimp only
    rw [h]
    rfl
  · refine ⟨_, execCoreRepair_restarts target h, ?_⟩
    have hrep := keepsThreads_takeReplies f.restart11
    have hruns : RunsOn f.restart11 (if f.restart11.core.occupied then f.restart11.takeReplies.kickCopy.retryBlocked else f.restart11.takeReplies) := by
      split
      · exact (hrep.trans (keepsThreads_kickCopy _)).runsOn.trans (runsOn_retryBlocked _)
      · exact hrep.runsOn
    obtain ⟨hhalt, hthr⟩ := repaired hruns
    rw [hhere] at hhalt hthr
    refine ⟨hhalt, ?_⟩
    rw [hthr]
    exact ⟨rfl, rfl, rfl, rx_fresh, congrArg (· + 1) (cycle_focus s core)⟩
  · rw [execCoreRepair_leaves target h, hocc]
    rfl
  · have hocc' : ¬ (!f.core.occupied) = true := by rw [hocc]; decide
    obtain ⟨hmem, hmoves⟩ := takeReplies_frame (f.startMove .repair target)
    obtain ⟨hmem', hmoves'⟩ := startMove_moves f .repair target
    refine ⟨_, (execCoreRepair_leaves target h).trans ((if_neg hocc').trans (if_pos (by simp [f, hel, hreg, hmov]))), ?_⟩
    exact ⟨(hmem.trans hmem').trans (mem_focus s core), _, (hmoves.trans hmoves').trans (by rw [moves_focus]), rfl, hhere, rfl, rfl⟩

end Sys2Proof
end

section
/-! ## O58: links, bring-up, droop holds and debug halts -/

namespace Sys2Proof.Machine

/-! ### Ports (R402) -/

theorem port_of (s : State) (n : Fin 12) : s.port n.val = s.module.ports[n] := by simp [State.port]

theorem ports_setPort (s : State) (n : Fin 12) (p : LinkPort) : (s.setPort n.val p).module.ports[n] = p := by simp [State.setPort]

/-- A flit has failed at port `n`, and nothing else has changed but that a stop is reported. -/
structure Failed (s t : State) (n : Fin 12) : Prop where
  mem : t.mem = s.mem
  core : t.core = s.core
  cycle : t.cycle = s.cycle
  port : t.module.ports[n] =
    { s.module.ports[n] with failed := s.module.ports[n].failed + 1, stopped := s.module.ports[n].stopped || decide (64 ≤ s.module.ports[n].failed + 1) }
  report : s.module.ports[n].failed = 63 → s.module.ports[n].stopped = false → t.module.reports = s.module.reports ++ [.link n.val]

theorem flitFailed_failed (s : State) (n : Fin 12) : Failed s (s.flitFailed n.val) n := by
  have hport := port_of s n
  unfold State.flitFailed
  dsimp only
  rw [hport]
  split
  next h =>
    refine ⟨rfl, rfl, rfl, (ports_setPort s n _).trans ?_, fun _ _ => rfl⟩
    rw [decide_eq_true h.1, Bool.or_true]
  next h =>
    refine ⟨rfl, rfl, rfl, (ports_setPort s n _).trans ?_, fun h63 hs => absurd ⟨by omega, by rw [hs]; rfl⟩ h⟩
    cases hs : s.module.ports[n].stopped with
    | true => rfl
    | false =>
      rw [decide_eq_false fun hk => h ⟨hk, by rw [hs]; rfl⟩]
      rfl

section
variable {s : State} {n : Fin 12} {seq : Nat} (hseq : seq < 4096) (item : LinkItem)
include hseq

theorem linkFlitReceive_bad : exec (.linkFlitReceive n.val seq false item) s = .next (s.flitFailed n.val) := by
  change execLinkFlitReceive n.val seq false item s = _
  unfold execLinkFlitReceive
  exact if_neg (Nat.not_le.mpr hseq)

omit item in
/-- What an unstopped or stopped port acknowledges of a good flit that is not an acknowledgement itself. -/
theorem linkFlitReceive_good (item : LinkItem) (hi : ∀ k, item ≠ .accepted k) : exec (.linkFlitReceive n.val seq true item) s =
    let p := s.module.ports[n]
    if seq = p.rxSeq then
      .next ((s.setPort n.val { p with failed := 0, rxSeq := (seq + 1) % 4096, ackOut := if p.stopped then p.ackOut else some seq }).fromLink n.val item)
    else .next (s.setPort n.val { p with failed := 0, ackOut := if p.stopped then p.ackOut else some ((p.rxSeq + 4095) % 4096) }) := by
  change execLinkFlitReceive n.val seq true item s = _
  unfold execLinkFlitReceive
  rw [if_neg (show ¬ innerSeq ≤ seq from Nat.not_le.mpr hseq), if_neg (by decide), port_of]
  cases item with
  | accepted k => exact absurd rfl (hi k)
  | _ => rfl
end

theorem linkResendTimeout_again {s : State} {n : Fin 12} {e : Nat × Nat × LinkItem} {rest : List (Nat × Nat × LinkItem)}
    (hu : s.module.ports[n].unacked = e :: rest) (ht : e.2.1 + 8192 ≤ s.cycle) (hs : s.module.ports[n].stopped = false) (hf : s.module.ports[n].failed < 63) :
    exec (.linkResendTimeout n.val) s = .next (((s.flitFailed n.val).setPort n.val { (s.flitFailed n.val).port n.val with
      unacked := ((s.flitFailed n.val).port n.val).unacked.map (fun x => (x.1, s.cycle, x.2.2)) }).after 8192 (.linkResendTimeout n.val)) := by
  have hstop : ((s.flitFailed n.val).port n.val).stopped = false := by
    rw [port_of, (flitFailed_failed s n).port]
    exact (congrArg₂ or hs (decide_eq_false (by omega : ¬ 64 ≤ s.module.ports[n].failed + 1))).trans rfl
  change execLinkResendTimeout n.val s = _
  unfold execLinkResendTimeout
  rw [port_of]
  dsimp only
  rw [hu]
  dsimp only
  rw [hs, if_neg (by simp; omega), if_neg (by rw [hstop]; decide)]

/-! ### Requests and replies of another module that are where they go (R40, R247) -/

theorem linkFlitReceive_inner (s : State) (n : Nat) (r : LinkReq) :
    exec (.linkFlitReceive n 4096 true (.request r)) s = .next ((s.focus (attachCore n)).serveLink n r) := by
  change execLinkFlitReceive n 4096 true (.request r) s = _
  exact if_pos (show innerSeq ≤ 4096 from Nat.le_refl _)

section
variable {s : State} {r : LinkReq} {pa : Nat} (hp : r.place = .phys pa) (ht : paType pa = 0) (hu : s.units = []) (hb : s.bad = [])
include hp ht

theorem at_vault : r.at_ s = .phys pa := by
  unfold LinkReq.at_
  rw [hp]
  unfold placeOf
  dsimp only
  rw [ht]
  rfl

/-- A plain access of another module to a vault is performed at home. -/
theorem performLink_vault (n : Nat) (hk : r.kind = .load ∨ r.kind = .store) : s.performLink n r = s.performHome (r.acc s) (.module n r) := by
  have hat : (r.acc s).place = .phys pa := at_vault hp ht
  have hbank : bankOf (.phys pa) = none := if_neg (by rw [ht]; decide)
  have hfar : farPlace (.phys pa) = false := by rw [farPlace, ht]; rfl
  have hcached : (r.acc s).cached = false := rfl
  unfold State.performLink State.performFor
  rcases hk with hk | hk
  all_goals
    have hkind : (r.acc s).kind = _ := hk
    dsimp only
    rw [hk, hkind, hat]
    dsimp only
    rw [hbank, hcached, hfar]
    rfl

include hu hb

theorem performHome_vault_load (n : Nat) (hk : r.kind = .load) :
    s.performHome (r.acc s) (.module n r) = .done s (Memory.read s.mem pa r.size) {} true := by
  have hat : (r.acc s).place = .phys pa := at_vault hp ht
  have haway : s.awayIn (.phys pa) r.size = none := by
    unfold State.awayIn State.unitAway
    rw [hu]
    exact List.find?_eq_none.mpr fun _ _ => by simp
  have hbad : s.isBad (.phys pa) r.size = false := by
    unfold State.isBad
    rw [hb]
    simp
  have hfar : farPlace (.phys pa) = false := by rw [farPlace, ht]; rfl
  have hread : s.delivered (.phys pa) r.size 0 = Memory.read s.mem pa r.size := (if_neg (by rw [hfar]; decide)).trans rfl
  unfold State.performHome
  dsimp only
  rw [hat, show (r.acc s).size = r.size from rfl, show (r.acc s).kind = .load from hk, haway, hbad, hread]
  rfl

theorem performHome_vault_store (n : Nat) (hk : r.kind = .store) (hm : r.mask = 0) (hw : s.watches = []) :
    s.performHome (r.acc s) (.module n r) = .done { s with mem := Memory.write s.mem pa r.size r.val } 0 {} true := by
  have hat : (r.acc s).place = .phys pa := at_vault hp ht
  have haway : s.awayIn (.phys pa) r.size = none := by
    unfold State.awayIn State.unitAway
    rw [hu]
    exact List.find?_eq_none.mpr fun _ _ => by simp
  have hwrite : s.homeWrite (.phys pa) r.size r.val (2 ^ r.size - 1) = { s with mem := Memory.write s.mem pa r.size r.val } :=
    (homeWrite_plain s _ _ _ (by rw [poke_phys]; exact hw) (by rw [poke_phys]; exact hb)).trans (poke_phys ..)
  unfold State.performHome
  dsimp only
  rw [hat, show (r.acc s).size = r.size from rfl, show (r.acc s).kind = .store from hk, haway, show (r.acc s).val = r.val from rfl,
    show (r.acc s).mask = 0 from hm, if_pos rfl, hwrite]

end

theorem bad_watches_focus (s : State) (c : Nat) : (s.focus c).bad = s.bad ∧ (s.focus c).watches = s.watches := by
  unfold State.focus
  split <;> exact ⟨rfl, rfl⟩

theorem serveLink_vault {s u : State} {r : LinkReq} {pa v : Nat} (n : Nat) (hp : r.place = .phys pa) (ht : paType pa = 0)
    (h : s.performLink n r = .done u v {} true) : s.serveLink n r = u.linkReply (paCore pa) r v 0 {} := by
  unfold State.serveLink
  rw [at_vault hp ht, h]
  rfl

theorem linkFlitReceive_reply {s : State} {n : Nat} {r : LinkReq} {v fault : Nat} {g : Sig} (hw : r.tag.who < 12)
    (hc : ∀ d, (s.thrAt r.tag.core r.tag.who).wait ≠ some (.chopen d)) :
    exec (.linkFlitReceive n 4096 true (.reply r v fault g)) s = .next (s.after 0 (.nonlocalReply r.tag.core r.tag.who v fault g)) := by
  change execLinkFlitReceive n 4096 true (.reply r v fault g) s = _
  refine (if_pos (show innerSeq ≤ 4096 from Nat.le_refl _)).trans (congrArg Host.Outcome.next ?_)
  unfold State.takeLink
  dsimp only
  rw [if_pos hw]
  have hreply := Eq.refl (s.after 0 (.nonlocalReply r.tag.core r.tag.who v fault g))
  generalize (s.thrAt r.tag.core r.tag.who).wait = o at hc
  cases o with
  | none => exact hreply
  | some w =>
    cases w with
    | chopen d => exact absurd rfl (hc d)
    | _ => exact hreply

/-! ### Bring-up (R403) -/

theorem kvGet_started (f : Nat → Core) {here c : Nat} (l : List Nat) (hc : c ∈ l) (hne : c ≠ here) :
    kvGet ((l.map (fun c => (c, f c))).filter (fun e => e.1 != here)) c = some (f c) := by
  induction l with
  | nil => contradiction
  | cons k l ih =>
    by_cases hk : k = c
    · subst hk
      simp [hne, kvGet]
    · have hmem : c ∈ l := (List.mem_cons.mp hc).resolve_left (Ne.symm hk)
      by_cases hh : k = here
      · simpa [hh] using ih hmem
      · simpa [hh, kvGet, hk] using ih hmem

/-- The bytes that RESET leaves. -/
theorem get_reset (m : Memory) (b a : Nat) : Memory.get (m.filter (fun e => decide (b ≤ e.1))) a = if b ≤ a then Memory.get m a else 0 := by
  rw [show (fun e : Nat × Byte => decide (b ≤ e.1)) = fun e => !decide (e.1 < b) from
    funext fun e => (decide_eq_decide.mpr Nat.not_lt.symm).trans decide_not]
  rw [get_filter (fun k => decide (k < b))]
  simp only [decide_eq_true_eq, ← Nat.not_le, ite_not]

theorem thr_started (k : Core) (now : Nat) : (k.started now).thr 11 = (k.slots[11]).restarted now := by simp [Core.thr, Core.started]

/-- The machine after its firmware is verified, with the cores of a list. -/
def State.verified (s : State) (l : List Nat) : State :=
  { s with module := { s.module with phase := 1, failCode := 0 }
           core := s.core.started s.cycle
           others := (l.map (fun c => (c, (s.coreAt c).started s.cycle))).filter (fun e => e.1 != s.here) }

theorem coreAt_verified (s : State) (l : List Nat) {c : Nat} (hc : c ∈ l) : (s.verified l).coreAt c = (s.coreAt c).started s.cycle := by
  by_cases hh : c = s.here
  · rw [hh, coreAt_here]
    exact coreAt_here (s.verified l)
  · exact (if_neg hh).trans (congrArg (fun o : Option Core => o.getD {}) (kvGet_started (fun c => (s.coreAt c).started s.cycle) l hc hh))

theorem firmwareVerified_starts {s : State} (h : s.module.phase = 0) : exec .firmwareVerified s = .next (s.verified (List.range 3072)) :=
  if_neg (not_not.mpr h)

/-! ### Debug halts (R409) -/

theorem clusterAt_after (s : State) (n : Nat) (e : Instr) (cl : Nat) : (s.after n e).clusterAt cl = s.clusterAt cl := rfl

theorem clusterAt_agenda (s : State) (l : List (Nat × Instr)) (cl : Nat) : ({ s with agenda := l } : State).clusterAt cl = s.clusterAt cl := rfl

/-- What is due stays due, and no cluster is halted or goes on. -/
structure StillDue (s t : State) : Prop where
  cycle : t.cycle = s.cycle
  due : ∀ e ∈ s.agenda, e ∈ t.agenda
  halts : ∀ cl, (t.clusterAt cl).dbgHalted = (s.clusterAt cl).dbgHalted

theorem StillDue.refl (s : State) : StillDue s s := ⟨rfl, fun _ h => h, fun _ => rfl⟩

theorem StillDue.trans {s t u : State} (h : StillDue s t) (h' : StillDue t u) : StillDue s u :=
  ⟨h'.cycle.trans h.cycle, fun e he => h'.due e (h.due e he), fun cl => (h'.halts cl).trans (h.halts cl)⟩

theorem RunsOn.stillDue {s t : State} (h : RunsOn s t) : StillDue s t := ⟨h.cycle, h.due, h.halts⟩

theorem stillDue_foldl {α : Type} {f : State → α → State} (h : ∀ s a, StillDue s (f s a)) (l : List α) (s : State) : StillDue s (l.foldl f s) := by
  induction l generalizing s with
  | nil => exact .refl s
  | cons a l ih => exact (h s a).trans (ih _)

theorem stillDue_focus (s : State) (c : Nat) : StillDue s (s.focus c) := by
  refine ⟨cycle_focus s c, fun e he => by rwa [agenda_focus], fun cl => ?_⟩
  unfold State.clusterAt
  rw [clusters_focus]

theorem stillDue_goesOn (s : State) (g l : Nat) : StillDue s (s.askDispatch 1 g l).kickCopy.retryBlocked :=
  (((moreDue_askDispatch s 1 g l).keepsThreads.trans (keepsThreads_kickCopy _)).runsOn.trans (runsOn_retryBlocked _)).stillDue

theorem stillDue_resumeCore (n : Nat) (s : State) (c : Nat) : StillDue s (resumeCore n s c) := by
  have hcore (u : State) (k : Core) : StillDue u { u with core := k } := ⟨rfl, fun _ h => h, fun _ => rfl⟩
  unfold resumeCore
  dsimp only
  split
  · exact ((stillDue_focus s c).trans (hcore _ _)).trans ((hcore _ _).trans (stillDue_goesOn ..))
  · exact (stillDue_focus s c).trans (hcore _ _)

/-- The paused events are due again. -/
theorem paused_due (l : List (Nat × Instr)) (s : State) : StillDue s (l.foldl (fun acc e => acc.after e.1 e.2) s) ∧
    ∀ e ∈ l, (s.cycle + e.1, e.2) ∈ (l.foldl (fun acc e => acc.after e.1 e.2) s).agenda := by
  have hafter (t : State) (e : Nat × Instr) : StillDue t (t.after e.1 e.2) := (keepsThreads_after ..).runsOn.stillDue
  induction l generalizing s with
  | nil => exact ⟨.refl s, fun _ h => nomatch h⟩
  | cons e l ih =>
    obtain ⟨hkeep, hdue⟩ := ih (s.after e.1 e.2)
    refine ⟨(hafter s e).trans hkeep, fun x hx => ?_⟩
    rcases List.mem_cons.mp hx with rfl | hx
    · exact hkeep.due _ ((mem_agendaPut ..).mpr (Or.inl rfl))
    · exact hdue x hx

theorem debugResume_resumes {s : State} {cl : Nat} (h : (s.clusterAt cl).dbgHalted = true) : ∃ t, exec (.debugResume cl) s = .next t ∧
    (t.clusterAt cl).dbgHalted = false ∧ ∀ e ∈ (s.clusterAt cl).paused, (s.cycle + e.1, e.2) ∈ t.agenda := by
  obtain ⟨hkeep, hdue⟩ := paused_due (s.clusterAt cl).paused
    (s.setCluster cl { s.clusterAt cl with dbgHalted := false, dbgSince := 0, paused := [] })
  have hcores := stillDue_foldl (stillDue_resumeCore (s.cycle - (s.clusterAt cl).dbgSince)) (clusterCores cl)
    ((s.clusterAt cl).paused.foldl (fun acc e => acc.after e.1 e.2) (s.setCluster cl { s.clusterAt cl with dbgHalted := false, dbgSince := 0, paused := [] }))
  refine ⟨_, if_neg (by rw [h]; decide), ?_, fun e he => hcores.due _ (hdue e he)⟩
  rw [hcores.halts, hkeep.halts, clusterAt_setCluster, if_pos rfl]

end Sys2Proof.Machine

namespace Sys2Proof
open Machine

/-- Settles O58: each step is its own evaluation; the cores that a debug halt lets go on leave what is due in place. -/
theorem moduleSteps : Obligations.ModuleSteps := by
  unfold Obligations.ModuleSteps
  intro s
  refine ⟨fun n seq item hseq => ?_, fun n r v fault g => ?_, ?_, fun h => if_pos h, fun h => ?_, ?_, fun cl => ?_⟩
  · have hf := flitFailed_failed s n
    refine ⟨⟨_, linkFlitReceive_bad hseq item, hf.mem, hf.core, ?_, ?_, ?_, hf.report⟩, fun pkt c hi hs _ => ⟨_, (linkFlitReceive_good hseq item ?_).trans (if_pos hs), ?_⟩,
      fun hs hi => ⟨_, (linkFlitReceive_good hseq item hi).trans (if_neg hs), ports_setPort .., rfl⟩, fun hu => ?_, fun e rest hu ht hs hlt => ?_⟩
    · rw [hf.port]
    · rw [hf.port]
    · rw [hf.port]
    · rw [hi]
      exact fun k hk => nomatch hk
    · rw [hi]
      exact ⟨ports_setPort .., _, (mem_agendaPut ..).mpr (Or.inl rfl), Nat.le_add_right .., _, rfl⟩
    · change execLinkResendTimeout n.val s = _
      unfold execLinkResendTimeout
      rw [port_of]
      dsimp only
      rw [hu]
    · refine ⟨_, linkResendTimeout_again hu ht hs hlt, ?_, ?_, ?_⟩
      · exact (congrArg LinkPort.unacked (ports_setPort ..)).trans (by rw [port_of, hf.port])
      · exact (congrArg LinkPort.failed (ports_setPort ..)).trans (by rw [port_of, hf.port])
      · exact (mem_agendaPut ..).mpr (Or.inl (by rw [show ((s.flitFailed n.val).setPort n.val _).cycle = s.cycle from hf.cycle]))
  · refine ⟨fun pa hp ht hu hb => ⟨fun hk => ?_, fun hk hm hw => ?_⟩, fun hw hc => linkFlitReceive_reply hw hc⟩
    · have hu' : (s.focus (attachCore n.val)).units = [] := (units_focus ..).trans hu
      have hb' : (s.focus (attachCore n.val)).bad = [] := (bad_watches_focus ..).1.trans hb
      refine (linkFlitReceive_inner s n.val r).trans (congrArg Host.Outcome.next ?_)
      rw [← mem_focus s (attachCore n.val)]
      exact serveLink_vault n.val hp ht ((performLink_vault hp ht n.val (Or.inl hk)).trans (performHome_vault_load hp ht hu' hb' n.val hk))
    · have hu' : (s.focus (attachCore n.val)).units = [] := (units_focus ..).trans hu
      have hb' : (s.focus (attachCore n.val)).bad = [] := (bad_watches_focus ..).1.trans hb
      refine (linkFlitReceive_inner s n.val r).trans (congrArg Host.Outcome.next ?_)
      rw [← mem_focus s (attachCore n.val)]
      exact serveLink_vault n.val hp ht ((performLink_vault hp ht n.val (Or.inr hk)).trans
        (performHome_vault_store hp ht hu' hb' n.val hk hm ((bad_watches_focus ..).2.trans hw)))
  · refine ⟨_, rfl, rfl, rfl, rfl, rfl, rfl, fun a ha => ?_, fun _ a ha => ?_⟩
    · rw [read_one]
      exact congrArg BitVec.toNat ((get_reset ..).trans (if_neg (Nat.not_le.mpr ha)))
    · rw [read_one, read_one]
      exact congrArg BitVec.toNat ((get_reset ..).trans (if_pos ha))
  · refine ⟨_, firmwareVerified_starts h, rfl, rfl, fun c hc => ?_⟩
    have hat := coreAt_verified s (List.range 3072) (List.mem_range.mpr hc)
    have hthr : (s.verified (List.range 3072)).thrAt c 11 = ((s.coreAt c).slots[11]).restarted s.cycle := by
      unfold State.thrAt
      rw [hat]
      exact thr_started ..
    rw [hthr, hat]
    exact ⟨rfl, rfl, rfl, rx_fresh, rfl⟩
  · change execVaultTrained s = _
    unfold execVaultTrained
    by_cases h : s.module.phase = 1
    · rw [if_pos h, if_neg (not_not.mpr h)]
    · rw [if_neg h, if_pos h]
  · refine ⟨fun h => if_pos h, fun h => ⟨_, if_neg (Nat.ne_of_gt h), ⟨?_, rfl, rfl, rfl⟩, (mem_agendaPut ..).mpr (Or.inl rfl)⟩, fun h => ⟨_, if_pos h, ?_, rfl, rfl, rfl⟩,
      fun h => if_neg (Nat.not_le.mpr h), fun h => if_pos h, fun h hin => ?_, fun h => if_pos (by rw [h]; rfl), fun h => debugResume_resumes h⟩
    · rw [clusterAt_after, clusterAt_setCluster, if_pos rfl]
      exact ⟨rfl, rfl⟩
    · rw [clusterAt_setCluster, if_pos rfl]
    · have hmoving : ¬ (clusterCores cl).any s.inTransfer = true := by
        simp only [clusterCores, List.any_map, List.any_eq_true, List.mem_range, Function.comp]
        exact fun ⟨i, hi, ht⟩ => absurd ht (by rw [hin i hi]; decide)
      refine ⟨_, (if_neg (by rw [h]; decide)).trans (if_neg hmoving), ⟨?_, rfl, rfl, rfl⟩⟩
      dsimp only
      rw [clusterAt_agenda, clusterAt_setCluster, if_pos rfl]
      exact ⟨rfl, rfl, rfl, rfl⟩

end Sys2Proof
end

section
/-! ## What the end of a hold leaves as it is (R345) -/

namespace Sys2Proof.Machine

/-- A core whose process, window and floating-point and vector registers are the same. -/
structure CoreStays (k l : Core) : Prop where
  occupied : l.occupied = k.occupied := by rfl
  who : SameWho k.proc l.proc := by exact {}
  bytes : WindowKept k.proc l.proc := by exact {}
  f : ∀ i : Fin 12, l.slots[i].f = k.slots[i].f := by exact fun _ => rfl
  v : ∀ i : Fin 12, l.slots[i].v = k.slots[i].v := by exact fun _ => rfl

theorem CoreStays.trans {k l m : Core} (h : CoreStays k l) (h' : CoreStays l m) : CoreStays k m :=
  ⟨h'.occupied.trans h.occupied, h.who.trans h'.who, h.bytes.trans h'.bytes, fun i => (h'.f i).trans (h.f i), fun i => (h'.v i).trans (h.v i)⟩

/-- Every core's process, window and floating-point and vector registers are the same, and so are memory, the moves, the units and the groups. -/
structure Rests (s t : State) : Prop where
  fixed : Fixed s t := by exact {}
  mem : t.mem = s.mem := by rfl
  cores : ∀ c, CoreStays (s.coreAt c) (t.coreAt c) := by exact fun _ => {}

theorem Rests.trans {s t u : State} (h : Rests s t) (h' : Rests t u) : Rests s u :=
  ⟨h.fixed.trans h'.fixed, h'.mem.trans h.mem, fun c => (h.cores c).trans (h'.cores c)⟩

/-- The same core is in focus besides. -/
structure Stays (s t : State) : Prop extends Rests s t where
  here : t.here = s.here := by rfl

theorem Stays.refl (s : State) : Stays s s := {}

theorem Stays.trans {s t u : State} (h : Stays s t) (h' : Stays t u) : Stays s u := ⟨h.toRests.trans h'.toRests, h'.here.trans h.here⟩

theorem CoreKept.stays {k l : Core} (h : CoreKept k l True) : CoreStays k l :=
  ⟨h.occupied, h.who, h.bytes trivial, fun i => by rw [h.slots], fun i => by rw [h.slots]⟩

theorem KeepsThreads.stays {s t : State} (h : KeepsThreads s t True) : Stays s t :=
  ⟨⟨h.fixed, h.mem trivial, fun c => (h.cores c).stays⟩, h.here⟩

theorem stays_ite {s : State} (c : Prop) [Decidable c] {t u : State} (ht : Stays s t) (hu : Stays s u) : Stays s (if c then t else u) := by
  split
  · exact ht
  · exact hu

theorem stays_foldl {α : Type} (f : State → α → State) (h : ∀ s a, Stays s (f s a)) (l : List α) (s : State) : Stays s (l.foldl f s) := by
  induction l generalizing s with
  | nil => exact .refl s
  | cons a l ih => exact (h s a).trans (ih _)

theorem stays_setCoreAt (s : State) {c : Nat} {k : Core} (h : CoreStays (s.coreAt c) k) : Stays s (s.setCoreAt c k) := by
  have hset : Fixed s (s.setCoreAt c k) ∧ (s.setCoreAt c k).here = s.here := by
    unfold State.setCoreAt
    split <;> exact ⟨{}, rfl⟩
  refine ⟨⟨hset.1, mem_setCoreAt .., fun d => ?_⟩, hset.2⟩
  · rw [coreAt_setCoreAt]
    split
    next hd => rw [hd]; exact h
    next => exact {}

theorem stays_core {s : State} {k : Core} (h : CoreStays s.core k) : Stays s { s with core := k } := by
  have hset := stays_setCoreAt s (c := s.here) (k := k) ((coreAt_here s).symm ▸ h)
  rwa [setCoreAt_here] at hset

theorem stays_setProc (s : State) {p : Proc} (hwho : SameWho s.proc p := by exact {}) (hwin : WindowKept s.proc p := by exact {}) : Stays s (s.setProc p) :=
  stays_core ⟨rfl, hwho, hwin, fun _ => rfl, fun _ => rfl⟩

theorem rests_focus (s : State) (c : Nat) : Rests s (s.focus c) := by
  refine ⟨?_, mem_focus s c, fun d => by rw [coreAt_focus]; exact {}⟩
  unfold State.focus
  split <;> exact {}

theorem Stays.core {s t : State} (h : Stays s t) : SameWho t.proc s.proc ∧ WindowKept t.proc s.proc := by
  have hc := h.cores s.here
  rw [coreAt_here, ← h.here, coreAt_here] at hc
  obtain ⟨-, ⟨hg, hl, hm, hp⟩, ⟨hw, hh, hsp, hc, hst⟩, -, -⟩ := hc
  exact ⟨⟨hg.symm, hl.symm, hm.symm, hp.symm⟩, ⟨hw.symm, hh.symm, hsp.symm, hc.symm, hst.symm⟩⟩

/-! ### Threads -/

/-- A thread's floating-point and vector registers are the same. -/
structure SameRegs (t u : Thread) : Prop where
  f : u.f = t.f := by rfl
  v : u.v = t.v := by rfl

theorem SameRegs.trans {t u w : Thread} (h : SameRegs t u) (h' : SameRegs u w) : SameRegs t w := ⟨h'.f.trans h.f, h'.v.trans h.v⟩

theorem sameRegs_ite {t u w : Thread} (c : Prop) [Decidable c] (hu : SameRegs t u) (hw : SameRegs t w) : SameRegs t (if c then u else w) := by
  split
  · exact hu
  · exact hw

theorem sameRegs_wx (t : Thread) (d : BitVec 5) (x : Word) : SameRegs t (t.wx d x) := ⟨f_wx .., v_wx ..⟩

theorem sameRegs_advance (t : Thread) : SameRegs t t.advance := by
  unfold Thread.advance
  split
  · exact {}
  · split
    · exact {}
    · split <;> exact {}

theorem sameRegs_resumed (t : Thread) : SameRegs t t.resumed := (sameRegs_advance t).trans {}

theorem sameRegs_wx_resumed (t : Thread) (d : BitVec 5) (x : Word) : SameRegs t (t.wx d x).resumed := (sameRegs_wx ..).trans (sameRegs_resumed _)

theorem sameRegs_testCtrwait (t : Thread) (p : Proc) (now : Nat) : SameRegs t (t.testCtrwait p now) := by
  unfold Thread.testCtrwait
  cases t.wait with
  | none => exact {}
  | some w =>
    cases w with
    | ctrwait d n v => exact sameRegs_ite _ ((sameRegs_wx_resumed ..).trans {}) {}
    | _ => exact {}

theorem sameRegs_testCpwait (t : Thread) (p : Proc) (now : Nat) : SameRegs t (t.testCpwait p now) := by
  unfold Thread.testCpwait
  cases t.wait with
  | none => exact {}
  | some w =>
    cases w with
    | cpwait d id => exact sameRegs_ite _ ((sameRegs_wx_resumed ..).trans {}) {}
    | _ => exact {}

theorem sameRegs_joined (t : Thread) (i : Nat) (x : Word) (c : Nat) : SameRegs t (t.joined i x c) := by
  unfold Thread.joined
  cases t.wait with
  | none => exact {}
  | some w =>
    cases w with
    | hjoin d k => exact sameRegs_ite _ ((sameRegs_wx_resumed ..).trans {}) {}
    | _ => exact {}

theorem sameRegs_testBarwait (t : Thread) (c : Nat) : SameRegs t (t.testBarwait c) := by
  unfold Thread.testBarwait
  cases t.wait with
  | none => exact {}
  | some w =>
    cases w with
    | barwait b => exact sameRegs_ite _ ((SameRegs.trans (u := t.setBar b .none) {} (sameRegs_resumed _)).trans {}) {}
    | _ => exact {}

theorem stays_slots (s : State) (f : Nat → Thread → Thread) (h : ∀ i t, SameRegs t (f i t)) :
    Stays s { s with core := { s.core with slots := vmapIdx f s.core.slots } } :=
  stays_core ⟨rfl, {}, {}, fun i => by rw [getElem_vmapIdx]; exact (h ..).f, fun i => by rw [getElem_vmapIdx]; exact (h ..).v⟩

theorem core_thr_fin (k : Core) (i : Fin 12) : k.thr i.val = k.slots[i] := thr_slot { State.reset with core := k } i

theorem coreStays_setThread (k : Core) (i : Nat) {t : Thread} (h : SameRegs (k.thr i) t) : CoreStays k { k with slots := k.slots.setIfInBounds i t } := by
  have hslot (j : Fin 12) : SameRegs k.slots[j] (k.slots.setIfInBounds i t)[j] := by
    by_cases hj : j.val = i
    · subst hj
      have hself : (k.slots.setIfInBounds j.val t)[j] = t := Vector.getElem_setIfInBounds_self ..
      rw [hself, ← core_thr_fin]
      exact h
    · have hother : (k.slots.setIfInBounds i t)[j] = k.slots[j] := Vector.getElem_setIfInBounds_ne (hj := j.isLt) (Ne.symm hj)
      rw [hother]
      exact {}
  exact ⟨rfl, {}, {}, fun j => (hslot j).f, fun j => (hslot j).v⟩

theorem stays_setThrAt (s : State) (c i : Nat) {t : Thread} (h : SameRegs (s.thrAt c i) t) : Stays s (s.setThrAt c i t) :=
  stays_setCoreAt s (coreStays_setThread _ i h)

theorem stays_setThrHere (s : State) (i : Nat) {t : Thread} (h : SameRegs (s.core.thr i) t) : Stays s (s.setThrAt s.here i t) :=
  stays_setThrAt s _ i (by rwa [thrAt_here])

theorem stays_setThr (s : State) {t : Thread} (h : SameRegs s.thr t) : Stays s (s.setThr t) := by
  rw [← setThrAt_here_slot]
  exact stays_setThrAt s _ _ ((thrAt_here_slot s).symm ▸ h)

/-! ### Waits that are tested again (R197, R203, R239, R254, R295) -/

theorem stays_afterOnce (s : State) (n : Nat) (e : Instr) : Stays s (s.afterOnce n e) := (keepsThreads_afterOnce ..).stays

theorem stays_after (s : State) (n : Nat) (e : Instr) : Stays s (s.after n e) := (keepsThreads_after ..).stays

theorem stays_testCtrwaits (s : State) : Stays s s.testCtrwaits := by
  refine stays_slots s _ fun i t => ?_
  split
  · exact {}
  · exact sameRegs_testCtrwait ..

theorem stays_testCpwaits (s : State) : Stays s s.testCpwaits := by
  refine stays_slots s _ fun i t => ?_
  split
  · exact {}
  · exact sameRegs_testCpwait ..

theorem stays_startNext (s : State) (n : Nat) : Stays s (s.startNext n) := stays_ite _ (stays_afterOnce ..) (.refl s)

theorem stays_enterPushes (n : Nat) (s : State) : Stays s (State.enterPushes n s) := by
  induction n generalizing s with
  | zero => exact .refl s
  | succ n ih =>
    unfold State.enterPushes
    cases s.proc.pushFree with
    | none => exact .refl s
    | some r =>
      have hdrop (p : Proc) (hwho : SameWho s.proc p) (hwin : WindowKept s.proc p) : Stays s (State.enterPushes n (s.setProc p)) :=
        (stays_setProc s hwho hwin).trans (ih _)
      have hpush (p : Proc) (d : BitVec 5) (x : Word) (hwho : SameWho s.proc p) (hwin : WindowKept s.proc p) : Stays s (State.enterPushes n
          (((s.setProc p).setThrAt s.here r.slot { ((s.core.thr r.slot).wx d x).resumed with notBefore := s.cycle + 1 }).startNext 4)) := by
        refine .trans (.trans ?_ (stays_startNext _ 4)) (ih _)
        exact (stays_setProc s hwho hwin).trans (stays_setThrHere (s.setProc p) _ ((sameRegs_wx_resumed (s.core.thr r.slot) ..).trans {}))
      dsimp only
      cases (s.core.thr r.slot).wait with
      | none => exact hdrop _ {} {}
      | some w =>
        cases w with
        | push d => exact hpush _ d _ {} {}
        | _ => exact hdrop _ {} {}

theorem stays_testJoin (s : State) : Stays s s.testJoin := by
  unfold State.testJoin
  refine stays_ite _ (.refl s) ?_
  cases (s.core.thr 0).wait with
  | none => exact .refl s
  | some w =>
    cases w with
    | hjoin d k => exact stays_ite _ (.refl s) (stays_setThrHere s _ (sameRegs_joined ..))
    | _ => exact .refl s

theorem stays_testWaitm (s : State) : Stays s s.testWaitm := by
  unfold State.testWaitm
  refine stays_ite _ (.refl s) ?_
  cases s.thr.wait with
  | none => exact .refl s
  | some w =>
    cases w with
    | waitm d dl =>
      refine stays_ite _ (.refl s) (stays_setThr s ?_)
      exact (SameRegs.trans (u := { s.thr.clearTrig with intr := false }) {} (sameRegs_wx_resumed ..)).trans {}
    | _ => exact .refl s

theorem stays_eachSlot (s : State) (f : State → State) (h : ∀ s, Stays s (f s)) : Stays s (s.eachSlot f) := by
  refine .trans (stays_foldl (fun (acc : State) i => f { acc with slot := Fin.ofNat 12 i }) (fun s i => ?_) (List.range 11) s) {}
  exact .trans {} (h { s with slot := Fin.ofNat 12 i })

/-! ### Channels (R219, R222, R224) -/

theorem stays_testClose (s : State) (c h : Nat) : Stays s (s.testClose c h) := by
  unfold State.testClose
  have hfree (i : Nat) (t : Thread) : SameRegs t (match t.wait with
      | some (.chclose x) => if x = h && !((s.coreAt c).proc.hold.isSome && i != 11) then t.resumed else t
      | _ => t) := by
    cases t.wait with
    | none => exact {}
    | some w =>
      cases w with
      | chclose x => exact sameRegs_ite _ (sameRegs_resumed t) {}
      | _ => exact {}
  exact stays_setCoreAt s ⟨rfl, {}, {}, fun i => by rw [getElem_vmapIdx]; exact (hfree ..).f, fun i => by rw [getElem_vmapIdx]; exact (hfree ..).v⟩

theorem stays_setSender (s : State) {p : Proc} (hwho : SameWho s.proc p) (hwin : WindowKept s.proc p) : Stays s (s.setSender s.here p) := by
  unfold State.setSender
  rw [coreAt_here]
  refine stays_ite _ (stays_setCoreAt s ?_) (stays_setCoreAt s ?_)
  all_goals rw [coreAt_here]
  · exact ⟨rfl, hwho, hwin, fun _ => rfl, fun _ => rfl⟩
  · exact {}

theorem stays_setSender_emit (s : State) {p : Proc} (hwho : SameWho s.proc p) (hwin : WindowKept s.proc p) (pkt : Packet) (d : Nat) :
    Stays s ((s.setSender s.here p).emit s.here pkt d) := by
  have hemit := (emit_frame (still := True) (s.setSender s.here p) pkt d).1.stays
  rw [(stays_setSender s hwho hwin).here] at hemit
  exact (stays_setSender s hwho hwin).trans hemit

theorem stays_startPacket (s : State) {p : Proc} (hwho : SameWho s.proc p) (hwin : WindowKept s.proc p) (h : Nat) (o : OutCh) (cur : SendCur)
    (pkt : Packet) (d : Nat) : Stays s (s.startPacket s.here p h o cur pkt d) := by
  unfold State.startPacket
  refine .trans ?_ (stays_after ..)
  exact stays_setSender_emit s (hwho.trans {}) (hwin.trans {}) pkt d

theorem stays_trapWith (s : State) (code : Nat) (va : Word) (info : BitVec 32) : Stays s (s.trapWith code va info) := by
  have ht : Stays s (s.setThr (s.thr.trapped (s.thr.record s.slot.val code va info))) := stays_setThr s {}
  have hhalt (u : State) (r : Option TrapRec) : Stays u (u.haltCore r) := (stays_core (k := { u.core with halted := true, haltAt := u.cycle }) {}).trans {}
  exact stays_ite _ (ht.trans (hhalt ..)) (ht.trans (keepsThreads_raise ..).stays)

theorem stays_sendTrap (s : State) (i : Nat) (t : Trap) (va : Word) : Stays s (s.sendTrap i t va) := by
  unfold State.sendTrap
  extract_lets s1
  have h1 : Stays s s1 := {}
  have htrap (u : State) : Stays u (u.trapParked t.code va) := (stays_setThr u {}).trans (stays_trapWith ..)
  clear_value s1
  cases s1.thr.wait with
  | none => exact h1
  | some w =>
    cases w with
    | send h => exact h1.trans (.trans (stays_ite _ (stays_setThr s1 {}) (.refl s1)) (htrap _))
    | _ => exact h1

theorem stays_cutShort (s : State) (h : Nat) (o : OutCh) (cur : SendCur) (t : Trap) (va : Word) : Stays s (s.cutShort s.here h o cur t va) := by
  unfold State.cutShort
  dsimp only
  refine (stays_sendTrap s cur.slot t va).trans ?_
  rw [← (stays_sendTrap s cur.slot t va).here]
  exact stays_ite _ ((stays_setSender _ {} {}).trans (stays_after ..)) (stays_startPacket _ {} {} ..)

theorem stays_waitOn (s : State) (w : EWait) (e : Instr) : Stays s (s.waitOn w e) := (keepsThreads_waitOn ..).stays

theorem stays_inject (s : State) (h : Nat) : Stays s (s.inject s.here s.proc h) := by
  unfold State.inject
  split
  · exact stays_setSender s {} {}
  next o _ =>
    refine stays_ite _ (stays_setSender s {} {}) ?_
    split
    · exact stays_ite _ (stays_setSender_emit s {} {} ..) (stays_setSender s {} {})
    next cur _ =>
      refine stays_ite _ (stays_setSender s {} {}) (stays_ite _ (stays_startPacket s {} {} ..) ?_)
      dsimp only
      split
      · exact stays_startPacket s {} {} ..
      next a _ =>
        have hs1 : Stays s ((s.setSender s.here s.proc).focus s.here) := by
          have hset := stays_setSender s (p := s.proc) {} {}
          refine ⟨hset.toRests.trans (rests_focus ..), (focus_core ..).2⟩
        generalize (s.setSender s.here s.proc).focus s.here = s1 at hs1 ⊢
        have hread := engReadRange_kept (still := True) s1 (cur.slot == 11) (a + BitVec.ofNat 64 cur.off) (min 256 (cur.len - cur.off))
        rw [← hs1.here]
        split
        next s2 v x hr =>
          rw [hr] at hread
          rw [← KeepsThreads.here hread]
          exact hs1.trans ((KeepsThreads.stays hread).trans (stays_startPacket s2 {} {} ..))
        next =>
          obtain ⟨hwho, hwin⟩ := hs1.core
          exact (hs1.trans (stays_setSender s1 (hwho.trans {}) (hwin.trans {}))).trans (stays_waitOn ..)
        next s2 c va hr =>
          rw [hr] at hread
          rw [← KeepsThreads.here hread]
          exact hs1.trans ((KeepsThreads.stays hread).trans (stays_cutShort ..))

theorem stays_retestHandle (s : State) (h : Nat) : Stays s (s.retestHandle h) := by
  unfold State.retestHandle
  split
  · exact stays_testClose ..
  next o _ =>
    have hclose := stays_ite (o.closing = true) (.refl s) (stays_testClose s s.here h)
    exact stays_ite _ (hclose.trans (stays_inject ..)) hclose

theorem stays_retestGranules (s : State) : Stays s s.retestGranules :=
  stays_foldl _ (fun s g => stays_ite _ (keepsThreads_fillGranule s g).stays (.refl s)) _ s

theorem stays_retest (s : State) : Stays s s.retest := by
  unfold State.retest
  refine .trans ?_ (stays_retestGranules _)
  refine .trans ?_ (stays_foldl _ stays_retestHandle _ _)
  refine .trans ?_ (stays_eachSlot _ _ fun s => ?_)
  · exact (((stays_testCtrwaits s).trans (stays_testCpwaits _)).trans (stays_enterPushes ..)).trans (stays_testJoin _)
  · dsimp only
    have hbar : Stays s ((s.setThr (s.thr.testBarwait s.cycle)).testWaitm) := (stays_setThr s (sameRegs_testBarwait ..)).trans (stays_testWaitm _)
    exact stays_ite _ (hbar.trans (stays_afterOnce ..)) hbar

/-! ### The end of a hold -/

/-- Before its receive engine goes on, the end of a hold leaves its process as it was. -/
theorem stays_endHold_retest (s : State) : Stays s ((((s.setProc (s.proc.setHold none s.cycle)).retest).askDispatch 1
    ((s.setProc (s.proc.setHold none s.cycle)).retest).proc.gid ((s.setProc (s.proc.setHold none s.cycle)).retest).proc.lid).kickCopy) :=
  (((stays_setProc s).trans (stays_retest _)).trans (moreDue_askDispatch ..).keepsThreads.stays).trans (keepsThreads_kickCopy _).stays

theorem fixed_endHold (s : State) : Fixed s s.endHold := by
  unfold State.endHold
  split
  · exact {}
  · exact (stays_endHold_retest s).fixed.trans (runsOn_retryBlocked _).fixed

/-- A receive engine with nothing at hand does nothing. -/
theorem retryBlocked_idle {s : State} (hheld : s.proc.held = []) (hspilled : s.proc.spilled = []) (hcopies : s.proc.copies = []) (hstream : s.proc.stream = none) :
    s.retryBlocked = s := by
  have hwait : s.proc.waiting = [] := by rw [Proc.waiting, hheld, hspilled]; rfl
  have hnext : s.nextPacket [] = none := by rw [State.nextPacket, hwait]; rfl
  unfold State.retryBlocked State.engineGoes
  split
  · rw [hwait]
    change drainFrom 8 true [] s = s
    unfold drainFrom
    split
    · rfl
    · rw [hstream]
      dsimp only
      rw [hwait, hcopies, hnext]
      simp
  · rfl

theorem stays_endHold {s : State} (hheld : s.proc.held = []) (hspilled : s.proc.spilled = []) (hcopies : s.proc.copies = []) (hstream : s.proc.stream = none) :
    Stays s s.endHold := by
  have hretest := stays_endHold_retest s
  unfold State.endHold
  split
  · exact .refl s
  · obtain ⟨-, ⟨-, hh, hsp, hc, hst⟩⟩ := hretest.core
    dsimp only
    rw [retryBlocked_idle (hh ▸ hheld) (hsp ▸ hspilled) (hc ▸ hcopies) (hst ▸ hstream)]
    exact hretest

end Sys2Proof.Machine
end

section
/-! ## The thermal rules (R352, R353) -/

namespace Sys2Proof.Machine

/-- A core's process and registers stay, and so does what the thermal rules compare. -/
structure HeatKept (k l : Core) : Prop where
  stays : CoreStays k l := by exact {}
  temp : l.temp = k.temp := by rfl
  hot : l.hot = k.hot := by rfl
  trip : l.proc.trip = k.proc.trip := by rfl

/-- Every core's process, registers and heat are the same, and so are memory and the groups: what compares TEMP and asks for a move leaves them so. -/
structure Heats (s t : State) : Prop where
  mem : t.mem = s.mem := by rfl
  groups : t.groups = s.groups := by rfl
  cores : ∀ c, HeatKept (s.coreAt c) (t.coreAt c) := by exact fun _ => {}

theorem Heats.refl (s : State) : Heats s s := {}

theorem Heats.trans {s t u : State} (h : Heats s t) (h' : Heats t u) : Heats s u :=
  ⟨h'.mem.trans h.mem, h'.groups.trans h.groups, fun c => ⟨(h.cores c).stays.trans (h'.cores c).stays, (h'.cores c).temp.trans (h.cores c).temp,
    (h'.cores c).hot.trans (h.cores c).hot, (h'.cores c).trip.trans (h.cores c).trip⟩⟩

theorem heats_ite {s : State} (c : Prop) [Decidable c] {t u : State} (ht : Heats s t) (hu : Heats s u) : Heats s (if c then t else u) := by
  split
  · exact ht
  · exact hu

theorem MoreDue.heats {s t : State} (h : MoreDue s t) : Heats s t := by
  obtain ⟨l, -, rfl⟩ := h
  exact {}

theorem heats_setCoreAt (s : State) {c : Nat} {k : Core} (h : HeatKept (s.coreAt c) k) : Heats s (s.setCoreAt c k) := by
  refine ⟨mem_setCoreAt .., ?_, fun d => ?_⟩
  · unfold State.setCoreAt
    split <;> rfl
  · rw [coreAt_setCoreAt]
    split
    next hd => rw [hd]; exact h
    next => exact {}

theorem heats_core (s : State) {k : Core} (h : HeatKept s.core k) : Heats s { s with core := k } := by
  have hset := heats_setCoreAt s (c := s.here) (k := k) ((coreAt_here s).symm ▸ h)
  rwa [setCoreAt_here] at hset

theorem heats_focus (s : State) (c : Nat) : Heats s (s.focus c) := by
  refine ⟨mem_focus s c, ?_, fun d => by rw [coreAt_focus]; exact {}⟩
  unfold State.focus
  split <;> rfl

theorem heats_startMove (s : State) (kind : MoveKind) (c : Nat) : Heats s (s.startMove kind c) := by
  unfold State.startMove
  extract_lets m k s1 k1 s1a s2
  have h1 : Heats s s1 := heats_setCoreAt s {}
  have h1a : Heats s s1a := h1.trans (heats_ite _ (heats_core s1 {}) (.refl s1))
  have h2 : Heats s s2 := h1a.trans {}
  exact (h2.trans (heats_core s2 {})).trans ((moreDue_after ..).trans (moreDue_after ..)).heats

theorem heats_withholdFrom (s : State) : Heats s s.withholdFrom := {}

theorem heats_thermalFail (s : State) : Heats s s.thermalFail :=
  ((moreDue_after s 65536 _).heats.trans (heats_core _ (k := { s.core with thermRun := true }) {})).trans (heats_withholdFrom _)

theorem heats_raiseThermal (s : State) : Heats s s.raiseThermal := by
  unfold State.raiseThermal
  refine heats_ite _ (heats_thermalFail s) (heats_ite _ (moreDue_after ..).heats ?_)
  split
  · exact heats_startMove ..
  · exact heats_thermalFail s

theorem heats_compareTemp (s : State) : Heats s s.compareTemp := by
  unfold State.compareTemp
  refine heats_ite _ (.refl s) (heats_ite _ (heats_core s {}) (heats_ite _ ?_ (.refl s)))
  exact .trans (t := s.setProc { s.proc with armed := false }) (heats_core s {}) (heats_raiseThermal _)

theorem heats_returnSlots (s : State) : Heats s s.returnSlots :=
  heats_ite _ ((heats_core s (k := { s.core with thermRun := false }) {}).trans (heats_withholdFrom _)) (.refl s)

theorem here_returnSlots (s : State) : s.returnSlots.here = s.here ∧ s.returnSlots.core.proc = s.core.proc := by
  unfold State.returnSlots
  dsimp only
  split <;> exact ⟨rfl, rfl⟩

/-- A core whose TEMP is below TRIP - 80 is armed (R352). -/
theorem compareTemp_cool {s : State} (hocc : s.core.occupied = true) (h : s.core.temp.toInt < s.core.proc.trip.toInt - 80) :
    s.compareTemp = s.setProc { s.proc with armed := true } := by
  unfold State.compareTemp
  rw [hocc]
  exact if_pos h

theorem MoreDue.coreAt {s t : State} (h : MoreDue s t) (c : Nat) : t.coreAt c = s.coreAt c := by
  obtain ⟨l, -, rfl⟩ := h
  rfl

/-- The core that a sensor's value arrives at. -/
def State.sensed (s : State) (core : Nat) (temp : Word) : State :=
  { s.focus core with core := { (s.focus core).core with
      temp := temp, hot := decide (1760 ≤ temp.toInt) || ((s.focus core).core.hot && decide (1680 ≤ temp.toInt)) } }

theorem execSensorUpdate_eq (s : State) (core : Nat) (temp : Word) :
    ∃ t, exec (.sensorUpdate core temp) s = .next t ∧ MoreDue (s.sensed core temp).compareTemp.returnSlots t := by
  refine ⟨_, rfl, ?_⟩
  exact moreDue_ite _ (moreDue_askDispatch ..) (.refl _)

theorem coreAt_sensed (s : State) (core : Nat) (temp : Word) : (s.sensed core temp).coreAt core = (s.sensed core temp).core := if_pos (focus_core s core).2.symm

theorem sensorUpdate_heats (s : State) (core : Nat) (temp : Word) : Yields (exec (.sensorUpdate core temp) s) fun t =>
    (t.coreAt core).temp = temp ∧ t.mem = s.mem ∧ (t.coreAt core).hot = decide (1760 ≤ temp.toInt ∨ ((s.focus core).core.hot = true ∧ 1680 ≤ temp.toInt)) ∧
    ((s.focus core).core.occupied = true →
      temp.toInt < (if (s.focus core).core.occupied then (s.focus core).core.proc.trip.toInt else 1520) - 80 → (t.coreAt core).proc.armed = true) := by
  obtain ⟨t, ht, hmore⟩ := execSensorUpdate_eq s core temp
  have h : Heats (s.sensed core temp) t := ((heats_compareTemp _).trans (heats_returnSlots _)).trans hmore.heats
  have hc := h.cores core
  rw [coreAt_sensed] at hc
  refine ⟨t, ht, hc.temp, h.mem.trans (mem_focus s core), hc.hot.trans ?_, fun hocc hcool => ?_⟩
  · rw [Bool.decide_or, Bool.decide_and, Bool.decide_eq_true]
    rfl
  · rw [if_pos hocc] at hcool
    rw [hmore.coreAt, compareTemp_cool (s := s.sensed core temp) hocc hcool]
    obtain ⟨hhere, hproc⟩ := here_returnSlots ((s.sensed core temp).setProc { (s.sensed core temp).proc with armed := true })
    rw [State.coreAt, if_pos (hhere.trans (focus_core s core).2).symm, hproc]
    rfl

/-! ### Withheld slots (R353) -/

theorem slotWithholdStep_hot {s : State} {core : Nat} (hrun : (s.focus core).core.thermRun = true)
    (hhot : (s.focus core).core.tripInt ≤ (s.focus core).core.temp.toInt) : exec (.slotWithholdStep core) s =
      .next (({ s.focus core with core := { (s.focus core).core with thermWithheld := min 10 ((s.focus core).core.thermWithheld + 1) } } : State).after 4096
        (.slotWithholdStep core)) :=
  (if_pos hrun).trans (if_pos hhot)

theorem slotWithholdStep_cool {s : State} {core : Nat} (hrun : (s.focus core).core.thermRun = true)
    (hcool : (s.focus core).core.temp.toInt < (s.focus core).core.tripInt) :
    exec (.slotWithholdStep core) s = .next { s.focus core with core := { (s.focus core).core with thermRun := false } } :=
  (if_pos hrun).trans (if_neg (Int.not_le.mpr hcool))

theorem slotWithholdStep_returns {s : State} {core : Nat} (hrun : (s.focus core).core.thermRun = false) (hheld : 0 < (s.focus core).core.thermWithheld) :
    Yields (exec (.slotWithholdStep core) s) fun t =>
      t.core = { (s.focus core).core with thermWithheld := (s.focus core).core.thermWithheld - 1 } ∧ t.mem = s.mem ∧
      (1 < (s.focus core).core.thermWithheld → (s.cycle + 4096, .slotWithholdStep core) ∈ t.agenda) := by
  refine ⟨_, (if_neg (by rw [hrun]; decide)).trans (if_pos hheld), ?_⟩
  have hmore := moreDue_ite ((s.focus core).core.occupied = true)
    (moreDue_askDispatch { s.focus core with core := { (s.focus core).core with thermWithheld := (s.focus core).core.thermWithheld - 1 } } 1
      (s.focus core).core.proc.gid (s.focus core).core.proc.lid) (.refl _)
  obtain ⟨l, -, ht⟩ := hmore
  dsimp only
  rw [ht]
  split
  next h => exact ⟨rfl, mem_focus s core, fun h1 => absurd h h1.ne'⟩
  next =>
    refine ⟨rfl, mem_focus s core, fun _ => ?_⟩
    rw [← cycle_focus s core]
    exact due_after ..

/-! ### Requests of the thermal rules (R352, R353) -/

theorem execThermalRetryTimer_at {s : State} {gid lid core : Nat} (h : s.coreOf gid lid = some core) : exec (.thermalRetryTimer gid lid) s =
    if (s.focus core).proc.tripInt ≤ (s.focus core).core.temp.toInt ∧ !(s.focus core).proc.migp then .next (s.focus core).raiseThermal else .next (s.focus core) := by
  change execThermalRetryTimer gid lid s = _
  unfold execThermalRetryTimer
  rw [h]

theorem thermalRetryTimer_rests {s : State} {gid lid core : Nat} (h : s.coreOf gid lid = some core)
    (hrest : (s.focus core).core.proc.migp = true ∨ (s.focus core).core.temp.toInt < (s.focus core).core.proc.trip.toInt) :
    exec (.thermalRetryTimer gid lid) s = .next (s.focus core) := by
  rw [execThermalRetryTimer_at h]
  refine if_neg fun ⟨hhot, hfree⟩ => ?_
  obtain hmig | hcool := hrest
  · rw [State.proc, hmig] at hfree
    cases hfree
  · exact absurd hhot (Int.not_le.mpr hcool)

/-- A request of an anchored process fails: it is raised again later, and slots are withheld. -/
theorem raiseThermal_anchored {s : State} (h : s.core.proc.anch = true) :
    (s.cycle + 65536, .thermalRetryTimer s.core.proc.gid s.core.proc.lid) ∈ s.raiseThermal.agenda ∧ s.raiseThermal.core.thermRun = true ∧
      s.raiseThermal.moves = s.moves := by
  have hraise : s.raiseThermal = s.thermalFail := if_pos h
  rw [hraise]
  refine ⟨(mem_agendaPut ..).mpr (.inr (List.mem_filter.mpr ⟨due_after .., ?_⟩)), rfl, rfl⟩
  rw [bne_iff_ne]
  exact Instr.noConfusion

theorem thermalRetryTimer_anchored {s : State} {gid lid core : Nat} (h : s.coreOf gid lid = some core) (hg : (s.focus core).core.proc.gid = gid)
    (hl : (s.focus core).core.proc.lid = lid) (hfree : (s.focus core).core.proc.migp = false)
    (hhot : (s.focus core).core.proc.trip.toInt ≤ (s.focus core).core.temp.toInt) (hanch : (s.focus core).core.proc.anch = true) :
    Yields (exec (.thermalRetryTimer gid lid) s) fun t => (s.cycle + 65536, .thermalRetryTimer gid lid) ∈ t.agenda ∧ t.core.thermRun = true ∧ t.moves = s.moves := by
  refine ⟨_, (execThermalRetryTimer_at h).trans (if_pos ⟨hhot, by rw [State.proc, hfree]; rfl⟩), ?_⟩
  obtain ⟨hdue, hrun, hmoves⟩ := raiseThermal_anchored hanch
  rw [hg, hl, cycle_focus] at hdue
  exact ⟨hdue, hrun, hmoves.trans (rests_focus s core).fixed.moves⟩

theorem tripWrite_stored (s : State) (core : Nat) (v : Word) :
    Yields (exec (.tripWrite core v) s) fun t => (t.coreAt core).proc.trip = if 1520 < v.toInt then 1520#64 else v := by
  refine ⟨_, rfl, ?_⟩
  have h := ((heats_compareTemp ((s.focus core).setProc { (s.focus core).proc with trip := if 1520 < v.toInt then 1520#64 else v })).trans (heats_returnSlots _)).cores core
  refine h.trip.trans ?_
  have hcore := coreAt_here ((s.focus core).setProc { (s.focus core).proc with trip := if 1520 < v.toInt then 1520#64 else v })
  have hhere : ((s.focus core).setProc { (s.focus core).proc with trip := if 1520 < v.toInt then 1520#64 else v }).here = core := (focus_core s core).2
  rw [hhere] at hcore
  rw [hcore]
  rfl

end Sys2Proof.Machine
end

section
/-! ## Requests, holds and timeouts of moves (R345, R348, R361) -/

namespace Sys2Proof.Machine

/-- The entry of an id in a list in which that entry alone is changed, its id staying. -/
theorem find_map_move {l : List Move} {id : Nat} {m : Move} {f : Move → Move} (hf : ∀ x, (f x).id = x.id) (h : l.find? (fun x => x.id == id) = some m) :
    (l.map (fun x => if x.id == id then f x else x)).find? (fun x => x.id == id) = some (f m) := by
  rw [List.find?_map]
  have hsame : ((fun x : Move => x.id == id) ∘ fun x => if x.id == id then f x else x) = fun x => x.id == id := by
    funext x
    dsimp only [Function.comp]
    split
    · rw [hf]
    · rfl
  have hid : (m.id == id) = true := List.find?_some (p := fun x : Move => x.id == id) h
  rw [hsame, h]
  exact congrArg some (if_pos hid)

/-- A move whose request has reached a core. -/
def Move.arrived (c : Nat) (x : Move) : Move := { x with arrA := x.arrA || c == x.a, arrB := x.arrB || c == x.b }

/-- The process of a core is held for a move. -/
def State.heldFor (s : State) (c move : Nat) : State :=
  (s.mapMove move (Move.arrived c)).setCoreAt c { s.coreAt c with proc := (s.coreAt c).proc.setHold (some (.move move)) s.cycle }

theorem swapProposalArrival_eq {s : State} {move : Nat} {m : Move} (hfind : s.moves.find? (fun x => x.id == move) = some m)
    (hdbg : s.dbgHalted m.a = false) (hmov : (s.coreAt m.a).moving = some move) (hocc : (s.coreAt m.a).occupied = true)
    (hhold : (s.coreAt m.a).proc.hold = none) :
    exec (.swapProposalArrival move m.a) s = .next ((s.heldFor m.a move).after m.swto (.swapTimeout move m.a)) := by
  change execSwapProposalArrival move m.a s = _
  unfold execSwapProposalArrival
  rw [hfind]
  dsimp only
  rw [if_neg fun h => h.1 rfl, hdbg, if_neg (by decide), hmov]
  dsimp only
  rw [if_pos rfl, if_neg (by rw [hhold]; simp), if_pos (by rw [hocc, hhold]; rfl), ← hmov]
  rfl

theorem swapProposalArrival_holds {s : State} {move : Nat} {m : Move} (hfind : s.moves.find? (fun x => x.id == move) = some m)
    (hdbg : s.dbgHalted m.a = false) (hmov : (s.coreAt m.a).moving = some move) (hocc : (s.coreAt m.a).occupied = true)
    (hhold : (s.coreAt m.a).proc.hold = none) : Yields (exec (.swapProposalArrival move m.a) s) fun t =>
      (t.coreAt m.a).proc = { (s.coreAt m.a).proc with hold := some (.move move), holdAt := s.cycle } ∧
      (∃ x, t.moves.find? (fun x => x.id == move) = some x ∧ x.arrA = true) ∧ (s.cycle + m.swto, .swapTimeout move m.a) ∈ t.agenda := by
  have hcore : (s.heldFor m.a move).coreAt m.a = _ := (coreAt_setCoreAt ..).trans (if_pos rfl)
  have hmoves : (s.heldFor m.a move).moves = _ := moves_setCoreAt ..
  have hcycle : (s.heldFor m.a move).cycle = s.cycle := cycle_setCoreAt ..
  refine ⟨_, swapProposalArrival_eq hfind hdbg hmov hocc hhold, congrArg Core.proc hcore, ⟨m.arrived m.a, ?_, ?_⟩, hcycle ▸ due_after ..⟩
  · exact (congrArg (List.find? _) hmoves).trans (find_map_move (f := Move.arrived m.a) (fun _ => rfl) hfind)
  · exact (congrArg (_ || ·) (beq_self_eq_true _)).trans (Bool.or_true _)

theorem swapTransfer_begins {s : State} {move : Nat} {m : Move} (hfind : s.moves.find? (fun x => x.id == move) = some m)
    (hclus : clusterOf m.a = clusterOf m.b) (htr : m.transfer = false) (ha : s.sideReady m.a = true) (hb : s.sideReady m.b = true) :
    exec (.swapTransfer move) s = .next ((s.mapMove move (fun x => { x with transfer := true, began := s.cycle })).after
      (match m.kind with
        | .swap _ _ => 64 + (max (s.coreAt m.a).moveBytes (s.coreAt m.b).moveBytes + 63) / 64
        | _ => (max (s.coreAt m.a).moveBytes (s.coreAt m.b).moveBytes + 31) / 32 + transit m.a m.b) (.swapResume move)) := by
  change execSwapTransfer move s = _
  unfold execSwapTransfer
  rw [hfind]
  dsimp only
  rw [htr, ha, hb, hclus, bne_self_eq_false, if_neg (by decide), if_neg (by decide), if_neg (by decide)]
  dsimp only
  rw [Bool.false_and, if_neg (by decide), Nat.zero_add] <;> rfl

/-! ### Resolution of a proposal (R342) -/

theorem aunitOf_setAunit {s : State} {die idx : Nat} {u v : AUnit} (h : s.aunitOf die idx = some u) (hd : v.die = u.die) (hi : v.idx = u.idx) :
    (s.setAunit v).aunitOf die idx = some v := by
  have hu := List.find?_some (p := fun u : AUnit => u.die == die && u.idx == idx) h
  obtain ⟨hud, hui⟩ := Bool.and_eq_true_iff.mp hu
  rw [beq_iff_eq] at hud hui
  unfold State.aunitOf State.setAunit at *
  dsimp only
  rw [List.find?_map]
  have hsame : ((fun x : AUnit => x.die == die && x.idx == idx) ∘ fun x => if x.die == v.die && x.idx == v.idx then v else x) =
      fun x => x.die == die && x.idx == idx := by
    funext x
    dsimp only [Function.comp]
    split
    next hx =>
      rw [hd, hi, hud, hui] at hx
      rw [hd, hi, hud, hui, hx, beq_self_eq_true, beq_self_eq_true]
      rfl
    next => rfl
  rw [hsame, h]
  exact congrArg some (if_pos (by rw [hd, hi, beq_self_eq_true, beq_self_eq_true]; rfl))

/-- The moves are the same, and a unit's proposal has been resolved with a reason. -/
def ProposalOver (s : State) (die idx : Nat) (r : Reason) (t : State) : Prop :=
  t.moves = s.moves ∧ ∃ v, t.aunitOf die idx = some v ∧ v.reason = r ∧ v.inFlight = false

theorem ProposalOver.more {s t u : State} {die idx : Nat} {r : Reason} (h : ProposalOver s die idx r t) (hmore : MoreDue t u) : ProposalOver s die idx r u := by
  obtain ⟨l, -, rfl⟩ := hmore
  exact h

theorem moreDue_armTimer (s : State) (u : AUnit) : MoreDue s (s.armTimer u) := by
  unfold State.armTimer
  split
  · exact moreDue_ite _ (moreDue_afterOnce ..) (.refl s)
  · exact .refl s

theorem moreDue_dueNow (s : State) (u : AUnit) : MoreDue s (s.dueNow u) := moreDue_ite _ (moreDue_afterOnce ..) (moreDue_armTimer ..)

theorem resolved_setAunit {s : State} {die idx : Nat} {r : Reason} {u v : AUnit} (h : s.aunitOf die idx = some u) (hd : v.die = u.die) (hi : v.idx = u.idx)
    (hr : v.reason = r) (hf : v.inFlight = false) : ProposalOver s die idx r (s.setAunit v) :=
  ⟨rfl, v, aunitOf_setAunit h hd hi, hr, hf⟩

/-- A resolution in a unit that has been counted up. -/
theorem resolved_counted {s : State} {die idx : Nat} {r : Reason} {u v : AUnit} (h : s.aunitOf die idx = some u) (hd : v.die = u.die) (hi : v.idx = u.idx)
    (hr : v.reason = r) (hf : v.inFlight = false) (runs folds : Bool) : ProposalOver s die idx r
      (if !runs then (s.setAunit v).dropFold v
       else if folds then
         (match ((s.setAunit v).startFold v).aunitOf die idx with | some w => ((s.setAunit v).startFold v).armTimer w | none => (s.setAunit v).startFold v)
       else if v.fold.isSome then (s.setAunit v).armTimer v else (s.setAunit v).dueNow v) := by
  have hset := resolved_setAunit h hd hi hr hf
  have hagain {w : AUnit} (hwd : w.die = u.die) (hwi : w.idx = u.idx) (hwr : w.reason = r) (hwf : w.inFlight = false) :
      ProposalOver s die idx r ((s.setAunit v).setAunit w) :=
    ⟨rfl, w, aunitOf_setAunit (aunitOf_setAunit h hd hi) (hwd.trans hd.symm) (hwi.trans hi.symm), hwr, hwf⟩
  split
  · exact hagain (w := { v with fold := none }) hd hi hr hf
  · split
    · have hstart : ProposalOver s die idx r ((s.setAunit v).startFold v) :=
        (hagain (w := { v with fold := some [], foldFrom := s.cycle, foldAt := 0, wtsWas := v.wts, eWas := (s.setAunit v).energy v }) hd hi hr hf).more
          ((moreDue_after ..).trans (moreDue_after ..))
      split
      · exact hstart.more (moreDue_armTimer ..)
      · exact hstart
    · split
      · exact hset.more (moreDue_armTimer ..)
      · exact hset.more (moreDue_dueNow ..)

theorem resolveProposal_resolved {s : State} {die idx : Nat} (r : Reason) {u : AUnit} (h : s.aunitOf die idx = some u) :
    ProposalOver s die idx r (s.resolveProposal die idx r) := by
  unfold State.resolveProposal
  rw [h]
  dsimp -zeta only
  extract_lets u1 u2 runs sweep u3 s1
  have hcounted : u1.die = u.die ∧ u1.idx = u.idx := by
    unfold u1
    split
    · exact ⟨rfl, rfl⟩
    · split <;> exact ⟨rfl, rfl⟩
  have hswept : u3.die = u.die ∧ u3.idx = u.idx ∧ u3.reason = r ∧ u3.inFlight = false := by
    unfold u3
    split <;> exact ⟨hcounted.1, hcounted.2, rfl, rfl⟩
  exact resolved_counted h hswept.1 hswept.2.1 hswept.2.2.1 hswept.2.2.2 _ _

theorem fixed_leaveMove (s : State) (c id : Nat) : Fixed s (s.leaveMove c id) := by
  unfold State.leaveMove
  have hset := (stays_setCoreAt s (c := c) (k := { s.coreAt c with moving := if (s.coreAt c).moving = some id then none else (s.coreAt c).moving, reserved := false }) {}).fixed
  dsimp only
  split
  · exact (hset.trans (rests_focus ..).fixed).trans (fixed_endHold _)
  · exact hset

/-- A swap that takes too long ends without effect (R348). -/
theorem swapTimeout_swap {s : State} {move : Nat} {m : Move} (hfind : s.moves.find? (fun x => x.id == move) = some m) {die idx : Nat} {u : AUnit}
    (hkind : m.kind = .swap die idx) (hu : s.aunitOf die idx = some u) (htr : m.transfer = false) : Yields (exec (.swapTimeout move m.a) s) fun t =>
      (∀ x ∈ t.moves, x.id ≠ move) ∧ ∃ v, t.aunitOf die idx = some v ∧ v.reason = .timeout ∧ v.inFlight = false := by
  have hid : m.id = move := beq_iff_eq.mp (List.find?_some (p := fun x : Move => x.id == move) hfind)
  have hleft : Fixed { s with moves := s.moves.filter (fun x => x.id != m.id) }
      ((State.leaveMove { s with moves := s.moves.filter (fun x => x.id != m.id) } m.a m.id).leaveMove m.b m.id) := (fixed_leaveMove ..).trans (fixed_leaveMove ..)
  obtain ⟨hmoves, hres⟩ := resolveProposal_resolved .timeout ((congrArg (List.find? _) hleft.aunits).trans hu)
  refine ⟨State.resolveProposal _ die idx .timeout, ?_, fun x hx => ?_, hres⟩
  · change execSwapTimeout move m.a s = _
    unfold execSwapTimeout
    rw [hfind]
    dsimp only
    rw [htr, beq_self_eq_true, if_neg (by simp)]
    unfold State.abortMove
    rw [hkind]
  · rw [hmoves, hleft.moves] at hx
    rw [← hid]
    exact bne_iff_ne.mp (List.mem_filter.mp hx).2

theorem swapTimeout_late {s : State} {move : Nat} {m : Move} (hfind : s.moves.find? (fun x => x.id == move) = some m) (htr : m.transfer = true) :
    exec (.swapTimeout move m.a) s = .next s := by
  change execSwapTimeout move m.a s = _
  unfold execSwapTimeout
  rw [hfind]
  dsimp only
  rw [htr, Bool.true_or, if_pos rfl]

/-! ### Requests of a process (R361) -/

theorem startMove_core (s : State) (kind : MoveKind) {c : Nat} (h : c ≠ s.here) :
    (s.startMove kind c).here = s.here ∧ (s.startMove kind c).core.proc.migp = true ∧ (s.startMove kind c).core.slots = s.core.slots := by
  unfold State.startMove
  extract_lets m k s1 k1 s1a s2
  have h1 : s1.here = s.here ∧ s1.core.slots = s.core.slots := by
    unfold s1 State.setCoreAt
    rw [if_neg h]
    exact ⟨rfl, rfl⟩
  have h1a : s1a.here = s.here ∧ s1a.core.slots = s.core.slots := by
    unfold s1a
    split
    · exact h1
    · exact h1
  exact ⟨h1a.1, rfl, h1a.2⟩

/-- What a request's status does at its process: the thread goes on, and a move starts where a core is taken. -/
def State.migTold (s : State) (d : BitVec 5) (st : Nat × Option Nat) : State :=
  match st.2 with
  | some c => (s.unparkX d (BitVec.ofNat 64 st.1)).startMove .requested c
  | none => s.unparkX d (BitVec.ofNat 64 st.1)

theorem migrationRequestService_told {s : State} {core slot : Nat} {d : BitVec 5} {target : Word} (hw : (s.focusSlot core slot).thr.wait = some (.migreq d target))
    {st : Nat × Option Nat} (h : (s.focusSlot core slot).migStatus target = st) :
    exec (.migrationRequestService core slot) s = .next ((s.focusSlot core slot).migTold d st) := by
  subst h
  change execMigrationRequestService core slot s = _
  unfold execMigrationRequestService
  dsimp only
  rw [hw]
  rfl

theorem migStatus_anchored {s : State} (target : Word) (h : s.proc.anch = true) : s.migStatus target = (1, none) := if_pos h

theorem migStatus_pending {s : State} (target : Word) (ha : s.proc.anch = false) (h : s.proc.migp = true) : s.migStatus target = (3, none) := by
  unfold State.migStatus
  dsimp only
  rw [ha, h]
  rfl

theorem migStatus_taken {s : State} {target : Word} {c : Nat} (ha : s.proc.anch = false) (hp : s.proc.migp = false) (hr : s.groupRuns s.proc.gid = true)
    (ht : target ≠ BitVec.allOnes 64) (hc : s.proc.regionCore target = some c) (he : s.eligible none c = true) : s.migStatus target = (0, some c) := by
  unfold State.migStatus
  dsimp only
  rw [ha, hp, hr, if_neg (by decide), if_neg (by decide), if_neg (by decide), if_neg ht, hc]
  exact if_pos he

theorem eligible_free {s : State} {bound : Option Int} {c : Nat} (h : s.eligible bound c = true) : (s.coreAt c).occupied = false := by
  unfold State.eligible at h
  simp only [Bool.and_eq_true, Bool.not_eq_true'] at h
  exact h.1.1.1.1.1.1

theorem migrationRequestService_taken {s : State} {core slot : Nat} {d : BitVec 5} {target : Word} {c : Nat} (hslot : slot < 12)
    (hw : (s.focusSlot core slot).thr.wait = some (.migreq d target)) (h : (s.focusSlot core slot).migStatus target = (0, some c)) (hc : c ≠ core) :
    Yields (exec (.migrationRequestService core slot) s) fun t =>
      (∃ x, t.moves = s.moves ++ [x] ∧ x.kind = .requested ∧ x.a = core ∧ x.b = c ∧ x.transfer = false) ∧ (t.coreAt core).proc.migp = true ∧
      (t.thrAt core slot).wait = none ∧ (d ≠ 0#5 → (t.thrAt core slot).rx d = 0) := by
  refine ⟨_, migrationRequestService_told hw h, ?_⟩
  unfold State.migTold
  dsimp only
  have hthr := core_thr_slot ((s.focusSlot core slot).unparkX d (BitVec.ofNat 64 0))
  have hnum : ((s.focusSlot core slot).unparkX d (BitVec.ofNat 64 0)).slot.val = slot := Nat.mod_eq_of_lt hslot
  have hhere : ((s.focusSlot core slot).unparkX d (BitVec.ofNat 64 0)).here = core := (focus_core s core).2
  have hmoves : ((s.focusSlot core slot).unparkX d (BitVec.ofNat 64 0)).moves = s.moves := (rests_focus s core).fixed.moves
  replace hthr := hthr.trans (thr_setThr ..)
  rw [hnum] at hthr
  generalize (s.focusSlot core slot).unparkX d (BitVec.ofNat 64 0) = u at hthr hhere hmoves ⊢
  obtain ⟨hsame, hmigp, hslots⟩ := startMove_core u .requested (hhere.symm ▸ hc)
  have hat : (u.startMove .requested c).coreAt core = (u.startMove .requested c).core := if_pos (hsame.trans hhere).symm
  have hself : (u.startMove .requested c).thrAt core slot = ((s.focusSlot core slot).thr.wx d (BitVec.ofNat 64 0)).resumed := by
    unfold State.thrAt Core.thr at *
    rw [hat, hslots, hthr]
  refine ⟨⟨_, (startMove_moves ..).2.trans (congrArg (· ++ _) hmoves), rfl, hhere, rfl, rfl⟩, (congrArg (·.proc.migp) hat).trans hmigp, congrArg Thread.wait hself, fun hd => ?_⟩
  rw [hself, Thread.resumed]
  refine (rx_congr (x_advance _) d).trans ?_
  exact (rx_wx ..).trans (if_pos ⟨rfl, hd⟩)

end Sys2Proof.Machine
end

section
/-! ## The commit of a move (R346) -/

namespace Sys2Proof.Machine

/-- Every core's process, window and floating-point and vector registers are the same, and so are the groups. -/
structure CoresStay (s t : State) : Prop where
  groups : t.groups = s.groups := by rfl
  cores : ∀ c, CoreStays (s.coreAt c) (t.coreAt c) := by exact fun _ => {}

/-- Memory is the same besides. -/
structure Settles (s t : State) : Prop extends CoresStay s t where
  mem : t.mem = s.mem := by rfl

theorem CoresStay.trans {s t u : State} (h : CoresStay s t) (h' : CoresStay t u) : CoresStay s u :=
  ⟨h'.groups.trans h.groups, fun c => (h.cores c).trans (h'.cores c)⟩

theorem Settles.refl (s : State) : Settles s s := {}

theorem Settles.trans {s t u : State} (h : Settles s t) (h' : Settles t u) : Settles s u := ⟨h.toCoresStay.trans h'.toCoresStay, h'.mem.trans h.mem⟩

theorem Rests.settles {s t : State} (h : Rests s t) : Settles s t := ⟨⟨h.fixed.groups, h.cores⟩, h.mem⟩

theorem Heats.settles {s t : State} (h : Heats s t) : Settles s t := ⟨⟨h.groups, fun c => (h.cores c).stays⟩, h.mem⟩

/-! ### The exchange of two cores (Table 15.3) -/

theorem coreAt_trimSlots (s : State) (h c : Nat) : (s.trimSlots h).coreAt c = s.coreAt c ∧ (s.trimSlots h).mem = s.mem ∧ (s.trimSlots h).groups = s.groups ∧
    (s.trimSlots h).units = s.units := by
  unfold State.trimSlots
  dsimp only
  split <;> exact ⟨rfl, rfl, rfl, rfl⟩

/-- Memory, the groups and the units are the same, and a core is as given. -/
structure CoreIs (s : State) (c : Nat) (k : Core) (t : State) : Prop where
  core : t.coreAt c = k
  mem : t.mem = s.mem := by rfl
  groups : t.groups = s.groups := by rfl
  units : t.units = s.units := by rfl

theorem coreIs_setCoreAt (s : State) (c : Nat) (k : Core) : CoreIs s c k (s.setCoreAt c k) := by
  have hset : (s.setCoreAt c k).groups = s.groups ∧ (s.setCoreAt c k).units = s.units := by
    unfold State.setCoreAt
    split <;> exact ⟨rfl, rfl⟩
  exact ⟨(coreAt_setCoreAt ..).trans (if_pos rfl), mem_setCoreAt .., hset.1, hset.2⟩

theorem CoreIs.other {s t : State} {c : Nat} {k : Core} (h : CoreIs s c k t) {d : Nat} (hd : c ≠ d) (l : Core) : CoreIs s c k (t.setCoreAt d l) :=
  have hset := coreIs_setCoreAt t d l
  ⟨((coreAt_setCoreAt ..).trans (if_neg hd)).trans h.core, hset.mem.trans h.mem, hset.groups.trans h.groups, hset.units.trans h.units⟩

theorem CoreIs.again {s t : State} {c : Nat} {k : Core} (h : CoreIs s c k t) (l : Core) : CoreIs s c l (t.setCoreAt c l) :=
  have hset := coreIs_setCoreAt t c l
  ⟨hset.core, hset.mem.trans h.mem, hset.groups.trans h.groups, hset.units.trans h.units⟩

theorem CoreIs.trimSlots {s t : State} {c : Nat} {k : Core} (h : CoreIs s c k t) (d : Nat) : CoreIs s c k (t.trimSlots d) :=
  have htrim := coreAt_trimSlots t d c
  ⟨htrim.1.trans h.core, htrim.2.1.trans h.mem, htrim.2.2.1.trans h.groups, htrim.2.2.2.trans h.units⟩

theorem exchange_coreIs (s : State) {a b : Nat} (hab : a ≠ b) (began : Nat) :
    CoreIs s a (s.takeOver (s.coreAt a) (s.coreAt b) b began) (s.exchange a b began) ∧
      CoreIs s b (s.takeOver (s.coreAt b) (s.coreAt a) a began) (s.exchange a b began) := by
  unfold State.exchange
  extract_lets ka kb s1 other s2
  have ha : CoreIs s a (s.takeOver ka kb b began) s1 := (coreIs_setCoreAt ..).other hab _
  have hb : CoreIs s b (s.takeOver kb ka a began) s1 := ⟨(coreAt_setCoreAt ..).trans (if_pos rfl), ha.mem, ha.groups, ha.units⟩
  have ha2 : CoreIs s a (s.takeOver ka kb b began) s2 := ⟨ha.core, ha.mem, ha.groups, ha.units⟩
  have hb2 : CoreIs s b (s.takeOver kb ka a began) s2 := ⟨hb.core, hb.mem, hb.groups, hb.units⟩
  exact ⟨(ha2.trimSlots a).trimSlots b, (hb2.trimSlots a).trimSlots b⟩

theorem joinDomain_stays {s t : State} {c : Nat} {k : Core} (h : CoreIs s c k t) (a b : Nat) : ∃ l, CoreStays k l ∧ CoreIs s c l (t.joinDomain a b) := by
  unfold State.joinDomain
  extract_lets p dom k' s0 i s1
  split
  · exact ⟨k, {}, h⟩
  · by_cases hc : c = b
    · subst hc
      have hs0 : CoreIs s c { k' with occupied := false } s0 := h.again _
      have hs1 : CoreIs s c { k' with occupied := false } s1 := by
        unfold s1
        split
        · exact ⟨hs0.core, hs0.mem, hs0.groups, hs0.units⟩
        · exact hs0
      have hk : k' = k := h.core
      exact ⟨_, hk ▸ {}, hs1.again _⟩
    · have hs0 : CoreIs s c k s0 := h.other hc _
      have hs1 : CoreIs s c k s1 := by
        unfold s1
        split
        · exact ⟨hs0.core, hs0.mem, hs0.groups, hs0.units⟩
        · exact hs0
      exact ⟨k, {}, hs1.other hc _⟩

/-! ### Its placement entry (R332, R346) -/

theorem homeWrite_phys (s : State) (a v : Nat) : Settles { s with mem := s.mem.write a 8 v } (s.homeWrite (.phys a) 8 v (2 ^ 8 - 1)) := by
  unfold State.homeWrite
  have hpoke : (if decide ((2 ^ 8 - 1) % 2 ^ 8 = 2 ^ 8 - 1) = true then s.poke (.phys a) 8 v else s.pokeMask (.phys a) v (2 ^ 8 - 1) 8) =
      { s with mem := s.mem.write a 8 v } := if_pos (by decide)
  dsimp only
  rw [hpoke]
  refine .trans ?_ (keepsThreads_fireWatches (still := True) _ _).stays.settles
  split <;> exact {}

theorem setPlace_cores (s : State) (c gid lid mc : Nat) (res ended : Bool) (core : Nat) : CoresStay s (s.setPlace c gid lid mc res ended core) := by
  unfold State.setPlace
  split
  · unfold State.hardWrite
    dsimp only
    split
    · exact (keepsThreads_waitUnit (still := True) ..).stays.settles.toCoresStay
    · exact {}
    · exact .trans {} (homeWrite_phys ..).toCoresStay
  · exact {}

/-- CoreIs no unit away, an entry outside the vaults is written at once. -/
theorem setPlace_mem {s : State} {c gid lid a : Nat} (h : s.placeAt c gid lid = some a) (hu : s.units = []) (ht : paType a = 0) (mc : Nat) (res ended : Bool)
    (core : Nat) : (s.setPlace c gid lid mc res ended core).mem = s.mem.write a 8
      (mc % 2 ^ 16 * 2 ^ 48 + s.module.modid % 2 ^ 16 * 2 ^ 32 + (if res then 2 ^ 31 else 0) + (if ended then 2 ^ 30 else 0) + core % 2 ^ 12) := by
  have haway : s.awayIn (.phys a) 8 = none := List.find?_eq_none.mpr fun u _ => by unfold State.unitAway; rw [hu]; simp
  have hbank : s.bankBusy (.phys a) = none := by
    have hnone : bankOf (.phys a) = none := if_neg (by rw [ht]; decide)
    unfold State.bankBusy
    rw [hnone]
  unfold State.setPlace
  rw [h]
  dsimp only
  unfold State.hardWrite
  dsimp only
  rw [haway, hbank]
  exact (homeWrite_phys ..).mem

theorem placeAt_resident {s : State} {c gid lid : Nat} {g : Group} (hg : s.groupOf gid = some g) (hocc : (s.coreAt c).occupied = true)
    (hgid : (s.coreAt c).proc.gid = gid) : s.placeAt c gid lid = some ((s.coreAt c).proc.plbase.toNat + 8 * lid) := by
  have hid : g.gid = gid := beq_iff_eq.mp (List.find?_some (p := fun g : Group => g.gid == gid) hg)
  unfold State.placeAt
  rw [hg]
  unfold State.placeBase
  dsimp only [Option.map_some]
  rw [hocc, hgid, hid, beq_self_eq_true, Bool.true_and, if_pos rfl]

theorem publish_cores (s : State) (c d : Nat) : CoresStay s (s.publish c d) := by
  unfold State.publish
  dsimp only
  split
  · exact {}
  · exact (setPlace_cores ..).trans ((moreDue_after ..).trans (moreDue_after ..)).heats.settles.toCoresStay

theorem publish_empty {s : State} {c : Nat} (h : (s.coreAt c).occupied = false) (d : Nat) : s.publish c d = s := if_pos (by rw [h]; rfl)

/-- The fields of an entry: the core is its low 12 bits, the move count its high 16. -/
theorem entry_fields {A B c : Nat} (hA : A < 2 ^ 16) (hB : B < 2 ^ 16) (hc : c < 2 ^ 12) :
    (A * 2 ^ 48 + B * 2 ^ 32 + 2 ^ 31 + 0 + c) % 256 ^ 8 % 2 ^ 12 = c ∧ (A * 2 ^ 48 + B * 2 ^ 32 + 2 ^ 31 + 0 + c) % 256 ^ 8 / 2 ^ 48 = A := by
  constructor
  · have hlow : A * 2 ^ 48 + B * 2 ^ 32 + 2 ^ 31 + 0 + c = (A * 2 ^ 36 + B * 2 ^ 20 + 2 ^ 19) * 2 ^ 12 + c := by
      rw [Nat.add_zero, Nat.add_mul, Nat.add_mul, Nat.mul_assoc, Nat.mul_assoc, ← Nat.pow_add, ← Nat.pow_add, ← Nat.pow_add]
    rw [Nat.mod_mod_of_dvd _ (by decide : 2 ^ 12 ∣ 256 ^ 8), hlow, Nat.mul_add_mod', Nat.mod_eq_of_lt hc]
  · have hrest : B * 2 ^ 32 + (2 ^ 31 + (0 + c)) < 2 ^ 48 :=
      Nat.add_lt_add_of_le_of_lt (b := (2 ^ 16 - 1) * 2 ^ 32) (d := 2 ^ 32) (Nat.mul_le_mul_right _ (Nat.le_sub_one_of_lt hB))
        ((Nat.add_lt_add_left (Nat.zero_add c ▸ hc) _).trans_le (by decide))
    rw [Nat.add_assoc, Nat.add_assoc, Nat.add_assoc, Nat.add_comm]
    have hdiv : (B * 2 ^ 32 + (2 ^ 31 + (0 + c)) + A * 2 ^ 48) / 2 ^ 48 = A := by
      rw [Nat.add_mul_div_right _ _ (Nat.two_pow_pos _), Nat.div_eq_of_lt hrest, Nat.zero_add]
    have hmod := Nat.mod_mul_right_div_self (B * 2 ^ 32 + (2 ^ 31 + (0 + c)) + A * 2 ^ 48) (2 ^ 48) (2 ^ 16)
    rw [hdiv, Nat.mod_eq_of_lt hA] at hmod
    exact hmod

/-- What a core publishes names the core and its process's move count. -/
theorem publish_entry {s : State} {c : Nat} {g : Group} (hg : s.groupOf (s.coreAt c).proc.gid = some g) (hocc : (s.coreAt c).occupied = true)
    (hmem : s.mem.wf = true) (hu : s.units = []) (ht : paType ((s.coreAt c).proc.plbase.toNat + 8 * (s.coreAt c).proc.lid) = 0) (hc : c < 2 ^ 12) (d : Nat) :
    ∃ v, (s.publish c d).mem.read ((s.coreAt c).proc.plbase.toNat + 8 * (s.coreAt c).proc.lid) 8 = v ∧ v % 2 ^ 12 = c ∧
      v / 2 ^ 48 = (s.coreAt c).proc.mc % 2 ^ 16 := by
  have hmemory : (s.publish c d).mem = s.mem.write ((s.coreAt c).proc.plbase.toNat + 8 * (s.coreAt c).proc.lid) 8
      ((s.coreAt c).proc.mc % 2 ^ 16 * 2 ^ 48 + s.module.modid % 2 ^ 16 * 2 ^ 32 + 2 ^ 31 + 0 + c % 2 ^ 12) := by
    unfold State.publish
    dsimp only
    rw [if_neg (by rw [hocc]; decide)]
    exact setPlace_mem (placeAt_resident hg hocc rfl) hu ht ..
  refine ⟨_, rfl, ?_⟩
  rw [hmemory, read_write _ _ _ hmem]
  rw [Nat.mod_eq_of_lt hc]
  exact entry_fields (Nat.mod_lt _ (Nat.two_pow_pos _)) (Nat.mod_lt _ (Nat.two_pow_pos _)) hc

/-! ### What follows the exchange -/

theorem settles_armTimeouts (s : State) (c : Nat) : Settles s (s.armTimeouts c) := by
  refine (moreDue_foldl _ (fun s i => ?_) _ s).heats.settles
  cases (Core.thr _ i).wait with
  | none => exact .refl s
  | some w =>
    cases w with
    | waitm d dl =>
      cases dl with
      | none => exact .refl s
      | some due => exact moreDue_after ..
    | _ => exact .refl s

theorem sameRegs_takeRecord (t : Thread) (d : BitVec 5) (r : TrapRec) : SameRegs t (t.takeRecord d r) :=
  (((sameRegs_wx ..).trans (sameRegs_wx ..)).trans (sameRegs_wx ..)).trans (sameRegs_wx ..)

theorem stays_popRecord {s t : State} {r : TrapRec} (h : s.popRecord = some (r, t)) : Stays s t ∧ t.core.slots = s.core.slots := by
  unfold State.popRecord at h
  split at h
  · cases h
  next rest _ =>
    obtain rfl : { s with core := ({ s.core with trapQ := rest } : Core).refill } = t := (Prod.mk.inj (Option.some.inj h)).2
    exact ⟨stays_core {}, rfl⟩

theorem settles_serveTrget (s : State) : Settles s s.serveTrget := by
  unfold State.serveTrget
  extract_lets t
  cases t.wait with
  | none => exact .refl s
  | some w =>
    cases w with
    | trget d =>
      dsimp only
      split
      next r s1 hpop =>
        obtain ⟨hs1, hslots⟩ := stays_popRecord hpop
        have hthr : s1.core.thr 11 = t := by unfold t Core.thr; rw [hslots]
        have hregs : SameRegs (s1.core.thr 11) { (t.takeRecord d r).resumed with got := [] } :=
          hthr.symm ▸ ((sameRegs_takeRecord t d r).trans (sameRegs_resumed _)).trans {}
        exact (hs1.trans (stays_setThrHere s1 11 hregs)).settles
      next => exact .refl s
    | _ => exact .refl s

theorem settles_askAgain (s : State) : Settles s s.askAgain := by
  unfold State.askAgain
  cases (s.core.thr 11).wait with
  | none => exact .refl s
  | some w =>
    cases w with
    | precv d addr u => exact (stays_afterOnce ..).settles
    | _ => exact .refl s

theorem settles_leaveMove (s : State) (c id : Nat) (h : (s.coreAt c).occupied = true → (s.coreAt c).proc.held = [] ∧ (s.coreAt c).proc.spilled = [] ∧
    (s.coreAt c).proc.copies = [] ∧ (s.coreAt c).proc.stream = none) : Settles s (s.leaveMove c id) := by
  unfold State.leaveMove
  extract_lets k s1
  have hs1 : Stays s s1 := stays_setCoreAt s {}
  split
  next hheld =>
    obtain ⟨hh, hsp, hc, hst⟩ := h (Bool.and_eq_true_iff.mp hheld).1
    have hcore : (s1.focus c).core = { k with moving := if k.moving = some id then none else k.moving, reserved := false } :=
      (focus_core s1 c).1.trans ((coreAt_setCoreAt ..).trans (if_pos rfl))
    have hproc : (s1.focus c).proc = k.proc := by rw [State.proc, hcore]
    refine (hs1.settles.trans (rests_focus s1 c).settles).trans (stays_endHold ?_ ?_ ?_ ?_).settles
    · rw [hproc]; exact hh
    · rw [hproc]; exact hsp
    · rw [hproc]; exact hc
    · rw [hproc]; exact hst
  next => exact hs1.settles

theorem settles_migrationOver (s : State) (c : Nat) : Settles s (s.migrationOver c) := by
  unfold State.migrationOver
  refine (rests_focus s c).settles.trans (Heats.settles (heats_ite _ ?_ (.refl _)))
  exact (heats_core _ {}).trans (heats_compareTemp _)

/-- After the process of a core has been published, the commit of a requested move leaves it, memory and the groups as they are. -/
def State.afterCommit (s : State) (m : Move) : State :=
  let s5 := (s.armTimeouts m.a).armTimeouts m.b
  let s6 := ((s5.focus m.a).serveTrget.askAgain.focus m.b).serveTrget.askAgain
  let s7 := (s6.leaveMove m.a m.id).leaveMove m.b m.id
  ((((s7.focus m.a).compareTemp).returnSlots.focus m.b).compareTemp.returnSlots).migrationOver m.b

theorem settles_afterCommit {s : State} {m : Move} (ha : (s.coreAt m.a).occupied = false) (hh : (s.coreAt m.b).proc.held = [])
    (hsp : (s.coreAt m.b).proc.spilled = []) (hc : (s.coreAt m.b).proc.copies = []) (hst : (s.coreAt m.b).proc.stream = none) : Settles s (s.afterCommit m) := by
  unfold State.afterCommit
  extract_lets s5 s6 s7
  have h5 : Settles s s5 := (settles_armTimeouts ..).trans (settles_armTimeouts ..)
  have hserve (u : State) (c : Nat) : Settles u ((u.focus c).serveTrget.askAgain) :=
    ((rests_focus u c).settles.trans (settles_serveTrget _)).trans (settles_askAgain _)
  have h6 : Settles s s6 := (h5.trans (hserve s5 m.a)).trans (hserve _ m.b)
  have h6a : Settles s (s6.leaveMove m.a m.id) := h6.trans (settles_leaveMove _ _ _ fun h => absurd (((h6.cores m.a).occupied.trans ha).symm.trans h) (by decide))
  have h7 : Settles s s7 := h6a.trans (settles_leaveMove _ _ _ fun _ =>
    have hb := (h6a.cores m.b).bytes
    ⟨hb.held.trans hh, hb.spilled.trans hsp, hb.copies.trans hc, hb.stream.trans hst⟩)
  have hheat (u : State) (c : Nat) : Settles u ((u.focus c).compareTemp.returnSlots) :=
    ((heats_focus u c).trans ((heats_compareTemp _).trans (heats_returnSlots _))).settles
  exact ((h7.trans (hheat s7 m.a)).trans (hheat _ m.b)).trans (settles_migrationOver ..)

end Sys2Proof.Machine
end

section
/-! ## A requested move is committed (R346, R361), and O54 -/

namespace Sys2Proof.Machine

/-- What the commit of a requested move of the process on a core, to a free core of its cluster, does up to the publishing of the new place. -/
def State.exchanged (s : State) (m : Move) : State :=
  (({ s with moves := s.moves.filter (fun x => x.id != m.id) } : State).exchange m.a m.b m.began).joinDomain m.a m.b

theorem swapResume_eq {s : State} {move : Nat} {m : Move} (hfind : s.moves.find? (fun x => x.id == move) = some m) (hclus : clusterOf m.a = clusterOf m.b)
    (hkind : m.kind = .requested) (hocc : (s.coreAt m.a).occupied = true) :
    exec (.swapResume move) s = .next ((((s.exchanged m).publish m.a m.b).publish m.b m.a).afterCommit m) := by
  change execSwapResume move s = _
  unfold execSwapResume
  rw [hfind]
  dsimp only
  rw [if_pos (by rw [hclus, beq_self_eq_true, Bool.or_true])]
  unfold State.commitMove
  extract_lets ka s1 s2 s3 s4 s5 s6 s7 s8
  rw [hkind]
  have h3 : s3 = s.exchanged m := if_pos hocc
  unfold s8 s7 s6 s5 s4
  rw [h3]
  rfl

/-- The core that a process has come to. -/
theorem takeOver_taken (s : State) (here there : Core) (thereId began : Nat) (hocc : there.occupied = true) :
    (s.takeOver here there thereId began).occupied = true ∧ (s.takeOver here there thereId began).proc = there.proc.moved s.cycle began ∧
      ∀ i : Fin 12, i.val ≠ 11 → SameRegs there.slots[i] (s.takeOver here there thereId began).slots[i] := by
  refine ⟨hocc, if_pos hocc, fun i hi => ?_⟩
  have hslot : (s.takeOver here there thereId began).slots[i] = there.slots[i].moved s.cycle began := (Vector.getElem_ofFn ..).trans (if_neg hi)
  rw [hslot]
  exact {}

/-- After the exchange the process stands at the other core, with its window and its registers, its move count one higher. -/
theorem exchanged_cores {s : State} {m : Move} (hab : m.a ≠ m.b) : 
    (∃ k, CoreStays (s.takeOver (s.coreAt m.a) (s.coreAt m.b) m.b m.began) k ∧ CoreIs s m.a k (s.exchanged m)) ∧
    (∃ k, CoreStays (s.takeOver (s.coreAt m.b) (s.coreAt m.a) m.a m.began) k ∧ CoreIs s m.b k (s.exchanged m)) :=
  have hex := exchange_coreIs { s with moves := s.moves.filter (fun x => x.id != m.id) } hab m.began
  have hfrom {c : Nat} {k : Core} {t : State} (h : CoreIs { s with moves := s.moves.filter (fun x => x.id != m.id) } c k t) : CoreIs s c k t :=
    ⟨h.core, h.mem, h.groups, h.units⟩
  ⟨joinDomain_stays (hfrom hex.1) .., joinDomain_stays (hfrom hex.2) ..⟩

theorem swapResume_commits {s : State} {move : Nat} {m : Move} (hfind : s.moves.find? (fun x => x.id == move) = some m) (hab : m.a ≠ m.b)
    (hclus : clusterOf m.a = clusterOf m.b) (hkind : m.kind = .requested) (hocc : (s.coreAt m.a).occupied = true) (hfree : (s.coreAt m.b).occupied = false)
    (hh : (s.coreAt m.a).proc.held = []) (hsp : (s.coreAt m.a).proc.spilled = []) (hst : (s.coreAt m.a).proc.stream = none)
    (hc : (s.coreAt m.a).proc.copies = []) : ∃ t k, exec (.swapResume move) s = .next t ∧ CoreIs s m.b k (s.exchanged m) ∧
      CoreStays (s.takeOver (s.coreAt m.b) (s.coreAt m.a) m.a m.began) k ∧ (t.coreAt m.a).occupied = false ∧ CoreStays k (t.coreAt m.b) ∧
      t.groups = s.groups ∧ t.mem = ((s.exchanged m).publish m.b m.a).mem := by
  obtain ⟨⟨ka, hka, ha⟩, ⟨kb, hkb, hb⟩⟩ := exchanged_cores (s := s) hab
  have hempty : ((s.exchanged m).coreAt m.a).occupied = false := (congrArg Core.occupied ha.core).trans (hka.occupied.trans hfree)
  have hpub := publish_cores (s.exchanged m) m.b m.a
  have hbytes : WindowKept ((s.coreAt m.a).proc) (((s.exchanged m).publish m.b m.a).coreAt m.b).proc := by
    have hall := (hkb.trans (hb.core ▸ hpub.cores m.b)).bytes
    rw [(takeOver_taken s (s.coreAt m.b) (s.coreAt m.a) m.a m.began hocc).2.1] at hall
    exact ⟨hall.win, hall.held, hall.spilled, hall.copies, hall.stream⟩
  have hset := settles_afterCommit (s := (s.exchanged m).publish m.b m.a) (m := m) ((hpub.cores m.a).occupied.trans hempty) (hbytes.held.trans hh)
    (hbytes.spilled.trans hsp) (hbytes.copies.trans hc) (hbytes.stream.trans hst)
  refine ⟨_, kb, swapResume_eq hfind hclus hkind hocc, hb, hkb, ?_⟩
  rw [publish_empty hempty]
  exact ⟨(hset.cores m.a).occupied.trans ((hpub.cores m.a).occupied.trans hempty), hb.core ▸ (hpub.cores m.b).trans (hset.cores m.b),
    hset.groups.trans (hpub.groups.trans hb.groups), hset.mem⟩

/-- The placement entry names the new core, and the new move count. -/
theorem exchanged_entry {s t : State} {m : Move} {k : Core} (hat : CoreIs s m.b k (s.exchanged m))
    (hk : CoreStays (s.takeOver (s.coreAt m.b) (s.coreAt m.a) m.a m.began) k) (hocc : (s.coreAt m.a).occupied = true)
    (ht : CoreStays k (t.coreAt m.b)) (hgroups : t.groups = s.groups) (hmem : t.mem = ((s.exchanged m).publish m.b m.a).mem) (hwf : s.mem.wf = true)
    (hb : m.b < 2 ^ 12) {g : Group} (hg : s.groupOf (s.coreAt m.a).proc.gid = some g) (hu : s.units = [])
    (hpa : paType ((s.coreAt m.a).proc.plbase.toNat + 8 * (s.coreAt m.a).proc.lid) = 0) :
    t.placeEntry m.b (s.coreAt m.a).proc.gid (s.coreAt m.a).proc.lid % 2 ^ 12 = m.b ∧
      t.placeEntry m.b (s.coreAt m.a).proc.gid (s.coreAt m.a).proc.lid / 2 ^ 48 = ((s.coreAt m.a).proc.mc + 1) % 2 ^ 16 := by
  have hproc := (takeOver_taken s (s.coreAt m.b) (s.coreAt m.a) m.a m.began hocc).2.1
  have hwho := hk.who
  rw [hproc] at hwho
  have hgid : k.proc.gid = (s.coreAt m.a).proc.gid := hwho.gid
  have hlid : k.proc.lid = (s.coreAt m.a).proc.lid := hwho.lid
  have hpl : k.proc.plbase = (s.coreAt m.a).proc.plbase := hwho.plbase
  have hmc : k.proc.mc = ((s.coreAt m.a).proc.mc + 1) % 2 ^ 16 := hwho.mc
  have hcore := hat.core
  have hgr : (s.exchanged m).groupOf ((s.exchanged m).coreAt m.b).proc.gid = some g := by
    rw [hcore, hgid]
    exact (congrArg (List.find? _) hat.groups).trans hg
  obtain ⟨v, hv, hlow, hhigh⟩ := publish_entry hgr (by rw [hcore]; exact hk.occupied.trans hocc) (hat.mem ▸ hwf) (hat.units.trans hu)
    (by rw [hcore, hpl, hlid]; exact hpa) hb m.a
  have hplace : t.placeAt m.b (s.coreAt m.a).proc.gid (s.coreAt m.a).proc.lid = some ((s.coreAt m.a).proc.plbase.toNat + 8 * (s.coreAt m.a).proc.lid) := by
    rw [placeAt_resident ((congrArg (List.find? _) hgroups).trans hg) (ht.occupied.trans (hk.occupied.trans hocc)) (ht.who.gid.trans hgid), ht.who.plbase, hpl]
  have hentry : t.placeEntry m.b (s.coreAt m.a).proc.gid (s.coreAt m.a).proc.lid = v := by
    unfold State.placeEntry
    rw [hplace]
    rw [hcore, hpl, hlid, ← hmem] at hv
    exact hv
  rw [hentry]
  refine ⟨hlow, hhigh.trans ?_⟩
  rw [hcore, hmc, Nat.mod_mod]

end Sys2Proof.Machine

namespace Sys2Proof
open Machine

/-- Settles O54: what follows the exchange of two cores leaves the process there as it is (`settles_afterCommit`), and what the thermal rules do leaves
TEMP and TRIP (`Heats`). -/
theorem movesAndHeat : Obligations.MovesAndHeat := by
  unfold Obligations.MovesAndHeat
  refine ⟨fun s move m hfind hab hclus => ⟨fun hdbg hmov hocc hhold => ?_, fun htr ha hb => ?_, ?_, fun die idx u hkind hu htr => ?_, fun htr => ?_, ?_⟩,
    fun s core => ⟨fun temp => ?_, fun hrun hhot => ?_, fun hrun hcool => ?_, fun hrun hheld => ?_, fun gid lid hcore hg hl => ⟨fun hrest => ?_, fun hfree hhot hanch => ?_⟩,
      fun v => ?_⟩⟩
  · exact swapProposalArrival_holds hfind hdbg hmov hocc hhold
  · exact swapTransfer_begins hfind hclus htr ha hb
  · intro hkind hocc hfree hwf hh hsp hst hc hmc ha hb
    obtain ⟨t, k, hexec, hat, hk, hempty, ht, hgroups, hmem⟩ := swapResume_commits hfind hab hclus hkind hocc hfree hh hsp hst hc
    obtain ⟨-, hproc, hregs⟩ := takeOver_taken s (s.coreAt m.b) (s.coreAt m.a) m.a m.began hocc
    have hall := hk.trans ht
    have hwho := hall.who
    have hbytes := hall.bytes
    rw [hproc] at hwho hbytes
    refine ⟨t, hexec, hempty, hall.occupied.trans hocc, hwho.gid, hwho.lid, hbytes.win, hwho.mc, fun i hi => ?_, fun g hg hu hpa =>
      exchanged_entry hat hk hocc ht hgroups hmem hwf hb hg hu hpa⟩
    have hreg := hregs ⟨i, Nat.lt_succ_of_lt hi⟩ hi.ne
    have hthr (c : Core) : c.thr i = c.slots[(⟨i, Nat.lt_succ_of_lt hi⟩ : Fin 12)] := core_thr_fin c ⟨i, Nat.lt_succ_of_lt hi⟩
    rw [hthr, hthr]
    exact ⟨(hall.f _).trans hreg.f, (hall.v _).trans hreg.v⟩
  · exact swapTimeout_swap hfind hkind hu htr
  · exact swapTimeout_late hfind htr
  · intro core slot d target hslot hw
    refine ⟨fun hanch => ?_, fun hanch hmig => ?_, fun c hanch hmig hruns hocc ht hc hel => ?_⟩
    · exact migrationRequestService_told hw (migStatus_anchored target hanch)
    · exact migrationRequestService_told hw (migStatus_pending target hanch hmig)
    · have hgroups : (s.focusSlot core slot).groups = s.groups := (rests_focus s core).fixed.groups
      have hruns' : (s.focusSlot core slot).groupRuns (s.focusSlot core slot).proc.gid = true := by
        unfold State.groupRuns State.groupOf at *
        rw [hgroups]
        exact hruns
      refine migrationRequestService_taken hslot hw (migStatus_taken hanch hmig hruns' ht hc hel) fun hsame => ?_
      have hfree := eligible_free hel
      rw [hsame] at hfree
      have hhere : (s.focusSlot core slot).coreAt core = (s.focusSlot core slot).core := if_pos (focus_core s core).2.symm
      rw [hhere, hocc] at hfree
      cases hfree
  · exact sensorUpdate_heats s core temp
  · exact slotWithholdStep_hot hrun hhot
  · exact slotWithholdStep_cool hrun hcool
  · exact slotWithholdStep_returns hrun hheld
  · exact thermalRetryTimer_rests hcore hrest
  · exact thermalRetryTimer_anchored hcore hg hl hfree hhot hanch
  · exact tripWrite_stored s core v

end Sys2Proof
end
